-- ==== Sys2Proof/Word.lean ====
section
/-!
DEFINITION. The word types of the block: a byte of a memory, a 32-bit register word (R58) and the 64 bytes of a command entry's
parameters (R76), each a bit vector.
-/
namespace Sys2Proof

/-- One byte of the store, of the DRAM or of a packet. -/
abbrev Byte := BitVec 8

/-- One register word of window W0 (R58). -/
abbrev Word := BitVec 32

/-- Bytes 16-63 of a command entry, byte 16 in the lowest bits (R76: little-endian). -/
abbrev Params := BitVec 384

end Sys2Proof
end

