-- ==== Sys2Proof/Syntax.lean ====
section
/-!
DEFINITION. The commands of the block: one constructor per row of spec/opcode_table.json, and the data their operands carry. The
first operand `t` of every constructor is the time at which the command or event happens, in CK_DP periods since the power-on
reset (notes/assumptions/1.md). A ring command carries its whole entry (R76).
-/
namespace Sys2Proof

/-- A command entry as the device has read it (R76), with the command ring it came from; `params` is bytes 16-63. -/
structure Cmd where
  ring : Nat
  opcode : Nat
  flags : Nat
  tag : Nat
  handle : Nat
  actTick : Nat
  params : Params
deriving DecidableEq, Repr, Inhabited

/-- An access through a PCIe window (R57, R58): `len` bytes at `addr`, its byte enables all set or not, and for a write its data
(little-endian). `w4` sends an access of the row MALFORMED_ACCESS to W4, the MSI-X table and the pending-bit array, in place of W0
(notes/assumptions/7.md). -/
structure Access where
  w4 : Bool
  write : Bool
  addr : Nat
  len : Nat
  enables : Bool
  data : Nat
deriving DecidableEq, Repr, Inhabited

/-- What a register write reaches: a word of W0, a word of W4, or configuration space: the fields of Device Control, Device Control 2 and Link
Control of PF0 that the block holds, the MSI-X control bits, uncorrectable and correctable error status bits to be cleared, the error masks
and severities, the error reporting enables, the power state of PF0 or PF1, a retraining of the link with the speed and width that it ends in (R56, R57, R61-R64). -/
inductive RegTarget where
  | w0 (addr data : Nat)
  | w4 (addr data : Nat)
  | pcie (busMaster tag10 extTag : Bool) (maxReadRequest timeoutValue aspm : Nat)
  | msix (enable functionMask : Bool)
  | aer (clear cor : Nat)
  | aerControl (mask severity cor : Nat)
  | powerState (fn state : Nat)
  | reporting (enables : Nat)
  | retrain (speed width : Nat)
deriving DecidableEq, Repr, Inhabited

/-- Whose read gets no completion (R63): a PI read, an entry fetch, a CI read (kind 1 completion, 2 event), the source data of a
command in flight, or a read of a DMA channel. -/
inductive ReadUser where
  | pi (ring : Nat)
  | fetch (ring index : Nat)
  | ci (kind ring : Nat)
  | source (ring tag : Nat)
  | dma (channel : Nat)
deriving DecidableEq, Repr, Inhabited

/-- A 66-bit block before scrambling or after descrambling: control or data, and its 8 bytes (R284, R309). -/
structure Block where
  control : Bool
  bytes : List Byte
deriving DecidableEq, Repr, Inhabited

/-- A 66-bit block as a lane carries it: its sync header and 64 scrambled bits, bit 0 first on the line (R284, R309;
notes/assumptions/61.md). -/
structure LineBlock where
  header : BitVec 2
  line : BitVec 64
deriving DecidableEq, Repr, Inhabited

/-- The 48 coefficients, w and d of a pre-distortion model as the firmware computes them, in 1/65,536 of a coefficient's unit (R214, R217,
R243). -/
abbrev Coefs := List (Int × Int)

/-- The commands: one constructor for each row of the table, in the table's order. -/
inductive Instr where
  /-- NOP (R91). Immediate command that does nothing and completes with OK. -/
  | nop (t : Nat) (c : Cmd)
  /-- FENCE (R83). Immediate command that settles once every earlier command of the rings in its mask has settled. -/
  | fence (t : Nat) (c : Cmd)
  /-- CANCEL (R96). Removes every pending activation with the given ring, TAG and tick, subject to the lead time of R47. -/
  | cancel (t : Nat) (c : Cmd)
  /-- CFG_DIGEST (R90). Computes the SHA3-512 configuration digest and writes it to host memory. -/
  | cfgDigest (t : Nat) (c : Cmd)
  /-- ATTEST (R470). Forms, signs and writes the attestation report. -/
  | attest (t : Nat) (c : Cmd)
  /-- STORE_CLAIM (R103). Gives the store banks of BANK_MASK to the system, unless a handle owns one of them. -/
  | storeClaim (t : Nat) (c : Cmd)
  /-- STORE_RELEASE (R103). Returns the system-owned banks of BANK_MASK to nobody. -/
  | storeRelease (t : Nat) (c : Cmd)
  /-- CARRIER_CREATE (R159). Creates a carrier with its direction, slices, rate, response and NCO. -/
  | carrierCreate (t : Nat) (c : Cmd)
  /-- CARRIER_SET (R97). Checks and accepts or applies a change of NCO, rate or response of a carrier, immediate or scheduled. -/
  | carrierSet (t : Nat) (c : Cmd)
  /-- CARRIER_DESTROY (R105). Destroys a carrier, or completes with BUSY while a stream or weight set names it. -/
  | carrierDestroy (t : Nat) (c : Cmd)
  /-- STREAM_CREATE (R331). Creates a stream after the budget and partner checks, and sends its LEASE_GRANT. -/
  | streamCreate (t : Nat) (c : Cmd)
  /-- STREAM_DESTROY (R105). Stops and frees a stream, sends LEASE_REVOKE, and releases the carrier's active set after the last stream. -/
  | streamDestroy (t : Nat) (c : Cmd)
  /-- WS_CREATE (R120). Creates a weight set in a library or on-chip slot. -/
  | wsCreate (t : Nat) (c : Cmd)
  /-- WS_LOAD (R123). Loads a weight set into a staged bank or into its DRAM library slot. -/
  | wsLoad (t : Nat) (c : Cmd)
  /-- WS_ACTIVATE (R122). Checks columns, fill windows and library spacing, and accepts a scheduled weight-set activation. -/
  | wsActivate (t : Nat) (c : Cmd)
  /-- WS_DESTROY (R105). Frees a weight set unless it is in the active or shadow bank. -/
  | wsDestroy (t : Nat) (c : Cmd)
  /-- PATH_CORR (R135). Sets taper, phase and delay of a path's correction stage in one direction. -/
  | pathCorr (t : Nat) (c : Cmd)
  /-- RX_GAIN (R189). Accepts a scheduled analogue RX gain step for a path, or completes with BUSY while AUTO is 1. -/
  | rxGain (t : Nat) (c : Cmd)
  /-- CFR_SET (R174). Sets CFR enable and PAPR target of the paths in PATH_MASK. -/
  | cfrSet (t : Nat) (c : Cmd)
  /-- DC_LOAD (R198). Accepts a scheduled load of coarse and fine DC values for a path whose FREEZE is ALWAYS. -/
  | dcLoad (t : Nat) (c : Cmd)
  /-- LO_TUNE (R256). Accepts a scheduled retune of a synthesiser. -/
  | loTune (t : Nat) (c : Cmd)
  /-- LO_CAL (R258). Starts or schedules a full or fine calibration of synthesisers. -/
  | loCal (t : Nat) (c : Cmd)
  /-- POD_STATE (R265). Accepts a scheduled target state for the pods of POD_MASK. -/
  | podState (t : Nat) (c : Cmd)
  /-- FESB_WRITE (R277). Accepts a scheduled FE serial bus frame for a half. -/
  | fesbWrite (t : Nat) (c : Cmd)
  /-- TDD_SWAP (R42). Accepts a scheduled swap of the pattern bank at a period boundary. -/
  | tddSwap (t : Nat) (c : Cmd)
  /-- CAL_CREATE (R362). Creates a calibration job and claims its store banks. -/
  | calCreate (t : Nat) (c : Cmd)
  /-- CAL_START (R365). Accepts the start of a calibration job, checking its run window against others. -/
  | calStart (t : Nat) (c : Cmd)
  /-- CAL_DESTROY (R105). Destroys a calibration job and aborts it if it runs. -/
  | calDestroy (t : Nat) (c : Cmd)
  /-- CAP_CREATE (R102). Creates a capture job with its source, destination and length. -/
  | capCreate (t : Nat) (c : Cmd)
  /-- CAP_START (R233). Starts or schedules a capture job. -/
  | capStart (t : Nat) (c : Cmd)
  /-- CAP_DESTROY (R105). Destroys a capture job and stops a running capture. -/
  | capDestroy (t : Nat) (c : Cmd)
  /-- DPD_POLICY (R238). Sets mode, targets, rate, threshold and ORx share for the paths of PATH_MASK. -/
  | dpdPolicy (t : Nat) (c : Cmd)
  /-- DPD_COEF_LOAD (R225). Reads a coefficient block into a pending bank for a scheduled swap. -/
  | dpdCoefLoad (t : Nat) (c : Cmd)
  /-- DPD_DUMP (R226). Writes the live coefficient block of a path and bin to memory. -/
  | dpdDump (t : Nat) (c : Cmd)
  /-- BIAS_SET (R421). Writes code, step and interval into a DAC's pending set. -/
  | biasSet (t : Nat) (c : Cmd)
  /-- BIAS_STROBE (R422). Accepts a scheduled load strobe of strobe groups. -/
  | biasStrobe (t : Nat) (c : Cmd)
  /-- MON_SCAN (R428). Sets the scan of a monitor unit and restarts it at the next CK_HK edge. -/
  | monScan (t : Nat) (c : Cmd)
  /-- MON_URGENT (R431). Requests an urgent conversion of one monitor input. -/
  | monUrgent (t : Nat) (c : Cmd)
  /-- PWR_DOMAIN (R438). Switches power domains on or off in order. -/
  | pwrDomain (t : Nat) (c : Cmd)
  /-- LANE_STATE (R304). Moves lanes between L0, L1 and LD. -/
  | laneState (t : Nat) (c : Cmd)
  /-- CASC_DISCOVER (R341). Starts chain discovery on a lantern, setting E and sending CASC_ASSIGN. -/
  | cascDiscover (t : Nat) (c : Cmd)
  /-- FI_SET (R336). Installs a lane-level or packet-level fault injector in a slot. -/
  | fiSet (t : Nat) (c : Cmd)
  /-- FI_CLEAR (R337). Stops fault injector slots at once. -/
  | fiClear (t : Nat) (c : Cmd)
  /-- DMA_CREATE (R370). Creates a DMA channel with its program address and budget. -/
  | dmaCreate (t : Nat) (c : Cmd)
  /-- DMA_START (R371). Moves an IDLE or HALTED channel to RUNNING. -/
  | dmaStart (t : Nat) (c : Cmd)
  /-- DMA_STOP (R372). Halts a channel with CANCELLED according to its state. -/
  | dmaStop (t : Nat) (c : Cmd)
  /-- DMA_DESTROY (R105). Frees a DMA channel unless it runs. -/
  | dmaDestroy (t : Nat) (c : Cmd)
  /-- PARTNER_DESTROY (R330). Sends BYE, orphans the streams and frees the partner slot. -/
  | partnerDestroy (t : Nat) (c : Cmd)
  /-- SCHEDULED_ACTIVATION (R48). A pending activation reaches its tick and is applied, voided or fails. -/
  | scheduledActivation (t : Nat)
  /-- CARRIER_RESTART (R163). A rate or response change clears stages 2-6 of a carrier and resumes read-out on the new grid. -/
  | carrierRestart (t : Nat) (carrier : Nat)
  /-- UL_CARRIER_RESTART (R206). At T' + 40 the uplink stages of a carrier are cleared and incomplete layer samples are sent as pipped zeros. -/
  | ulCarrierRestart (t : Nat) (carrier : Nat)
  /-- RING_POLL (R71). Poll of the command rings, started by the poll interval or a KICK, issuing PI reads. -/
  | ringPoll (t : Nat)
  /-- KICK (R71). A write to HOST.KICK starts a poll at once or one more poll after the running one. -/
  | kick (t : Nat)
  /-- PI_READ_COMPLETE (R72). The PI word of a command ring arrives and the device issues fetches of new entries. -/
  | piReadComplete (t : Nat) (ring pi : Nat)
  /-- ENTRY_FETCH_COMPLETE (R72). Command entries arrive, giving their arrival tick, and the device writes CI. -/
  | entryFetchComplete (t : Nat) (ring index : Nat) (entries : List Byte)
  /-- CI_READ_COMPLETE (R74). The CI word of a full completion or event ring arrives and waiting entries are written. -/
  | ciReadComplete (t : Nat) (kind ring ci : Nat)
  /-- READ_COMPLETION_TIMEOUT (R63). A device read gets no completion in time, or completes with UR or CA, and its user handles the fault. -/
  | readCompletionTimeout (t : Nat) (user : ReadUser) (abort : Bool)
  /-- COMPLETION_WRITE (R85). A completion is written with its PI word and, when due, an MSI-X message. -/
  | completionWrite (t : Nat) (cq : Nat)
  /-- COMPLETION_BACKLOG_DRAIN (R81). Room returns in a completion ring and backlogged completions are written in order. -/
  | completionBacklogDrain (t : Nat) (ring : Nat)
  /-- EVENT_QUEUE_DRAIN (R82). Room returns in an event ring and queued events are written. -/
  | eventQueueDrain (t : Nat) (ring : Nat)
  /-- MSIX_MODERATION_EXPIRY (R65). MOD_DELAY runs out after the first unsignalled entry and the ring's vector is sent. -/
  | msixModerationExpiry (t : Nat) (kind ring : Nat)
  /-- RING_CTRL_WRITE (R68). A write of a ring's CTRL enables it with zeroed indices, refuses it, or disables it. -/
  | ringCtrlWrite (t : Nat) (kind ring data : Nat)
  /-- FUNCTION_LEVEL_RESET (R61). A function level reset of PF0 resets the HOST block and empties the backlog and event queue. -/
  | functionLevelReset (t : Nat)
  /-- PF1_FUNCTION_LEVEL_RESET (R61). A function level reset of PF1 resets only PF1's configuration space. -/
  | pf1FunctionLevelReset (t : Nat)
  /-- MALFORMED_ACCESS (R58). A malformed W0 access discards its data, reads all ones and counts in ACCESS_ERR. -/
  | malformedAccess (t : Nat) (access : Access)
  /-- W2_ACCESS (R59). An access through W2 reaches store or DRAM, or misses and sets MISS. -/
  | w2Access (t : Nat) (access : Access)
  /-- PF1_READ (R60). A PF1 read returns counters while COUNTER_EXPOSE is 1 and zero otherwise. -/
  | pf1Read (t : Nat) (access : Access)
  /-- REGISTER_WRITE (R500). A write to a register field without behaviour of its own, counted under R89. -/
  | registerWrite (t : Nat) (target : RegTarget)
  /-- ROOT_EN_WRITE (R506). Setting ROOT_EN starts the root PLL; clearing it stops the PLL and clears TICK_VALID. -/
  | rootEnWrite (t : Nat) (data : Nat)
  /-- LANE_EN_WRITE (R28). Setting or clearing LANE_EN switches the lane PLL. -/
  | laneEnWrite (t : Nat) (data : Nat)
  /-- ROOT_PLL_LOCK (R506). The root PLL locks and the tick counter starts from 0. -/
  | rootPllLock (t : Nat)
  /-- LANE_PLL_LOCK (R285). The lane PLL locks and enabled lanes start transmitting and searching. -/
  | lanePllLock (t : Nat)
  /-- CLOCK_UNLOCK (R29). The root or lane PLL loses lock; UNLOCK_STICKY is set and CLOCK_UNLOCK posted. -/
  | clockUnlock (t : Nat) (pll : Nat)
  /-- PLL_RELOCK (R29). A PLL regains lock with no event and no change. -/
  | pllRelock (t : Nat) (pll : Nat)
  /-- SYNC_ARM (R507). Writing ARM sets ARMED so that the next APPLY-mode SYNC event is applied. -/
  | syncArm (t : Nat) (data : Nat)
  /-- SYNC_EVENT (R507). A rising SYNC_IN level is captured at a REFCLK edge and handled by the mode in force. -/
  | syncEvent (t : Nat)
  /-- SYNC_APPLIED (R32). At the load tick the counter takes SYNC_VALUE, dividers and filters reset, and pending activations are flushed. -/
  | syncApplied (t : Nat)
  /-- SYNC_CHECK (R35). At the load tick a CHECK-mode event is compared with the counter and a mismatch is posted. -/
  | syncCheck (t : Nat)
  /-- SYNC_OUT_SCHEDULED (R508). The counter reaches SYNC_OUT_TICK and SYNC_OUT is driven, then the register is cleared to all ones. -/
  | syncOutScheduled (t : Nat)
  /-- PATTERN_TABLE_START (R42). Once its conditions hold, the pattern table starts with bank 0 at a period boundary. -/
  | patternTableStart (t : Nat)
  /-- PATTERN_TABLE_STOP (R503). The pattern table stops when ENABLE is cleared, TICK_VALID falls or the running bank becomes invalid. -/
  | patternTableStop (t : Nat)
  /-- TDD_ENTRY_WRITE (R43). A write to the active bank takes effect at once as an untimed change. -/
  | tddEntryWrite (t : Nat) (bank entry data : Nat)
  /-- FRAME_BOUNDARY (R109). At each frame boundary, DL_LATE is posted for each stream with late or missing slots. -/
  | frameBoundary (t : Nat)
  /-- ADAPTIVE_SWAP_REQUEST (R53). An adaptive swap is scheduled, with its ADAPT_SWAP event and log entry queued, or refused with SWAP_LOG_FULL. -/
  | adaptiveSwapRequest (t : Nat) (path kind bin gain tick : Nat) (better : Bool) (base : Option Coefs) (data : Coefs)
  /-- ADAPTIVE_SWAP (R53). A logged adaptive swap of DPD set, DC values or RX gain takes effect at its swap tick. -/
  | adaptiveSwap (t : Nat)
  /-- PREFETCH_START (R127). At T - 49,152 the fetch of a library weight set into the shadow bank starts. -/
  | prefetchStart (t : Nat) (carrier dir : Nat)
  /-- PREFETCH_COMPLETE (R127). A library fetch completes inside its window. -/
  | prefetchComplete (t : Nat) (carrier dir : Nat)
  /-- DRAM_PREFETCH_LATE (R130). At T - 4,096 an incomplete fetch has failed and DRAM_PREFETCH_LATE is posted. -/
  | dramPrefetchLate (t : Nat) (carrier dir : Nat)
  /-- STAGED_COPY_START (R127). At T - 4,096 the copy of an on-chip-only set into the shadow bank starts. -/
  | stagedCopyStart (t : Nat) (carrier dir : Nat)
  /-- WEIGHT_SET_SWAP (R131). The new set applies from slice block B onward. -/
  | weightSetSwap (t : Nat) (carrier dir : Nat)
  /-- OLD_SET_FREED (R131). At B + 7SK the old set's columns in the active bank are freed. -/
  | oldSetFreed (t : Nat) (carrier dir : Nat)
  /-- CORR_WRITE (R135). A write to BEAM.CORR sets correction values at once as an untimed change. -/
  | corrWrite (t : Nat) (path dir word data : Nat)
  /-- DL_PACKET_ARRIVAL (R155). A DATA_DL packet that passed R320 is tested for alignment, earliness, deadline and duplicates and written. -/
  | dlPacketArrival (t : Nat)
  /-- SLOT_DECIDED (R157). At the read-out of its last sample a slot is decided written, late or missing. -/
  | slotDecided (t : Nat) (stream first : Nat)
  /-- ECHO_RECORD (R181). After a slot has passed every DAC output its echo record falls due. -/
  | echoRecord (t : Nat) (stream first : Nat)
  /-- ECHO (R332). Every 16,384 ticks the due echo records are sent to each partner in ECHO messages. -/
  | echo (t : Nat)
  /-- TXP_CTRL_WRITE (R177). A change of TXP EN drives DAC code 0 and clears stages 5-12, or restarts them. -/
  | txpCtrlWrite (t : Nat) (path data : Nat)
  /-- RXP_CTRL_WRITE (R185). A change of RXP EN zeroes the path and clears its stages, or restarts it and resets the DC loops. -/
  | rxpCtrlWrite (t : Nat) (path data : Nat)
  /-- GAIN_CONTROL_STEP (R191). Firmware gain control chooses an RX gain step and requests it as an adaptive swap. -/
  | gainControlStep (t : Nat) (path gain tick : Nat)
  /-- DC_WINDOW_END (R195). A measured DC window ends and the loop computes a fine or coarse swap. -/
  | dcWindowEnd (t : Nat) (path : Nat)
  /-- DC_RESET (R196). A DC-loop reset sets C and F to 0 at the next window start and begins acquisition. -/
  | dcReset (t : Nat) (path : Nat)
  /-- UL_PACKET_QUEUED (R322). A DATA_UL packet is formed and queued at its queue tick. -/
  | ulPacketQueued (t : Nat) (stream first : Nat)
  /-- PACKET_SEND (R322). The port starts sending the next queued packet in priority order. -/
  | packetSend (t : Nat) (port : Nat)
  /-- PACKET_OVERRUN (R301). A packet that cannot start within 32,768 ticks of queueing is discarded. -/
  | packetOverrun (t : Nat) (port : Nat)
  /-- DPD_TERM_WRITE (R216). A write to a basis term resets every bank to the bypass block. -/
  | dpdTermWrite (t : Nat) (k data : Nat)
  /-- DPD_SLOT_START (R240). A DPD or monitor slot of an ORx starts and the serving path is chosen. -/
  | dpdSlotStart (t : Nat) (orx : Nat)
  /-- DPD_CAPTURE_START (R241). A DPD capture starts at the first fitting candidate tick. -/
  | dpdCaptureStart (t : Nat) (orx : Nat)
  /-- DPD_CAPTURE_END (R243). A DPD capture completes and the firmware starts its solve. -/
  | dpdCaptureEnd (t : Nat) (orx : Nat)
  /-- DPD_SOLVE_DONE (R243). The firmware finishes a solve and schedules or drops the swap. -/
  | dpdSolveDone (t : Nat) (path bin : Nat) (better : Bool) (base : Option Coefs) (data : Coefs)
  /-- SPECTRUM_MONITOR_CAPTURE (R247). In a monitor slot the firmware captures a path and updates its ACLR and EVM estimates. -/
  | spectrumMonitorCapture (t : Nat) (orx path aclr evm : Nat)
  /-- CAPTURE_START (R233). A host capture starts at the first sample at or after its tick. -/
  | captureStart (t : Nat) (job : Nat)
  /-- CAPTURE_DONE (R233). A capture ends, by completion, a full buffer, pre-emption or destruction, and CAPTURE_DONE is posted. -/
  | captureDone (t : Nat) (job written : Nat)
  /-- LO_LOCKED (R256). A synthesiser is detected in lock and LO_LOCKED is posted. -/
  | loLocked (t : Nat) (synth : Nat)
  /-- LO_LOSS_OF_LOCK (R262). LO-T loses lock while a TX output is enabled and LO_UNLOCKED_TX is posted. -/
  | loLossOfLock (t : Nat) (synth : Nat)
  /-- LO_CAL_DONE (R258). A synthesiser calibration ends and LO_CAL_DONE is posted. -/
  | loCalDone (t : Nat) (synth : Nat) (failed : Bool)
  /-- CALIBRATION_GAP_START (R41). A declared calibration gap starts and pending temperature calibrations that fit start. -/
  | calibrationGapStart (t : Nat)
  /-- LADDER_STEP_END (R264). A pod's ladder step ends, the next step starts or POD_STATE_REACHED is posted. -/
  | ladderStepEnd (t : Nat)
  /-- PATTERN_TURNAROUND (R267). A pod in PATTERN starts a turnaround or step at the span that the pattern fixes. -/
  | patternTurnaround (t : Nat)
  /-- FE_PIN_EDGE (R270). A front-end pin edge falls due and the pins of the pod's paths take the new code. -/
  | fePinEdge (t : Nat) (pod : Nat)
  /-- FESB_FRAME_START (R275). The chip select falls and the FE serial frame begins. -/
  | fesbFrameStart (t : Nat) (half : Nat)
  /-- FESB_FRAME_END (R276). The chip select rises at T and the received bits are placed in RDATA. -/
  | fesbFrameEnd (t : Nat) (half bits : Nat)
  /-- COEX_GNT_I_SEEN (R279). A change of COEX_GNT_I is seen and an emitting job starts waiting for emission or is aborted. -/
  | coexGntISeen (t : Nat) (level : Bool)
  /-- COEX_REQ_I_SEEN (R280). A change of COEX_REQ_I is seen and COEX_GNT_O is raised, deferred or lowered. -/
  | coexReqISeen (t : Nat) (level : Bool)
  /-- GRANT_WAIT_EXPIRY (R279). No grant comes within GRANT_WAIT and the job ends with CAL_DONE RESULT 1. -/
  | grantWaitExpiry (t : Nat) (job : Nat)
  /-- CAL_EMISSION_START (R279). START_DELAY after the grant, the job starts emitting its candle steps. -/
  | calEmissionStart (t : Nat) (job : Nat)
  /-- CAL_STEP_END (R363). A candle step ends and its records are written. -/
  | calStepEnd (t : Nat) (job : Nat) (meas : List (Nat × Nat × Nat × Nat))
  /-- CAL_DONE (R364). A calibration job ends and CAL_DONE is posted. -/
  | calDone (t : Nat) (job : Nat)
  /-- ORX_IMAGE_CAL_END (R230). A KIND 2 job ends after 2 ms and writes ORX IRC. -/
  | orxImageCalEnd (t : Nat) (job : Nat) (found : List (Nat × Nat))
  /-- SLIP (R288). Writing SLIP moves the receive block boundary one bit and clears SH_ERR. -/
  | slip (t : Nat) (port lane data : Nat)
  /-- RESTART (R289). Writing RESTART clears DEAD, sets POS to 0 and starts the search. -/
  | restart (t : Nat) (port lane data : Nat)
  /-- BLOCK_LOCK (R287). A lane sees 64 valid sync headers and posts LANE_LOCKED. -/
  | blockLock (t : Nat) (port lane nat : Nat)
  /-- BLOCK_LOCK_LOSS (R287). A lane loses block lock and restarts its search. -/
  | blockLockLoss (t : Nat) (port lane nat : Nat) (signal : Bool)
  /-- LANE_DEAD (R290). A search reaches S + 66 x D without lock and the lane is marked DEAD. -/
  | laneDead (t : Nat) (port lane : Nat) (signal : Bool)
  /-- MARKER_SEND (R294). A port sends an alignment marker with its own mask and updates its transmit set. -/
  | markerSend (t : Nat) (port : Nat)
  /-- MARKER_RECEIVE (R292). A lane receives a marker that aligns it, updates the far mask and receive set, and is tested for latency. -/
  | markerReceive (t : Nat) (port lane : Nat) (before line : BitVec 64)
  /-- LANE_POWER_ENTRY (R304). After two further markers a lane enters L1 or LD. -/
  | lanePowerEntry (t : Nat) (port lane : Nat)
  /-- LANE_POWER_EXIT_END (R305). A lane's exit to L0 completes and it sends idles and markers again. -/
  | lanePowerExitEnd (t : Nat) (port lane : Nat)
  /-- LANE_DOWN_END (R307). An injected lane-down ends and the lane resumes. -/
  | laneDownEnd (t : Nat) (port slot : Nat)
  /-- EQUALISER_ADAPT_STEP (R302). The adaptation loop moves peaking by one step. -/
  | equaliserAdaptStep (t : Nat) (port lane : Nat) (up : Bool)
  /-- LANE_LOOP_WRITE (R303). A change of LOOP or PAM4 restarts the lane search. -/
  | laneLoopWrite (t : Nat) (port : Nat) (lane : Option Nat) (data : Nat)
  /-- PACKET_RECEIVE (R320). A received packet is checked in order and passed on or dropped. -/
  | packetReceive (t : Nat) (port first : Nat) (lanes : List (List LineBlock))
  /-- HELLO (R324). A HELLO creates a partner and sends WELCOME, resends WELCOME, or is refused. -/
  | hello (t : Nat)
  /-- KEEPALIVE_RECEIVE (R327). A CTRL or TIME packet from a partner renews it. -/
  | keepaliveReceive (t : Nat)
  /-- LEASE_ACK (R326). A LEASE_ACK marks the stream's lease acknowledged. -/
  | leaseAck (t : Nat)
  /-- BYE (R327). A BYE from a partner makes it LOST and orphans its streams. -/
  | bye (t : Nat)
  /-- PARTNER_TIME_RECEIVE (R333). A partner's TIME packet is recorded. -/
  | partnerTimeReceive (t : Nat)
  /-- KEEPALIVE (R327). At each multiple of 983,040 ticks KEEPALIVE and pending LEASE_GRANTs are sent to each JOINED partner. -/
  | keepalive (t : Nat)
  /-- TIME_SEND (R333). A TIME packet is sent to each JOINED partner after the KEEPALIVE. -/
  | timeSend (t : Nat)
  /-- PARTNER_LOST (R327). The keepalive limit expires, the partner becomes LOST and its streams are orphaned. -/
  | partnerLost (t : Nat) (partner : Nat)
  /-- ORPHAN_TIMEOUT (R329). An orphan's lifetime expires, it is destroyed and ORPHAN_DESTROYED posted. -/
  | orphanTimeout (t : Nat) (stream : Nat)
  /-- REORDER_HOLD_EXPIRY (R336). A packet held by a reorder injector is sent after 32,768 ticks. -/
  | reorderHoldExpiry (t : Nat) (port slot : Nat)
  /-- CASC_ASSIGN (R341). A member receives CASC_ASSIGN, takes an index from E and relays it. -/
  | cascAssign (t : Nat)
  /-- CASC_REPORT (R342). The lantern receives CASC_REPORT and updates LAST and COMMON. -/
  | cascReport (t : Nat)
  /-- CASC_ASSIGN_PERIODIC (R342). Every 983,040 ticks the lantern sends CASC_ASSIGN and members send CASC_REPORT. -/
  | cascAssignPeriodic (t : Nat)
  /-- CHAIN_E_REACHED (R342). At E the new assignment takes effect and CHAIN_CHANGED is posted when the count changes. -/
  | chainEReached (t : Nat)
  /-- CASC_DISCOVER_DONE (R341). LAST stays stable for 98,304 ticks or 983,040 ticks pass and discovery completes. -/
  | cascDiscoverDone (t : Nat)
  /-- CASC_SUM_ORIGINATE (R351). At q the last member originates a CASC_SUM with its own contribution. -/
  | cascSumOriginate (t : Nat) (stream first : Nat)
  /-- CASC_SUM_LATE (R351). A CASC_SUM that cannot start by q + UL_ALLOW is discarded. -/
  | cascSumLate (t : Nat)
  /-- CASC_SUM_PASS (R351). A member adds its contribution to a received CASC_SUM and sends it on after 256 ticks. -/
  | cascSumPass (t : Nat)
  /-- CASC_COMBINE (R354). At Z the lantern combines the CASC_SUM with its own contribution and synthesises the layers. -/
  | cascCombine (t : Nat) (stream first : Nat)
  /-- CASCADE_TIME_RECEIVE (R361). A TIME packet on the parent port gives the offset to the parent. -/
  | cascadeTimeReceive (t : Nat)
  /-- MOVE (R378). DMA instruction that copies LENGTH bytes from source to destination. -/
  | move (t : Nat) (channel : Nat)
  /-- FILL (R379). DMA instruction that writes a 32-bit pattern over a region. -/
  | fill (t : Nat) (channel : Nat)
  /-- CMP (R380). DMA instruction that compares a region with a pattern or another region. -/
  | cmp (t : Nat) (channel : Nat)
  /-- LOOP (R381). DMA instruction that repeats a block through the loop stack. -/
  | loop (t : Nat) (channel : Nat)
  /-- WAIT (R387). DMA instruction that waits for an event bit, a tick, a peripheral request or PARK. -/
  | wait (t : Nat) (channel : Nat)
  /-- WAIT_END (R387). The condition of a WAIT holds and the channel continues. -/
  | waitEnd (t : Nat) (channel : Nat)
  /-- SIGNAL (R388). DMA instruction that sets an event bit, sends MSI-X or writes host memory after earlier writes land. -/
  | signal (t : Nat) (channel : Nat)
  /-- LINK (R382). DMA instruction that continues fetching at a new address. -/
  | link (t : Nat) (channel : Nat)
  /-- HALT (R383). DMA instruction that halts the channel and posts DMA_HALT. -/
  | halt (t : Nat) (channel : Nat)
  /-- INSTRUCTION_FETCH_COMPLETE (R384). A 64-byte instruction line arrives and the instruction at the PC is decoded. -/
  | instructionFetchComplete (t : Nat) (channel : Nat) (data : List Byte)
  /-- PERIPHERAL_BURST (R391). The peripheral request is seen and a burst of a MOVE runs. -/
  | peripheralBurst (t : Nat) (channel : Nat)
  /-- STEP_BUDGET (R392). STEPS reaches the budget and the channel halts. -/
  | stepBudget (t : Nat) (channel : Nat)
  /-- DMA_FAULT (R394). A DMA access fault halts the channel and posts DMA_HALT. -/
  | dmaFault (t : Nat) (channel : Nat)
  /-- DMA_PC_WRITE (R373). A write to the PC of an IDLE or HALTED channel clears progress and loop stack. -/
  | dmaPcWrite (t : Nat) (channel word data : Nat)
  /-- EVT_SET_WRITE (R387). The host sets DMA event bits, ending waits on them. -/
  | evtSetWrite (t : Nat) (w data : Nat)
  /-- TRAIN (R415). Writing TRAIN starts initial DRAM training. -/
  | train (t : Nat) (data : Nat)
  /-- TRAINING_STEP_END (R415). A training step completes, fails or times out. -/
  | trainingStepEnd (t : Nat) (good : Bool) (channel size : Nat)
  /-- RETRAINING_DUE (R405). A retraining falls due and the gathering starts. -/
  | retrainingDue (t : Nat)
  /-- GATHERING_END (R405). The gathering ends and the port waits for a free span. -/
  | gatheringEnd (t : Nat)
  /-- PAUSE_START (R406). A free span begins and the retraining pause applies the new delays. -/
  | pauseStart (t : Nat)
  /-- PAUSE_END (R408). The pause ends, with a success or a retraining failure. -/
  | pauseEnd (t : Nat) (fail0 fail1 : Bool)
  /-- SELF_REFRESH_ENTRY (R409). The port has been idle for IDLE_SR and self-refresh entry begins. -/
  | selfRefreshEntry (t : Nat)
  /-- SELF_REFRESH_COMMIT (R409). 48 ticks after entry begins, self-refresh entry is issued to both channels. -/
  | selfRefreshCommit (t : Nat)
  /-- DRAM_REQUEST (R410). A request reaches the port and is served, cancels entry, or starts a self-refresh exit. -/
  | dramRequest (t : Nat) (source : Nat) (write : Bool) (addr len drained : Nat)
  /-- SELF_REFRESH_EXIT_END (R410). The self-refresh exit completes and waiting requests proceed. -/
  | selfRefreshExitEnd (t : Nat)
  /-- RATE_WRITE (R413). A write of RATE requests a data-rate change. -/
  | rateWrite (t : Nat) (data : Nat)
  /-- RATE_CHANGE_START (R413). A free span of 4,096 ticks begins and the rate change runs. -/
  | rateChangeStart (t : Nat)
  /-- RATE_CHANGE_END (R413). The rate change completes. -/
  | rateChangeEnd (t : Nat)
  /-- HUSK_SET (R419). Writing HUSK_SET puts strobe groups into husk. -/
  | huskSet (t : Nat) (data : Nat)
  /-- HUSK_RELEASE (R420). Writing HUSK_RELEASE releases strobe groups from husk. -/
  | huskRelease (t : Nat) (data : Nat)
  /-- ANA_POWER_GOOD_FALL (R419). The VDD_ANA power-good detector falls and every DAC enters husk. -/
  | anaPowerGoodFall (t : Nat) (dip : Nat)
  /-- STROBE (R422). Writing HKM.STROBE strobes groups at the next CK_HK edge. -/
  | strobe (t : Nat) (data : Nat)
  /-- LDB_IN_EDGE (R422). A rising edge on LDB_IN strobes the groups of LDB.MASK. -/
  | ldbInEdge (t : Nat)
  /-- SLEW_STEP (R423). The slew limiter moves OUT a step towards the target. -/
  | slewStep (t : Nat) (dac : Nat)
  /-- MONITOR_WINDOW_END (R429). A monitor window ends and the next conversion or urgent input starts. -/
  | monitorWindowEnd (t : Nat) (unit : Nat)
  /-- MONITOR_RESULT (R433). 64 ticks after its window, a result enters the FIFO and its register; `code` holds what converters A and B find. -/
  | monitorResult (t : Nat) (unit : Nat) (code : Int × Int) (ovr : Bool)
  /-- FIRMWARE_URGENT_REQUEST (R431). Firmware requests an urgent conversion at the start of a segment. -/
  | firmwareUrgentRequest (t : Nat) (unit input : Nat)
  /-- DOMAIN_READY (R438). A domain finishes turning on or off and DOMAIN_STATE is posted after the last. -/
  | domainReady (t : Nat) (domain : Nat) (cells : List Host.Cell)
  /-- MODE_WRITE_ACTIVE_IDLE (R442). A write of ACTIVE or IDLE changes the state at the next tick, or withdraws an entry. -/
  | modeWriteActiveIdle (t : Nat) (data : Nat)
  /-- MODE_WRITE_SLEEP_DEEP (R445). A write of SLEEP or DEEP requests entry. -/
  | modeWriteSleepDeep (t : Nat) (data : Nat)
  /-- ENTRY_BEGIN (R445). With the request standing and the supervisory channel parked, entry begins at P. -/
  | entryBegin (t : Nat)
  /-- ENTRY_DRAIN_END (R446). Step E2 ends when its writes are issued or at P + 983,040. -/
  | entryDrainEnd (t : Nat)
  /-- COMMIT_POINT (R446). Step E3 ends at C and the device powers down domains. -/
  | commitPoint (t : Nat)
  /-- ENTRY_COMPLETE (R446). Step E4 completes and SLEEP or DEEP is reached. -/
  | entryComplete (t : Nat)
  /-- ENTRY_CANCEL (R447). A wake event before or at C cancels the entry. -/
  | entryCancel (t : Nat)
  /-- WAKE_N (R449). WAKE_N low is a wake event. -/
  | wakeN (t : Nat) (low : Bool)
  /-- WICK_WAKE_REQ (R449). Writing WAKE is a wake event. -/
  | wickWakeReq (t : Nat) (data : Nat)
  /-- WICK_TIMER_EXPIRY (R449). The wake timer runs out and wakes the device. -/
  | wickTimerExpiry (t : Nat)
  /-- WAKE_STEP_CONDITION (R450). A wake step's power-good, clock or lock condition arrives and its delay begins. -/
  | wakeStepCondition (t : Nat)
  /-- WAKE_STEP_DELAY_END (R450). A wake step's delay ends and the next step starts. -/
  | wakeStepDelayEnd (t : Nat)
  /-- WAKE_STEP_TIMEOUT (R451). A wake step times out, is retried after 33 w, or falls back with WAKE_FAIL. -/
  | wakeStepTimeout (t : Nat)
  /-- WAKE_SEQUENCE_END (R452). Step 12 restores the state after SLEEP, or boots after DEEP or a cold start. -/
  | wakeSequenceEnd (t : Nat) (straps : Nat) (store dram : List Host.Cell)
  /-- POWER_ON_RESET (R454). The power-on reset resets everything and starts a cold start. -/
  | powerOnReset (t : Nat)
  /-- RESET_N_LOW (R454). RESET_N low resets everything but the wick page and drives every EN_RAIL low. -/
  | resetNLow (t : Nat)
  /-- RESET_N_RELEASE (R454). The release of RESET_N starts a cold start. -/
  | resetNRelease (t : Nat)
  /-- CHIP (R501). Writing GLB.RESET.CHIP starts a chip reset at the next wick period boundary. -/
  | chip (t : Nat) (data : Nat)
  /-- CHIP_RESET_END (R501). After 33 wick periods the chip reset ends and a cold start runs. -/
  | chipResetEnd (t : Nat)
  /-- PERST_N (R482). PERST_N resets the PCIe endpoint, PD1. -/
  | perstN (t : Nat)
  /-- IMAGE_LOAD_DONE (R460). The QSPI read of an image completes or is abandoned. -/
  | imageLoadDone (t : Nat) (data : List Byte) (failed : Bool)
  /-- HOST_LEN (R459). Writing HOST_LEN in WAIT_HOST starts verification of a PF0 boot image. -/
  | hostLen (t : Nat) (data : Nat)
  /-- VERIFICATION_DONE (R458). The Keccak engine finishes measuring and verifying an image. -/
  | verificationDone (t : Nat)
  /-- READY (R461). Boot completes and READY is reported. -/
  | ready (t : Nat)
  /-- STAGE_WRITE (R465). A write of TRUST.STAGE clears the staging status. -/
  | stageWrite (t : Nat) (data : Nat)
  /-- VERIFY (R465). Writing VERIFY starts verification of the staged image. -/
  | verify (t : Nat) (data : Nat)
  /-- ACTIVATE (R466). Writing ACTIVATE stops the APs and re-measures the staged image. -/
  | activate (t : Nat) (data : Nat)
  /-- FW_ACTIVATED (R466). The new firmware reports itself started and FW_ACTIVATED is posted. -/
  | fwActivated (t : Nat)
  /-- FIRMWARE_START_TIMEOUT (R467). The new firmware does not start within 200 ms and the old image restarts. -/
  | firmwareStartTimeout (t : Nat)
  /-- GO (R464). Writing FUSE_PROG.GO starts fuse programming or is refused. -/
  | go (t : Nat) (data : Nat)
  /-- FUSE_PROGRAMMING_DONE (R464). Programming ends and the fuses are read back to set RESULT. -/
  | fuseProgrammingDone (t : Nat) (took : Nat)
  /-- CLEAR (R472). Writing PMC CLEAR zeroes all nine counters of an AP. -/
  | clear (t : Nat) (ap data : Nat)
  /-- COUNTER_WRITE (R473). A write to a counter's low word stores both halves in one cycle. -/
  | counterWrite (t : Nat) (ap addr data : Nat)
  /-- SAMPLE_RECORD (R475). Every N-th occurrence of the sampled event writes a record to the buffer. -/
  | sampleRecord (t : Nat) (ap addr latency : Nat)
  /-- MSIX_UNMASK (R64). The host unmasks an MSI-X vector whose pending bit is set, and the held message is sent. -/
  | msixUnmask (t : Nat) (vec : Nat)
  /-- LANE_ENABLE_CHANGE (R289). A change of LANE.CTRL.EN or PORT_CTRL.EN turns a lane to electrical idle, or starts its transmission and search and clears DEAD. -/
  | laneEnableChange (t : Nat) (port : Nat) (lane : Option Nat) (data : Nat)
  /-- MISSING_MARKER (R292). A marker is absent where the far end's 16,384-block count places it, is counted in MARKER_ERR, and after three such the lane loses alignment. -/
  | missingMarker (t : Nat) (port lane : Nat)
  /-- BROWN_OUT (R419). PD18 loses power by brown-out and every bias DAC enters husk with its codes set to 0 and BROWNOUT recorded. -/
  | brownOut (t : Nat)
  /-- DMA_BURST_COMPLETE (R386). The reads of a DMA data burst complete, the funnel writes their bytes, and the channel continues, takes its next turn or finishes a DMA_STOP halt. -/
  | dmaBurstComplete (t : Nat) (channel : Nat) (src dst : List Byte)
  /-- SOURCE_DATA_READ_COMPLETE (R98). The source data that WS_LOAD or DPD_COEF_LOAD reads before completion arrives, and the command completes or is accepted. -/
  | sourceDataReadComplete (t : Nat) (ring tag : Nat) (data : List Byte)
  /-- KECCAK_JOB_DONE (R458). The Keccak engine finishes a CFG_DIGEST or ATTEST job, the digest or report is written and the command completes. -/
  | keccakJobDone (t : Nat)
  /-- WAKE_STEP_RETRY (R451). 33 wick periods after a wake step was undone on timeout, the step runs once more. -/
  | wakeStepRetry (t : Nat)
deriving DecidableEq, Repr

end Sys2Proof
end

