-- ==== Sys2Proof/Decode.lean ====
section
/-!
DEFINITION. Words of the opcode table. spec/opcode_table.json gives none of its rows bits, so no word spells a command
(notes/assumptions/45.md).
-/
namespace Sys2Proof

/-- The command that a word of `nbits` bits spells by the bits of the table: none, since no row of the table has bits. -/
def decodeTableWord (_nbits _w : Nat) : Option Instr := none

end Sys2Proof
end

