-- ==== Sys2Proof/Config.lean ====
section
/-!
DEFINITION. What one device or one board fixes and the spec leaves open: constants without a body, so that nothing can be proved of
their values (notes/assumptions/39.md).
-/
namespace Sys2Proof.Config

/-- The 64-bit device identifier fused at test (spec/19_register_map.md, GLB.DEVICE_ID). -/
opaque deviceId : Nat

/-- The boot ROM version (spec/16_firmware_trust.md, TRUST.ROM_VER). -/
opaque romVersion : Nat

/-- The vendor key hash fused before shipping (R15, R18). -/
opaque vendorKeyHash : List Byte

/-- The identity certificate with the identity public key, as TRUST.CERT holds it from its second word on (R469). -/
opaque certificate : List Byte

/-- The identity key's pure ML-DSA-87 signature of a message (R469, R470). -/
opaque mlDsaSign : List Byte → List Byte

/-- The 64 bits on the line of a lane before it begins to send: port, lane, elapsed time (R309 gives the scrambler no start). -/
opaque lineStart : Nat → Nat → Nat → BitVec 64

/-- How a block with an invalid sync header is taken in a stream: as a control block, as a data block or not at all, by elapsed time and its
number since the marker. -/
opaque badHeader : Nat → Nat → Option Bool

/-- Signal detect of a DEAD lane, and of a lane in a near-end loop: port, lane, elapsed time (R291, R303). -/
opaque laneSignal : Nat → Nat → Nat → Bool

/-- Blocks with an invalid sync header that a lane has received, beside those that the rows of its lock and of its packets bring: port, lane,
elapsed time of the count before and of this one (R288). -/
opaque searchErrors : Nat → Nat → Nat → Nat → Nat

/-- PORT_CTRL.FIXED of the parent's port of the hop to it, by elapsed time (R361): no packet shows it. -/
opaque parentFixed : Nat → Bool

/-- How often an event of an adaptation processor occurs in a cycle (R472): processor, event, elapsed time. -/
opaque apEvents : Nat → Nat → Nat → Nat

/-- What becomes of an issue slot of an adaptation processor in a cycle (R474): it retires, is squashed, finds no instruction, or waits on
capture data, the vector unit or store, one or several of them. -/
inductive SlotUse where
  | retired | wasted | frontStarved
  | waiting (capture vector store : Bool)
deriving DecidableEq, Repr, Inhabited

/-- The issue slots of the adaptation processors (R474): processor, elapsed time, slot 0 or 1. -/
opaque apSlot : Nat → Nat → Nat → SlotUse

/-- The adaptation processor that passes on the swap requests of an elapsed time (R472, R53). -/
opaque requestAp : Nat → Nat

/-- The ADC codes of a receive path, I and Q: path, elapsed time, first or second sample of the tick, gain and coarse codes in force (R192). -/
opaque adcCode : Nat → Nat → Nat → Nat → Int → Int → BitVec 12 × BitVec 12

/-- The ADC codes of an ORx, I and Q: ORx, feedback input, attenuation of a host capture if one holds it, elapsed time, sample 0-3 of the
tick (R227, R229, R234). -/
opaque orxCode : Nat → Nat → Option Nat → Nat → Nat → BitVec 12 × BitVec 12

/-- Entry `i` of 2^18 of the quarter-wave table of the NCOs is rounded up: R165 does not state how it is rounded. -/
opaque quarterWave : Nat → Bool

/-- The rounding of the amplitude of a candle, by its LEVEL (R363). -/
opaque candleRounding : Nat → Bool

/-- Tap `m` of kernel `i` of crest factor reduction, an 18-bit value (R173). -/
opaque cfrKernel : Nat → Nat → BitVec 18

/-- The cancellation pulse, as 16-bit I and Q, while no sum of kernels exists to divide by: R173 states none. -/
opaque cfrNoPulse : Nat → BitVec 16 × BitVec 16

/-- A coefficient of the response ROM: response ID, set, section, 0 b0 1 b1 2 b2 3 a1 4 a2 (R204, R209). -/
opaque responseRom : Nat → Nat → Nat → Nat → BitVec 24

/-- What a PF1 read of an address returns while the device sleeps with COUNTER_EXPOSE at 1, which R444 does not state. -/
opaque pf1Asleep : Nat → BitVec 32

/-- The time in CK_DP periods at which the device ends a read for a Completion Timeout Value other than 0, within the range that the PCI
Express standard gives the value (R63). -/
opaque cplTimeout : Nat → Nat

/-- The idle link is in ASPM L1 at an elapsed time: R56 names ASPM L1 and gives no time. -/
opaque aspmL1 : Nat → Bool

/-- Taps of the halfbands HB1 (0), HB2 (1), HBD (2) and the ORx filter (3) at an odd distance from the centre, and the bits that follow the
binary point of a tap, less one: R169, R200 and R229 give the length and the response only. -/
opaque halfbandTap : Nat → Nat → Int
opaque halfbandBits : Nat

/-- Tap 0-7 of a phase 1-63 of the fractional delay and the bits by which their sum is rounded: R137 gives neither. -/
opaque delayTap : Nat → Nat → Int
opaque delayBits : Nat

/-- Tap 0 to 8S - 1 of the prototype of the slicing filterbank, by S_LOG2, and the bits by which the sums are rounded: R114 gives neither. -/
opaque prototype : Nat → Nat → Int
opaque filterbankBits : Nat

/-- The drift of a channel lies out of range in the pause that started at an elapsed time and whose end no row has brought (R405, R408). -/
opaque driftOut : Nat → Nat → Bool

/-- Ticks from a write to the wick period boundary after it, less 1, modulo the longest period: the phase of the wick is not given (R495, R501). -/
opaque wickBoundary : Nat → Nat

/-- Wick periods from the commit point to a wake event, by the ticks between them: R495 lets the wick period vary by 3 %. -/
opaque wickPeriods : Nat → Nat

end Sys2Proof.Config
end

