-- ==== Sys2Proof/Machine/RegMap.lean ====
section
/-!
DEFINITION. The register map of window W0 of PF0 (spec/19_register_map.md, R498-R500): one row per kind of register word with its
address, its strides and counts, its value after reset and its fields, taken from the field tables of the chapters; and the
named registers (A.*) and fields (F.*) that the meanings read and write.
-/
namespace Sys2Proof.Machine

/-- How software may use a field (the Access column of the field tables; R500). -/
inductive Access where
  | rw | ro | wo | w1c | w1s | rc
deriving DecidableEq, Repr

/-- The kind of unit that a row's first index names, for the registers of absent units (R7). -/
inductive UnitKind where
  | always | path | pod | orx | dac
deriving DecidableEq, Repr

/-- One field of a register word. -/
structure FieldSpec where
  lo : Nat
  width : Nat
  access : Access
deriving DecidableEq, Repr

/-- One kind of register word: `dims` lists (stride, count) for each index; `resetStep` is what the reset value grows by with
the first index (DPD.BIN_EDGE only). -/
structure RegRow where
  name : String
  base : Nat
  dims : List (Nat × Nat)
  kind : UnitKind
  reset : Nat
  resetStep : Nat
  fields : List FieldSpec
deriving DecidableEq, Repr

/-- A register word as the meanings name it: its address and its value after reset. -/
structure Reg where
  addr : Nat
  reset : Nat
deriving DecidableEq, Repr

/-- A field of a register word as the meanings name it. -/
structure Fld where
  reg : Reg
  lo : Nat
  width : Nat
deriving DecidableEq, Repr

/-- The register words of block GLB (spec/19_register_map.md). -/
def rowsGlb : List RegRow := [
  ⟨"GLB.PART", 0x0, [], .always, 0x64900201, 0x0, [⟨16, 16, .ro⟩, ⟨8, 8, .ro⟩, ⟨0, 8, .ro⟩]⟩,
  ⟨"GLB.CONFIG", 0x4, [], .always, 0xfff40, 0x0, [⟨16, 4, .ro⟩, ⟨8, 8, .ro⟩, ⟨0, 7, .ro⟩]⟩,
  ⟨"GLB.DEVICE_ID", 0x8, [], .always, 0x0, 0x0, [⟨0, 32, .ro⟩]⟩,
  ⟨"GLB.DEVICE_ID word 1", 0xc, [], .always, 0x0, 0x0, [⟨0, 32, .ro⟩]⟩,
  ⟨"GLB.STRAPS", 0x10, [], .always, 0x0, 0x0, [⟨2, 2, .ro⟩, ⟨0, 2, .ro⟩]⟩,
  ⟨"GLB.STATUS", 0x14, [], .always, 0x0, 0x0, [⟨31, 1, .ro⟩, ⟨30, 1, .ro⟩, ⟨0, 3, .ro⟩]⟩,
  ⟨"GLB.RESET", 0x18, [], .always, 0x0, 0x0, [⟨0, 1, .w1s⟩]⟩,
  ⟨"GLB.SCRATCH(i)", 0x20, [(0x4, 4)], .always, 0x0, 0x0, [⟨0, 32, .rw⟩]⟩,
  ⟨"GLB.PCIE_ID", 0x30, [], .always, 0x64901f2c, 0x0, [⟨16, 16, .ro⟩, ⟨0, 16, .ro⟩]⟩,
  ⟨"GLB.PCIE_ID word 1", 0x34, [], .always, 0x216491, 0x0, [⟨16, 8, .ro⟩, ⟨0, 16, .ro⟩]⟩]

/-- The register words of block TIME (1) (spec/01_clocks_and_time.md). -/
def rowsTime1 : List RegRow := [
  ⟨"TIME.CLK_CTRL", 0x10000, [], .always, 0x1, 0x0, [⟨1, 1, .rw⟩, ⟨0, 1, .rw⟩]⟩,
  ⟨"TIME.CLK_STATUS", 0x10004, [], .always, 0x0, 0x0, [⟨3, 1, .ro⟩, ⟨2, 1, .w1c⟩, ⟨1, 1, .ro⟩, ⟨0, 1, .ro⟩]⟩,
  ⟨"TIME.TICK_LO", 0x10010, [], .always, 0x0, 0x0, [⟨0, 32, .ro⟩]⟩,
  ⟨"TIME.TICK_HI", 0x10014, [], .always, 0x0, 0x0, [⟨0, 32, .ro⟩]⟩,
  ⟨"TIME.FRAME", 0x10018, [], .always, 0x0, 0x0, [⟨0, 32, .ro⟩]⟩,
  ⟨"TIME.SYNC_CTRL", 0x10020, [], .always, 0x0, 0x0, [⟨8, 6, .rw⟩, ⟨4, 2, .rw⟩, ⟨3, 1, .ro⟩, ⟨2, 1, .w1s⟩, ⟨0, 2, .rw⟩]⟩,
  ⟨"TIME.SYNC_VALUE", 0x10024, [], .always, 0x0, 0x0, [⟨0, 32, .rw⟩]⟩,
  ⟨"TIME.SYNC_VALUE word 1", 0x10028, [], .always, 0x0, 0x0, [⟨0, 32, .rw⟩]⟩,
  ⟨"TIME.SYNC_OUT_TICK", 0x10030, [], .always, 0xffffffff, 0x0, [⟨0, 32, .rw⟩]⟩,
  ⟨"TIME.SYNC_OUT_TICK word 1", 0x10034, [], .always, 0xffffffff, 0x0, [⟨0, 32, .rw⟩]⟩,
  ⟨"TIME.SYNC_LAST", 0x10038, [], .always, 0x0, 0x0, [⟨0, 32, .ro⟩]⟩,
  ⟨"TIME.SYNC_LAST word 1", 0x1003c, [], .always, 0x0, 0x0, [⟨0, 32, .ro⟩]⟩,
  ⟨"TIME.SYNC_COUNT", 0x10040, [], .always, 0x0, 0x0, [⟨16, 16, .ro⟩, ⟨0, 16, .ro⟩]⟩,
  ⟨"TIME.TDD_CTRL", 0x10050, [], .always, 0x0, 0x0, [⟨5, 1, .ro⟩, ⟨4, 1, .ro⟩, ⟨0, 1, .rw⟩]⟩,
  ⟨"TIME.TDD_PERIOD(b)", 0x10054, [(0x4, 2)], .always, 0x0, 0x0, [⟨0, 24, .rw⟩]⟩,
  ⟨"TIME.QUEUE", 0x10060, [], .always, 0x0, 0x0, [⟨16, 10, .rc⟩, ⟨0, 10, .ro⟩]⟩,
  ⟨"TIME.LATE_COUNT", 0x10064, [], .always, 0x0, 0x0, [⟨0, 32, .ro⟩]⟩,
  ⟨"TIME.SWAP_LOG_CTRL", 0x10070, [], .always, 0x0, 0x0, [⟨4, 16, .rw⟩, ⟨0, 2, .rw⟩]⟩,
  ⟨"TIME.SWAP_LOG_BASE", 0x10074, [], .always, 0x0, 0x0, [⟨0, 32, .rw⟩]⟩,
  ⟨"TIME.SWAP_LOG_BASE word 1", 0x10078, [], .always, 0x0, 0x0, [⟨0, 32, .rw⟩]⟩]

/-- The register words of block TIME (2) (spec/01_clocks_and_time.md). -/
def rowsTime2 : List RegRow := [
  ⟨"TIME.SWAP_LOG_WR", 0x1007c, [], .always, 0x0, 0x0, [⟨0, 16, .ro⟩]⟩,
  ⟨"TIME.SWAP_LOG_RD", 0x10080, [], .always, 0x0, 0x0, [⟨0, 16, .rw⟩]⟩,
  ⟨"TIME.TDD_ENTRY(b, i)", 0x10100, [(0x100, 2), (0x4, 64)], .always, 0x0, 0x0, [⟨31, 1, .rw⟩, ⟨26, 1, .rw⟩, ⟨24, 2, .rw⟩, ⟨0, 24, .rw⟩]⟩]

/-- The register words of block TIME. -/
def rowsTime : List RegRow := rowsTime1 ++ rowsTime2

/-- The register words of block HOST (1) (spec/02_host_rings.md). -/
def rowsHost1 : List RegRow := [
  ⟨"HOST.IF_CTRL", 0x20000, [], .always, 0x0, 0x0, [⟨0, 1, .rw⟩]⟩,
  ⟨"HOST.POLL_INTERVAL", 0x20010, [], .always, 0x3d7, 0x0, [⟨0, 20, .rw⟩]⟩,
  ⟨"HOST.KICK", 0x20014, [], .always, 0x0, 0x0, [⟨0, 32, .wo⟩]⟩,
  ⟨"HOST.ACCESS_ERR", 0x20018, [], .always, 0x0, 0x0, [⟨0, 16, .rc⟩]⟩,
  ⟨"HOST.CFG_WRITES", 0x20020, [], .always, 0x0, 0x0, [⟨0, 32, .ro⟩]⟩,
  ⟨"HOST.CFG_WRITES word 1", 0x20024, [], .always, 0x0, 0x0, [⟨0, 32, .ro⟩]⟩,
  ⟨"HOST.DRAM_WINDOW", 0x20030, [], .always, 0x0, 0x0, [⟨0, 13, .rw⟩]⟩,
  ⟨"HOST.APERTURE_STATUS", 0x20034, [], .always, 0x0, 0x0, [⟨0, 1, .w1c⟩]⟩,
  ⟨"HOST.LOST", 0x20038, [], .always, 0x0, 0x0, [⟨16, 16, .rc⟩, ⟨0, 16, .rc⟩]⟩,
  ⟨"HOST.EVT_ROUTE", 0x20040, [], .always, 0x0, 0x0, [⟨0, 2, .rw⟩, ⟨2, 2, .rw⟩, ⟨4, 2, .rw⟩, ⟨6, 2, .rw⟩, ⟨8, 2, .rw⟩, ⟨10, 2, .rw⟩, ⟨12, 2, .rw⟩, ⟨14, 2, .rw⟩, ⟨16, 2, .rw⟩, ⟨18, 2, .rw⟩, ⟨20, 2, .rw⟩, ⟨22, 2, .rw⟩, ⟨24, 2, .rw⟩, ⟨26, 2, .rw⟩, ⟨28, 2, .rw⟩, ⟨30, 2, .rw⟩]⟩,
  ⟨"HOST.CMDR(r).BASE", 0x20100, [(0x40, 16)], .always, 0x0, 0x0, [⟨0, 32, .rw⟩]⟩,
  ⟨"HOST.CMDR(r).BASE word 1", 0x20104, [(0x40, 16)], .always, 0x0, 0x0, [⟨0, 32, .rw⟩]⟩,
  ⟨"HOST.CMDR(r).DB", 0x20108, [(0x40, 16)], .always, 0x0, 0x0, [⟨0, 32, .rw⟩]⟩,
  ⟨"HOST.CMDR(r).DB word 1", 0x2010c, [(0x40, 16)], .always, 0x0, 0x0, [⟨0, 32, .rw⟩]⟩,
  ⟨"HOST.CMDR(r).CTRL", 0x20110, [(0x40, 16)], .always, 0x100, 0x0, [⟨31, 1, .rw⟩, ⟨24, 4, .rw⟩, ⟨16, 4, .rw⟩, ⟨8, 5, .rw⟩]⟩,
  ⟨"HOST.CMDR(r).STATUS", 0x20114, [(0x40, 16)], .always, 0x0, 0x0, [⟨31, 1, .ro⟩, ⟨28, 3, .ro⟩, ⟨0, 16, .ro⟩]⟩,
  ⟨"HOST.CQR(c).BASE", 0x20500, [(0x40, 16)], .always, 0x0, 0x0, [⟨0, 32, .rw⟩]⟩,
  ⟨"HOST.CQR(c).BASE word 1", 0x20504, [(0x40, 16)], .always, 0x0, 0x0, [⟨0, 32, .rw⟩]⟩,
  ⟨"HOST.CQR(c).DB", 0x20508, [(0x40, 16)], .always, 0x0, 0x0, [⟨0, 32, .rw⟩]⟩,
  ⟨"HOST.CQR(c).DB word 1", 0x2050c, [(0x40, 16)], .always, 0x0, 0x0, [⟨0, 32, .rw⟩]⟩]

/-- The register words of block HOST (2) (spec/02_host_rings.md). -/
def rowsHost2 : List RegRow := [
  ⟨"HOST.CQR(c).CTRL", 0x20510, [(0x40, 16)], .always, 0x1, 0x0, [⟨31, 1, .rw⟩, ⟨24, 5, .rw⟩, ⟨16, 5, .rw⟩, ⟨15, 1, .rw⟩, ⟨0, 8, .rw⟩]⟩,
  ⟨"HOST.CQR(c).MOD", 0x20514, [(0x40, 16)], .always, 0x0, 0x0, [⟨0, 20, .rw⟩]⟩,
  ⟨"HOST.CQR(c).STATUS", 0x20518, [(0x40, 16)], .always, 0x0, 0x0, [⟨31, 1, .ro⟩, ⟨28, 3, .ro⟩, ⟨0, 11, .ro⟩]⟩,
  ⟨"HOST.EVR(e).BASE", 0x20900, [(0x40, 4)], .always, 0x0, 0x0, [⟨0, 32, .rw⟩]⟩,
  ⟨"HOST.EVR(e).BASE word 1", 0x20904, [(0x40, 4)], .always, 0x0, 0x0, [⟨0, 32, .rw⟩]⟩,
  ⟨"HOST.EVR(e).DB", 0x20908, [(0x40, 4)], .always, 0x0, 0x0, [⟨0, 32, .rw⟩]⟩,
  ⟨"HOST.EVR(e).DB word 1", 0x2090c, [(0x40, 4)], .always, 0x0, 0x0, [⟨0, 32, .rw⟩]⟩,
  ⟨"HOST.EVR(e).CTRL", 0x20910, [(0x40, 4)], .always, 0x1, 0x0, [⟨31, 1, .rw⟩, ⟨24, 5, .rw⟩, ⟨16, 5, .rw⟩, ⟨15, 1, .rw⟩, ⟨0, 8, .rw⟩]⟩,
  ⟨"HOST.EVR(e).MOD", 0x20914, [(0x40, 4)], .always, 0x0, 0x0, [⟨0, 20, .rw⟩]⟩,
  ⟨"HOST.EVR(e).STATUS", 0x20918, [(0x40, 4)], .always, 0x0, 0x0, [⟨31, 1, .ro⟩, ⟨28, 3, .ro⟩, ⟨0, 16, .rc⟩]⟩]

/-- The register words of block HOST. -/
def rowsHost : List RegRow := rowsHost1 ++ rowsHost2

/-- The register words of block DMA (1) (spec/12_dma_programs.md). -/
def rowsDma1 : List RegRow := [
  ⟨"DMA.CH(c).STATE", 0x30000, [(0x100, 64)], .always, 0x0, 0x0, [⟨24, 3, .ro⟩, ⟨16, 8, .ro⟩, ⟨8, 8, .ro⟩, ⟨3, 1, .ro⟩, ⟨0, 3, .ro⟩]⟩,
  ⟨"DMA.CH(c).HANDLE", 0x30004, [(0x100, 64)], .always, 0x0, 0x0, [⟨0, 32, .ro⟩]⟩,
  ⟨"DMA.CH(c).PC", 0x30008, [(0x100, 64)], .always, 0x0, 0x0, [⟨0, 32, .rw⟩]⟩,
  ⟨"DMA.CH(c).PC word 1", 0x3000c, [(0x100, 64)], .always, 0x0, 0x0, [⟨16, 2, .rw⟩, ⟨0, 16, .rw⟩]⟩,
  ⟨"DMA.CH(c).DONE", 0x30010, [(0x100, 64)], .always, 0x0, 0x0, [⟨0, 21, .ro⟩]⟩,
  ⟨"DMA.CH(c).STEPS", 0x30014, [(0x100, 64)], .always, 0x0, 0x0, [⟨0, 32, .ro⟩]⟩,
  ⟨"DMA.CH(c).BUDGET", 0x30018, [(0x100, 64)], .always, 0x10000, 0x0, [⟨0, 32, .rw⟩]⟩,
  ⟨"DMA.CH(c).SCUR", 0x30020, [(0x100, 64)], .always, 0x0, 0x0, [⟨0, 32, .rw⟩]⟩,
  ⟨"DMA.CH(c).SCUR word 1", 0x30024, [(0x100, 64)], .always, 0x0, 0x0, [⟨16, 2, .rw⟩, ⟨0, 16, .rw⟩]⟩,
  ⟨"DMA.CH(c).DCUR", 0x30028, [(0x100, 64)], .always, 0x0, 0x0, [⟨0, 32, .rw⟩]⟩,
  ⟨"DMA.CH(c).DCUR word 1", 0x3002c, [(0x100, 64)], .always, 0x0, 0x0, [⟨16, 2, .rw⟩, ⟨0, 16, .rw⟩]⟩,
  ⟨"DMA.CH(c).CMP", 0x30030, [(0x100, 64)], .always, 0x0, 0x0, [⟨31, 1, .ro⟩, ⟨30, 1, .w1c⟩]⟩,
  ⟨"DMA.CH(c).CMP word 1", 0x30034, [(0x100, 64)], .always, 0xffffffff, 0x0, [⟨0, 32, .ro⟩]⟩,
  ⟨"DMA.CH(c).STAT", 0x30038, [(0x100, 64)], .always, 0x0, 0x0, [⟨0, 16, .rc⟩]⟩,
  ⟨"DMA.CH(c).BANKS", 0x3003c, [(0x100, 64)], .always, 0x0, 0x0, [⟨8, 4, .ro⟩, ⟨0, 5, .ro⟩]⟩,
  ⟨"DMA.EVT(w)", 0x34000, [(0x4, 2)], .always, 0x0, 0x0, [⟨0, 32, .w1c⟩]⟩,
  ⟨"DMA.EVT_SET(w)", 0x34008, [(0x4, 2)], .always, 0x0, 0x0, [⟨0, 32, .w1s⟩]⟩,
  ⟨"DMA.PERIPH(i)", 0x34100, [(0x8, 32)], .always, 0x0, 0x0, [⟨31, 1, .ro⟩, ⟨24, 6, .ro⟩, ⟨0, 24, .ro⟩]⟩,
  ⟨"DMA.PERIPH(i) word 1", 0x34104, [(0x8, 32)], .always, 0x1, 0x0, [⟨31, 1, .rw⟩, ⟨16, 15, .rc⟩, ⟨0, 16, .rw⟩]⟩,
  ⟨"DMA.PERIPH(i)", 0x34200, [(0x8, 4)], .always, 0x0, 0x0, [⟨31, 1, .ro⟩, ⟨24, 6, .ro⟩, ⟨0, 24, .ro⟩]⟩]

/-- The register words of block DMA (2) (spec/12_dma_programs.md). -/
def rowsDma2 : List RegRow := [
  ⟨"DMA.PERIPH(i) word 1", 0x34204, [(0x8, 4)], .always, 0x1, 0x0, [⟨31, 1, .rw⟩, ⟨16, 15, .rc⟩, ⟨0, 16, .rw⟩]⟩,
  ⟨"DMA.PERIPH(i)", 0x34240, [(0x8, 3)], .always, 0x0, 0x0, [⟨31, 1, .ro⟩, ⟨24, 6, .ro⟩, ⟨0, 24, .ro⟩]⟩,
  ⟨"DMA.PERIPH(i) word 1", 0x34244, [(0x8, 3)], .always, 0x1, 0x0, [⟨31, 1, .rw⟩, ⟨16, 15, .rc⟩, ⟨0, 16, .rw⟩]⟩]

/-- The register words of block DMA. -/
def rowsDma : List RegRow := rowsDma1 ++ rowsDma2

/-- The register words of block BEAM (spec/04_beam_engine.md). -/
def rowsBeam : List RegRow := [
  ⟨"BEAM.LIB_BASE", 0x40000, [], .always, 0x0, 0x0, [⟨0, 32, .rw⟩]⟩,
  ⟨"BEAM.LIB_BASE word 1", 0x40004, [], .always, 0x0, 0x0, [⟨0, 32, .rw⟩]⟩,
  ⟨"BEAM.LIB_CTRL", 0x40008, [], .always, 0x0, 0x0, [⟨0, 14, .rw⟩]⟩,
  ⟨"BEAM.COLS(d)", 0x40010, [(0x4, 2)], .always, 0x0, 0x0, [⟨20, 11, .ro⟩, ⟨10, 10, .ro⟩, ⟨0, 10, .ro⟩]⟩,
  ⟨"BEAM.SAT", 0x40020, [], .always, 0x0, 0x0, [⟨16, 16, .rc⟩, ⟨0, 16, .rc⟩]⟩,
  ⟨"BEAM.UNMAPPED", 0x40024, [], .always, 0x0, 0x0, [⟨0, 32, .rc⟩]⟩,
  ⟨"BEAM.PREFETCH", 0x40028, [], .always, 0x0, 0x0, [⟨16, 16, .ro⟩, ⟨0, 16, .rc⟩]⟩,
  ⟨"BEAM.ACTIVE_WS(c, d)", 0x40100, [(0x8, 8), (0x4, 2)], .always, 0x0, 0x0, [⟨0, 32, .ro⟩]⟩,
  ⟨"BEAM.CORR(n, d)", 0x41000, [(0x10, 64), (0x8, 2)], .path, 0x0, 0x0, [⟨16, 16, .rw⟩, ⟨0, 16, .rw⟩]⟩,
  ⟨"BEAM.CORR(n, d) word 1", 0x41004, [(0x10, 64), (0x8, 2)], .path, 0x0, 0x0, [⟨0, 12, .rw⟩]⟩]

/-- The register words of block TXP (spec/05_transmit_path.md). -/
def rowsTxp : List RegRow := [
  ⟨"TXP(n).CTRL", 0x80000, [(0x400, 64)], .path, 0x0, 0x0, [⟨0, 1, .rw⟩]⟩,
  ⟨"TXP(n).DGAIN", 0x80004, [(0x400, 64)], .path, 0x4000, 0x0, [⟨0, 16, .rw⟩]⟩,
  ⟨"TXP(n).CFR", 0x80010, [(0x400, 64)], .path, 0xb40050, 0x0, [⟨31, 1, .rw⟩, ⟨16, 10, .rw⟩, ⟨0, 7, .rw⟩]⟩,
  ⟨"TXP(n).CFR_STAT", 0x80014, [(0x400, 64)], .path, 0x0, 0x0, [⟨16, 16, .rc⟩, ⟨0, 16, .rc⟩]⟩,
  ⟨"TXP(n).ABB", 0x80020, [(0x400, 64)], .path, 0x2, 0x0, [⟨8, 6, .rw⟩, ⟨0, 2, .rw⟩]⟩,
  ⟨"TXP(n).SAT", 0x80030, [(0x400, 64)], .path, 0x0, 0x0, [⟨16, 16, .rc⟩, ⟨0, 16, .rc⟩]⟩,
  ⟨"TXP(n).DELAY(c)", 0x80100, [(0x400, 64), (0x4, 8)], .path, 0x0, 0x0, [⟨0, 20, .ro⟩]⟩,
  ⟨"TXP.DLB(s).ERR", 0x90000, [(0x10, 64)], .always, 0x0, 0x0, [⟨16, 16, .rc⟩, ⟨0, 16, .rc⟩]⟩,
  ⟨"TXP.DLB(s).DROP", 0x90004, [(0x10, 64)], .always, 0x0, 0x0, [⟨16, 16, .rc⟩, ⟨0, 16, .rc⟩]⟩,
  ⟨"TXP.DLB(s).MISC", 0x90008, [(0x10, 64)], .always, 0xffff0000, 0x0, [⟨16, 16, .rc⟩, ⟨0, 16, .rc⟩]⟩,
  ⟨"TXP.DLB(s).CAP", 0x9000c, [(0x10, 64)], .always, 0x0, 0x0, [⟨0, 16, .ro⟩]⟩,
  ⟨"TXP.CFR_PULSE(m)", 0x91000, [(0x4, 64)], .always, 0x0, 0x0, [⟨16, 16, .ro⟩, ⟨0, 16, .ro⟩]⟩]

/-- The register words of block RXP (spec/06_receive_path.md). -/
def rowsRxp : List RegRow := [
  ⟨"RXP(n).CTRL", 0xc0000, [(0x400, 64)], .path, 0x0, 0x0, [⟨0, 1, .rw⟩]⟩,
  ⟨"RXP(n).GAIN", 0xc0040, [(0x400, 64)], .path, 0x0, 0x0, [⟨24, 5, .ro⟩, ⟨16, 5, .rw⟩, ⟨0, 1, .rw⟩]⟩,
  ⟨"RXP(n).AGC", 0xc0044, [(0x400, 64)], .path, 0x3c00418, 0x0, [⟨16, 12, .rw⟩, ⟨8, 4, .rw⟩, ⟨0, 8, .rw⟩]⟩,
  ⟨"RXP(n).DC_CTRL", 0xc0050, [(0x400, 64)], .path, 0x0, 0x0, [⟨8, 1, .wo⟩, ⟨4, 3, .rw⟩, ⟨0, 2, .rw⟩]⟩,
  ⟨"RXP(n).DC_STAT", 0xc0054, [(0x400, 64)], .path, 0x0, 0x0, [⟨31, 1, .ro⟩, ⟨16, 15, .rc⟩, ⟨8, 7, .ro⟩, ⟨0, 7, .ro⟩]⟩,
  ⟨"RXP(n).DC_FINE", 0xc0058, [(0x400, 64)], .path, 0x0, 0x0, [⟨16, 13, .ro⟩, ⟨0, 13, .ro⟩]⟩,
  ⟨"RXP(n).IQC(k)", 0xc0060, [(0x400, 64), (0x4, 3)], .path, 0x0, 0x0, [⟨16, 16, .rw⟩, ⟨0, 16, .rw⟩]⟩,
  ⟨"RXP(n).ADC_STAT", 0xc0070, [(0x400, 64)], .path, 0x0, 0x0, [⟨31, 1, .w1c⟩, ⟨0, 16, .rc⟩]⟩,
  ⟨"RXP(n).SAT", 0xc0074, [(0x400, 64)], .path, 0x0, 0x0, [⟨0, 16, .rc⟩]⟩,
  ⟨"RXP(n).DELAY(c)", 0xc0100, [(0x400, 64), (0x4, 8)], .path, 0x0, 0x0, [⟨0, 24, .ro⟩]⟩]

/-- The register words of block DPD (spec/07_predistortion.md). -/
def rowsDpd : List RegRow := [
  ⟨"DPD.TERM(k)", 0x100000, [], .always, 0x8100, 0x0, [⟨15, 1, .rw⟩, ⟨8, 4, .rw⟩, ⟨4, 3, .rw⟩, ⟨0, 3, .rw⟩]⟩,
  ⟨"DPD.TERM(k)", 0x100004, [(0x4, 47)], .always, 0x100, 0x0, [⟨15, 1, .rw⟩, ⟨8, 4, .rw⟩, ⟨4, 3, .rw⟩, ⟨0, 3, .rw⟩]⟩,
  ⟨"DPD.BASIS_TAG", 0x1000c0, [], .always, 0x0, 0x0, [⟨0, 32, .ro⟩]⟩,
  ⟨"DPD.BIN_EDGE(b)", 0x100104, [(0x4, 15)], .always, 0x3e8, 0x190, [⟨0, 13, .rw⟩]⟩,
  ⟨"DPD.SCHED", 0x100200, [], .always, 0x240004, 0x0, [⟨16, 8, .rw⟩, ⟨0, 3, .rw⟩]⟩,
  ⟨"DPD.SEED", 0x100204, [], .always, 0x0, 0x0, [⟨0, 32, .rw⟩]⟩,
  ⟨"DPD.POOL", 0x100208, [], .always, 0x80000008, 0x0, [⟨31, 1, .rw⟩, ⟨0, 6, .rw⟩]⟩,
  ⟨"DPD.ORX_SHARE(k)", 0x100210, [(0x4, 4)], .orx, 0x50, 0x0, [⟨0, 7, .rw⟩]⟩,
  ⟨"DPD.PATH(n).POLICY", 0x101000, [(0x10, 64)], .path, 0x320500, 0x0, [⟨16, 10, .rw⟩, ⟨8, 6, .rw⟩, ⟨0, 2, .rw⟩]⟩,
  ⟨"DPD.PATH(n).TARGET", 0x101004, [(0x10, 64)], .path, 0x9601c2, 0x0, [⟨16, 16, .rw⟩, ⟨0, 16, .rw⟩]⟩,
  ⟨"DPD.PATH(n).STAT", 0x101008, [(0x10, 64)], .path, 0x0, 0x0, [⟨16, 16, .ro⟩, ⟨12, 4, .rc⟩, ⟨7, 1, .ro⟩, ⟨6, 1, .ro⟩, ⟨5, 1, .ro⟩, ⟨0, 4, .ro⟩]⟩,
  ⟨"DPD.SAT(n)", 0x10100c, [(0x10, 64)], .path, 0x0, 0x0, [⟨0, 16, .rc⟩]⟩]

/-- The register words of block RAD (spec/08_radio_control.md). -/
def rowsRad : List RegRow := [
  ⟨"RAD.LO(s).CTRL", 0x140000, [(0x40, 3)], .always, 0x0, 0x0, [⟨0, 1, .rw⟩]⟩,
  ⟨"RAD.LO(s).WORD", 0x140004, [(0x40, 3)], .always, 0x0, 0x0, [⟨0, 32, .ro⟩]⟩,
  ⟨"RAD.LO(s).WORD word 1", 0x140008, [(0x40, 3)], .always, 0x0, 0x0, [⟨0, 8, .ro⟩]⟩,
  ⟨"RAD.LO(s).STAT", 0x14000c, [(0x40, 3)], .always, 0x0, 0x0, [⟨6, 1, .w1c⟩, ⟨5, 1, .ro⟩, ⟨4, 1, .ro⟩, ⟨3, 1, .ro⟩, ⟨2, 1, .w1c⟩, ⟨1, 1, .ro⟩, ⟨0, 1, .ro⟩]⟩,
  ⟨"RAD.LO(s).CAL_TEMP", 0x140010, [(0x40, 3)], .always, 0x0, 0x0, [⟨16, 16, .ro⟩, ⟨0, 16, .ro⟩]⟩,
  ⟨"RAD.LO_CFG", 0x140100, [], .always, 0xc01, 0x0, [⟨8, 6, .rw⟩, ⟨0, 1, .rw⟩]⟩,
  ⟨"RAD.POD(p).CFG", 0x140200, [(0x20, 8)], .pod, 0x0, 0x0, [⟨0, 1, .rw⟩]⟩,
  ⟨"RAD.POD(p).STATE", 0x140204, [(0x20, 8)], .pod, 0x0, 0x0, [⟨11, 1, .ro⟩, ⟨8, 3, .ro⟩, ⟨0, 3, .ro⟩]⟩,
  ⟨"RAD.POD(p).FE_TIME", 0x140208, [(0x20, 8)], .pod, 0x3d80040, 0x0, [⟨16, 12, .rw⟩, ⟨0, 12, .rw⟩]⟩,
  ⟨"RAD.POD(p).FE_TIME word 1", 0x14020c, [(0x20, 8)], .pod, 0x1000020, 0x0, [⟨16, 12, .rw⟩, ⟨0, 12, .rw⟩]⟩,
  ⟨"RAD.POD(p).FE_TIME word 2", 0x140210, [(0x20, 8)], .pod, 0x1000040, 0x0, [⟨16, 12, .rw⟩, ⟨0, 12, .rw⟩]⟩,
  ⟨"RAD.POD(p).FE_NOW", 0x140214, [(0x20, 8)], .pod, 0x0, 0x0, [⟨0, 2, .ro⟩, ⟨2, 2, .ro⟩, ⟨4, 2, .ro⟩, ⟨6, 2, .ro⟩, ⟨8, 2, .ro⟩, ⟨10, 2, .ro⟩, ⟨12, 2, .ro⟩, ⟨14, 2, .ro⟩]⟩,
  ⟨"RAD.FE_PROF(h)", 0x140400, [(0x20, 2)], .always, 0x0, 0x0, [⟨8, 5, .rw⟩, ⟨2, 1, .rw⟩, ⟨1, 1, .rw⟩, ⟨0, 1, .rw⟩]⟩,
  ⟨"RAD.FESB(h).CFG", 0x140404, [(0x20, 2)], .always, 0xb, 0x0, [⟨0, 7, .rw⟩]⟩,
  ⟨"RAD.FESB(h).RDATA", 0x140408, [(0x20, 2)], .always, 0x0, 0x0, [⟨0, 32, .ro⟩]⟩,
  ⟨"RAD.COEX", 0x140500, [], .always, 0x400, 0x0, [⟨19, 1, .ro⟩, ⟨18, 1, .ro⟩, ⟨17, 1, .ro⟩, ⟨16, 1, .ro⟩, ⟨1, 15, .rw⟩, ⟨0, 1, .rw⟩]⟩]

/-- The register words of block ORX (spec/07_predistortion.md). -/
def rowsOrx : List RegRow := [
  ⟨"ORX(k).CTRL", 0x180000, [(0x100, 4)], .orx, 0xa0000, 0x0, [⟨16, 5, .rw⟩, ⟨8, 4, .rw⟩, ⟨0, 1, .rw⟩]⟩,
  ⟨"ORX(k).IF", 0x180004, [(0x100, 4)], .orx, 0x34155555, 0x0, [⟨0, 32, .ro⟩]⟩,
  ⟨"ORX(k).ALIGN", 0x180008, [(0x100, 4)], .orx, 0x8, 0x0, [⟨0, 10, .rw⟩]⟩,
  ⟨"ORX(k).IRC", 0x180010, [(0x100, 4)], .orx, 0x0, 0x0, [⟨16, 16, .rw⟩, ⟨0, 16, .rw⟩]⟩,
  ⟨"ORX(k).IRC word 1", 0x180014, [(0x100, 4)], .orx, 0x0, 0x0, [⟨16, 16, .rw⟩, ⟨0, 16, .rw⟩]⟩,
  ⟨"ORX(k).STAT", 0x180020, [(0x100, 4)], .orx, 0x0, 0x0, [⟨31, 1, .w1c⟩, ⟨30, 1, .ro⟩, ⟨8, 4, .ro⟩, ⟨0, 3, .ro⟩]⟩,
  ⟨"ORX(k).SLOTS", 0x180024, [(0x100, 4)], .orx, 0x0, 0x0, [⟨16, 16, .ro⟩, ⟨0, 16, .rc⟩]⟩,
  ⟨"ORX(k).REVISIT_MAX", 0x180028, [(0x100, 4)], .orx, 0x0, 0x0, [⟨0, 16, .rc⟩]⟩]

/-- The register words of block LN (1) (spec/09_serial_lanes.md). -/
def rowsLn1 : List RegRow := [
  ⟨"LNF.PORT_CTRL", 0x1a0000, [], .always, 0xc01, 0x0, [⟨8, 5, .rw⟩, ⟨2, 1, .rw⟩, ⟨1, 1, .ro⟩, ⟨0, 1, .rw⟩]⟩,
  ⟨"LNF.PORT_LAT", 0x1a0004, [], .always, 0x200, 0x0, [⟨0, 12, .rw⟩]⟩,
  ⟨"LNF.PORT_SLIP_DWELL", 0x1a0008, [], .always, 0x28, 0x0, [⟨0, 12, .rw⟩]⟩,
  ⟨"LNF.PORT_STATUS", 0x1a000c, [], .always, 0x0, 0x0, [⟨31, 1, .ro⟩, ⟨16, 5, .ro⟩, ⟨0, 16, .ro⟩]⟩,
  ⟨"LNF.PORT_MASKS", 0x1a0010, [], .always, 0x0, 0x0, [⟨16, 16, .ro⟩, ⟨0, 16, .ro⟩]⟩,
  ⟨"LNF.PORT_STAT", 0x1a0014, [], .always, 0x0, 0x0, [⟨16, 16, .rc⟩, ⟨0, 16, .rc⟩]⟩,
  ⟨"LNF.LANE(l).CTRL", 0x1a0100, [(0x40, 16)], .always, 0x81001, 0x0, [⟨16, 4, .rw⟩, ⟨12, 1, .rw⟩, ⟨9, 1, .wo⟩, ⟨8, 1, .wo⟩, ⟨4, 2, .rw⟩, ⟨0, 1, .rw⟩]⟩,
  ⟨"LNF.LANE(l).STATUS", 0x1a0104, [(0x40, 16)], .always, 0x800, 0x0, [⟨31, 1, .ro⟩, ⟨30, 1, .ro⟩, ⟨29, 1, .ro⟩, ⟨28, 1, .ro⟩, ⟨27, 1, .ro⟩, ⟨26, 1, .ro⟩, ⟨24, 2, .ro⟩, ⟨16, 7, .ro⟩, ⟨8, 4, .ro⟩]⟩,
  ⟨"LNF.LANE(l).SH_ERR", 0x1a0108, [(0x40, 16)], .always, 0x0, 0x0, [⟨16, 16, .rc⟩, ⟨0, 16, .rc⟩]⟩,
  ⟨"LNF.LANE(l).LINK_ERR", 0x1a010c, [(0x40, 16)], .always, 0x0, 0x0, [⟨24, 8, .rc⟩, ⟨16, 8, .rc⟩, ⟨0, 16, .rc⟩]⟩,
  ⟨"LNC0.PORT_CTRL", 0x1b0000, [], .always, 0xc05, 0x0, [⟨8, 5, .rw⟩, ⟨2, 1, .rw⟩, ⟨1, 1, .rw⟩, ⟨0, 1, .rw⟩]⟩,
  ⟨"LNC0.PORT_LAT", 0x1b0004, [], .always, 0x200, 0x0, [⟨0, 12, .rw⟩]⟩,
  ⟨"LNC0.PORT_SLIP_DWELL", 0x1b0008, [], .always, 0x28, 0x0, [⟨0, 12, .rw⟩]⟩,
  ⟨"LNC0.PORT_STATUS", 0x1b000c, [], .always, 0x0, 0x0, [⟨31, 1, .ro⟩, ⟨16, 5, .ro⟩, ⟨0, 16, .ro⟩]⟩,
  ⟨"LNC0.PORT_MASKS", 0x1b0010, [], .always, 0x0, 0x0, [⟨16, 16, .ro⟩, ⟨0, 16, .ro⟩]⟩,
  ⟨"LNC0.PORT_STAT", 0x1b0014, [], .always, 0x0, 0x0, [⟨16, 16, .rc⟩, ⟨0, 16, .rc⟩]⟩,
  ⟨"LNC1.PORT_CTRL", 0x1b0080, [], .always, 0xc05, 0x0, [⟨8, 5, .rw⟩, ⟨2, 1, .rw⟩, ⟨1, 1, .rw⟩, ⟨0, 1, .rw⟩]⟩,
  ⟨"LNC1.PORT_LAT", 0x1b0084, [], .always, 0x200, 0x0, [⟨0, 12, .rw⟩]⟩,
  ⟨"LNC1.PORT_SLIP_DWELL", 0x1b0088, [], .always, 0x28, 0x0, [⟨0, 12, .rw⟩]⟩,
  ⟨"LNC1.PORT_STATUS", 0x1b008c, [], .always, 0x0, 0x0, [⟨31, 1, .ro⟩, ⟨16, 5, .ro⟩, ⟨0, 16, .ro⟩]⟩]

/-- The register words of block LN (2) (spec/09_serial_lanes.md). -/
def rowsLn2 : List RegRow := [
  ⟨"LNC1.PORT_MASKS", 0x1b0090, [], .always, 0x0, 0x0, [⟨16, 16, .ro⟩, ⟨0, 16, .ro⟩]⟩,
  ⟨"LNC1.PORT_STAT", 0x1b0094, [], .always, 0x0, 0x0, [⟨16, 16, .rc⟩, ⟨0, 16, .rc⟩]⟩,
  ⟨"LNC0.LANE(l).CTRL", 0x1b0100, [(0x40, 16)], .always, 0x81001, 0x0, [⟨16, 4, .rw⟩, ⟨12, 1, .rw⟩, ⟨9, 1, .wo⟩, ⟨8, 1, .wo⟩, ⟨4, 2, .rw⟩, ⟨0, 1, .rw⟩]⟩,
  ⟨"LNC0.LANE(l).STATUS", 0x1b0104, [(0x40, 16)], .always, 0x800, 0x0, [⟨31, 1, .ro⟩, ⟨30, 1, .ro⟩, ⟨29, 1, .ro⟩, ⟨28, 1, .ro⟩, ⟨27, 1, .ro⟩, ⟨26, 1, .ro⟩, ⟨24, 2, .ro⟩, ⟨16, 7, .ro⟩, ⟨8, 4, .ro⟩]⟩,
  ⟨"LNC0.LANE(l).SH_ERR", 0x1b0108, [(0x40, 16)], .always, 0x0, 0x0, [⟨16, 16, .rc⟩, ⟨0, 16, .rc⟩]⟩,
  ⟨"LNC0.LANE(l).LINK_ERR", 0x1b010c, [(0x40, 16)], .always, 0x0, 0x0, [⟨24, 8, .rc⟩, ⟨16, 8, .rc⟩, ⟨0, 16, .rc⟩]⟩,
  ⟨"LNC1.LANE(l).CTRL", 0x1b0500, [(0x40, 16)], .always, 0x81001, 0x0, [⟨16, 4, .rw⟩, ⟨12, 1, .rw⟩, ⟨9, 1, .wo⟩, ⟨8, 1, .wo⟩, ⟨4, 2, .rw⟩, ⟨0, 1, .rw⟩]⟩,
  ⟨"LNC1.LANE(l).STATUS", 0x1b0504, [(0x40, 16)], .always, 0x800, 0x0, [⟨31, 1, .ro⟩, ⟨30, 1, .ro⟩, ⟨29, 1, .ro⟩, ⟨28, 1, .ro⟩, ⟨27, 1, .ro⟩, ⟨26, 1, .ro⟩, ⟨24, 2, .ro⟩, ⟨16, 7, .ro⟩, ⟨8, 4, .ro⟩]⟩,
  ⟨"LNC1.LANE(l).SH_ERR", 0x1b0508, [(0x40, 16)], .always, 0x0, 0x0, [⟨16, 16, .rc⟩, ⟨0, 16, .rc⟩]⟩,
  ⟨"LNC1.LANE(l).LINK_ERR", 0x1b050c, [(0x40, 16)], .always, 0x0, 0x0, [⟨24, 8, .rc⟩, ⟨16, 8, .rc⟩, ⟨0, 16, .rc⟩]⟩]

/-- The register words of block LN. -/
def rowsLn : List RegRow := rowsLn1 ++ rowsLn2

/-- The register words of block BXL (spec/10_bxl_protocol.md). -/
def rowsBxl : List RegRow := [
  ⟨"BXL.CTRL", 0x1c0000, [], .always, 0x30201, 0x0, [⟨16, 4, .rw⟩, ⟨8, 4, .rw⟩, ⟨0, 1, .rw⟩]⟩,
  ⟨"BXL.ORPHAN_TIMEOUT", 0x1c0004, [], .always, 0x3e8, 0x0, [⟨0, 16, .rw⟩]⟩,
  ⟨"BXL.PARTNER_STAT", 0x1c0008, [], .always, 0x0, 0x0, [⟨16, 16, .rc⟩, ⟨0, 16, .rc⟩]⟩,
  ⟨"BXL.LEASE_ACK(w)", 0x1c0010, [(0x4, 4)], .always, 0x0, 0x0, [⟨0, 32, .ro⟩]⟩,
  ⟨"BXL.ORPHAN(w)", 0x1c0020, [(0x4, 4)], .always, 0x0, 0x0, [⟨0, 32, .ro⟩]⟩,
  ⟨"BXL.RX(p)", 0x1c0100, [(0x20, 3)], .always, 0x0, 0x0, [⟨16, 16, .rc⟩, ⟨0, 16, .rc⟩]⟩,
  ⟨"BXL.RX(p) word 1", 0x1c0104, [(0x20, 3)], .always, 0x0, 0x0, [⟨16, 16, .rc⟩, ⟨0, 16, .rc⟩]⟩,
  ⟨"BXL.RX(p) word 2", 0x1c0108, [(0x20, 3)], .always, 0x0, 0x0, [⟨16, 16, .rc⟩, ⟨0, 16, .rc⟩]⟩,
  ⟨"BXL.RX(p) word 3", 0x1c010c, [(0x20, 3)], .always, 0x0, 0x0, [⟨16, 16, .rc⟩, ⟨0, 16, .rc⟩]⟩,
  ⟨"BXL.RX(p) word 4", 0x1c0110, [(0x20, 3)], .always, 0x0, 0x0, [⟨0, 32, .ro⟩]⟩,
  ⟨"BXL.RX(p) word 5", 0x1c0114, [(0x20, 3)], .always, 0x0, 0x0, [⟨8, 8, .ro⟩, ⟨0, 8, .ro⟩]⟩,
  ⟨"BXL.PARTNER(i)", 0x1c0200, [(0x20, 32)], .always, 0x0, 0x0, [⟨0, 32, .ro⟩]⟩,
  ⟨"BXL.PARTNER(i) word 1", 0x1c0204, [(0x20, 32)], .always, 0x0, 0x0, [⟨16, 8, .ro⟩, ⟨8, 4, .ro⟩, ⟨0, 3, .ro⟩]⟩,
  ⟨"BXL.PARTNER(i) word 2", 0x1c0208, [(0x20, 32)], .always, 0x0, 0x0, [⟨0, 32, .ro⟩]⟩,
  ⟨"BXL.PARTNER(i) word 3", 0x1c020c, [(0x20, 32)], .always, 0x0, 0x0, [⟨0, 32, .ro⟩]⟩,
  ⟨"BXL.PARTNER(i) word 4", 0x1c0210, [(0x20, 32)], .always, 0x0, 0x0, [⟨30, 2, .ro⟩]⟩,
  ⟨"BXL.PARTNER(i) word 5", 0x1c0214, [(0x20, 32)], .always, 0x0, 0x0, [⟨0, 32, .ro⟩]⟩,
  ⟨"BXL.FI(p, s)", 0x1c0800, [(0x40, 3), (0x8, 8)], .always, 0x0, 0x0, [⟨0, 32, .rc⟩]⟩,
  ⟨"BXL.FI(p, s) word 1", 0x1c0804, [(0x40, 3), (0x8, 8)], .always, 0x0, 0x0, [⟨31, 1, .ro⟩, ⟨8, 8, .ro⟩, ⟨0, 3, .ro⟩]⟩]

/-- The register words of block CAS (spec/11_cascade.md). -/
def rowsCas : List RegRow := [
  ⟨"CAS.CTRL", 0x1d0000, [], .always, 0x0, 0x0, [⟨8, 4, .rw⟩]⟩,
  ⟨"CAS.STATUS", 0x1d0004, [], .always, 0x10000, 0x0, [⟨31, 1, .ro⟩, ⟨30, 1, .ro⟩, ⟨29, 1, .ro⟩, ⟨28, 1, .ro⟩, ⟨24, 4, .ro⟩, ⟨16, 5, .ro⟩, ⟨0, 2, .ro⟩]⟩,
  ⟨"CAS.UL_ALLOW", 0x1d0008, [], .always, 0x2000, 0x0, [⟨0, 16, .rw⟩]⟩,
  ⟨"CAS.FEATURE", 0x1d000c, [], .always, 0x0, 0x0, [⟨8, 8, .ro⟩, ⟨0, 8, .ro⟩]⟩,
  ⟨"CAS.SYNC_OFFSET", 0x1d0010, [], .always, 0x0, 0x0, [⟨0, 32, .ro⟩]⟩,
  ⟨"CAS.WAIT_MAX", 0x1d0014, [], .always, 0x0, 0x0, [⟨0, 16, .rc⟩]⟩,
  ⟨"CAS.STAT", 0x1d0018, [], .always, 0x0, 0x0, [⟨16, 16, .rc⟩, ⟨0, 16, .rc⟩]⟩,
  ⟨"CAS.STAT2", 0x1d001c, [], .always, 0x0, 0x0, [⟨16, 16, .rc⟩, ⟨0, 16, .rc⟩]⟩,
  ⟨"CAS.CANDLE", 0x1d0020, [], .always, 0x400003c, 0x0, [⟨16, 16, .rw⟩, ⟨0, 8, .rw⟩]⟩,
  ⟨"CAS.CANDLE_BURST", 0x1d0024, [], .always, 0x80, 0x0, [⟨0, 12, .rw⟩]⟩,
  ⟨"CAS.CHAIN_E", 0x1d0028, [], .always, 0x0, 0x0, [⟨0, 32, .ro⟩]⟩,
  ⟨"CAS.CHAIN_E word 1", 0x1d002c, [], .always, 0x0, 0x0, [⟨0, 32, .ro⟩]⟩]

/-- The register words of block MEMC (spec/13_dram.md). -/
def rowsMemc : List RegRow := [
  ⟨"MEMC.CTRL", 0x1e0000, [], .always, 0x2, 0x0, [⟨8, 1, .rw⟩, ⟨4, 1, .rw⟩, ⟨1, 1, .rw⟩, ⟨0, 1, .w1s⟩]⟩,
  ⟨"MEMC.STATUS", 0x1e0004, [], .always, 0x0, 0x0, [⟨31, 1, .ro⟩, ⟨30, 1, .ro⟩, ⟨29, 1, .ro⟩, ⟨28, 1, .ro⟩, ⟨27, 1, .ro⟩, ⟨26, 1, .ro⟩, ⟨25, 1, .ro⟩, ⟨8, 4, .ro⟩, ⟨4, 1, .ro⟩, ⟨0, 2, .ro⟩]⟩,
  ⟨"MEMC.CFG", 0x1e0008, [], .always, 0x0, 0x0, [⟨0, 2, .ro⟩]⟩,
  ⟨"MEMC.IDLE_SR", 0x1e000c, [], .always, 0x64, 0x0, [⟨0, 14, .rw⟩]⟩,
  ⟨"MEMC.RETRAIN", 0x1e0010, [], .always, 0x0, 0x0, [⟨16, 16, .rc⟩, ⟨0, 16, .ro⟩]⟩,
  ⟨"MEMC.SR_STAT", 0x1e0014, [], .always, 0x0, 0x0, [⟨16, 16, .rc⟩, ⟨0, 16, .ro⟩]⟩,
  ⟨"MEMC.REQ_STAT", 0x1e0018, [], .always, 0x0, 0x0, [⟨16, 16, .rc⟩, ⟨0, 7, .rc⟩]⟩]

/-- The register words of block HKM (spec/14_bias_and_monitor.md). -/
def rowsHkm : List RegRow := [
  ⟨"HKM.DAC(d).SET", 0x1f0000, [(0x8, 80)], .dac, 0xff001000, 0x0, [⟨24, 8, .rw⟩, ⟨12, 12, .rw⟩, ⟨0, 12, .rw⟩]⟩,
  ⟨"HKM.DAC(d).STAT", 0x1f0004, [(0x8, 80)], .dac, 0x40000000, 0x0, [⟨31, 1, .ro⟩, ⟨30, 1, .ro⟩, ⟨16, 12, .ro⟩, ⟨0, 12, .ro⟩]⟩,
  ⟨"HKM.HUSK_RELEASE", 0x1f0300, [], .always, 0x0, 0x0, [⟨0, 8, .w1s⟩]⟩,
  ⟨"HKM.HUSK_SET", 0x1f0304, [], .always, 0x0, 0x0, [⟨0, 8, .w1s⟩]⟩,
  ⟨"HKM.HUSK_STATUS", 0x1f0308, [], .always, 0xff, 0x0, [⟨0, 8, .ro⟩]⟩,
  ⟨"HKM.HUSK_CAUSE", 0x1f030c, [], .always, 0x1, 0x0, [⟨3, 1, .w1c⟩, ⟨2, 1, .w1c⟩, ⟨1, 1, .w1c⟩, ⟨0, 1, .w1c⟩]⟩,
  ⟨"HKM.STROBE", 0x1f0310, [], .always, 0x0, 0x0, [⟨0, 8, .w1s⟩]⟩,
  ⟨"HKM.LDB", 0x1f0314, [], .always, 0x0, 0x0, [⟨16, 16, .rc⟩, ⟨0, 8, .rw⟩]⟩]

/-- The register words of block MON (spec/14_bias_and_monitor.md). -/
def rowsMon : List RegRow := [
  ⟨"MON(k).CFG", 0x1f0400, [(0x100, 4)], .always, 0x3, 0x0, [⟨0, 2, .rw⟩]⟩,
  ⟨"MON(k).SCAN", 0x1f0404, [(0x100, 4)], .always, 0x0, 0x0, [⟨31, 1, .ro⟩, ⟨30, 1, .ro⟩, ⟨28, 2, .ro⟩, ⟨27, 1, .ro⟩, ⟨0, 24, .ro⟩]⟩,
  ⟨"MON(k).STAT", 0x1f0408, [(0x100, 4)], .always, 0x0, 0x0, [⟨16, 16, .rc⟩, ⟨11, 5, .ro⟩, ⟨0, 10, .ro⟩]⟩,
  ⟨"MON(k).OVR", 0x1f040c, [(0x100, 4)], .always, 0x0, 0x0, [⟨0, 24, .w1c⟩]⟩,
  ⟨"MON(k).FIFO", 0x1f0410, [(0x100, 4)], .always, 0x0, 0x0, [⟨0, 32, .rc⟩]⟩,
  ⟨"MON(k).FIFO word 1", 0x1f0414, [(0x100, 4)], .always, 0x0, 0x0, [⟨0, 32, .ro⟩]⟩,
  ⟨"MON(k).RESULT(i)", 0x1f0440, [(0x100, 4), (0x4, 24)], .always, 0x0, 0x0, [⟨31, 1, .ro⟩, ⟨30, 1, .ro⟩, ⟨29, 1, .ro⟩, ⟨0, 20, .ro⟩]⟩]

/-- The register words of block PWR (spec/15_power_and_boot.md). -/
def rowsPwr : List RegRow := [
  ⟨"PWR.MODE", 0x200000, [], .always, 0x0, 0x0, [⟨8, 1, .ro⟩, ⟨4, 3, .ro⟩, ⟨0, 2, .rw⟩]⟩,
  ⟨"PWR.DOMAIN", 0x200004, [], .always, 0x40007, 0x0, [⟨0, 19, .ro⟩]⟩,
  ⟨"PWR.STAT", 0x200008, [], .always, 0x0, 0x0, [⟨16, 16, .rc⟩, ⟨0, 16, .ro⟩]⟩,
  ⟨"PWR.WICK_RETAIN", 0x200100, [], .always, 0x0, 0x0, [⟨0, 32, .rw⟩]⟩,
  ⟨"PWR.WICK_CFG", 0x200104, [], .always, 0x0, 0x0, [⟨1, 1, .rw⟩, ⟨0, 1, .rw⟩]⟩,
  ⟨"PWR.WICK_WAKE_TIMER", 0x200108, [], .always, 0x0, 0x0, [⟨0, 32, .rw⟩]⟩,
  ⟨"PWR.WICK_WAKE_REQ", 0x20010c, [], .always, 0x0, 0x0, [⟨0, 1, .w1s⟩]⟩,
  ⟨"PWR.WICK_CAUSE", 0x200110, [], .always, 0x0, 0x0, [⟨4, 3, .ro⟩, ⟨3, 1, .ro⟩, ⟨0, 3, .ro⟩]⟩,
  ⟨"PWR.WICK_FAIL", 0x200114, [], .always, 0x0, 0x0, [⟨31, 1, .w1c⟩, ⟨16, 2, .ro⟩, ⟨8, 8, .rc⟩, ⟨0, 4, .ro⟩]⟩,
  ⟨"PWR.WICK_SLEEP_TIME", 0x200118, [], .always, 0x0, 0x0, [⟨0, 32, .ro⟩]⟩,
  ⟨"PWR.WICK_SLEEP_TIME word 1", 0x20011c, [], .always, 0x0, 0x0, [⟨0, 16, .ro⟩]⟩,
  ⟨"PWR.WICK_BLOCKED", 0x200120, [], .always, 0x0, 0x0, [⟨16, 16, .rc⟩, ⟨0, 16, .rc⟩]⟩,
  ⟨"PWR.WICK_RAILS", 0x200124, [], .always, 0x0, 0x0, [⟨8, 8, .ro⟩, ⟨0, 8, .ro⟩]⟩]

/-- The register words of block TRUST (spec/16_firmware_trust.md). -/
def rowsTrust : List RegRow := [
  ⟨"TRUST.ROM_VER", 0x210000, [], .always, 0x0, 0x0, [⟨0, 32, .ro⟩]⟩,
  ⟨"TRUST.BOOT", 0x210004, [], .always, 0x0, 0x0, [⟨31, 1, .ro⟩, ⟨24, 4, .ro⟩, ⟨0, 23, .rw⟩]⟩,
  ⟨"TRUST.BOOT.STATE", 0x210008, [], .always, 0x0, 0x0, [⟨0, 2, .ro⟩]⟩,
  ⟨"TRUST.FW_VERSION", 0x21000c, [], .always, 0x0, 0x0, [⟨24, 8, .ro⟩, ⟨16, 8, .ro⟩, ⟨8, 8, .ro⟩, ⟨0, 7, .ro⟩]⟩,
  ⟨"TRUST.FUSE_STATE", 0x210010, [], .always, 0x0, 0x0, [⟨8, 2, .ro⟩, ⟨7, 1, .ro⟩, ⟨0, 7, .ro⟩]⟩,
  ⟨"TRUST.STAGE", 0x210014, [], .always, 0x0, 0x0, [⟨27, 5, .rw⟩, ⟨0, 23, .rw⟩]⟩,
  ⟨"TRUST.STAGE_CTRL", 0x210018, [], .always, 0x0, 0x0, [⟨1, 1, .w1s⟩, ⟨0, 1, .w1s⟩]⟩,
  ⟨"TRUST.STAGE_STAT", 0x21001c, [], .always, 0x0, 0x0, [⟨4, 4, .ro⟩, ⟨3, 1, .ro⟩, ⟨0, 2, .ro⟩]⟩,
  ⟨"TRUST.FUSE_PROG", 0x210020, [], .always, 0x0, 0x0, [⟨31, 1, .w1s⟩, ⟨30, 1, .ro⟩, ⟨28, 2, .ro⟩, ⟨8, 2, .rw⟩, ⟨0, 7, .rw⟩]⟩,
  ⟨"TRUST.FUSE_DATA(i)", 0x210040, [(0x4, 16)], .always, 0x0, 0x0, [⟨0, 32, .rw⟩]⟩,
  ⟨"TRUST.FW_DIGEST(i)", 0x210100, [(0x4, 16)], .always, 0x0, 0x0, [⟨0, 32, .ro⟩]⟩,
  ⟨"TRUST.STAGE_DIGEST(i)", 0x210140, [(0x4, 16)], .always, 0x0, 0x0, [⟨0, 32, .ro⟩]⟩,
  ⟨"TRUST.KEY_HASH(s, i)", 0x210200, [(0x40, 2), (0x4, 16)], .always, 0x0, 0x0, [⟨0, 32, .ro⟩]⟩]

/-- The register words of block PMC (spec/17_counters.md). -/
def rowsPmc : List RegRow := [
  ⟨"PMC(a).CTL", 0x220000, [(0x100, 4)], .always, 0x0, 0x0, [⟨1, 1, .wo⟩, ⟨0, 1, .rw⟩]⟩,
  ⟨"PMC(a).CYCLE", 0x220008, [(0x100, 4)], .always, 0x0, 0x0, [⟨0, 32, .rw⟩]⟩,
  ⟨"PMC(a).CYCLE word 1", 0x22000c, [(0x100, 4)], .always, 0x0, 0x0, [⟨0, 32, .rw⟩]⟩,
  ⟨"PMC(a).OVF", 0x220010, [(0x100, 4)], .always, 0x0, 0x0, [⟨0, 8, .w1c⟩]⟩,
  ⟨"PMC(a).EVSEL(i)", 0x220020, [(0x100, 4), (0x4, 8)], .always, 0x0, 0x0, [⟨0, 8, .rw⟩]⟩,
  ⟨"PMC(a).CNT(i)", 0x220040, [(0x100, 4), (0x8, 8)], .always, 0x0, 0x0, [⟨0, 32, .rw⟩]⟩,
  ⟨"PMC(a).CNT(i) word 1", 0x220044, [(0x100, 4), (0x8, 8)], .always, 0x0, 0x0, [⟨0, 16, .rw⟩]⟩,
  ⟨"PMC(a).SAMP", 0x220080, [(0x100, 4)], .always, 0x0, 0x0, [⟨31, 1, .rw⟩, ⟨0, 8, .rw⟩]⟩,
  ⟨"PMC(a).SAMP_N", 0x220084, [(0x100, 4)], .always, 0x1000, 0x0, [⟨0, 24, .rw⟩]⟩,
  ⟨"PMC.SAMP_CTRL", 0x220800, [], .always, 0x0, 0x0, [⟨0, 1, .rw⟩]⟩,
  ⟨"PMC.SAMP_BASE", 0x220804, [], .always, 0x0, 0x0, [⟨16, 8, .rw⟩]⟩,
  ⟨"PMC.SAMP_WR", 0x220808, [], .always, 0x0, 0x0, [⟨16, 16, .ro⟩, ⟨12, 1, .ro⟩, ⟨0, 12, .rw⟩]⟩,
  ⟨"PMC.SAMP_LOST", 0x22080c, [], .always, 0x0, 0x0, [⟨0, 32, .rc⟩]⟩]

/-- The register rows of the block that an address lies in (the table "Block index", R498). -/
def rowsAt (a : Nat) : List RegRow :=
  if a < 0x10000 then rowsGlb
  else if a < 0x20000 then rowsTime
  else if a < 0x30000 then rowsHost
  else if a < 0x40000 then rowsDma
  else if a < 0x80000 then rowsBeam
  else if a < 0xc0000 then rowsTxp
  else if a < 0x100000 then rowsRxp
  else if a < 0x140000 then rowsDpd
  else if a < 0x180000 then rowsRad
  else if a < 0x1a0000 then rowsOrx
  else if a < 0x1c0000 then rowsLn
  else if a < 0x1d0000 then rowsBxl
  else if a < 0x1e0000 then rowsCas
  else if a < 0x1f0000 then rowsMemc
  else if a < 0x1f0400 then rowsHkm
  else if a < 0x200000 then rowsMon
  else if a < 0x210000 then rowsPwr
  else if a < 0x220000 then rowsTrust
  else if a < 0x230000 then rowsPmc
  else []

/-- The base of the registers of port `q` (0 front, 1 parent, 2 child; spec/09_serial_lanes.md). -/
def portBase (q : Nat) : Nat := if q = 0 then 0x1a0000 else if q = 1 then 0x1b0000 else 0x1b0080

/-- The base of the registers of lane `l` of port `q`. -/
def laneBase (q l : Nat) : Nat := (if q = 0 then 0x1a0100 else if q = 1 then 0x1b0100 else 0x1b0500) + 0x40 * l

/-- GLB.STRAPS (spec/19_register_map.md). -/
def A.GLB_STRAPS : Reg := ⟨0x10, 0x0⟩
/-- GLB.STRAPS.BOOT_SEL. -/
def F.GLB_STRAPS_BOOT_SEL : Fld := ⟨A.GLB_STRAPS, 2, 2⟩
/-- GLB.STRAPS.CASC_ROLE. -/
def F.GLB_STRAPS_CASC_ROLE : Fld := ⟨A.GLB_STRAPS, 0, 2⟩

/-- GLB.STATUS (spec/19_register_map.md). -/
def A.GLB_STATUS : Reg := ⟨0x14, 0x0⟩
/-- GLB.STATUS.READY. -/
def F.GLB_STATUS_READY : Fld := ⟨A.GLB_STATUS, 31, 1⟩
/-- GLB.STATUS.FW_RUN. -/
def F.GLB_STATUS_FW_RUN : Fld := ⟨A.GLB_STATUS, 30, 1⟩
/-- GLB.STATUS.PHASE. -/
def F.GLB_STATUS_PHASE : Fld := ⟨A.GLB_STATUS, 0, 3⟩

/-- TIME.CLK_CTRL (spec/01_clocks_and_time.md). -/
def A.TIME_CLK_CTRL : Reg := ⟨0x10000, 0x1⟩
/-- TIME.CLK_CTRL.LANE_EN. -/
def F.TIME_CLK_CTRL_LANE_EN : Fld := ⟨A.TIME_CLK_CTRL, 1, 1⟩
/-- TIME.CLK_CTRL.ROOT_EN. -/
def F.TIME_CLK_CTRL_ROOT_EN : Fld := ⟨A.TIME_CLK_CTRL, 0, 1⟩

/-- TIME.CLK_STATUS (spec/01_clocks_and_time.md). -/
def A.TIME_CLK_STATUS : Reg := ⟨0x10004, 0x0⟩
/-- TIME.CLK_STATUS.TICK_VALID. -/
def F.TIME_CLK_STATUS_TICK_VALID : Fld := ⟨A.TIME_CLK_STATUS, 3, 1⟩
/-- TIME.CLK_STATUS.UNLOCK_STICKY. -/
def F.TIME_CLK_STATUS_UNLOCK_STICKY : Fld := ⟨A.TIME_CLK_STATUS, 2, 1⟩
/-- TIME.CLK_STATUS.LANE_LOCK. -/
def F.TIME_CLK_STATUS_LANE_LOCK : Fld := ⟨A.TIME_CLK_STATUS, 1, 1⟩
/-- TIME.CLK_STATUS.ROOT_LOCK. -/
def F.TIME_CLK_STATUS_ROOT_LOCK : Fld := ⟨A.TIME_CLK_STATUS, 0, 1⟩

/-- TIME.TICK_HI (spec/01_clocks_and_time.md). -/
def A.TIME_TICK_HI : Reg := ⟨0x10014, 0x0⟩

/-- TIME.SYNC_CTRL (spec/01_clocks_and_time.md). -/
def A.TIME_SYNC_CTRL : Reg := ⟨0x10020, 0x0⟩
/-- TIME.SYNC_CTRL.COMP. -/
def F.TIME_SYNC_CTRL_COMP : Fld := ⟨A.TIME_SYNC_CTRL, 8, 6⟩
/-- TIME.SYNC_CTRL.OUT_MODE. -/
def F.TIME_SYNC_CTRL_OUT_MODE : Fld := ⟨A.TIME_SYNC_CTRL, 4, 2⟩
/-- TIME.SYNC_CTRL.ARMED. -/
def F.TIME_SYNC_CTRL_ARMED : Fld := ⟨A.TIME_SYNC_CTRL, 3, 1⟩
/-- TIME.SYNC_CTRL.MODE. -/
def F.TIME_SYNC_CTRL_MODE : Fld := ⟨A.TIME_SYNC_CTRL, 0, 2⟩

/-- TIME.SYNC_VALUE (spec/01_clocks_and_time.md). -/
def A.TIME_SYNC_VALUE : Reg := ⟨0x10024, 0x0⟩

/-- TIME.SYNC_VALUE word 1 (spec/01_clocks_and_time.md). -/
def A.TIME_SYNC_VALUE_1 : Reg := ⟨0x10028, 0x0⟩

/-- TIME.SYNC_OUT_TICK (spec/01_clocks_and_time.md). -/
def A.TIME_SYNC_OUT_TICK : Reg := ⟨0x10030, 0xffffffff⟩

/-- TIME.SYNC_OUT_TICK word 1 (spec/01_clocks_and_time.md). -/
def A.TIME_SYNC_OUT_TICK_1 : Reg := ⟨0x10034, 0xffffffff⟩

/-- TIME.SYNC_LAST (spec/01_clocks_and_time.md). -/
def A.TIME_SYNC_LAST : Reg := ⟨0x10038, 0x0⟩

/-- TIME.SYNC_LAST word 1 (spec/01_clocks_and_time.md). -/
def A.TIME_SYNC_LAST_1 : Reg := ⟨0x1003c, 0x0⟩

/-- TIME.SYNC_COUNT (spec/01_clocks_and_time.md). -/
def A.TIME_SYNC_COUNT : Reg := ⟨0x10040, 0x0⟩
/-- TIME.SYNC_COUNT.CHECKED. -/
def F.TIME_SYNC_COUNT_CHECKED : Fld := ⟨A.TIME_SYNC_COUNT, 16, 16⟩
/-- TIME.SYNC_COUNT.APPLIED. -/
def F.TIME_SYNC_COUNT_APPLIED : Fld := ⟨A.TIME_SYNC_COUNT, 0, 16⟩

/-- TIME.TDD_CTRL (spec/01_clocks_and_time.md). -/
def A.TIME_TDD_CTRL : Reg := ⟨0x10050, 0x0⟩
/-- TIME.TDD_CTRL.RUNNING. -/
def F.TIME_TDD_CTRL_RUNNING : Fld := ⟨A.TIME_TDD_CTRL, 5, 1⟩
/-- TIME.TDD_CTRL.ACTIVE_BANK. -/
def F.TIME_TDD_CTRL_ACTIVE_BANK : Fld := ⟨A.TIME_TDD_CTRL, 4, 1⟩
/-- TIME.TDD_CTRL.ENABLE. -/
def F.TIME_TDD_CTRL_ENABLE : Fld := ⟨A.TIME_TDD_CTRL, 0, 1⟩

/-- TIME.TDD_PERIOD(b) (spec/01_clocks_and_time.md). -/
def A.TIME_TDD_PERIOD (b : Nat) : Reg := ⟨0x10054 + 0x4 * b, 0x0⟩
/-- TIME.TDD_PERIOD(b).PERIOD. -/
def F.TIME_TDD_PERIOD_PERIOD (b : Nat) : Fld := ⟨A.TIME_TDD_PERIOD b, 0, 24⟩

/-- TIME.QUEUE (spec/01_clocks_and_time.md). -/
def A.TIME_QUEUE : Reg := ⟨0x10060, 0x0⟩
/-- TIME.QUEUE.PEAK. -/
def F.TIME_QUEUE_PEAK : Fld := ⟨A.TIME_QUEUE, 16, 10⟩
/-- TIME.QUEUE.DEPTH. -/
def F.TIME_QUEUE_DEPTH : Fld := ⟨A.TIME_QUEUE, 0, 10⟩

/-- TIME.LATE_COUNT (spec/01_clocks_and_time.md). -/
def A.TIME_LATE_COUNT : Reg := ⟨0x10064, 0x0⟩
/-- TIME.LATE_COUNT.COUNT. -/
def F.TIME_LATE_COUNT_COUNT : Fld := ⟨A.TIME_LATE_COUNT, 0, 32⟩

/-- TIME.SWAP_LOG_CTRL (spec/01_clocks_and_time.md). -/
def A.TIME_SWAP_LOG_CTRL : Reg := ⟨0x10070, 0x0⟩
/-- TIME.SWAP_LOG_CTRL.SIZE. -/
def F.TIME_SWAP_LOG_CTRL_SIZE : Fld := ⟨A.TIME_SWAP_LOG_CTRL, 4, 16⟩
/-- TIME.SWAP_LOG_CTRL.LOC. -/
def F.TIME_SWAP_LOG_CTRL_LOC : Fld := ⟨A.TIME_SWAP_LOG_CTRL, 0, 2⟩

/-- TIME.SWAP_LOG_BASE (spec/01_clocks_and_time.md). -/
def A.TIME_SWAP_LOG_BASE : Reg := ⟨0x10074, 0x0⟩

/-- TIME.SWAP_LOG_BASE word 1 (spec/01_clocks_and_time.md). -/
def A.TIME_SWAP_LOG_BASE_1 : Reg := ⟨0x10078, 0x0⟩

/-- TIME.SWAP_LOG_WR (spec/01_clocks_and_time.md). -/
def A.TIME_SWAP_LOG_WR : Reg := ⟨0x1007c, 0x0⟩
/-- TIME.SWAP_LOG_WR.WR. -/
def F.TIME_SWAP_LOG_WR_WR : Fld := ⟨A.TIME_SWAP_LOG_WR, 0, 16⟩

/-- TIME.SWAP_LOG_RD (spec/01_clocks_and_time.md). -/
def A.TIME_SWAP_LOG_RD : Reg := ⟨0x10080, 0x0⟩
/-- TIME.SWAP_LOG_RD.RD. -/
def F.TIME_SWAP_LOG_RD_RD : Fld := ⟨A.TIME_SWAP_LOG_RD, 0, 16⟩

/-- TIME.TDD_ENTRY(b, i) (spec/01_clocks_and_time.md). -/
def A.TIME_TDD_ENTRY (b i : Nat) : Reg := ⟨0x10100 + 0x100 * b + 0x4 * i, 0x0⟩
/-- TIME.TDD_ENTRY(b, i).VALID. -/
def F.TIME_TDD_ENTRY_VALID (b i : Nat) : Fld := ⟨A.TIME_TDD_ENTRY b i, 31, 1⟩
/-- TIME.TDD_ENTRY(b, i).CAL. -/
def F.TIME_TDD_ENTRY_CAL (b i : Nat) : Fld := ⟨A.TIME_TDD_ENTRY b i, 26, 1⟩
/-- TIME.TDD_ENTRY(b, i).KIND. -/
def F.TIME_TDD_ENTRY_KIND (b i : Nat) : Fld := ⟨A.TIME_TDD_ENTRY b i, 24, 2⟩
/-- TIME.TDD_ENTRY(b, i).OFFSET. -/
def F.TIME_TDD_ENTRY_OFFSET (b i : Nat) : Fld := ⟨A.TIME_TDD_ENTRY b i, 0, 24⟩

/-- HOST.IF_CTRL (spec/02_host_rings.md). -/
def A.HOST_IF_CTRL : Reg := ⟨0x20000, 0x0⟩
/-- HOST.IF_CTRL.COUNTER_EXPOSE. -/
def F.HOST_IF_CTRL_COUNTER_EXPOSE : Fld := ⟨A.HOST_IF_CTRL, 0, 1⟩

/-- HOST.POLL_INTERVAL (spec/02_host_rings.md). -/
def A.HOST_POLL_INTERVAL : Reg := ⟨0x20010, 0x3d7⟩
/-- HOST.POLL_INTERVAL.PERIODS. -/
def F.HOST_POLL_INTERVAL_PERIODS : Fld := ⟨A.HOST_POLL_INTERVAL, 0, 20⟩

/-- HOST.KICK (spec/02_host_rings.md). -/
def A.HOST_KICK : Reg := ⟨0x20014, 0x0⟩

/-- HOST.ACCESS_ERR (spec/02_host_rings.md). -/
def A.HOST_ACCESS_ERR : Reg := ⟨0x20018, 0x0⟩
/-- HOST.ACCESS_ERR.COUNT. -/
def F.HOST_ACCESS_ERR_COUNT : Fld := ⟨A.HOST_ACCESS_ERR, 0, 16⟩

/-- HOST.CFG_WRITES (spec/02_host_rings.md). -/
def A.HOST_CFG_WRITES : Reg := ⟨0x20020, 0x0⟩

/-- HOST.CFG_WRITES word 1 (spec/02_host_rings.md). -/
def A.HOST_CFG_WRITES_1 : Reg := ⟨0x20024, 0x0⟩

/-- HOST.DRAM_WINDOW (spec/02_host_rings.md). -/
def A.HOST_DRAM_WINDOW : Reg := ⟨0x20030, 0x0⟩
/-- HOST.DRAM_WINDOW.BASE_MIB. -/
def F.HOST_DRAM_WINDOW_BASE_MIB : Fld := ⟨A.HOST_DRAM_WINDOW, 0, 13⟩

/-- HOST.APERTURE_STATUS (spec/02_host_rings.md). -/
def A.HOST_APERTURE_STATUS : Reg := ⟨0x20034, 0x0⟩
/-- HOST.APERTURE_STATUS.MISS. -/
def F.HOST_APERTURE_STATUS_MISS : Fld := ⟨A.HOST_APERTURE_STATUS, 0, 1⟩

/-- HOST.LOST (spec/02_host_rings.md). -/
def A.HOST_LOST : Reg := ⟨0x20038, 0x0⟩
/-- HOST.LOST.EVENTS. -/
def F.HOST_LOST_EVENTS : Fld := ⟨A.HOST_LOST, 16, 16⟩
/-- HOST.LOST.COMPLETIONS. -/
def F.HOST_LOST_COMPLETIONS : Fld := ⟨A.HOST_LOST, 0, 16⟩

/-- HOST.EVT_ROUTE (spec/02_host_rings.md). -/
def A.HOST_EVT_ROUTE : Reg := ⟨0x20040, 0x0⟩

/-- HOST.CMDR(r).BASE (spec/02_host_rings.md). -/
def A.HOST_CMDR_BASE (r : Nat) : Reg := ⟨0x20100 + 0x40 * r, 0x0⟩

/-- HOST.CMDR(r).BASE word 1 (spec/02_host_rings.md). -/
def A.HOST_CMDR_BASE_1 (r : Nat) : Reg := ⟨0x20104 + 0x40 * r, 0x0⟩

/-- HOST.CMDR(r).DB (spec/02_host_rings.md). -/
def A.HOST_CMDR_DB (r : Nat) : Reg := ⟨0x20108 + 0x40 * r, 0x0⟩

/-- HOST.CMDR(r).DB word 1 (spec/02_host_rings.md). -/
def A.HOST_CMDR_DB_1 (r : Nat) : Reg := ⟨0x2010c + 0x40 * r, 0x0⟩

/-- HOST.CMDR(r).CTRL (spec/02_host_rings.md). -/
def A.HOST_CMDR_CTRL (r : Nat) : Reg := ⟨0x20110 + 0x40 * r, 0x100⟩
/-- HOST.CMDR(r).CTRL.ENABLE. -/
def F.HOST_CMDR_CTRL_ENABLE (r : Nat) : Fld := ⟨A.HOST_CMDR_CTRL r, 31, 1⟩
/-- HOST.CMDR(r).CTRL.LOG2_SIZE. -/
def F.HOST_CMDR_CTRL_LOG2_SIZE (r : Nat) : Fld := ⟨A.HOST_CMDR_CTRL r, 24, 4⟩
/-- HOST.CMDR(r).CTRL.CQ. -/
def F.HOST_CMDR_CTRL_CQ (r : Nat) : Fld := ⟨A.HOST_CMDR_CTRL r, 16, 4⟩
/-- HOST.CMDR(r).CTRL.WEIGHT. -/
def F.HOST_CMDR_CTRL_WEIGHT (r : Nat) : Fld := ⟨A.HOST_CMDR_CTRL r, 8, 5⟩

/-- HOST.CMDR(r).STATUS (spec/02_host_rings.md). -/
def A.HOST_CMDR_STATUS (r : Nat) : Reg := ⟨0x20114 + 0x40 * r, 0x0⟩
/-- HOST.CMDR(r).STATUS.HALTED. -/
def F.HOST_CMDR_STATUS_HALTED (r : Nat) : Fld := ⟨A.HOST_CMDR_STATUS r, 31, 1⟩
/-- HOST.CMDR(r).STATUS.CAUSE. -/
def F.HOST_CMDR_STATUS_CAUSE (r : Nat) : Fld := ⟨A.HOST_CMDR_STATUS r, 28, 3⟩
/-- HOST.CMDR(r).STATUS.CI_LO. -/
def F.HOST_CMDR_STATUS_CI_LO (r : Nat) : Fld := ⟨A.HOST_CMDR_STATUS r, 0, 16⟩

/-- HOST.CQR(c).BASE (spec/02_host_rings.md). -/
def A.HOST_CQR_BASE (c : Nat) : Reg := ⟨0x20500 + 0x40 * c, 0x0⟩

/-- HOST.CQR(c).BASE word 1 (spec/02_host_rings.md). -/
def A.HOST_CQR_BASE_1 (c : Nat) : Reg := ⟨0x20504 + 0x40 * c, 0x0⟩

/-- HOST.CQR(c).DB (spec/02_host_rings.md). -/
def A.HOST_CQR_DB (c : Nat) : Reg := ⟨0x20508 + 0x40 * c, 0x0⟩

/-- HOST.CQR(c).DB word 1 (spec/02_host_rings.md). -/
def A.HOST_CQR_DB_1 (c : Nat) : Reg := ⟨0x2050c + 0x40 * c, 0x0⟩

/-- HOST.CQR(c).CTRL (spec/02_host_rings.md). -/
def A.HOST_CQR_CTRL (c : Nat) : Reg := ⟨0x20510 + 0x40 * c, 0x1⟩
/-- HOST.CQR(c).CTRL.ENABLE. -/
def F.HOST_CQR_CTRL_ENABLE (c : Nat) : Fld := ⟨A.HOST_CQR_CTRL c, 31, 1⟩
/-- HOST.CQR(c).CTRL.LOG2_SIZE. -/
def F.HOST_CQR_CTRL_LOG2_SIZE (c : Nat) : Fld := ⟨A.HOST_CQR_CTRL c, 24, 5⟩
/-- HOST.CQR(c).CTRL.VECTOR. -/
def F.HOST_CQR_CTRL_VECTOR (c : Nat) : Fld := ⟨A.HOST_CQR_CTRL c, 16, 5⟩
/-- HOST.CQR(c).CTRL.IRQ_EN. -/
def F.HOST_CQR_CTRL_IRQ_EN (c : Nat) : Fld := ⟨A.HOST_CQR_CTRL c, 15, 1⟩
/-- HOST.CQR(c).CTRL.MOD_COUNT. -/
def F.HOST_CQR_CTRL_MOD_COUNT (c : Nat) : Fld := ⟨A.HOST_CQR_CTRL c, 0, 8⟩

/-- HOST.CQR(c).MOD (spec/02_host_rings.md). -/
def A.HOST_CQR_MOD (c : Nat) : Reg := ⟨0x20514 + 0x40 * c, 0x0⟩
/-- HOST.CQR(c).MOD.MOD_DELAY. -/
def F.HOST_CQR_MOD_MOD_DELAY (c : Nat) : Fld := ⟨A.HOST_CQR_MOD c, 0, 20⟩

/-- HOST.CQR(c).STATUS (spec/02_host_rings.md). -/
def A.HOST_CQR_STATUS (c : Nat) : Reg := ⟨0x20518 + 0x40 * c, 0x0⟩
/-- HOST.CQR(c).STATUS.HALTED. -/
def F.HOST_CQR_STATUS_HALTED (c : Nat) : Fld := ⟨A.HOST_CQR_STATUS c, 31, 1⟩
/-- HOST.CQR(c).STATUS.CAUSE. -/
def F.HOST_CQR_STATUS_CAUSE (c : Nat) : Fld := ⟨A.HOST_CQR_STATUS c, 28, 3⟩
/-- HOST.CQR(c).STATUS.BACKLOG. -/
def F.HOST_CQR_STATUS_BACKLOG (c : Nat) : Fld := ⟨A.HOST_CQR_STATUS c, 0, 11⟩

/-- HOST.EVR(e).BASE (spec/02_host_rings.md). -/
def A.HOST_EVR_BASE (e : Nat) : Reg := ⟨0x20900 + 0x40 * e, 0x0⟩

/-- HOST.EVR(e).BASE word 1 (spec/02_host_rings.md). -/
def A.HOST_EVR_BASE_1 (e : Nat) : Reg := ⟨0x20904 + 0x40 * e, 0x0⟩

/-- HOST.EVR(e).DB (spec/02_host_rings.md). -/
def A.HOST_EVR_DB (e : Nat) : Reg := ⟨0x20908 + 0x40 * e, 0x0⟩

/-- HOST.EVR(e).DB word 1 (spec/02_host_rings.md). -/
def A.HOST_EVR_DB_1 (e : Nat) : Reg := ⟨0x2090c + 0x40 * e, 0x0⟩

/-- HOST.EVR(e).CTRL (spec/02_host_rings.md). -/
def A.HOST_EVR_CTRL (e : Nat) : Reg := ⟨0x20910 + 0x40 * e, 0x1⟩
/-- HOST.EVR(e).CTRL.ENABLE. -/
def F.HOST_EVR_CTRL_ENABLE (e : Nat) : Fld := ⟨A.HOST_EVR_CTRL e, 31, 1⟩
/-- HOST.EVR(e).CTRL.LOG2_SIZE. -/
def F.HOST_EVR_CTRL_LOG2_SIZE (e : Nat) : Fld := ⟨A.HOST_EVR_CTRL e, 24, 5⟩
/-- HOST.EVR(e).CTRL.VECTOR. -/
def F.HOST_EVR_CTRL_VECTOR (e : Nat) : Fld := ⟨A.HOST_EVR_CTRL e, 16, 5⟩
/-- HOST.EVR(e).CTRL.IRQ_EN. -/
def F.HOST_EVR_CTRL_IRQ_EN (e : Nat) : Fld := ⟨A.HOST_EVR_CTRL e, 15, 1⟩
/-- HOST.EVR(e).CTRL.MOD_COUNT. -/
def F.HOST_EVR_CTRL_MOD_COUNT (e : Nat) : Fld := ⟨A.HOST_EVR_CTRL e, 0, 8⟩

/-- HOST.EVR(e).MOD (spec/02_host_rings.md). -/
def A.HOST_EVR_MOD (e : Nat) : Reg := ⟨0x20914 + 0x40 * e, 0x0⟩
/-- HOST.EVR(e).MOD.MOD_DELAY. -/
def F.HOST_EVR_MOD_MOD_DELAY (e : Nat) : Fld := ⟨A.HOST_EVR_MOD e, 0, 20⟩

/-- HOST.EVR(e).STATUS (spec/02_host_rings.md). -/
def A.HOST_EVR_STATUS (e : Nat) : Reg := ⟨0x20918 + 0x40 * e, 0x0⟩
/-- HOST.EVR(e).STATUS.HALTED. -/
def F.HOST_EVR_STATUS_HALTED (e : Nat) : Fld := ⟨A.HOST_EVR_STATUS e, 31, 1⟩
/-- HOST.EVR(e).STATUS.CAUSE. -/
def F.HOST_EVR_STATUS_CAUSE (e : Nat) : Fld := ⟨A.HOST_EVR_STATUS e, 28, 3⟩
/-- HOST.EVR(e).STATUS.DROPPED. -/
def F.HOST_EVR_STATUS_DROPPED (e : Nat) : Fld := ⟨A.HOST_EVR_STATUS e, 0, 16⟩

/-- DMA.CH(c).STATE (spec/12_dma_programs.md). -/
def A.DMA_CH_STATE (c : Nat) : Reg := ⟨0x30000 + 0x100 * c, 0x0⟩
/-- DMA.CH(c).STATE.LOOP_DEPTH. -/
def F.DMA_CH_STATE_LOOP_DEPTH (c : Nat) : Fld := ⟨A.DMA_CH_STATE c, 24, 3⟩
/-- DMA.CH(c).STATE.WAIT_STATUS. -/
def F.DMA_CH_STATE_WAIT_STATUS (c : Nat) : Fld := ⟨A.DMA_CH_STATE c, 16, 8⟩
/-- DMA.CH(c).STATE.STATUS. -/
def F.DMA_CH_STATE_STATUS (c : Nat) : Fld := ⟨A.DMA_CH_STATE c, 8, 8⟩
/-- DMA.CH(c).STATE.SUPERVISORY. -/
def F.DMA_CH_STATE_SUPERVISORY (c : Nat) : Fld := ⟨A.DMA_CH_STATE c, 3, 1⟩
/-- DMA.CH(c).STATE.STATE. -/
def F.DMA_CH_STATE_STATE (c : Nat) : Fld := ⟨A.DMA_CH_STATE c, 0, 3⟩

/-- DMA.CH(c).HANDLE (spec/12_dma_programs.md). -/
def A.DMA_CH_HANDLE (c : Nat) : Reg := ⟨0x30004 + 0x100 * c, 0x0⟩

/-- DMA.CH(c).PC (spec/12_dma_programs.md). -/
def A.DMA_CH_PC (c : Nat) : Reg := ⟨0x30008 + 0x100 * c, 0x0⟩

/-- DMA.CH(c).PC word 1 (spec/12_dma_programs.md). -/
def A.DMA_CH_PC_1 (c : Nat) : Reg := ⟨0x3000c + 0x100 * c, 0x0⟩

/-- DMA.CH(c).DONE (spec/12_dma_programs.md). -/
def A.DMA_CH_DONE (c : Nat) : Reg := ⟨0x30010 + 0x100 * c, 0x0⟩
/-- DMA.CH(c).DONE.BYTES. -/
def F.DMA_CH_DONE_BYTES (c : Nat) : Fld := ⟨A.DMA_CH_DONE c, 0, 21⟩

/-- DMA.CH(c).STEPS (spec/12_dma_programs.md). -/
def A.DMA_CH_STEPS (c : Nat) : Reg := ⟨0x30014 + 0x100 * c, 0x0⟩

/-- DMA.CH(c).BUDGET (spec/12_dma_programs.md). -/
def A.DMA_CH_BUDGET (c : Nat) : Reg := ⟨0x30018 + 0x100 * c, 0x10000⟩

/-- DMA.CH(c).SCUR (spec/12_dma_programs.md). -/
def A.DMA_CH_SCUR (c : Nat) : Reg := ⟨0x30020 + 0x100 * c, 0x0⟩

/-- DMA.CH(c).SCUR word 1 (spec/12_dma_programs.md). -/
def A.DMA_CH_SCUR_1 (c : Nat) : Reg := ⟨0x30024 + 0x100 * c, 0x0⟩

/-- DMA.CH(c).DCUR (spec/12_dma_programs.md). -/
def A.DMA_CH_DCUR (c : Nat) : Reg := ⟨0x30028 + 0x100 * c, 0x0⟩

/-- DMA.CH(c).DCUR word 1 (spec/12_dma_programs.md). -/
def A.DMA_CH_DCUR_1 (c : Nat) : Reg := ⟨0x3002c + 0x100 * c, 0x0⟩

/-- DMA.CH(c).CMP (spec/12_dma_programs.md). -/
def A.DMA_CH_CMP (c : Nat) : Reg := ⟨0x30030 + 0x100 * c, 0x0⟩
/-- DMA.CH(c).CMP.MISMATCH. -/
def F.DMA_CH_CMP_MISMATCH (c : Nat) : Fld := ⟨A.DMA_CH_CMP c, 31, 1⟩
/-- DMA.CH(c).CMP.ANY. -/
def F.DMA_CH_CMP_ANY (c : Nat) : Fld := ⟨A.DMA_CH_CMP c, 30, 1⟩

/-- DMA.CH(c).CMP word 1 (spec/12_dma_programs.md). -/
def A.DMA_CH_CMP_1 (c : Nat) : Reg := ⟨0x30034 + 0x100 * c, 0xffffffff⟩

/-- DMA.CH(c).STAT (spec/12_dma_programs.md). -/
def A.DMA_CH_STAT (c : Nat) : Reg := ⟨0x30038 + 0x100 * c, 0x0⟩
/-- DMA.CH(c).STAT.UNDERRUN. -/
def F.DMA_CH_STAT_UNDERRUN (c : Nat) : Fld := ⟨A.DMA_CH_STAT c, 0, 16⟩

/-- DMA.CH(c).BANKS (spec/12_dma_programs.md). -/
def A.DMA_CH_BANKS (c : Nat) : Reg := ⟨0x3003c + 0x100 * c, 0x0⟩
/-- DMA.CH(c).BANKS.COUNT. -/
def F.DMA_CH_BANKS_COUNT (c : Nat) : Fld := ⟨A.DMA_CH_BANKS c, 8, 4⟩
/-- DMA.CH(c).BANKS.FIRST. -/
def F.DMA_CH_BANKS_FIRST (c : Nat) : Fld := ⟨A.DMA_CH_BANKS c, 0, 5⟩

/-- DMA.EVT(w) (spec/12_dma_programs.md). -/
def A.DMA_EVT (w : Nat) : Reg := ⟨0x34000 + 0x4 * w, 0x0⟩

/-- DMA.PERIPH(i) (spec/12_dma_programs.md). -/
def A.DMA_PERIPH (i : Nat) : Reg := ⟨0x34100 + 0x8 * i, 0x0⟩
/-- DMA.PERIPH(i).HELD. -/
def F.DMA_PERIPH_HELD (i : Nat) : Fld := ⟨A.DMA_PERIPH i, 31, 1⟩
/-- DMA.PERIPH(i).CHANNEL. -/
def F.DMA_PERIPH_CHANNEL (i : Nat) : Fld := ⟨A.DMA_PERIPH i, 24, 6⟩

/-- DMA.PERIPH(i) word 1 (spec/12_dma_programs.md). -/
def A.DMA_PERIPH_1 (i : Nat) : Reg := ⟨0x34104 + 0x8 * i, 0x1⟩
/-- DMA.PERIPH(i).EN. -/
def F.DMA_PERIPH_1_EN (i : Nat) : Fld := ⟨A.DMA_PERIPH_1 i, 31, 1⟩
/-- DMA.PERIPH(i).DROPPED. -/
def F.DMA_PERIPH_1_DROPPED (i : Nat) : Fld := ⟨A.DMA_PERIPH_1 i, 16, 15⟩
/-- DMA.PERIPH(i).WM. -/
def F.DMA_PERIPH_1_WM (i : Nat) : Fld := ⟨A.DMA_PERIPH_1 i, 0, 16⟩

/-- BEAM.LIB_BASE (spec/04_beam_engine.md). -/
def A.BEAM_LIB_BASE : Reg := ⟨0x40000, 0x0⟩

/-- BEAM.LIB_BASE word 1 (spec/04_beam_engine.md). -/
def A.BEAM_LIB_BASE_1 : Reg := ⟨0x40004, 0x0⟩

/-- BEAM.LIB_CTRL (spec/04_beam_engine.md). -/
def A.BEAM_LIB_CTRL : Reg := ⟨0x40008, 0x0⟩
/-- BEAM.LIB_CTRL.SLOTS. -/
def F.BEAM_LIB_CTRL_SLOTS : Fld := ⟨A.BEAM_LIB_CTRL, 0, 14⟩

/-- BEAM.COLS(d) (spec/04_beam_engine.md). -/
def A.BEAM_COLS (d : Nat) : Reg := ⟨0x40010 + 0x4 * d, 0x0⟩
/-- BEAM.COLS(d).STAGED. -/
def F.BEAM_COLS_STAGED (d : Nat) : Fld := ⟨A.BEAM_COLS d, 20, 11⟩
/-- BEAM.COLS(d).SHADOW. -/
def F.BEAM_COLS_SHADOW (d : Nat) : Fld := ⟨A.BEAM_COLS d, 10, 10⟩
/-- BEAM.COLS(d).ACTIVE. -/
def F.BEAM_COLS_ACTIVE (d : Nat) : Fld := ⟨A.BEAM_COLS d, 0, 10⟩

/-- BEAM.UNMAPPED (spec/04_beam_engine.md). -/
def A.BEAM_UNMAPPED : Reg := ⟨0x40024, 0x0⟩
/-- BEAM.UNMAPPED.COUNT. -/
def F.BEAM_UNMAPPED_COUNT : Fld := ⟨A.BEAM_UNMAPPED, 0, 32⟩

/-- BEAM.PREFETCH (spec/04_beam_engine.md). -/
def A.BEAM_PREFETCH : Reg := ⟨0x40028, 0x0⟩
/-- BEAM.PREFETCH.DONE. -/
def F.BEAM_PREFETCH_DONE : Fld := ⟨A.BEAM_PREFETCH, 16, 16⟩
/-- BEAM.PREFETCH.LATE. -/
def F.BEAM_PREFETCH_LATE : Fld := ⟨A.BEAM_PREFETCH, 0, 16⟩

/-- BEAM.ACTIVE_WS(c, d) (spec/04_beam_engine.md). -/
def A.BEAM_ACTIVE_WS (c d : Nat) : Reg := ⟨0x40100 + 0x8 * c + 0x4 * d, 0x0⟩

/-- BEAM.CORR(n, d) (spec/04_beam_engine.md). -/
def A.BEAM_CORR (n d : Nat) : Reg := ⟨0x41000 + 0x10 * n + 0x8 * d, 0x0⟩
/-- BEAM.CORR(n, d).PHASE. -/
def F.BEAM_CORR_PHASE (n d : Nat) : Fld := ⟨A.BEAM_CORR n d, 16, 16⟩
/-- BEAM.CORR(n, d).TAPER. -/
def F.BEAM_CORR_TAPER (n d : Nat) : Fld := ⟨A.BEAM_CORR n d, 0, 16⟩

/-- BEAM.CORR(n, d) word 1 (spec/04_beam_engine.md). -/
def A.BEAM_CORR_1 (n d : Nat) : Reg := ⟨0x41004 + 0x10 * n + 0x8 * d, 0x0⟩
/-- BEAM.CORR(n, d).DELAY. -/
def F.BEAM_CORR_1_DELAY (n d : Nat) : Fld := ⟨A.BEAM_CORR_1 n d, 0, 12⟩

/-- TXP(n).CTRL (spec/05_transmit_path.md). -/
def A.TXP_CTRL (n : Nat) : Reg := ⟨0x80000 + 0x400 * n, 0x0⟩
/-- TXP(n).CTRL.EN. -/
def F.TXP_CTRL_EN (n : Nat) : Fld := ⟨A.TXP_CTRL n, 0, 1⟩

/-- TXP(n).DGAIN (spec/05_transmit_path.md). -/
def A.TXP_DGAIN (n : Nat) : Reg := ⟨0x80004 + 0x400 * n, 0x4000⟩
/-- TXP(n).DGAIN.GAIN. -/
def F.TXP_DGAIN_GAIN (n : Nat) : Fld := ⟨A.TXP_DGAIN n, 0, 16⟩

/-- TXP(n).CFR (spec/05_transmit_path.md). -/
def A.TXP_CFR (n : Nat) : Reg := ⟨0x80010 + 0x400 * n, 0xb40050⟩
/-- TXP(n).CFR.ENABLE. -/
def F.TXP_CFR_ENABLE (n : Nat) : Fld := ⟨A.TXP_CFR n, 31, 1⟩
/-- TXP(n).CFR.REF. -/
def F.TXP_CFR_REF (n : Nat) : Fld := ⟨A.TXP_CFR n, 16, 10⟩
/-- TXP(n).CFR.PAPR. -/
def F.TXP_CFR_PAPR (n : Nat) : Fld := ⟨A.TXP_CFR n, 0, 7⟩

/-- TXP.DLB(s).ERR (spec/05_transmit_path.md). -/
def A.TXP_DLB_ERR (s : Nat) : Reg := ⟨0x90000 + 0x10 * s, 0x0⟩
/-- TXP.DLB(s).ERR.LATE. -/
def F.TXP_DLB_ERR_LATE (s : Nat) : Fld := ⟨A.TXP_DLB_ERR s, 16, 16⟩
/-- TXP.DLB(s).ERR.MISSING. -/
def F.TXP_DLB_ERR_MISSING (s : Nat) : Fld := ⟨A.TXP_DLB_ERR s, 0, 16⟩

/-- TXP.DLB(s).DROP (spec/05_transmit_path.md). -/
def A.TXP_DLB_DROP (s : Nat) : Reg := ⟨0x90004 + 0x10 * s, 0x0⟩
/-- TXP.DLB(s).DROP.EARLY. -/
def F.TXP_DLB_DROP_EARLY (s : Nat) : Fld := ⟨A.TXP_DLB_DROP s, 16, 16⟩
/-- TXP.DLB(s).DROP.DUPLICATE. -/
def F.TXP_DLB_DROP_DUPLICATE (s : Nat) : Fld := ⟨A.TXP_DLB_DROP s, 0, 16⟩

/-- TXP.DLB(s).MISC (spec/05_transmit_path.md). -/
def A.TXP_DLB_MISC (s : Nat) : Reg := ⟨0x90008 + 0x10 * s, 0xffff0000⟩
/-- TXP.DLB(s).MISC.MARGIN_MIN. -/
def F.TXP_DLB_MISC_MARGIN_MIN (s : Nat) : Fld := ⟨A.TXP_DLB_MISC s, 16, 16⟩
/-- TXP.DLB(s).MISC.MISALIGNED. -/
def F.TXP_DLB_MISC_MISALIGNED (s : Nat) : Fld := ⟨A.TXP_DLB_MISC s, 0, 16⟩

/-- RXP(n).CTRL (spec/06_receive_path.md). -/
def A.RXP_CTRL (n : Nat) : Reg := ⟨0xc0000 + 0x400 * n, 0x0⟩
/-- RXP(n).CTRL.EN. -/
def F.RXP_CTRL_EN (n : Nat) : Fld := ⟨A.RXP_CTRL n, 0, 1⟩

/-- RXP(n).GAIN (spec/06_receive_path.md). -/
def A.RXP_GAIN (n : Nat) : Reg := ⟨0xc0040 + 0x400 * n, 0x0⟩
/-- RXP(n).GAIN.GAIN. -/
def F.RXP_GAIN_GAIN (n : Nat) : Fld := ⟨A.RXP_GAIN n, 24, 5⟩
/-- RXP(n).GAIN.REF. -/
def F.RXP_GAIN_REF (n : Nat) : Fld := ⟨A.RXP_GAIN n, 16, 5⟩
/-- RXP(n).GAIN.AUTO. -/
def F.RXP_GAIN_AUTO (n : Nat) : Fld := ⟨A.RXP_GAIN n, 0, 1⟩

/-- RXP(n).AGC (spec/06_receive_path.md). -/
def A.RXP_AGC (n : Nat) : Reg := ⟨0xc0044 + 0x400 * n, 0x3c00418⟩
/-- RXP(n).AGC.PERIOD. -/
def F.RXP_AGC_PERIOD (n : Nat) : Fld := ⟨A.RXP_AGC n, 16, 12⟩

/-- RXP(n).DC_CTRL (spec/06_receive_path.md). -/
def A.RXP_DC_CTRL (n : Nat) : Reg := ⟨0xc0050 + 0x400 * n, 0x0⟩
/-- RXP(n).DC_CTRL.WIN. -/
def F.RXP_DC_CTRL_WIN (n : Nat) : Fld := ⟨A.RXP_DC_CTRL n, 4, 3⟩
/-- RXP(n).DC_CTRL.FREEZE. -/
def F.RXP_DC_CTRL_FREEZE (n : Nat) : Fld := ⟨A.RXP_DC_CTRL n, 0, 2⟩

/-- RXP(n).DC_STAT (spec/06_receive_path.md). -/
def A.RXP_DC_STAT (n : Nat) : Reg := ⟨0xc0054 + 0x400 * n, 0x0⟩
/-- RXP(n).DC_STAT.DISCARDED. -/
def F.RXP_DC_STAT_DISCARDED (n : Nat) : Fld := ⟨A.RXP_DC_STAT n, 16, 15⟩
/-- RXP(n).DC_STAT.COARSE_Q. -/
def F.RXP_DC_STAT_COARSE_Q (n : Nat) : Fld := ⟨A.RXP_DC_STAT n, 8, 7⟩
/-- RXP(n).DC_STAT.COARSE_I. -/
def F.RXP_DC_STAT_COARSE_I (n : Nat) : Fld := ⟨A.RXP_DC_STAT n, 0, 7⟩

/-- RXP(n).DC_FINE (spec/06_receive_path.md). -/
def A.RXP_DC_FINE (n : Nat) : Reg := ⟨0xc0058 + 0x400 * n, 0x0⟩
/-- RXP(n).DC_FINE.FINE_Q. -/
def F.RXP_DC_FINE_FINE_Q (n : Nat) : Fld := ⟨A.RXP_DC_FINE n, 16, 13⟩
/-- RXP(n).DC_FINE.FINE_I. -/
def F.RXP_DC_FINE_FINE_I (n : Nat) : Fld := ⟨A.RXP_DC_FINE n, 0, 13⟩

/-- RXP(n).IQC(k) (spec/06_receive_path.md). -/
def A.RXP_IQC (n k : Nat) : Reg := ⟨0xc0060 + 0x400 * n + 0x4 * k, 0x0⟩
/-- RXP(n).IQC(k).IM. -/
def F.RXP_IQC_IM (n k : Nat) : Fld := ⟨A.RXP_IQC n k, 16, 16⟩
/-- RXP(n).IQC(k).RE. -/
def F.RXP_IQC_RE (n k : Nat) : Fld := ⟨A.RXP_IQC n k, 0, 16⟩

/-- DPD.TERM(k) (spec/07_predistortion.md). -/
def A.DPD_TERM (k : Nat) : Reg := ⟨0x100000 + 0x4 * k, (if k = 0 then 0x8100 else 0x100)⟩
/-- DPD.TERM(k).EN. -/
def F.DPD_TERM_EN (k : Nat) : Fld := ⟨A.DPD_TERM k, 15, 1⟩
/-- DPD.TERM(k).P. -/
def F.DPD_TERM_P (k : Nat) : Fld := ⟨A.DPD_TERM k, 8, 4⟩
/-- DPD.TERM(k).M. -/
def F.DPD_TERM_M (k : Nat) : Fld := ⟨A.DPD_TERM k, 4, 3⟩
/-- DPD.TERM(k).E. -/
def F.DPD_TERM_E (k : Nat) : Fld := ⟨A.DPD_TERM k, 0, 3⟩

/-- DPD.BIN_EDGE(b) (spec/07_predistortion.md). -/
def A.DPD_BIN_EDGE (b : Nat) : Reg := ⟨0x100100 + 0x4 * b, 0x258 + 0x190 * b⟩
/-- DPD.BIN_EDGE(b).EDGE. -/
def F.DPD_BIN_EDGE_EDGE (b : Nat) : Fld := ⟨A.DPD_BIN_EDGE b, 0, 13⟩

/-- DPD.SCHED (spec/07_predistortion.md). -/
def A.DPD_SCHED : Reg := ⟨0x100200, 0x240004⟩
/-- DPD.SCHED.SLOT. -/
def F.DPD_SCHED_SLOT : Fld := ⟨A.DPD_SCHED, 16, 8⟩
/-- DPD.SCHED.LEN. -/
def F.DPD_SCHED_LEN : Fld := ⟨A.DPD_SCHED, 0, 3⟩

/-- DPD.SEED (spec/07_predistortion.md). -/
def A.DPD_SEED : Reg := ⟨0x100204, 0x0⟩
/-- DPD.SEED.SEED. -/
def F.DPD_SEED_SEED : Fld := ⟨A.DPD_SEED, 0, 32⟩

/-- DPD.POOL (spec/07_predistortion.md). -/
def A.DPD_POOL : Reg := ⟨0x100208, 0x80000008⟩
/-- DPD.POOL.EN. -/
def F.DPD_POOL_EN : Fld := ⟨A.DPD_POOL, 31, 1⟩
/-- DPD.POOL.RES_TERMS. -/
def F.DPD_POOL_RES_TERMS : Fld := ⟨A.DPD_POOL, 0, 6⟩

/-- DPD.ORX_SHARE(k) (spec/07_predistortion.md). -/
def A.DPD_ORX_SHARE (k : Nat) : Reg := ⟨0x100210 + 0x4 * k, 0x50⟩
/-- DPD.ORX_SHARE(k).SHARE. -/
def F.DPD_ORX_SHARE_SHARE (k : Nat) : Fld := ⟨A.DPD_ORX_SHARE k, 0, 7⟩

/-- DPD.PATH(n).POLICY (spec/07_predistortion.md). -/
def A.DPD_PATH_POLICY (n : Nat) : Reg := ⟨0x101000 + 0x10 * n, 0x320500⟩
/-- DPD.PATH(n).POLICY.MAX_RATE. -/
def F.DPD_PATH_POLICY_MAX_RATE (n : Nat) : Fld := ⟨A.DPD_PATH_POLICY n, 16, 10⟩
/-- DPD.PATH(n).POLICY.THERM. -/
def F.DPD_PATH_POLICY_THERM (n : Nat) : Fld := ⟨A.DPD_PATH_POLICY n, 8, 6⟩
/-- DPD.PATH(n).POLICY.MODE. -/
def F.DPD_PATH_POLICY_MODE (n : Nat) : Fld := ⟨A.DPD_PATH_POLICY n, 0, 2⟩

/-- DPD.PATH(n).TARGET (spec/07_predistortion.md). -/
def A.DPD_PATH_TARGET (n : Nat) : Reg := ⟨0x101004 + 0x10 * n, 0x9601c2⟩
/-- DPD.PATH(n).TARGET.EVM. -/
def F.DPD_PATH_TARGET_EVM (n : Nat) : Fld := ⟨A.DPD_PATH_TARGET n, 16, 16⟩
/-- DPD.PATH(n).TARGET.ACLR. -/
def F.DPD_PATH_TARGET_ACLR (n : Nat) : Fld := ⟨A.DPD_PATH_TARGET n, 0, 16⟩

/-- DPD.PATH(n).STAT (spec/07_predistortion.md). -/
def A.DPD_PATH_STAT (n : Nat) : Reg := ⟨0x101008 + 0x10 * n, 0x0⟩
/-- DPD.PATH(n).STAT.ACLR_EST. -/
def F.DPD_PATH_STAT_ACLR_EST (n : Nat) : Fld := ⟨A.DPD_PATH_STAT n, 16, 16⟩
/-- DPD.PATH(n).STAT.DROPPED. -/
def F.DPD_PATH_STAT_DROPPED (n : Nat) : Fld := ⟨A.DPD_PATH_STAT n, 12, 4⟩
/-- DPD.PATH(n).STAT.MEETS. -/
def F.DPD_PATH_STAT_MEETS (n : Nat) : Fld := ⟨A.DPD_PATH_STAT n, 7, 1⟩
/-- DPD.PATH(n).STAT.STALE. -/
def F.DPD_PATH_STAT_STALE (n : Nat) : Fld := ⟨A.DPD_PATH_STAT n, 6, 1⟩

/-- RAD.LO(s).CTRL (spec/08_radio_control.md). -/
def A.RAD_LO_CTRL (s : Nat) : Reg := ⟨0x140000 + 0x40 * s, 0x0⟩
/-- RAD.LO(s).CTRL.FORCE_ON. -/
def F.RAD_LO_CTRL_FORCE_ON (s : Nat) : Fld := ⟨A.RAD_LO_CTRL s, 0, 1⟩

/-- RAD.LO(s).WORD (spec/08_radio_control.md). -/
def A.RAD_LO_WORD (s : Nat) : Reg := ⟨0x140004 + 0x40 * s, 0x0⟩

/-- RAD.LO(s).WORD word 1 (spec/08_radio_control.md). -/
def A.RAD_LO_WORD_1 (s : Nat) : Reg := ⟨0x140008 + 0x40 * s, 0x0⟩
/-- RAD.LO(s).WORD.WORD. -/
def F.RAD_LO_WORD_1_WORD (s : Nat) : Fld := ⟨A.RAD_LO_WORD_1 s, 0, 8⟩

/-- RAD.LO(s).STAT (spec/08_radio_control.md). -/
def A.RAD_LO_STAT (s : Nat) : Reg := ⟨0x14000c + 0x40 * s, 0x0⟩
/-- RAD.LO(s).STAT.UNLOCKED_TX. -/
def F.RAD_LO_STAT_UNLOCKED_TX (s : Nat) : Fld := ⟨A.RAD_LO_STAT s, 6, 1⟩
/-- RAD.LO(s).STAT.CAL_PENDING. -/
def F.RAD_LO_STAT_CAL_PENDING (s : Nat) : Fld := ⟨A.RAD_LO_STAT s, 5, 1⟩
/-- RAD.LO(s).STAT.CAL_RUN. -/
def F.RAD_LO_STAT_CAL_RUN (s : Nat) : Fld := ⟨A.RAD_LO_STAT s, 4, 1⟩
/-- RAD.LO(s).STAT.TABLE_VALID. -/
def F.RAD_LO_STAT_TABLE_VALID (s : Nat) : Fld := ⟨A.RAD_LO_STAT s, 3, 1⟩
/-- RAD.LO(s).STAT.LOCK_LOST. -/
def F.RAD_LO_STAT_LOCK_LOST (s : Nat) : Fld := ⟨A.RAD_LO_STAT s, 2, 1⟩
/-- RAD.LO(s).STAT.LOCK. -/
def F.RAD_LO_STAT_LOCK (s : Nat) : Fld := ⟨A.RAD_LO_STAT s, 1, 1⟩
/-- RAD.LO(s).STAT.ON. -/
def F.RAD_LO_STAT_ON (s : Nat) : Fld := ⟨A.RAD_LO_STAT s, 0, 1⟩

/-- RAD.LO(s).CAL_TEMP (spec/08_radio_control.md). -/
def A.RAD_LO_CAL_TEMP (s : Nat) : Reg := ⟨0x140010 + 0x40 * s, 0x0⟩
/-- RAD.LO(s).CAL_TEMP.NOW. -/
def F.RAD_LO_CAL_TEMP_NOW (s : Nat) : Fld := ⟨A.RAD_LO_CAL_TEMP s, 16, 16⟩
/-- RAD.LO(s).CAL_TEMP.AT_CAL. -/
def F.RAD_LO_CAL_TEMP_AT_CAL (s : Nat) : Fld := ⟨A.RAD_LO_CAL_TEMP s, 0, 16⟩

/-- RAD.LO_CFG (spec/08_radio_control.md). -/
def A.RAD_LO_CFG : Reg := ⟨0x140100, 0xc01⟩
/-- RAD.LO_CFG.TEMP_THR. -/
def F.RAD_LO_CFG_TEMP_THR : Fld := ⟨A.RAD_LO_CFG, 8, 6⟩
/-- RAD.LO_CFG.TDD_TIE. -/
def F.RAD_LO_CFG_TDD_TIE : Fld := ⟨A.RAD_LO_CFG, 0, 1⟩

/-- RAD.POD(p).CFG (spec/08_radio_control.md). -/
def A.RAD_POD_CFG (p : Nat) : Reg := ⟨0x140200 + 0x20 * p, 0x0⟩
/-- RAD.POD(p).CFG.DUPLEX. -/
def F.RAD_POD_CFG_DUPLEX (p : Nat) : Fld := ⟨A.RAD_POD_CFG p, 0, 1⟩

/-- RAD.POD(p).STATE (spec/08_radio_control.md). -/
def A.RAD_POD_STATE (p : Nat) : Reg := ⟨0x140204 + 0x20 * p, 0x0⟩
/-- RAD.POD(p).STATE.STEPPING. -/
def F.RAD_POD_STATE_STEPPING (p : Nat) : Fld := ⟨A.RAD_POD_STATE p, 11, 1⟩
/-- RAD.POD(p).STATE.TARGET. -/
def F.RAD_POD_STATE_TARGET (p : Nat) : Fld := ⟨A.RAD_POD_STATE p, 8, 3⟩
/-- RAD.POD(p).STATE.STATE. -/
def F.RAD_POD_STATE_STATE (p : Nat) : Fld := ⟨A.RAD_POD_STATE p, 0, 3⟩

/-- RAD.POD(p).FE_TIME (spec/08_radio_control.md). -/
def A.RAD_POD_FE_TIME (p : Nat) : Reg := ⟨0x140208 + 0x20 * p, 0x3d80040⟩
/-- RAD.POD(p).FE_TIME.TXR_LEAD. -/
def F.RAD_POD_FE_TIME_TXR_LEAD (p : Nat) : Fld := ⟨A.RAD_POD_FE_TIME p, 16, 12⟩
/-- RAD.POD(p).FE_TIME.TX_LEAD. -/
def F.RAD_POD_FE_TIME_TX_LEAD (p : Nat) : Fld := ⟨A.RAD_POD_FE_TIME p, 0, 12⟩

/-- RAD.POD(p).FE_TIME word 1 (spec/08_radio_control.md). -/
def A.RAD_POD_FE_TIME_1 (p : Nat) : Reg := ⟨0x14020c + 0x20 * p, 0x1000020⟩
/-- RAD.POD(p).FE_TIME.TXR_LAG. -/
def F.RAD_POD_FE_TIME_1_TXR_LAG (p : Nat) : Fld := ⟨A.RAD_POD_FE_TIME_1 p, 16, 12⟩
/-- RAD.POD(p).FE_TIME.TX_LAG. -/
def F.RAD_POD_FE_TIME_1_TX_LAG (p : Nat) : Fld := ⟨A.RAD_POD_FE_TIME_1 p, 0, 12⟩

/-- RAD.POD(p).FE_TIME word 2 (spec/08_radio_control.md). -/
def A.RAD_POD_FE_TIME_2 (p : Nat) : Reg := ⟨0x140210 + 0x20 * p, 0x1000040⟩
/-- RAD.POD(p).FE_TIME.RX_LEAD. -/
def F.RAD_POD_FE_TIME_2_RX_LEAD (p : Nat) : Fld := ⟨A.RAD_POD_FE_TIME_2 p, 16, 12⟩
/-- RAD.POD(p).FE_TIME.RX_LAG. -/
def F.RAD_POD_FE_TIME_2_RX_LAG (p : Nat) : Fld := ⟨A.RAD_POD_FE_TIME_2 p, 0, 12⟩

/-- RAD.POD(p).FE_NOW (spec/08_radio_control.md). -/
def A.RAD_POD_FE_NOW (p : Nat) : Reg := ⟨0x140214 + 0x20 * p, 0x0⟩

/-- RAD.FE_PROF(h) (spec/08_radio_control.md). -/
def A.RAD_FE_PROF (h : Nat) : Reg := ⟨0x140400 + 0x20 * h, 0x0⟩
/-- RAD.FE_PROF(h).CS_PATH. -/
def F.RAD_FE_PROF_CS_PATH (h : Nat) : Fld := ⟨A.RAD_FE_PROF h, 8, 5⟩
/-- RAD.FE_PROF(h).CS_EN. -/
def F.RAD_FE_PROF_CS_EN (h : Nat) : Fld := ⟨A.RAD_FE_PROF h, 2, 1⟩
/-- RAD.FE_PROF(h).POL. -/
def F.RAD_FE_PROF_POL (h : Nat) : Fld := ⟨A.RAD_FE_PROF h, 1, 1⟩
/-- RAD.FE_PROF(h).PROFILE. -/
def F.RAD_FE_PROF_PROFILE (h : Nat) : Fld := ⟨A.RAD_FE_PROF h, 0, 1⟩

/-- RAD.FESB(h).CFG (spec/08_radio_control.md). -/
def A.RAD_FESB_CFG (h : Nat) : Reg := ⟨0x140404 + 0x20 * h, 0xb⟩
/-- RAD.FESB(h).CFG.DIV. -/
def F.RAD_FESB_CFG_DIV (h : Nat) : Fld := ⟨A.RAD_FESB_CFG h, 0, 7⟩

/-- RAD.FESB(h).RDATA (spec/08_radio_control.md). -/
def A.RAD_FESB_RDATA (h : Nat) : Reg := ⟨0x140408 + 0x20 * h, 0x0⟩

/-- RAD.COEX (spec/08_radio_control.md). -/
def A.RAD_COEX : Reg := ⟨0x140500, 0x400⟩
/-- RAD.COEX.GNT_O. -/
def F.RAD_COEX_GNT_O : Fld := ⟨A.RAD_COEX, 19, 1⟩
/-- RAD.COEX.REQ_I. -/
def F.RAD_COEX_REQ_I : Fld := ⟨A.RAD_COEX, 18, 1⟩
/-- RAD.COEX.GNT_I. -/
def F.RAD_COEX_GNT_I : Fld := ⟨A.RAD_COEX, 17, 1⟩
/-- RAD.COEX.REQ_O. -/
def F.RAD_COEX_REQ_O : Fld := ⟨A.RAD_COEX, 16, 1⟩
/-- RAD.COEX.START_DELAY. -/
def F.RAD_COEX_START_DELAY : Fld := ⟨A.RAD_COEX, 1, 15⟩
/-- RAD.COEX.EN. -/
def F.RAD_COEX_EN : Fld := ⟨A.RAD_COEX, 0, 1⟩

/-- ORX(k).CTRL (spec/07_predistortion.md). -/
def A.ORX_CTRL (k : Nat) : Reg := ⟨0x180000 + 0x100 * k, 0xa0000⟩
/-- ORX(k).CTRL.ATTN. -/
def F.ORX_CTRL_ATTN (k : Nat) : Fld := ⟨A.ORX_CTRL k, 16, 5⟩
/-- ORX(k).CTRL.HOST_SEL. -/
def F.ORX_CTRL_HOST_SEL (k : Nat) : Fld := ⟨A.ORX_CTRL k, 8, 4⟩
/-- ORX(k).CTRL.EN. -/
def F.ORX_CTRL_EN (k : Nat) : Fld := ⟨A.ORX_CTRL k, 0, 1⟩

/-- ORX(k).IF (spec/07_predistortion.md). -/
def A.ORX_IF (k : Nat) : Reg := ⟨0x180004 + 0x100 * k, 0x34155555⟩

/-- ORX(k).ALIGN (spec/07_predistortion.md). -/
def A.ORX_ALIGN (k : Nat) : Reg := ⟨0x180008 + 0x100 * k, 0x8⟩
/-- ORX(k).ALIGN.ALIGN. -/
def F.ORX_ALIGN_ALIGN (k : Nat) : Fld := ⟨A.ORX_ALIGN k, 0, 10⟩

/-- ORX(k).IRC (spec/07_predistortion.md). -/
def A.ORX_IRC (k : Nat) : Reg := ⟨0x180010 + 0x100 * k, 0x0⟩
/-- ORX(k).IRC.G_IM. -/
def F.ORX_IRC_G_IM (k : Nat) : Fld := ⟨A.ORX_IRC k, 16, 16⟩
/-- ORX(k).IRC.G_RE. -/
def F.ORX_IRC_G_RE (k : Nat) : Fld := ⟨A.ORX_IRC k, 0, 16⟩

/-- ORX(k).IRC word 1 (spec/07_predistortion.md). -/
def A.ORX_IRC_1 (k : Nat) : Reg := ⟨0x180014 + 0x100 * k, 0x0⟩
/-- ORX(k).IRC.DC_Q. -/
def F.ORX_IRC_1_DC_Q (k : Nat) : Fld := ⟨A.ORX_IRC_1 k, 16, 16⟩
/-- ORX(k).IRC.DC_I. -/
def F.ORX_IRC_1_DC_I (k : Nat) : Fld := ⟨A.ORX_IRC_1 k, 0, 16⟩

/-- ORX(k).STAT (spec/07_predistortion.md). -/
def A.ORX_STAT (k : Nat) : Reg := ⟨0x180020 + 0x100 * k, 0x0⟩
/-- ORX(k).STAT.IF_RANGE. -/
def F.ORX_STAT_IF_RANGE (k : Nat) : Fld := ⟨A.ORX_STAT k, 30, 1⟩
/-- ORX(k).STAT.SEL. -/
def F.ORX_STAT_SEL (k : Nat) : Fld := ⟨A.ORX_STAT k, 8, 4⟩
/-- ORX(k).STAT.USER. -/
def F.ORX_STAT_USER (k : Nat) : Fld := ⟨A.ORX_STAT k, 0, 3⟩

/-- ORX(k).SLOTS (spec/07_predistortion.md). -/
def A.ORX_SLOTS (k : Nat) : Reg := ⟨0x180024 + 0x100 * k, 0x0⟩
/-- ORX(k).SLOTS.VISITS. -/
def F.ORX_SLOTS_VISITS (k : Nat) : Fld := ⟨A.ORX_SLOTS k, 16, 16⟩
/-- ORX(k).SLOTS.LOST. -/
def F.ORX_SLOTS_LOST (k : Nat) : Fld := ⟨A.ORX_SLOTS k, 0, 16⟩

/-- ORX(k).REVISIT_MAX (spec/07_predistortion.md). -/
def A.ORX_REVISIT_MAX (k : Nat) : Reg := ⟨0x180028 + 0x100 * k, 0x0⟩
/-- ORX(k).REVISIT_MAX.MAX. -/
def F.ORX_REVISIT_MAX_MAX (k : Nat) : Fld := ⟨A.ORX_REVISIT_MAX k, 0, 16⟩

/-- LNF.PORT_CTRL (spec/09_serial_lanes.md). -/
def A.LN_PORT_CTRL (q : Nat) : Reg := ⟨portBase q + 0x0, if q = 0 then 0xc01 else 0xc05⟩
/-- LNF.PORT_CTRL.MIN_LANES. -/
def F.LN_PORT_CTRL_MIN_LANES (q : Nat) : Fld := ⟨A.LN_PORT_CTRL q, 8, 5⟩
/-- LNF.PORT_CTRL.FIXED. -/
def F.LN_PORT_CTRL_FIXED (q : Nat) : Fld := ⟨A.LN_PORT_CTRL q, 2, 1⟩
/-- LNF.PORT_CTRL.PAM4. -/
def F.LN_PORT_CTRL_PAM4 (q : Nat) : Fld := ⟨A.LN_PORT_CTRL q, 1, 1⟩
/-- LNF.PORT_CTRL.EN. -/
def F.LN_PORT_CTRL_EN (q : Nat) : Fld := ⟨A.LN_PORT_CTRL q, 0, 1⟩

/-- LNF.PORT_LAT (spec/09_serial_lanes.md). -/
def A.LN_PORT_LAT (q : Nat) : Reg := ⟨portBase q + 0x4, 0x200⟩
/-- LNF.PORT_LAT.LATENCY. -/
def F.LN_PORT_LAT_LATENCY (q : Nat) : Fld := ⟨A.LN_PORT_LAT q, 0, 12⟩

/-- LNF.PORT_SLIP_DWELL (spec/09_serial_lanes.md). -/
def A.LN_PORT_SLIP_DWELL (q : Nat) : Reg := ⟨portBase q + 0x8, 0x28⟩
/-- LNF.PORT_SLIP_DWELL.DWELL. -/
def F.LN_PORT_SLIP_DWELL_DWELL (q : Nat) : Fld := ⟨A.LN_PORT_SLIP_DWELL q, 0, 12⟩

/-- LNF.PORT_STATUS (spec/09_serial_lanes.md). -/
def A.LN_PORT_STATUS (q : Nat) : Reg := ⟨portBase q + 0xc, 0x0⟩
/-- LNF.PORT_STATUS.UP. -/
def F.LN_PORT_STATUS_UP (q : Nat) : Fld := ⟨A.LN_PORT_STATUS q, 31, 1⟩
/-- LNF.PORT_STATUS.LANES. -/
def F.LN_PORT_STATUS_LANES (q : Nat) : Fld := ⟨A.LN_PORT_STATUS q, 16, 5⟩
/-- LNF.PORT_STATUS.IN_USE. -/
def F.LN_PORT_STATUS_IN_USE (q : Nat) : Fld := ⟨A.LN_PORT_STATUS q, 0, 16⟩

/-- LNF.PORT_MASKS (spec/09_serial_lanes.md). -/
def A.LN_PORT_MASKS (q : Nat) : Reg := ⟨portBase q + 0x10, 0x0⟩
/-- LNF.PORT_MASKS.FAR. -/
def F.LN_PORT_MASKS_FAR (q : Nat) : Fld := ⟨A.LN_PORT_MASKS q, 16, 16⟩
/-- LNF.PORT_MASKS.OWN. -/
def F.LN_PORT_MASKS_OWN (q : Nat) : Fld := ⟨A.LN_PORT_MASKS q, 0, 16⟩

/-- LNF.PORT_STAT (spec/09_serial_lanes.md). -/
def A.LN_PORT_STAT (q : Nat) : Reg := ⟨portBase q + 0x14, 0x0⟩
/-- LNF.PORT_STAT.OVERRUN. -/
def F.LN_PORT_STAT_OVERRUN (q : Nat) : Fld := ⟨A.LN_PORT_STAT q, 16, 16⟩
/-- LNF.PORT_STAT.DOWN. -/
def F.LN_PORT_STAT_DOWN (q : Nat) : Fld := ⟨A.LN_PORT_STAT q, 0, 16⟩

/-- LNF.LANE(l).CTRL (spec/09_serial_lanes.md). -/
def A.LANE_CTRL (q l : Nat) : Reg := ⟨laneBase q l + 0x0, 0x81001⟩
/-- LNF.LANE(l).CTRL.PEAK. -/
def F.LANE_CTRL_PEAK (q l : Nat) : Fld := ⟨A.LANE_CTRL q l, 16, 4⟩
/-- LNF.LANE(l).CTRL.ADAPT. -/
def F.LANE_CTRL_ADAPT (q l : Nat) : Fld := ⟨A.LANE_CTRL q l, 12, 1⟩
/-- LNF.LANE(l).CTRL.LOOP. -/
def F.LANE_CTRL_LOOP (q l : Nat) : Fld := ⟨A.LANE_CTRL q l, 4, 2⟩
/-- LNF.LANE(l).CTRL.EN. -/
def F.LANE_CTRL_EN (q l : Nat) : Fld := ⟨A.LANE_CTRL q l, 0, 1⟩

/-- LNF.LANE(l).STATUS (spec/09_serial_lanes.md). -/
def A.LANE_STATUS (q l : Nat) : Reg := ⟨laneBase q l + 0x4, 0x800⟩
/-- LNF.LANE(l).STATUS.DEAD. -/
def F.LANE_STATUS_DEAD (q l : Nat) : Fld := ⟨A.LANE_STATUS q l, 31, 1⟩
/-- LNF.LANE(l).STATUS.ALIGNED. -/
def F.LANE_STATUS_ALIGNED (q l : Nat) : Fld := ⟨A.LANE_STATUS q l, 30, 1⟩
/-- LNF.LANE(l).STATUS.BLOCK_LOCK. -/
def F.LANE_STATUS_BLOCK_LOCK (q l : Nat) : Fld := ⟨A.LANE_STATUS q l, 29, 1⟩
/-- LNF.LANE(l).STATUS.SIG. -/
def F.LANE_STATUS_SIG (q l : Nat) : Fld := ⟨A.LANE_STATUS q l, 28, 1⟩
/-- LNF.LANE(l).STATUS.ID_ERR. -/
def F.LANE_STATUS_ID_ERR (q l : Nat) : Fld := ⟨A.LANE_STATUS q l, 27, 1⟩
/-- LNF.LANE(l).STATUS.LAT_ERR. -/
def F.LANE_STATUS_LAT_ERR (q l : Nat) : Fld := ⟨A.LANE_STATUS q l, 26, 1⟩
/-- LNF.LANE(l).STATUS.PSTATE. -/
def F.LANE_STATUS_PSTATE (q l : Nat) : Fld := ⟨A.LANE_STATUS q l, 24, 2⟩
/-- LNF.LANE(l).STATUS.POS. -/
def F.LANE_STATUS_POS (q l : Nat) : Fld := ⟨A.LANE_STATUS q l, 16, 7⟩
/-- LNF.LANE(l).STATUS.PEAK_NOW. -/
def F.LANE_STATUS_PEAK_NOW (q l : Nat) : Fld := ⟨A.LANE_STATUS q l, 8, 4⟩

/-- LNF.LANE(l).SH_ERR (spec/09_serial_lanes.md). -/
def A.LANE_SH_ERR (q l : Nat) : Reg := ⟨laneBase q l + 0x8, 0x0⟩
/-- LNF.LANE(l).SH_ERR.INJ. -/
def F.LANE_SH_ERR_INJ (q l : Nat) : Fld := ⟨A.LANE_SH_ERR q l, 16, 16⟩
/-- LNF.LANE(l).SH_ERR.NAT. -/
def F.LANE_SH_ERR_NAT (q l : Nat) : Fld := ⟨A.LANE_SH_ERR q l, 0, 16⟩

/-- LNF.LANE(l).LINK_ERR (spec/09_serial_lanes.md). -/
def A.LANE_LINK_ERR (q l : Nat) : Reg := ⟨laneBase q l + 0xc, 0x0⟩
/-- LNF.LANE(l).LINK_ERR.LOCK_LOSS. -/
def F.LANE_LINK_ERR_LOCK_LOSS (q l : Nat) : Fld := ⟨A.LANE_LINK_ERR q l, 24, 8⟩
/-- LNF.LANE(l).LINK_ERR.LAT_VIOL. -/
def F.LANE_LINK_ERR_LAT_VIOL (q l : Nat) : Fld := ⟨A.LANE_LINK_ERR q l, 16, 8⟩
/-- LNF.LANE(l).LINK_ERR.MARKER_ERR. -/
def F.LANE_LINK_ERR_MARKER_ERR (q l : Nat) : Fld := ⟨A.LANE_LINK_ERR q l, 0, 16⟩

/-- BXL.CTRL (spec/10_bxl_protocol.md). -/
def A.BXL_CTRL : Reg := ⟨0x1c0000, 0x30201⟩
/-- BXL.CTRL.KA_LIMIT. -/
def F.BXL_CTRL_KA_LIMIT : Fld := ⟨A.BXL_CTRL, 16, 4⟩
/-- BXL.CTRL.VER_MAX. -/
def F.BXL_CTRL_VER_MAX : Fld := ⟨A.BXL_CTRL, 8, 4⟩
/-- BXL.CTRL.ACCEPT. -/
def F.BXL_CTRL_ACCEPT : Fld := ⟨A.BXL_CTRL, 0, 1⟩

/-- BXL.ORPHAN_TIMEOUT (spec/10_bxl_protocol.md). -/
def A.BXL_ORPHAN_TIMEOUT : Reg := ⟨0x1c0004, 0x3e8⟩
/-- BXL.ORPHAN_TIMEOUT.MS. -/
def F.BXL_ORPHAN_TIMEOUT_MS : Fld := ⟨A.BXL_ORPHAN_TIMEOUT, 0, 16⟩

/-- BXL.PARTNER_STAT (spec/10_bxl_protocol.md). -/
def A.BXL_PARTNER_STAT : Reg := ⟨0x1c0008, 0x0⟩
/-- BXL.PARTNER_STAT.REFUSED. -/
def F.BXL_PARTNER_STAT_REFUSED : Fld := ⟨A.BXL_PARTNER_STAT, 16, 16⟩
/-- BXL.PARTNER_STAT.RESET_SENT. -/
def F.BXL_PARTNER_STAT_RESET_SENT : Fld := ⟨A.BXL_PARTNER_STAT, 0, 16⟩

/-- BXL.LEASE_ACK(w) (spec/10_bxl_protocol.md). -/
def A.BXL_LEASE_ACK (w : Nat) : Reg := ⟨0x1c0010 + 0x4 * w, 0x0⟩
/-- BXL.LEASE_ACK(w).ACK. -/
def F.BXL_LEASE_ACK_ACK (w : Nat) : Fld := ⟨A.BXL_LEASE_ACK w, 0, 32⟩

/-- BXL.ORPHAN(w) (spec/10_bxl_protocol.md). -/
def A.BXL_ORPHAN (w : Nat) : Reg := ⟨0x1c0020 + 0x4 * w, 0x0⟩
/-- BXL.ORPHAN(w).ORPHAN. -/
def F.BXL_ORPHAN_ORPHAN (w : Nat) : Fld := ⟨A.BXL_ORPHAN w, 0, 32⟩

/-- BXL.RX(p) (spec/10_bxl_protocol.md). -/
def A.BXL_RX (p : Nat) : Reg := ⟨0x1c0100 + 0x20 * p, 0x0⟩
/-- BXL.RX(p).FRAMING. -/
def F.BXL_RX_FRAMING (p : Nat) : Fld := ⟨A.BXL_RX p, 16, 16⟩
/-- BXL.RX(p).CRC_ERR. -/
def F.BXL_RX_CRC_ERR (p : Nat) : Fld := ⟨A.BXL_RX p, 0, 16⟩

/-- BXL.RX(p) word 1 (spec/10_bxl_protocol.md). -/
def A.BXL_RX_1 (p : Nat) : Reg := ⟨0x1c0104 + 0x20 * p, 0x0⟩
/-- BXL.RX(p).CRC_INJ. -/
def F.BXL_RX_1_CRC_INJ (p : Nat) : Fld := ⟨A.BXL_RX_1 p, 16, 16⟩
/-- BXL.RX(p).BAD_TYPE. -/
def F.BXL_RX_1_BAD_TYPE (p : Nat) : Fld := ⟨A.BXL_RX_1 p, 0, 16⟩

/-- BXL.RX(p) word 2 (spec/10_bxl_protocol.md). -/
def A.BXL_RX_2 (p : Nat) : Reg := ⟨0x1c0108 + 0x20 * p, 0x0⟩
/-- BXL.RX(p).BAD_HANDLE. -/
def F.BXL_RX_2_BAD_HANDLE (p : Nat) : Fld := ⟨A.BXL_RX_2 p, 16, 16⟩
/-- BXL.RX(p).FORMAT_ERR. -/
def F.BXL_RX_2_FORMAT_ERR (p : Nat) : Fld := ⟨A.BXL_RX_2 p, 0, 16⟩

/-- BXL.RX(p) word 3 (spec/10_bxl_protocol.md). -/
def A.BXL_RX_3 (p : Nat) : Reg := ⟨0x1c010c + 0x20 * p, 0x0⟩
/-- BXL.RX(p).SEQ_OLD. -/
def F.BXL_RX_3_SEQ_OLD (p : Nat) : Fld := ⟨A.BXL_RX_3 p, 16, 16⟩
/-- BXL.RX(p).ORPHAN. -/
def F.BXL_RX_3_ORPHAN (p : Nat) : Fld := ⟨A.BXL_RX_3 p, 0, 16⟩

/-- BXL.RX(p) word 4 (spec/10_bxl_protocol.md). -/
def A.BXL_RX_4 (p : Nat) : Reg := ⟨0x1c0110 + 0x20 * p, 0x0⟩
/-- BXL.RX(p).GOOD. -/
def F.BXL_RX_4_GOOD (p : Nat) : Fld := ⟨A.BXL_RX_4 p, 0, 32⟩

/-- BXL.RX(p) word 5 (spec/10_bxl_protocol.md). -/
def A.BXL_RX_5 (p : Nat) : Reg := ⟨0x1c0114 + 0x20 * p, 0x0⟩
/-- BXL.RX(p).MARKER_INFO_ROLE. -/
def F.BXL_RX_5_MARKER_INFO_ROLE (p : Nat) : Fld := ⟨A.BXL_RX_5 p, 8, 8⟩
/-- BXL.RX(p).MARKER_INFO_VER. -/
def F.BXL_RX_5_MARKER_INFO_VER (p : Nat) : Fld := ⟨A.BXL_RX_5 p, 0, 8⟩

/-- BXL.PARTNER(i) (spec/10_bxl_protocol.md). -/
def A.BXL_PARTNER (i : Nat) : Reg := ⟨0x1c0200 + 0x20 * i, 0x0⟩

/-- BXL.PARTNER(i) word 1 (spec/10_bxl_protocol.md). -/
def A.BXL_PARTNER_1 (i : Nat) : Reg := ⟨0x1c0204 + 0x20 * i, 0x0⟩
/-- BXL.PARTNER(i).STREAMS. -/
def F.BXL_PARTNER_1_STREAMS (i : Nat) : Fld := ⟨A.BXL_PARTNER_1 i, 16, 8⟩
/-- BXL.PARTNER(i).VER. -/
def F.BXL_PARTNER_1_VER (i : Nat) : Fld := ⟨A.BXL_PARTNER_1 i, 8, 4⟩
/-- BXL.PARTNER(i).FORMATS. -/
def F.BXL_PARTNER_1_FORMATS (i : Nat) : Fld := ⟨A.BXL_PARTNER_1 i, 0, 3⟩

/-- BXL.PARTNER(i) word 2 (spec/10_bxl_protocol.md). -/
def A.BXL_PARTNER_2 (i : Nat) : Reg := ⟨0x1c0208 + 0x20 * i, 0x0⟩

/-- BXL.PARTNER(i) word 3 (spec/10_bxl_protocol.md). -/
def A.BXL_PARTNER_3 (i : Nat) : Reg := ⟨0x1c020c + 0x20 * i, 0x0⟩

/-- BXL.PARTNER(i) word 4 (spec/10_bxl_protocol.md). -/
def A.BXL_PARTNER_4 (i : Nat) : Reg := ⟨0x1c0210 + 0x20 * i, 0x0⟩
/-- BXL.PARTNER(i).STATE. -/
def F.BXL_PARTNER_4_STATE (i : Nat) : Fld := ⟨A.BXL_PARTNER_4 i, 30, 2⟩

/-- BXL.PARTNER(i) word 5 (spec/10_bxl_protocol.md). -/
def A.BXL_PARTNER_5 (i : Nat) : Reg := ⟨0x1c0214 + 0x20 * i, 0x0⟩

/-- BXL.FI(p, s) (spec/10_bxl_protocol.md). -/
def A.BXL_FI (p s : Nat) : Reg := ⟨0x1c0800 + 0x40 * p + 0x8 * s, 0x0⟩
/-- BXL.FI(p, s).COUNT. -/
def F.BXL_FI_COUNT (p s : Nat) : Fld := ⟨A.BXL_FI p s, 0, 32⟩

/-- BXL.FI(p, s) word 1 (spec/10_bxl_protocol.md). -/
def A.BXL_FI_1 (p s : Nat) : Reg := ⟨0x1c0804 + 0x40 * p + 0x8 * s, 0x0⟩
/-- BXL.FI(p, s).ACTIVE. -/
def F.BXL_FI_1_ACTIVE (p s : Nat) : Fld := ⟨A.BXL_FI_1 p s, 31, 1⟩
/-- BXL.FI(p, s).LANE. -/
def F.BXL_FI_1_LANE (p s : Nat) : Fld := ⟨A.BXL_FI_1 p s, 8, 8⟩
/-- BXL.FI(p, s).KIND. -/
def F.BXL_FI_1_KIND (p s : Nat) : Fld := ⟨A.BXL_FI_1 p s, 0, 3⟩

/-- CAS.CTRL (spec/11_cascade.md). -/
def A.CAS_CTRL : Reg := ⟨0x1d0000, 0x0⟩
/-- CAS.CTRL.DEPTH. -/
def F.CAS_CTRL_DEPTH : Fld := ⟨A.CAS_CTRL, 8, 4⟩

/-- CAS.STATUS (spec/11_cascade.md). -/
def A.CAS_STATUS : Reg := ⟨0x1d0004, 0x10000⟩
/-- CAS.STATUS.OFFSET_VALID. -/
def F.CAS_STATUS_OFFSET_VALID : Fld := ⟨A.CAS_STATUS, 31, 1⟩
/-- CAS.STATUS.BROKEN. -/
def F.CAS_STATUS_BROKEN : Fld := ⟨A.CAS_STATUS, 30, 1⟩
/-- CAS.STATUS.LAST. -/
def F.CAS_STATUS_LAST : Fld := ⟨A.CAS_STATUS, 29, 1⟩
/-- CAS.STATUS.INDEXED. -/
def F.CAS_STATUS_INDEXED : Fld := ⟨A.CAS_STATUS, 28, 1⟩
/-- CAS.STATUS.INDEX. -/
def F.CAS_STATUS_INDEX : Fld := ⟨A.CAS_STATUS, 24, 4⟩
/-- CAS.STATUS.MEMBERS. -/
def F.CAS_STATUS_MEMBERS : Fld := ⟨A.CAS_STATUS, 16, 5⟩
/-- CAS.STATUS.ROLE. -/
def F.CAS_STATUS_ROLE : Fld := ⟨A.CAS_STATUS, 0, 2⟩

/-- CAS.UL_ALLOW (spec/11_cascade.md). -/
def A.CAS_UL_ALLOW : Reg := ⟨0x1d0008, 0x2000⟩
/-- CAS.UL_ALLOW.ALLOW. -/
def F.CAS_UL_ALLOW_ALLOW : Fld := ⟨A.CAS_UL_ALLOW, 0, 16⟩

/-- CAS.FEATURE (spec/11_cascade.md). -/
def A.CAS_FEATURE : Reg := ⟨0x1d000c, 0x0⟩
/-- CAS.FEATURE.COMMON. -/
def F.CAS_FEATURE_COMMON : Fld := ⟨A.CAS_FEATURE, 8, 8⟩
/-- CAS.FEATURE.OWN. -/
def F.CAS_FEATURE_OWN : Fld := ⟨A.CAS_FEATURE, 0, 8⟩

/-- CAS.SYNC_OFFSET (spec/11_cascade.md). -/
def A.CAS_SYNC_OFFSET : Reg := ⟨0x1d0010, 0x0⟩

/-- CAS.WAIT_MAX (spec/11_cascade.md). -/
def A.CAS_WAIT_MAX : Reg := ⟨0x1d0014, 0x0⟩
/-- CAS.WAIT_MAX.WAIT. -/
def F.CAS_WAIT_MAX_WAIT : Fld := ⟨A.CAS_WAIT_MAX, 0, 16⟩

/-- CAS.STAT (spec/11_cascade.md). -/
def A.CAS_STAT : Reg := ⟨0x1d0018, 0x0⟩
/-- CAS.STAT.LATE. -/
def F.CAS_STAT_LATE : Fld := ⟨A.CAS_STAT, 16, 16⟩
/-- CAS.STAT.MISSING. -/
def F.CAS_STAT_MISSING : Fld := ⟨A.CAS_STAT, 0, 16⟩

/-- CAS.STAT2 (spec/11_cascade.md). -/
def A.CAS_STAT2 : Reg := ⟨0x1d001c, 0x0⟩
/-- CAS.STAT2.STOMPED. -/
def F.CAS_STAT2_STOMPED : Fld := ⟨A.CAS_STAT2, 16, 16⟩
/-- CAS.STAT2.NO_STREAM. -/
def F.CAS_STAT2_NO_STREAM : Fld := ⟨A.CAS_STAT2, 0, 16⟩

/-- CAS.CANDLE (spec/11_cascade.md). -/
def A.CAS_CANDLE : Reg := ⟨0x1d0020, 0x400003c⟩
/-- CAS.CANDLE.OFFSET. -/
def F.CAS_CANDLE_OFFSET : Fld := ⟨A.CAS_CANDLE, 16, 16⟩
/-- CAS.CANDLE.LEVEL. -/
def F.CAS_CANDLE_LEVEL : Fld := ⟨A.CAS_CANDLE, 0, 8⟩

/-- CAS.CANDLE_BURST (spec/11_cascade.md). -/
def A.CAS_CANDLE_BURST : Reg := ⟨0x1d0024, 0x80⟩
/-- CAS.CANDLE_BURST.BURST. -/
def F.CAS_CANDLE_BURST_BURST : Fld := ⟨A.CAS_CANDLE_BURST, 0, 12⟩

/-- CAS.CHAIN_E (spec/11_cascade.md). -/
def A.CAS_CHAIN_E : Reg := ⟨0x1d0028, 0x0⟩

/-- CAS.CHAIN_E word 1 (spec/11_cascade.md). -/
def A.CAS_CHAIN_E_1 : Reg := ⟨0x1d002c, 0x0⟩

/-- MEMC.CTRL (spec/13_dram.md). -/
def A.MEMC_CTRL : Reg := ⟨0x1e0000, 0x2⟩
/-- MEMC.CTRL.RETAIN_DEEP. -/
def F.MEMC_CTRL_RETAIN_DEEP : Fld := ⟨A.MEMC_CTRL, 8, 1⟩
/-- MEMC.CTRL.RATE. -/
def F.MEMC_CTRL_RATE : Fld := ⟨A.MEMC_CTRL, 4, 1⟩
/-- MEMC.CTRL.SR_EN. -/
def F.MEMC_CTRL_SR_EN : Fld := ⟨A.MEMC_CTRL, 1, 1⟩

/-- MEMC.STATUS (spec/13_dram.md). -/
def A.MEMC_STATUS : Reg := ⟨0x1e0004, 0x0⟩
/-- MEMC.STATUS.TRAINED. -/
def F.MEMC_STATUS_TRAINED : Fld := ⟨A.MEMC_STATUS, 31, 1⟩
/-- MEMC.STATUS.RATE_NOW. -/
def F.MEMC_STATUS_RATE_NOW : Fld := ⟨A.MEMC_STATUS, 30, 1⟩
/-- MEMC.STATUS.RATE_PENDING. -/
def F.MEMC_STATUS_RATE_PENDING : Fld := ⟨A.MEMC_STATUS, 29, 1⟩
/-- MEMC.STATUS.SR. -/
def F.MEMC_STATUS_SR : Fld := ⟨A.MEMC_STATUS, 28, 1⟩
/-- MEMC.STATUS.PAUSE. -/
def F.MEMC_STATUS_PAUSE : Fld := ⟨A.MEMC_STATUS, 27, 1⟩
/-- MEMC.STATUS.GATHER. -/
def F.MEMC_STATUS_GATHER : Fld := ⟨A.MEMC_STATUS, 26, 1⟩
/-- MEMC.STATUS.TRAINING. -/
def F.MEMC_STATUS_TRAINING : Fld := ⟨A.MEMC_STATUS, 25, 1⟩
/-- MEMC.STATUS.FAIL_STEP. -/
def F.MEMC_STATUS_FAIL_STEP : Fld := ⟨A.MEMC_STATUS, 8, 4⟩
/-- MEMC.STATUS.FAIL_CH. -/
def F.MEMC_STATUS_FAIL_CH : Fld := ⟨A.MEMC_STATUS, 4, 1⟩
/-- MEMC.STATUS.RETRAIN_FAILS. -/
def F.MEMC_STATUS_RETRAIN_FAILS : Fld := ⟨A.MEMC_STATUS, 0, 2⟩

/-- MEMC.CFG (spec/13_dram.md). -/
def A.MEMC_CFG : Reg := ⟨0x1e0008, 0x0⟩
/-- MEMC.CFG.SIZE. -/
def F.MEMC_CFG_SIZE : Fld := ⟨A.MEMC_CFG, 0, 2⟩

/-- MEMC.IDLE_SR (spec/13_dram.md). -/
def A.MEMC_IDLE_SR : Reg := ⟨0x1e000c, 0x64⟩
/-- MEMC.IDLE_SR.US. -/
def F.MEMC_IDLE_SR_US : Fld := ⟨A.MEMC_IDLE_SR, 0, 14⟩

/-- MEMC.RETRAIN (spec/13_dram.md). -/
def A.MEMC_RETRAIN : Reg := ⟨0x1e0010, 0x0⟩
/-- MEMC.RETRAIN.DEFERRED. -/
def F.MEMC_RETRAIN_DEFERRED : Fld := ⟨A.MEMC_RETRAIN, 16, 16⟩
/-- MEMC.RETRAIN.COUNT. -/
def F.MEMC_RETRAIN_COUNT : Fld := ⟨A.MEMC_RETRAIN, 0, 16⟩

/-- MEMC.SR_STAT (spec/13_dram.md). -/
def A.MEMC_SR_STAT : Reg := ⟨0x1e0014, 0x0⟩
/-- MEMC.SR_STAT.CANCELLED. -/
def F.MEMC_SR_STAT_CANCELLED : Fld := ⟨A.MEMC_SR_STAT, 16, 16⟩
/-- MEMC.SR_STAT.EXITS. -/
def F.MEMC_SR_STAT_EXITS : Fld := ⟨A.MEMC_SR_STAT, 0, 16⟩

/-- MEMC.REQ_STAT (spec/13_dram.md). -/
def A.MEMC_REQ_STAT : Reg := ⟨0x1e0018, 0x0⟩
/-- MEMC.REQ_STAT.FORWARDED. -/
def F.MEMC_REQ_STAT_FORWARDED : Fld := ⟨A.MEMC_REQ_STAT, 16, 16⟩
/-- MEMC.REQ_STAT.WQ_PEAK. -/
def F.MEMC_REQ_STAT_WQ_PEAK : Fld := ⟨A.MEMC_REQ_STAT, 0, 7⟩

/-- HKM.DAC(d).SET (spec/14_bias_and_monitor.md). -/
def A.HKM_DAC_SET (d : Nat) : Reg := ⟨0x1f0000 + 0x8 * d, 0xff001000⟩
/-- HKM.DAC(d).SET.STEP. -/
def F.HKM_DAC_SET_STEP (d : Nat) : Fld := ⟨A.HKM_DAC_SET d, 24, 8⟩
/-- HKM.DAC(d).SET.INTERVAL. -/
def F.HKM_DAC_SET_INTERVAL (d : Nat) : Fld := ⟨A.HKM_DAC_SET d, 12, 12⟩
/-- HKM.DAC(d).SET.CODE. -/
def F.HKM_DAC_SET_CODE (d : Nat) : Fld := ⟨A.HKM_DAC_SET d, 0, 12⟩

/-- HKM.DAC(d).STAT (spec/14_bias_and_monitor.md). -/
def A.HKM_DAC_STAT (d : Nat) : Reg := ⟨0x1f0004 + 0x8 * d, 0x40000000⟩
/-- HKM.DAC(d).STAT.SLEWING. -/
def F.HKM_DAC_STAT_SLEWING (d : Nat) : Fld := ⟨A.HKM_DAC_STAT d, 31, 1⟩
/-- HKM.DAC(d).STAT.HUSK. -/
def F.HKM_DAC_STAT_HUSK (d : Nat) : Fld := ⟨A.HKM_DAC_STAT d, 30, 1⟩
/-- HKM.DAC(d).STAT.TARGET. -/
def F.HKM_DAC_STAT_TARGET (d : Nat) : Fld := ⟨A.HKM_DAC_STAT d, 16, 12⟩
/-- HKM.DAC(d).STAT.OUT. -/
def F.HKM_DAC_STAT_OUT (d : Nat) : Fld := ⟨A.HKM_DAC_STAT d, 0, 12⟩

/-- HKM.HUSK_STATUS (spec/14_bias_and_monitor.md). -/
def A.HKM_HUSK_STATUS : Reg := ⟨0x1f0308, 0xff⟩
/-- HKM.HUSK_STATUS.HUSK. -/
def F.HKM_HUSK_STATUS_HUSK : Fld := ⟨A.HKM_HUSK_STATUS, 0, 8⟩

/-- HKM.HUSK_CAUSE (spec/14_bias_and_monitor.md). -/
def A.HKM_HUSK_CAUSE : Reg := ⟨0x1f030c, 0x1⟩
/-- HKM.HUSK_CAUSE.CMD. -/
def F.HKM_HUSK_CAUSE_CMD : Fld := ⟨A.HKM_HUSK_CAUSE, 3, 1⟩
/-- HKM.HUSK_CAUSE.BROWNOUT. -/
def F.HKM_HUSK_CAUSE_BROWNOUT : Fld := ⟨A.HKM_HUSK_CAUSE, 2, 1⟩
/-- HKM.HUSK_CAUSE.ANA_PG. -/
def F.HKM_HUSK_CAUSE_ANA_PG : Fld := ⟨A.HKM_HUSK_CAUSE, 1, 1⟩

/-- HKM.LDB (spec/14_bias_and_monitor.md). -/
def A.HKM_LDB : Reg := ⟨0x1f0314, 0x0⟩
/-- HKM.LDB.EDGES. -/
def F.HKM_LDB_EDGES : Fld := ⟨A.HKM_LDB, 16, 16⟩
/-- HKM.LDB.MASK. -/
def F.HKM_LDB_MASK : Fld := ⟨A.HKM_LDB, 0, 8⟩

/-- MON(k).CFG (spec/14_bias_and_monitor.md). -/
def A.MON_CFG (k : Nat) : Reg := ⟨0x1f0400 + 0x100 * k, 0x3⟩
/-- MON(k).CFG.URGENT_WIN. -/
def F.MON_CFG_URGENT_WIN (k : Nat) : Fld := ⟨A.MON_CFG k, 0, 2⟩

/-- MON(k).SCAN (spec/14_bias_and_monitor.md). -/
def A.MON_SCAN (k : Nat) : Reg := ⟨0x1f0404 + 0x100 * k, 0x0⟩
/-- MON(k).SCAN.RUN. -/
def F.MON_SCAN_RUN (k : Nat) : Fld := ⟨A.MON_SCAN k, 31, 1⟩
/-- MON(k).SCAN.URGENT. -/
def F.MON_SCAN_URGENT (k : Nat) : Fld := ⟨A.MON_SCAN k, 30, 1⟩
/-- MON(k).SCAN.WINDOW. -/
def F.MON_SCAN_WINDOW (k : Nat) : Fld := ⟨A.MON_SCAN k, 28, 2⟩
/-- MON(k).SCAN.INTERLEAVE. -/
def F.MON_SCAN_INTERLEAVE (k : Nat) : Fld := ⟨A.MON_SCAN k, 27, 1⟩
/-- MON(k).SCAN.MASK. -/
def F.MON_SCAN_MASK (k : Nat) : Fld := ⟨A.MON_SCAN k, 0, 24⟩

/-- MON(k).STAT (spec/14_bias_and_monitor.md). -/
def A.MON_STAT (k : Nat) : Reg := ⟨0x1f0408 + 0x100 * k, 0x0⟩
/-- MON(k).STAT.FIFO_DROP. -/
def F.MON_STAT_FIFO_DROP (k : Nat) : Fld := ⟨A.MON_STAT k, 16, 16⟩
/-- MON(k).STAT.QUEUED. -/
def F.MON_STAT_QUEUED (k : Nat) : Fld := ⟨A.MON_STAT k, 11, 5⟩
/-- MON(k).STAT.LEVEL. -/
def F.MON_STAT_LEVEL (k : Nat) : Fld := ⟨A.MON_STAT k, 0, 10⟩

/-- MON(k).OVR (spec/14_bias_and_monitor.md). -/
def A.MON_OVR (k : Nat) : Reg := ⟨0x1f040c + 0x100 * k, 0x0⟩
/-- MON(k).OVR.STICKY. -/
def F.MON_OVR_STICKY (k : Nat) : Fld := ⟨A.MON_OVR k, 0, 24⟩

/-- MON(k).FIFO word 1 (spec/14_bias_and_monitor.md). -/
def A.MON_FIFO_1 (k : Nat) : Reg := ⟨0x1f0414 + 0x100 * k, 0x0⟩

/-- MON(k).RESULT(i) (spec/14_bias_and_monitor.md). -/
def A.MON_RESULT (k i : Nat) : Reg := ⟨0x1f0440 + 0x100 * k + 0x4 * i, 0x0⟩
/-- MON(k).RESULT(i).VALID. -/
def F.MON_RESULT_VALID (k i : Nat) : Fld := ⟨A.MON_RESULT k i, 31, 1⟩
/-- MON(k).RESULT(i).OVR. -/
def F.MON_RESULT_OVR (k i : Nat) : Fld := ⟨A.MON_RESULT k i, 30, 1⟩
/-- MON(k).RESULT(i).URGENT. -/
def F.MON_RESULT_URGENT (k i : Nat) : Fld := ⟨A.MON_RESULT k i, 29, 1⟩
/-- MON(k).RESULT(i).RESULT. -/
def F.MON_RESULT_RESULT (k i : Nat) : Fld := ⟨A.MON_RESULT k i, 0, 20⟩

/-- PWR.MODE (spec/15_power_and_boot.md). -/
def A.PWR_MODE : Reg := ⟨0x200000, 0x0⟩
/-- PWR.MODE.ENTRY. -/
def F.PWR_MODE_ENTRY : Fld := ⟨A.PWR_MODE, 8, 1⟩
/-- PWR.MODE.STATE. -/
def F.PWR_MODE_STATE : Fld := ⟨A.PWR_MODE, 4, 3⟩
/-- PWR.MODE.TARGET. -/
def F.PWR_MODE_TARGET : Fld := ⟨A.PWR_MODE, 0, 2⟩

/-- PWR.DOMAIN (spec/15_power_and_boot.md). -/
def A.PWR_DOMAIN : Reg := ⟨0x200004, 0x40007⟩
/-- PWR.DOMAIN.ON. -/
def F.PWR_DOMAIN_ON : Fld := ⟨A.PWR_DOMAIN, 0, 19⟩

/-- PWR.STAT (spec/15_power_and_boot.md). -/
def A.PWR_STAT : Reg := ⟨0x200008, 0x0⟩
/-- PWR.STAT.CANCELLED. -/
def F.PWR_STAT_CANCELLED : Fld := ⟨A.PWR_STAT, 16, 16⟩
/-- PWR.STAT.ENTRIES. -/
def F.PWR_STAT_ENTRIES : Fld := ⟨A.PWR_STAT, 0, 16⟩

/-- PWR.WICK_RETAIN (spec/15_power_and_boot.md). -/
def A.PWR_WICK_RETAIN : Reg := ⟨0x200100, 0x0⟩

/-- PWR.WICK_CFG (spec/15_power_and_boot.md). -/
def A.PWR_WICK_CFG : Reg := ⟨0x200104, 0x0⟩
/-- PWR.WICK_CFG.RAIL7_PG. -/
def F.PWR_WICK_CFG_RAIL7_PG : Fld := ⟨A.PWR_WICK_CFG, 1, 1⟩
/-- PWR.WICK_CFG.RAIL7_EN. -/
def F.PWR_WICK_CFG_RAIL7_EN : Fld := ⟨A.PWR_WICK_CFG, 0, 1⟩

/-- PWR.WICK_WAKE_TIMER (spec/15_power_and_boot.md). -/
def A.PWR_WICK_WAKE_TIMER : Reg := ⟨0x200108, 0x0⟩

/-- PWR.WICK_CAUSE (spec/15_power_and_boot.md). -/
def A.PWR_WICK_CAUSE : Reg := ⟨0x200110, 0x0⟩
/-- PWR.WICK_CAUSE.RESET_CAUSE. -/
def F.PWR_WICK_CAUSE_RESET_CAUSE : Fld := ⟨A.PWR_WICK_CAUSE, 4, 3⟩
/-- PWR.WICK_CAUSE.REPLAYED. -/
def F.PWR_WICK_CAUSE_REPLAYED : Fld := ⟨A.PWR_WICK_CAUSE, 3, 1⟩
/-- PWR.WICK_CAUSE.LAST_WAKE. -/
def F.PWR_WICK_CAUSE_LAST_WAKE : Fld := ⟨A.PWR_WICK_CAUSE, 0, 3⟩

/-- PWR.WICK_FAIL (spec/15_power_and_boot.md). -/
def A.PWR_WICK_FAIL : Reg := ⟨0x200114, 0x0⟩
/-- PWR.WICK_FAIL.WAKE_FAIL. -/
def F.PWR_WICK_FAIL_WAKE_FAIL : Fld := ⟨A.PWR_WICK_FAIL, 31, 1⟩
/-- PWR.WICK_FAIL.FALLBACK. -/
def F.PWR_WICK_FAIL_FALLBACK : Fld := ⟨A.PWR_WICK_FAIL, 16, 2⟩
/-- PWR.WICK_FAIL.COUNT. -/
def F.PWR_WICK_FAIL_COUNT : Fld := ⟨A.PWR_WICK_FAIL, 8, 8⟩
/-- PWR.WICK_FAIL.STEP. -/
def F.PWR_WICK_FAIL_STEP : Fld := ⟨A.PWR_WICK_FAIL, 0, 4⟩

/-- PWR.WICK_SLEEP_TIME (spec/15_power_and_boot.md). -/
def A.PWR_WICK_SLEEP_TIME : Reg := ⟨0x200118, 0x0⟩

/-- PWR.WICK_SLEEP_TIME word 1 (spec/15_power_and_boot.md). -/
def A.PWR_WICK_SLEEP_TIME_1 : Reg := ⟨0x20011c, 0x0⟩

/-- PWR.WICK_BLOCKED (spec/15_power_and_boot.md). -/
def A.PWR_WICK_BLOCKED : Reg := ⟨0x200120, 0x0⟩
/-- PWR.WICK_BLOCKED.WRITES. -/
def F.PWR_WICK_BLOCKED_WRITES : Fld := ⟨A.PWR_WICK_BLOCKED, 16, 16⟩
/-- PWR.WICK_BLOCKED.READS. -/
def F.PWR_WICK_BLOCKED_READS : Fld := ⟨A.PWR_WICK_BLOCKED, 0, 16⟩

/-- PWR.WICK_RAILS (spec/15_power_and_boot.md). -/
def A.PWR_WICK_RAILS : Reg := ⟨0x200124, 0x0⟩
/-- PWR.WICK_RAILS.EN. -/
def F.PWR_WICK_RAILS_EN : Fld := ⟨A.PWR_WICK_RAILS, 8, 8⟩
/-- PWR.WICK_RAILS.PG. -/
def F.PWR_WICK_RAILS_PG : Fld := ⟨A.PWR_WICK_RAILS, 0, 8⟩

/-- TRUST.BOOT (spec/16_firmware_trust.md). -/
def A.TRUST_BOOT : Reg := ⟨0x210004, 0x0⟩
/-- TRUST.BOOT.FW_RUN. -/
def F.TRUST_BOOT_FW_RUN : Fld := ⟨A.TRUST_BOOT, 31, 1⟩
/-- TRUST.BOOT.REASON. -/
def F.TRUST_BOOT_REASON : Fld := ⟨A.TRUST_BOOT, 24, 4⟩
/-- TRUST.BOOT.HOST_LEN. -/
def F.TRUST_BOOT_HOST_LEN : Fld := ⟨A.TRUST_BOOT, 0, 23⟩

/-- TRUST.BOOT.STATE (spec/16_firmware_trust.md). -/
def A.TRUST_BOOT_STATE : Reg := ⟨0x210008, 0x0⟩
/-- TRUST.BOOT.STATE.STATE. -/
def F.TRUST_BOOT_STATE_STATE : Fld := ⟨A.TRUST_BOOT_STATE, 0, 2⟩

/-- TRUST.FW_VERSION (spec/16_firmware_trust.md). -/
def A.TRUST_FW_VERSION : Reg := ⟨0x21000c, 0x0⟩
/-- TRUST.FW_VERSION.MAJOR. -/
def F.TRUST_FW_VERSION_MAJOR : Fld := ⟨A.TRUST_FW_VERSION, 24, 8⟩
/-- TRUST.FW_VERSION.MINOR. -/
def F.TRUST_FW_VERSION_MINOR : Fld := ⟨A.TRUST_FW_VERSION, 16, 8⟩
/-- TRUST.FW_VERSION.FEATURE. -/
def F.TRUST_FW_VERSION_FEATURE : Fld := ⟨A.TRUST_FW_VERSION, 8, 8⟩
/-- TRUST.FW_VERSION.EPOCH. -/
def F.TRUST_FW_VERSION_EPOCH : Fld := ⟨A.TRUST_FW_VERSION, 0, 7⟩

/-- TRUST.STAGE (spec/16_firmware_trust.md). -/
def A.TRUST_STAGE : Reg := ⟨0x210014, 0x0⟩
/-- TRUST.STAGE.FIRST. -/
def F.TRUST_STAGE_FIRST : Fld := ⟨A.TRUST_STAGE, 27, 5⟩
/-- TRUST.STAGE.TOTAL. -/
def F.TRUST_STAGE_TOTAL : Fld := ⟨A.TRUST_STAGE, 0, 23⟩

/-- TRUST.STAGE_STAT (spec/16_firmware_trust.md). -/
def A.TRUST_STAGE_STAT : Reg := ⟨0x21001c, 0x0⟩
/-- TRUST.STAGE_STAT.REASON. -/
def F.TRUST_STAGE_STAT_REASON : Fld := ⟨A.TRUST_STAGE_STAT, 4, 4⟩
/-- TRUST.STAGE_STAT.BUSY. -/
def F.TRUST_STAGE_STAT_BUSY : Fld := ⟨A.TRUST_STAGE_STAT, 3, 1⟩
/-- TRUST.STAGE_STAT.STATE. -/
def F.TRUST_STAGE_STAT_STATE : Fld := ⟨A.TRUST_STAGE_STAT, 0, 2⟩

/-- TRUST.FUSE_PROG (spec/16_firmware_trust.md). -/
def A.TRUST_FUSE_PROG : Reg := ⟨0x210020, 0x0⟩
/-- TRUST.FUSE_PROG.BUSY. -/
def F.TRUST_FUSE_PROG_BUSY : Fld := ⟨A.TRUST_FUSE_PROG, 30, 1⟩
/-- TRUST.FUSE_PROG.RESULT. -/
def F.TRUST_FUSE_PROG_RESULT : Fld := ⟨A.TRUST_FUSE_PROG, 28, 2⟩
/-- TRUST.FUSE_PROG.OP. -/
def F.TRUST_FUSE_PROG_OP : Fld := ⟨A.TRUST_FUSE_PROG, 8, 2⟩
/-- TRUST.FUSE_PROG.ARG. -/
def F.TRUST_FUSE_PROG_ARG : Fld := ⟨A.TRUST_FUSE_PROG, 0, 7⟩

/-- TRUST.FUSE_DATA(i) (spec/16_firmware_trust.md). -/
def A.TRUST_FUSE_DATA (i : Nat) : Reg := ⟨0x210040 + 0x4 * i, 0x0⟩

/-- TRUST.FW_DIGEST(i) (spec/16_firmware_trust.md). -/
def A.TRUST_FW_DIGEST (i : Nat) : Reg := ⟨0x210100 + 0x4 * i, 0x0⟩

/-- TRUST.STAGE_DIGEST(i) (spec/16_firmware_trust.md). -/
def A.TRUST_STAGE_DIGEST (i : Nat) : Reg := ⟨0x210140 + 0x4 * i, 0x0⟩

/-- PMC(a).CTL (spec/17_counters.md). -/
def A.PMC_CTL (a : Nat) : Reg := ⟨0x220000 + 0x100 * a, 0x0⟩
/-- PMC(a).CTL.EN. -/
def F.PMC_CTL_EN (a : Nat) : Fld := ⟨A.PMC_CTL a, 0, 1⟩

/-- PMC(a).CYCLE (spec/17_counters.md). -/
def A.PMC_CYCLE (a : Nat) : Reg := ⟨0x220008 + 0x100 * a, 0x0⟩

/-- PMC(a).CYCLE word 1 (spec/17_counters.md). -/
def A.PMC_CYCLE_1 (a : Nat) : Reg := ⟨0x22000c + 0x100 * a, 0x0⟩

/-- PMC(a).OVF (spec/17_counters.md). -/
def A.PMC_OVF (a : Nat) : Reg := ⟨0x220010 + 0x100 * a, 0x0⟩
/-- PMC(a).OVF.OVF. -/
def F.PMC_OVF_OVF (a : Nat) : Fld := ⟨A.PMC_OVF a, 0, 8⟩

/-- PMC(a).EVSEL(i) (spec/17_counters.md). -/
def A.PMC_EVSEL (a i : Nat) : Reg := ⟨0x220020 + 0x100 * a + 0x4 * i, 0x0⟩
/-- PMC(a).EVSEL(i).EVENT. -/
def F.PMC_EVSEL_EVENT (a i : Nat) : Fld := ⟨A.PMC_EVSEL a i, 0, 8⟩

/-- PMC(a).CNT(i) (spec/17_counters.md). -/
def A.PMC_CNT (a i : Nat) : Reg := ⟨0x220040 + 0x100 * a + 0x8 * i, 0x0⟩

/-- PMC(a).CNT(i) word 1 (spec/17_counters.md). -/
def A.PMC_CNT_1 (a i : Nat) : Reg := ⟨0x220044 + 0x100 * a + 0x8 * i, 0x0⟩

/-- PMC(a).SAMP (spec/17_counters.md). -/
def A.PMC_SAMP (a : Nat) : Reg := ⟨0x220080 + 0x100 * a, 0x0⟩
/-- PMC(a).SAMP.EN. -/
def F.PMC_SAMP_EN (a : Nat) : Fld := ⟨A.PMC_SAMP a, 31, 1⟩
/-- PMC(a).SAMP.EVENT. -/
def F.PMC_SAMP_EVENT (a : Nat) : Fld := ⟨A.PMC_SAMP a, 0, 8⟩

/-- PMC(a).SAMP_N (spec/17_counters.md). -/
def A.PMC_SAMP_N (a : Nat) : Reg := ⟨0x220084 + 0x100 * a, 0x1000⟩
/-- PMC(a).SAMP_N.N. -/
def F.PMC_SAMP_N_N (a : Nat) : Fld := ⟨A.PMC_SAMP_N a, 0, 24⟩

/-- PMC.SAMP_CTRL (spec/17_counters.md). -/
def A.PMC_SAMP_CTRL : Reg := ⟨0x220800, 0x0⟩
/-- PMC.SAMP_CTRL.MODE. -/
def F.PMC_SAMP_CTRL_MODE : Fld := ⟨A.PMC_SAMP_CTRL, 0, 1⟩

/-- PMC.SAMP_BASE (spec/17_counters.md). -/
def A.PMC_SAMP_BASE : Reg := ⟨0x220804, 0x0⟩
/-- PMC.SAMP_BASE.BASE. -/
def F.PMC_SAMP_BASE_BASE : Fld := ⟨A.PMC_SAMP_BASE, 16, 8⟩

/-- PMC.SAMP_WR (spec/17_counters.md). -/
def A.PMC_SAMP_WR : Reg := ⟨0x220808, 0x0⟩
/-- PMC.SAMP_WR.WRAPS. -/
def F.PMC_SAMP_WR_WRAPS : Fld := ⟨A.PMC_SAMP_WR, 16, 16⟩
/-- PMC.SAMP_WR.FULL. -/
def F.PMC_SAMP_WR_FULL : Fld := ⟨A.PMC_SAMP_WR, 12, 1⟩
/-- PMC.SAMP_WR.WR. -/
def F.PMC_SAMP_WR_WR : Fld := ⟨A.PMC_SAMP_WR, 0, 12⟩

/-- PMC.SAMP_LOST (spec/17_counters.md). -/
def A.PMC_SAMP_LOST : Reg := ⟨0x22080c, 0x0⟩
/-- PMC.SAMP_LOST.COUNT. -/
def F.PMC_SAMP_LOST_COUNT : Fld := ⟨A.PMC_SAMP_LOST, 0, 32⟩

end Sys2Proof.Machine
end

