-- ==== Sys2Proof/Machine/State.lean ====
section
/-!
DEFINITION. The state of the block as plain data: every register word, counter, queue, buffer, mode and pin level that the spec
names, the commands that wait (first in, first out), and State.reset, the block at the power-on reset (spec/19_register_map.md
R499).
-/
namespace Sys2Proof.Machine

/-- The block stops on no command with a fault: the spec gives every access an answer (R58, R59) and every command an effect. The
type has no constructor, so nobody raises a fault. -/
inductive Fault where
deriving DecidableEq, Repr

/-- Why a step has no meaning. -/
inductive Refusal where
  /-- Raised by exec's arm of a row that has no meaning yet, with the row's mnemonic. Safe: nothing is claimed of it. -/
  | notModelled (mnemonic : String)
deriving DecidableEq, Repr

/-- The two parts of the family (R6). -/
inductive Part where
  | iza6490 | iza6448
deriving DecidableEq, Repr, Inhabited

/-- A SYNC event between its capture edge and the load or comparison (R32, R35, R507): the mode, value and scenario time of the
load as they follow from the registers at the capture edge. -/
structure SyncCapture where
  check : Bool
  value : Nat
  loadAt : Nat
deriving DecidableEq, Repr, Inhabited

/-- Clocks and device time (spec/01_clocks_and_time.md). -/
structure TimeSt where
  now : Nat                 -- CK_DP periods since the power-on reset
  tick : Nat                -- the 64-bit tick counter (R30)
  counting : Bool           -- the counter advances (R506)
  laneUp : Bool             -- the lane PLL has locked since it was last switched on (R28, R29)
  origin : Nat              -- last SYNC origin; 0 before the first (R26, R49)
  syncs : List SyncCapture
  tddLog : List (Nat × Nat) -- (tick, 0 none, 1 bank 0, 2 bank 1), newest first: which bank runs from that tick (R504)
deriving DecidableEq, Repr, Inhabited

/-- An entry fetch that is outstanding (R72); `discard` once the ring was disabled (R70); `at'` is the elapsed time of its issue
(R63). -/
structure Fetch where
  index : Nat
  count : Nat
  discard : Bool
  at' : Nat
deriving DecidableEq, Repr, Inhabited

/-- Device side of a command ring (R66, R71, R72). -/
structure CmdRing where
  piSeen : Nat
  ci : Nat
  pos : Nat
  piOut : Bool
  piStale : Bool            -- the outstanding PI read was issued before the ring was disabled or reset: what it brings is discarded
  piWant : Bool             -- a poll has asked for a PI read that waits for a tag (R62, R71)
  piAt : Nat                -- elapsed time at which the outstanding PI read was issued (R63)
  fetches : List Fetch
  stopped : Bool            -- halted under R73 until it is enabled anew
  held : Bool               -- reading held back under R81 until the next poll
deriving DecidableEq, Repr, Inhabited

/-- Device side of a completion or event ring (R65, R66, R74, R82). -/
structure OutRing where
  pi : Nat
  ci : Nat
  ciOut : Bool
  ciStale : Bool            -- the outstanding CI read was issued before the ring was disabled or reset
  ciWant : Bool             -- a CI read waits for a tag (R62, R74)
  ciAt : Nat                -- elapsed time at which the outstanding CI read was issued (R63)
  ciFailed : Bool           -- the last CI read failed: the word is read again at the next poll (R74)
  errAt : Option Nat
  unsignalled : Nat
  firstAt : Nat
  seq : Nat
  lost : Nat
deriving DecidableEq, Repr, Inhabited

/-- Where a command in flight stands: not started; started with its settlement still due; settled (R81, R83). -/
inductive FlightStage where
  | waiting | running | settled
deriving DecidableEq, Repr, Inhabited

/-- A command in flight (R81): its read order, entry, arrival tick and whether TICK_VALID was 1 at arrival; for a command whose source
data is read from host memory, that region as (address, length), the elapsed time at which its first read request was issued, none while
it waits for a tag, the tags that its requests hold, the part of the region that no request has covered yet, and the bytes that earlier
requests have brought (R62, R63). -/
structure Flight where
  id : Nat
  cmd : Cmd
  arrival : Nat
  tickOk : Bool
  stage : FlightStage
  source : Nat × Nat
  readAt : Option Nat
  reads : Nat
  rest : Nat × Nat
  got : List Byte
deriving DecidableEq, Repr, Inhabited

/-- A completion (R78). -/
structure Cpl where
  id : Nat
  ring : Nat
  cq : Nat
  tag : Nat
  status : Nat
  final : Bool
  result : Nat
  tick : Nat
  tickOk : Bool
deriving DecidableEq, Repr, Inhabited

/-- An event (R82) with the sequence number it took when it was posted; `data` is bytes 16-31. -/
structure Ev where
  ring : Nat
  seq : Nat
  type : Nat
  cls : Nat
  tick : Nat
  tickOk : Bool
  data : Nat
deriving DecidableEq, Repr, Inhabited

/-- The host interface (spec/02_host_rings.md). -/
structure HostSt where
  cmdRings : List CmdRing
  cplRings : List OutRing
  evRings : List OutRing
  flight : List Flight      -- in read order
  nextId : Nat
  due : List Cpl            -- completions that have fallen due and are not yet written
  backlog : List Cpl        -- completion backlog (R81)
  evq : List Ev             -- event queue (R82)
  rr : Nat                  -- next ring of the round robin (R75)
  lastPoll : Nat
  kick : Bool
  msixTable : List (Nat × Nat)  -- address and data of the 32 entries of the MSI-X table (R57)
  msixMask : Nat            -- mask bits of the entries
  msixPend : Nat            -- the pending-bit array
  msixOn : Bool             -- MSI-X Enable
  msixFunc : Bool           -- Function Mask
  busMaster : Bool
  tag10 : Bool
  extTag : Bool
  mrrs : Nat
  timeoutValue : Nat        -- Completion Timeout Value of Device Control 2 (R63)
  aspm : Nat                -- ASPM Control of PF0 (R56)
  reporting : Nat           -- error reporting enables of Device Control: bit 1 non-fatal, bit 2 fatal (R56)
  aer : Nat                 -- Uncorrectable Error Status of AER (R56)
  aerMask : Nat             -- Uncorrectable Error Mask
  aerSeverity : Nat         -- Uncorrectable Error Severity
  aerCor : Nat              -- Correctable Error Status
  aerCorMask : Nat          -- Correctable Error Mask
  dstate : Nat × Nat        -- PowerState of PF0 and PF1: 0 D0 to 3 D3hot (R56: software-directed L1)
  trained : Nat × Nat       -- speed (1 to 4: 2.5, 5.0, 8.0, 16.0 GT/s) and width to which the link last trained (R56)
  strays : List (Nat × Nat) -- reads of a failed source read or burst that are still outstanding: (elapsed time of issue, how many) (R62, R63)
  dmaTurn : Nat             -- channel that took the last turn of the round robin of R386
  cfgLatch : Nat            -- high half of CFG_WRITES, as latched by the last read of its low half
  sampledAt : List (Nat × Nat)  -- sample counts: word address, elapsed time up to which it is brought up to date
deriving DecidableEq, Repr, Inhabited

/-- A scheduled activation that is pending (R45): its command in flight, activation tick and conflict keys (R95). -/
structure Pending where
  id : Nat
  cmd : Cmd
  tick : Nat
  keys : List (Nat × Nat × Nat)
  src : List Byte           -- source data read before acceptance (DPD_COEF_LOAD)
deriving DecidableEq, Repr, Inhabited

/-! ## Carriers, streams and the datapath (chapters 03-06, 10) -/

/-- What a CARRIER_SET changes of a carrier: its settings, a tick with the NCO phase there (R165), its packet origin (R152), and when its
stages last started from a cleared state (R162, R163, R206). -/
structure Settings where
  k : Nat
  resp : Nat
  cicN : Nat
  cicM : Nat
  nco : Nat
  phaseAt : Nat × Nat
  grid : Nat
  dlFrom : Nat
  ulFrom : Nat
deriving DecidableEq, Repr, Inhabited

/-- A carrier and the settings in force (R106, R159): `grid` is its packet origin (R152); the spans are pin-tick intervals that
changes have spoilt, on the uplink (R210) and on the downlink echo (R179); `phaseAt` is a tick and the NCO phase there (R165). A change
made at a tick takes hold from the first sample of the carrier grid at or after it (R48): `was` holds the settings that each change since
the origin replaced. -/
structure Carrier where
  gen : Nat
  dir : Nat
  sLog2 : Nat
  k : Nat
  resp : Nat
  cicN : Nat
  cicM : Nat
  nco : Nat
  phaseAt : Nat × Nat
  grid : Nat
  ulSpans : List (Nat × Nat)
  dlSpans : List (Nat × Nat)
  ulZero : List (Nat × Nat)  -- reference pin ticks of layer samples sent as pipped zeros (R206)
  ulRestart : List (Nat × Nat × Nat)  -- (T' + 40, first tick of the incomplete old samples, T') of the restarts still due (R206)
  dlFrom : Nat              -- tick at which stages 2-6 last started from a cleared state (R162, R163)
  ulFrom : Nat              -- pin tick from which stages 8-10 have run from a cleared state (R206)
  dlRestarted : List Nat    -- pending activations whose downlink restart (R163) has run
  dlDue : List (Nat × Nat × Settings)  -- (T, first new-rate sample, old settings) of changes in force whose downlink restart is due (R163)
  was : List (Nat × Nat × Settings)    -- (tick of a change, pin tick up to which, settings) of what changes replaced, newest first
deriving DecidableEq, Repr, Inhabited

/-- One packet slot of a downlink stream (R155-R157, R181). -/
structure Slot where
  first : Nat               -- first-sample tick
  grid : Nat                -- packet origin under which it lies
  k : Nat                   -- rate ratio under which it lies
  written : Bool
  late : Bool               -- a packet for it failed the deadline test
  dropped : Bool            -- a packet for it was dropped by check 6 or 7 of R320 or by the early test
  decided : Option Nat      -- 0 written, 1 late, 2 missing, 3 no required block
  required : Nat            -- required blocks, as decided
  echoed : Bool
  data : List (Int × Int)
deriving DecidableEq, Repr, Inhabited

/-- An echo record that is due, since an elapsed time (R181). -/
structure EchoRecord where
  due : Nat
  first : Nat
  pips : Nat
  cause : Nat
deriving DecidableEq, Repr, Inhabited

/-- A stream (R321, R326-R331): carrier slot, direction (0 downlink, 1 uplink), layer, format, partner handle; lease and orphan
state; for a downlink stream its jitter buffer and sequence history, for an uplink stream its next slot and SEQ. -/
structure Stream where
  gen : Nat
  carrier : Nat
  dir : Nat
  layer : Nat
  format : Nat
  partner : Nat
  acked : Bool              -- the last grant has been acknowledged (R326)
  grant : Nat × Nat × Nat   -- K, packet origin and FROM of the last grant (R326)
  orphan : Option Nat       -- elapsed time of the loss (R328)
  orphanEnd : Option Nat    -- elapsed time at which the orphan ends (R329)
  newest : Option Nat       -- H of R321
  slots : List Slot
  firstAccepted : Option Nat
  badSlots : Nat            -- late and missing slots decided in the current frame (R109)
  firstBad : Nat
  echoes : List EchoRecord
  ulNext : Nat              -- first-sample tick of the next uplink slot
  ulOld : List (Nat × Nat × Bool)  -- older grids, oldest first: next slot, origin of the grid after it, NEWORIGIN still due (R206, R322)
  ulSeq : Nat
  newOrigin : Bool
deriving DecidableEq, Repr, Inhabited

/-- A weight set (R120, R123): `bank` is the staged bank that holds a loaded on-chip-only set. -/
structure WeightSet where
  gen : Nat
  dir : Nat
  l : Nat
  sLog2 : Nat
  carrier : Nat             -- carrier handle
  bank : Option Nat
  data : List Byte
deriving DecidableEq, Repr, Inhabited

/-- The active set of a carrier and direction (R121, R131): the set slot, its columns, layers and weights; `mapped` is L of the
set whose columns map layers now, and `mapAt` the activation tick T after which, from block B on, this set's do. -/
structure ActiveSet where
  carrier : Nat
  dir : Nat
  slot : Nat
  cols : Nat
  layers : Nat
  mapped : Option Nat
  mapAt : Option Nat
  data : List Byte
deriving DecidableEq, Repr, Inhabited

/-- The fill of the shadow bank for a pending weight-set activation (R127, R130). -/
structure Fill where
  id : Nat
  slot : Nat
  carrier : Nat
  dir : Nat
  cols : Nat
  tick : Nat
  started : Bool
  done : Bool
  failed : Bool
  down : Bool               -- the DRAM port was untrained inside the window
  data : List Byte
deriving DecidableEq, Repr, Inhabited

/-- An old set that keeps its columns in the active bank until B + 7SK, where B is that of the activation at tick `after` (R131). -/
structure Leaving where
  carrier : Nat
  dir : Nat
  slot : Nat
  cols : Nat
  after : Nat
deriving DecidableEq, Repr, Inhabited

/-- The weight memory (R121). -/
structure BeamSt where
  sets : List (Nat × WeightSet)
  active : List ActiveSet
  fills : List Fill
  leaving : List Leaving
  libTicks : List (Nat × Nat)  -- (direction, tick) of library activations that have reached their tick (R129)
  loads : List (Nat × Nat × Nat)  -- (flight id, set slot, staged bank) of a WS_LOAD whose source data is being read
  unmappedFrom : Nat           -- tick before which BEAM.UNMAPPED has counted every slice block (R112)
deriving DecidableEq, Repr, Inhabited

/-- A DATA_DL packet that has passed R320 and awaits the tests of R155: stream slot, first-sample tick, arrival tick, samples. -/
structure DlArrival where
  stream : Nat
  first : Nat
  arrival : Nat
  data : List (Int × Int)
deriving DecidableEq, Repr, Inhabited

/-- DC loop and gain state of a receive path (R189-R198) that no register shows. -/
structure RxPath where
  windowFrom : Nat          -- tick from which the next measured window may start (R194)
  resetAt : Option Nat      -- W0 of a reset whose clearing of C and F is due (R196)
  acqLeft : Nat             -- acquisition windows still to be measured (R196)
  acqFrom : Option Nat      -- W0 of an acquisition whose invalid span is open (R210)
  acqEnd : Option Nat       -- swap tick of the fourth acquisition swap (R196)
  lastStep : Option Nat     -- tick of the last gain-control step chosen (R191)
  spoilt : List Nat         -- ticks of changes that spoil the window around them (R194)
deriving DecidableEq, Repr, Inhabited

/-- An adaptive swap that waits for its swap tick (R53): path, kind (0 DPD set, 1 DC offset, 2 RX gain), bin and block; `coarse`
marks a DC swap in which a component takes a coarse step (R195). -/
structure AdaptSwap where
  coarse : Bool
  path : Nat
  kind : Nat
  bin : Nat
  tick : Nat
  seq : Nat
  block : List Byte
deriving DecidableEq, Repr, Inhabited

/-! ## Objects of other chapters -/

/-- A capture job (R102, R233): its parameters, its first store bank, and for its peripheral (R389, R391) the records written so far
and those read; `ended` once CAPTURE_DONE was posted. -/
structure CapJob where
  gen : Nat
  source : Nat
  index : Nat
  dest : Nat
  length : Nat
  addr : Nat
  stream : Nat
  bank : Nat
  written : Nat
  taken : Nat
  ended : Bool
deriving DecidableEq, Repr, Inhabited

/-- A capture started by CAP_START and not yet reported (R233): its job, T, the tick of its first sample once it has started, and the
tick and status with which it stopped early. For a stream source also the stream's carrier slot, direction and layer, and the rates it has
met since its first sample, newest first: (tick from which a rate holds, samples before it, K). -/
structure Capture where
  job : Nat
  handle : Nat
  source : Nat
  index : Nat
  dest : Nat
  length : Nat
  base : Nat                -- byte address of record 0 in its destination
  carrier : Nat
  layer : Nat × Nat
  rates : List (Nat × Nat × Nat)
  tick : Nat
  first : Option Nat
  stop : Option (Nat × Nat)
deriving DecidableEq, Repr, Inhabited

/-! ## Radio control (chapter 08) -/

/-- A calibration (0 full, 1 fine) or the start (2) of a synthesiser that runs: elapsed-time start and end, whether it rebuilds the
band table, whether LO_CAL_DONE is owed, the kind of a calibration queued behind it, TABLE_VALID before it, and whether a pod's step
started it (R254, R258, R260, R261). -/
structure LoCal where
  kind : Nat
  start : Nat
  stop : Nat
  table : Bool
  post : Bool
  queued : Option Nat
  saved : Bool
  pod : Bool
deriving DecidableEq, Repr, Inhabited

/-- What is at TX_P(n), TX_N(n) of a pod (R263). -/
inductive TxPin where
  | highImpedance | muted | modulator
deriving DecidableEq, Repr, Inhabited

/-- What is at the ADC input of a pod (R263): isolated with internal termination, isolated, or RXI_P(n), RXI_N(n). -/
inductive RxPin where
  | terminated | isolated | connected
deriving DecidableEq, Repr, Inhabited

/-- The analogue parts of a pod that a state turns on (R263). -/
inductive PodPart where
  | references | bias | converterSupplies | loDistribution | converterClocks | receiveChain | transmitOutput
deriving DecidableEq, Repr, Inhabited

/-- A ladder step that runs: target rung, end in elapsed time, DUPLEX FDD as at its start (R264, R266). -/
structure PodStep where
  goal : Nat
  stop : Nat
  fdd : Bool
deriving DecidableEq, Repr, Inhabited

/-- A front-end pin edge that is due: elapsed time, native code, edge of an exit (R270). -/
structure FeEdge where
  at' : Nat
  code : Nat
  exit : Bool
deriving DecidableEq, Repr, Inhabited

/-- A pod beside what RAD.POD(p) shows: the running step, its TX output and receive input, POD_STATE_REACHED owed, pin edges due, and entry edges made before the start of their step (tick, code). -/
structure PodSt where
  step : Option PodStep
  tx : TxPin
  rx : RxPin
  announce : Bool
  edges : List FeEdge
  made : List (Nat × Nat)
deriving DecidableEq, Repr, Inhabited

/-- The coexistence wires (R278-R281): levels as decided (a pin and its bit follow at the CK_HK edges of `todo`: elapsed time, 0 REQ_O
1 PRI_O 2 GNT_O, level), elapsed time of the last rise of GNT_O, the elapsed time since which own jobs are held and the ticks held so far. -/
structure CoexSt where
  reqO : Bool
  priO : Bool
  gntO : Bool
  todo : List (Nat × Nat × Bool)
  gntAt : Nat
  heldSince : Option Nat
  held : Nat
deriving DecidableEq, Repr, Inhabited

/-- Radio control: the three synthesisers, the pods, the FE serial frames that have started (flight ids), coexistence. -/
structure RadioSt where
  los : List (Option LoCal)
  pods : List PodSt
  frames : List Nat
  coex : CoexSt
deriving DecidableEq, Repr, Inhabited

/-- Where a running calibration job stands (R279, R363): waiting for the grant, waiting to emit, emitting, or a KIND 2 job. -/
inductive CalPhase where
  | asking | granted | emitting | image
deriving DecidableEq, Repr, Inhabited

/-- A run of a calibration job: T, phase, the edge g of its grant, the tick from which it emits, the step it is in, records written, a nonzero
STATUS seen. -/
structure CalRun where
  start : Nat
  phase : CalPhase
  grantAt : Option Nat
  emitAt : Nat
  step : Nat
  records : Nat
  bad : Bool
deriving DecidableEq, Repr, Inhabited

/-- A calibration job (R362). -/
structure CalJob where
  gen : Nat
  kind : Nat
  prio : Nat
  grantWait : Nat
  bank : Nat
  banks : Nat
  txMask : Nat
  rxMask : Nat
  run : Option CalRun
deriving DecidableEq, Repr, Inhabited

/-- A DPD capture planned or running on an ORx (R240, R241): path, round position in SCHEDULED mode, start and end tick, bin in force
at its start. -/
structure Visit where
  path : Nat
  pos : Option Nat
  start : Nat
  stop : Nat
  started : Bool
  bin : Nat
deriving DecidableEq, Repr, Inhabited

/-- The visit schedule of an ORx (R240, R241, R247): its next slot, the round (a, b, next position), the visit of the slot in course, the
local path that a monitor slot captures next. -/
structure OrxSched where
  slotQ : Nat
  slotAt : Nat
  slotLen : Nat
  round : Option (Nat × Nat × Nat)
  visit : Option Visit
  kept : Option Nat
  turn : Nat
deriving DecidableEq, Repr, Inhabited

/-- Pre-distortion and adaptation (spec/07_predistortion.md). `live` lists the live blocks other than the bypass block by 16 path +
bin; the holds are 0 none, 1 until lock, 2 until the next slot start (R248, R249). -/
structure DpdSt where
  live : List (Nat × List Byte)
  orx : List OrxSched
  holdT : Nat
  holdO : Nat
  lastStart : List (Nat × Nat)      -- path, start of its last DPD capture
  lostSince : List (Nat × Nat)      -- path, DPD slots of its ORx lost since then
  swapped : List (Nat × Nat)        -- path, swap tick of its last adaptive DPD swap (R243)
  swapTemp : List (Nat × Int)       -- 16 path + bin, pod temperature at the bank's last adaptive swap (R244)
  solves : List (Nat × Nat)         -- (path, bin) of completed captures whose solve runs (R243)
  base : List (Nat × Coefs)         -- bin, base model shared by all paths (R246)
  estimates : List (Nat × Nat × Nat)     -- path, its latest ACLR and EVM estimates (R247)
deriving DecidableEq, Repr, Inhabited

/-- A DMA channel beside what DMA.CH(c) shows (R369, R381, R384-R386, R394): its loop stack, top first, as (space, address, remaining
count); SPACE and ADDR of its creation; the 64-byte line it holds as (space, base, bytes); whether the fetch of a line is outstanding; whether the instruction at the
program counter has started; the length of the burst in progress; bytes read and not yet written to host memory; the first mismatch
that the running CMP has met; the DMA_STOP in flight that waits for the reads; whether its next fetch or burst waits for tags; its host
reads outstanding and the elapsed time of their issue (R62, R63, R386). -/
structure DmaCh where
  gen : Nat
  loops : List (Nat × Nat × Nat)
  entry : Nat × Nat
  line : Option (Nat × Nat × List Byte)
  reading : Bool
  busy : Bool
  burst : Option Nat
  kept : List Byte
  first : Option Nat
  stop : Option (List Nat)
  want : Bool
  reads : Nat
  readAt : Nat
deriving DecidableEq, Repr, Inhabited

/-- What feeds the DMA peripherals other than capture jobs (R389): the result FIFOs of the monitor units and the BXL control mirrors of
the ports, as bytes, oldest first. -/
structure PeriphSt where
  results : List (List Byte)
  mirrors : List (List Byte)
deriving DecidableEq, Repr, Inhabited

/-- A partner (R324-R330, R333): its HELLO, negotiated version, whether it is LOST, elapsed time of the loss that its last renewal
sets and of the WELCOME, next SEQ of the device's CTRL and TIME packets, payload and arrival tick of its last TIME. -/
structure Partner where
  gen : Nat
  ident : Nat
  session : Nat
  verMin : Nat
  verMax : Nat
  formats : Nat
  ver : Nat
  lost : Bool
  lossAt : Nat
  welcome : Nat
  seq : Nat
  timePayload : Nat
  timeArrival : Nat
deriving DecidableEq, Repr, Inhabited

/-! ## Lanes and ports (chapters 09, 10) -/

/-- A packet (R312-R314); `tick` is the full first-sample tick. -/
structure Packet where
  ver : Nat
  type : Nat
  flags : Nat
  handle : Nat
  tick : Nat
  format : Nat
  seq : Nat
  pip : Nat
  payload : List Byte
deriving DecidableEq, Repr, Inhabited

/-- A packet queued at a port (R301, R322): the elapsed time of its queueing, whether it is CTRL or TIME, stream INDEX for the order, q of a
CASC_SUM that this chip originates in elapsed time (R351), and whether its trailer is to be stomped (R353). -/
structure Queued where
  pkt : Packet
  since : Nat
  ctrl : Bool
  index : Nat
  q : Option Nat
  stomp : Bool
deriving DecidableEq, Repr, Inhabited

/-- A packet that a reorder injector holds (R336): its bytes, whether a slot before has corrupted it (R337), the number of the packet it waits
for, the elapsed time until which it waits. -/
structure Held where
  bytes : List Byte
  corrupted : Bool
  until' : Nat
  deadline : Nat
deriving DecidableEq, Repr, Inhabited

/-- A fault injector in force (R306-R308, R336, R337): the fields of its FI_SET, elapsed time of execution, matching packets or corrupted
headers seen, injected events, a held packet, and for KIND 6 the blocks that its lane has carried, in 1/33 of a block, with the elapsed
time up to which they are counted. -/
structure Injector where
  kind : Nat
  lane : Nat
  arg1 : Nat
  arg2 : Nat
  pattern : Nat
  start : Nat
  seen : Nat
  events : Nat
  held : Option Held
  units : Nat
  upTo : Nat
deriving DecidableEq, Repr, Inhabited

/-- A lane beside what its registers show: start of its search in elapsed time with the pauses of its timer, invalid or missing markers
in a row, a power state it moves to with the markers still to be sent, the end of an exit to L0 with the state left, the line bits of the
last block it has sent, its marker count (R309, R311; notes/assumptions/61.md); elapsed time of its last received marker, up to which sync-header
errors of its search are counted; whether it awaits its first marker after an exit; what it has lately sent into a near-end loop, newest
run first, each with the block before it (R303). -/
structure LaneSt where
  search : Option Nat
  pausedAt : Option Nat
  bad : Nat
  leave : Option (Nat × Nat)
  exit : Option (Nat × Nat)
  stepAt : Nat              -- elapsed time of the last step of the equaliser adaptation (R302)
  line : Option (BitVec 64)
  count : Nat
  markerAt : Nat
  errorsAt : Nat
  rejoins : Bool
  looped : List (List LineBlock)
deriving DecidableEq, Repr, Inhabited

/-- A port (0 front, 1 parent, 2 child): its lanes, elapsed time of its last marker and the mask it carried, the delivery
of the block after each of the last two marker rounds received with the receive set from there, newest first (R294, R296, R298), the first arrival of the marker round in course (R298), lanes whose next latency test is suspended (R297), packets queued, injectors, for
each injector slot the events since its last FI_EVENT and the elapsed time of that (R108, R109), blocks of the stream dealt since the last
marker sent, blocks of a started packet that are to follow the next marker (R310), the bytes of a packet being received (R312), the elapsed
time from which its free marker count runs (R286), and the load that its started packets still owe to its capacity, with the elapsed time of
that (R300, R301). -/
structure PortSt where
  lanes : List LaneSt
  mark : Option Nat
  sent : Nat
  runs : List (Nat × Nat)
  round : Option Nat
  skip : Nat
  queue : List Queued
  inj : List (Option Injector)
  fi : List (Nat × Option Nat)
  dealt : Nat
  rest : List Block
  opened : Option (List Byte)
  countFrom : Nat
  owed : Nat × Nat
deriving DecidableEq, Repr, Inhabited

/-- A CTRL or TIME packet that has passed R320 and awaits its effect: port, arrival tick, packet. -/
structure Inbox where
  port : Nat
  tick : Nat
  pkt : Packet
deriving DecidableEq, Repr, Inhabited

/-- A CASC_SUM as received: key, slot, ORIGIN, REDUCED, pips, samples, whether its trailer is good, arrival tick of its end. -/
structure CascSum where
  key : Nat
  slot : Nat
  seq : Nat
  origin : Nat
  reduced : Bool
  pip : Nat
  good : Bool
  tick : Nat
  data : List (Int × Int)
deriving DecidableEq, Repr, Inhabited

/-- An uplink slot of the lantern after its combine tick (R354, R356): key, slot, REDUCED, pips, the array sum of the slice samples. -/
structure Combined where
  stream : Nat
  slot : Nat
  reduced : Bool
  pip : Nat
  queueAt : Nat
  data : List (Int × Int)
deriving DecidableEq, Repr, Inhabited

/-- A CASC_DISCOVER that runs (R341): its flight, elapsed time of execution, its E, the LAST reported for E with the elapsed time of its
last change. -/
structure Discovery where
  id : Nat
  start : Nat
  e : Nat
  last : Option (Nat × Nat)
deriving DecidableEq, Repr, Inhabited

/-- The cascade (chapter 11) beside the CAS registers: the assignments that wait for their E, rising, each with the index it gives this chip and
the highest index known beyond this chip for it; that for the E in force, the least feature level and BROKEN beyond, discoveries, CTRL and TIME
sequence numbers per port, elapsed time of the last periodic CASC_ASSIGN or CASC_REPORT, TIME data per port, sums waiting, sums
combined, slots whose sum was missing. -/
structure CascSt where
  next : List (Nat × Option Nat × Option Nat)
  beyond : Option Nat
  minFeat : Option Nat
  broken : Bool
  cut : Bool           -- the child port has gone DOWN since the E in force: a returning link does not restore the chain (R359)
  discover : List Discovery
  seqs : List Nat
  lastSent : Nat
  times : List (Nat × Nat)
  sums : List CascSum
  combined : List Combined
  lost : List (Nat × Nat)   -- (stream, slot) whose CASC_SUM was missing, for the pips of the following slot (R356)
deriving DecidableEq, Repr, Inhabited

/-- A request at the DRAM port for `len` bytes of one 64-byte word (R402); source 0 is beam prefetch, 1 DMA channels, 2 captures, 3 the
swap log, 4 the adaptation processors, 5 the W2 aperture. -/
structure DramReq where
  source : Nat
  write : Bool
  addr : Nat
  len : Nat
deriving DecidableEq, Repr, Inhabited

/-- A bank: its last four accesses, bit 0 the latest and 1 for a page hit, the row of the latest, and
whether it is open (R404). -/
structure DramBank where
  hits : Nat
  row : Option Nat
  held : Bool
deriving DecidableEq, Repr, Inhabited

/-- The DRAM port beside what MEMC shows (chapter 13), times in elapsed time: the training step in course with its start; when the next
retraining falls due; starts of the gathering, of the pause and of the rate change with its target; whether a pause waits for a free
span, whether a retraining waits for the memory to be awake; starts of a self-refresh entry and of an exit; since when the port has had
no request; the write queue as (64-byte address, byte mask), oldest first; requests that wait, in the order of their arrival; the source
served last of those that take turns; the banks of both channels; reads of W2 that wait, as (address, length). -/
structure MemcSt where
  step : Option (Nat × Nat)
  due : Option Nat
  gather : Option Nat
  ready : Bool
  pause : Option Nat
  owed : Bool
  entry : Option Nat
  exit : Option Nat
  change : Option (Nat × Nat)
  idleSince : Nat
  queue : List (Nat × Nat)
  waiting : List DramReq
  turn : Nat
  banks : List DramBank
  w2 : List (Nat × Nat)
deriving DecidableEq, Repr, Inhabited

/-! ## Housekeeping (chapter 14) -/

/-- What happens at a coming CK_HK edge: a pending set is written, groups are strobed, groups are released from husk. -/
inductive HkJob where
  | set (dac word : Nat)
  | strobe (mask : Nat)
  | release (mask : Nat)
deriving DecidableEq, Repr, Inhabited

/-- STEP and INTERVAL of a DAC's target set, and the elapsed time of the slew limiter's next step (R421, R423). -/
structure DacSt where
  step : Nat
  interval : Nat
  next : Option Nat
deriving DecidableEq, Repr, Inhabited

/-- A monitor window that has ended (R433): elapsed time of its end, tick of its end, input, flags, and whose window has ended for it: 0 that of
both converters, 1 that of converter A, 2 that of B (R430). -/
structure MonDue where
  stop : Nat
  tick : Nat
  input : Nat
  urgent : Bool
  host : Bool
  alt : Bool
  part : Nat
deriving DecidableEq, Repr, Inhabited

/-- A monitor unit beside MON(k) (R428-R434): a MON_SCAN that waits for the urgent queue to empty (window code, interleave, mask); the
input the scan stands at; whether a conversion runs, its window code, its start in elapsed time, whether its window length stands, that
length, ALT so far, results reported since its start; the latest codes of converters A and B; the urgent queue as (edge, input, a host asked), its head being converted; windows whose results are due; elapsed time of the
last MON_OVR of an input. -/
structure MonUnit where
  next : Option (Nat × Nat × Nat)
  scan : Nat
  running : Bool
  code : Nat
  start : Nat
  fixed : Bool
  w : Nat
  alt : Bool
  count : Nat
  codes : Int × Int
  queue : List (Nat × Nat × Bool)
  due : List MonDue
  ovrAt : List (Nat × Nat)
deriving DecidableEq, Repr, Inhabited

/-- The housekeeping block: its 80 DACs, what awaits a CK_HK edge (elapsed time), the elapsed time until which the VDD_ANA power-good
detector is low, the monitor units. -/
structure HkmSt where
  dacs : List DacSt
  todo : List (Nat × HkJob)
  anaLow : Nat
  units : List MonUnit
deriving DecidableEq, Repr, Inhabited

/-! ## Firmware and its counters (chapters 16, 17) -/

/-- A firmware image in store (R456, R459): first bank, TOTAL, the version fields of its header, its measurement. -/
structure FwImage where
  first : Nat
  total : Nat
  major : Nat
  minor : Nat
  patch : Nat
  feature : Nat
  epoch : Nat
  digest : List Byte
deriving DecidableEq, Repr, Inhabited

/-- Where boot stands (R455, R459, R461): not begun; reading a QSPI copy; verifying an image (from a QSPI copy, or from PF0); waiting for
the host; APs starting on an accepted image; no image accepted; complete. -/
inductive BootPhase where
  | off
  | load (copy : Nat)
  | verify (copy : Option Nat)
  | waitHost
  | starting
  | none
  | done
deriving DecidableEq, Repr, Inhabited

/-- The fuse bits that software can program: the customer key hash (64 bytes, zero while blank), the policy, the epoch field (R463, R464). -/
structure Fuses where
  customer : Nat
  policy : Nat
  epochs : Nat
deriving DecidableEq, Repr, Inhabited

/-- A job of the Keccak engine (R458): boot and staging verification with the fuses that govern them (R464), staging and an activation's
measurement with the first bank and TOTAL, CFG_DIGEST and ATTEST with their flight, the configuration digest as it stood when the command
started, and HOST.CFG_WRITES at that time. -/
inductive KeccakJob where
  | boot (fuses : Fuses)
  | stage (fuses : Fuses) (first total : Nat)
  | activate (first total : Nat)
  | digest (id : Nat) (cfg : List Byte)
  | attest (id : Nat) (cfg : List Byte) (writes : Nat)
deriving DecidableEq, Repr, Inhabited

/-- Fuses, boot, images and updates: the customer key hash (64 bytes, zero while blank), the policy, the epoch field; the boot phase and the
image under verification, the accepted one that the APs start on; the running image; the image to which an activation returns, the image being activated, the elapsed time of the
ACTIVATE write, whether the APs are started on the new image; jobs of the Keccak engine; the fuse programming in course as (operation, fuse
bits to set); the AP local memories. -/
structure TrustSt where
  customer : Nat
  policy : Nat
  epochs : Nat
  boot : BootPhase
  bootImage : Nat × Nat      -- first bank and TOTAL
  bootNew : Option FwImage
  run : Option FwImage
  old : Option FwImage
  new : Option FwImage
  since : Option Nat
  jobs : List KeccakJob
  fuse : Option (Nat × Nat)
  apMem : List (List Byte)
deriving DecidableEq, Repr, Inhabited

/-- The counters of the adaptation processors beside PMC (R471, R473, R475): elapsed time up to which each processor's counters have counted;
occurrences of its sampled event since EN was set, and the number of the last one that is past with its record; the records of the
cycle (elapsed time) that had records last, with their APs, ascending, and the addresses they take; the last cycle whose increment a write has
taken from a counter, by the address of its low word; swap requests of the cycles still to be counted, as (processor, elapsed time); latched
high words of PF0 and PF1 by the address of the low word; high words written and held. -/
structure PmcSt where
  upTo : List Nat
  sampled : List Nat
  taken : List Nat
  cycle : Nat × List (Nat × List Byte) × List Nat
  lost : List (Nat × Nat)
  requests : List (Nat × Nat)
  latch0 : List (Nat × Nat)
  latch1 : List (Nat × Nat)
  held : List (Nat × Nat)
deriving DecidableEq, Repr, Inhabited

/-! ## Power (chapter 15) -/

/-- Where the device stands between its power states: running; step E2, E3 or E4 of an entry; in SLEEP or DEEP; in the wake sequence;
held in reset (R446, R450, R454). -/
inductive PowerPhase where
  | run | drain | store | settle | low | wake | held
deriving DecidableEq, Repr, Inhabited

/-- The wake step in course: its number, 0 while it waits for its condition, 1 in its delay, 2 undone and waiting for its retry; since when;
whether it is the retry (R450, R451). -/
structure WakeStep where
  step : Nat
  stage : Nat
  since : Nat
  again : Bool
deriving DecidableEq, Repr, Inhabited

/-- A PWR_DOMAIN in course: on or off, and the domains still to come with the elapsed time at which each is ready or unpowered (R438). -/
structure DomainJob where
  on : Bool
  left : List (Nat × Nat)
deriving DecidableEq, Repr, Inhabited

/-- Power: the phase; whether the column From DEEP runs or will run; whether it is a cold start; MEMC.CTRL.RETAIN_DEEP and the state at the
entry; elapsed time of P and C; the last wake event (source, time), its source kept while it awaits the wake; the wake step in course; the
steps passed and still in force (bit n); the domains on before the entry; WAKE_N and RESET_N low; the PCIe link is up; the PWR_DOMAINs in
course; writes blocked since C; when a chip reset is due to start and when it may end (R501); the wick timer counts from C; the wick holds the
reset and chip-select pins of the memory in their self-refresh levels (R412). -/
structure PowerSt where
  phase : PowerPhase
  deep : Bool
  cold : Bool
  retain : Bool
  back : Nat
  entryAt : Nat
  commitAt : Nat
  source : Option (Nat × Nat)
  seq : WakeStep
  passed : Nat
  domains : Nat
  wakeLow : Bool
  resetLow : Bool
  link : Bool
  jobs : List DomainJob
  blocked : Nat
  chipAt : Option Nat
  chipEnd : Option Nat
  timer : Bool
  memHeld : Bool
deriving DecidableEq, Repr, Inhabited

/-- Pins of the FE serial bus (R274, R275): the chip select of a frame, FESCK, FESDO. -/
inductive FesbPin where
  | select | clock | data
deriving DecidableEq, Repr, Inhabited

/-- What the block drives outward. -/
inductive Output where
  | hostWrite (addr len val : Nat)
  | hostRead (addr len : Nat)
  | msix (vector addr data : Nat)
  | readData (val : Nat)
  | configRetry
  | errorMessage (fatal : Bool)
  | syncOut (start stop : Nat)
  | alertN (asserted : Bool)
  | qspi (command addr dummies len : Nat)
  | txEnable (path : Nat) (on : Bool)
  | podOutput (pod : Nat) (pin : TxPin)
  | podInput (pod : Nat) (pin : RxPin)
  | podParts (pod : Nat) (on : List PodPart)
  | fePins (pod : Nat) (levels : List (Option Bool × Bool))
  | fesb (half select : Nat) (edges : List (Nat × FesbPin × Bool))
  | packet (port : Nat) (bytes : List Byte)
  | blocks (port : Nat) (lanes : List (List LineBlock))
  | marker (port mask : Nat) (lanes : List (Nat × LineBlock))
  | retransmit (port lane at' : Nat) (blocks : List LineBlock)
  | rxGain (path gain at' : Nat)
  | coexPin (pin : Nat) (level : Bool) (at' : Nat)
deriving DecidableEq, Repr, Inhabited

/-- What decides the samples of the ticks from `start` up to `stop`: registers, carriers, streams with their buffers, active weight sets, live
pre-distortion blocks and calibration jobs as they stood. -/
structure Span where
  start : Nat
  stop : Nat
  regs : List (Nat × Word)
  carriers : List (Nat × Carrier)
  streams : List (Nat × Stream)
  active : List ActiveSet
  live : List (Nat × List Byte)
  cals : List (Nat × CalJob)
deriving DecidableEq, Repr, Inhabited

/-- One count of the tick counter, from a SYNC origin or a start of the root PLL up to the next: elapsed time and tick of its end, its
origin, its log of pattern banks and its spans, newest first. -/
structure Era where
  stop : Nat
  tick : Nat
  origin : Nat
  tddLog : List (Nat × Nat)
  spans : List Span
deriving DecidableEq, Repr, Inhabited

/-- The past of the sample path, in place of the contents of its filters, delay lines and accumulators: the spans of the count in course and
the counts before it, newest first (notes/assumptions/46.md). -/
structure PastSt where
  spans : List Span
  eras : List Era
deriving DecidableEq, Repr, Inhabited

/-- What R500 needs to know of the CK_DP cycle in course: the register words as they stood at its start, and the bits that the device has set in
it, as (address, mask): those of fields that scheduled activations have set, and of W1C bits that events have raised. -/
structure CycleSt where
  regs : List (Nat × Word)
  held : List (Nat × Nat)
deriving DecidableEq, Repr, Inhabited

/-- The whole state. -/
structure State where
  part : Part
  time : TimeSt
  regs : List (Nat × Word)
  host : HostSt
  acts : List Pending
  out : List (Nat × Output)
  store : List Host.Cell
  dram : List Host.Cell
  dramSize : Nat
  memc : MemcSt
  hkm : HkmSt
  trust : TrustSt
  pmc : PmcSt
  power : PowerSt
  gens : List (Nat × Nat)
  owners : List Nat
  carriers : List (Nat × Carrier)
  streams : List (Nat × Stream)
  arrivals : List DlArrival
  beam : BeamSt
  rx : List RxPath
  swaps : List AdaptSwap
  swapSeq : Nat
  caps : List (Nat × CapJob)
  captures : List Capture
  dpd : DpdSt
  cals : List (Nat × CalJob)
  radio : RadioSt
  dmas : List (Nat × DmaCh)
  periph : PeriphSt
  partners : List (Nat × Partner)
  ports : List PortSt
  inbox : List Inbox
  casc : CascSt
  past : PastSt
  cycle : CycleSt
  pending : List Instr
deriving DecidableEq, Repr, Inhabited

/-! ## Reset -/

/-- A lane, a port and a path of the receive side with nothing in course. -/
def PortSt.start : PortSt :=
  { lanes := List.replicate 16 default, mark := none, sent := 0, runs := [], round := none, skip := 0, queue := [],
    inj := List.replicate 8 none, fi := List.replicate 8 (0, none), dealt := 0, rest := [], opened := none, countFrom := 0,
    owed := (0, 0) }

/-- Power at the power-on reset: a cold start has begun with step 1, so that EN_RAIL(1) is high (R450, R454). -/
def PowerSt.start (now : Nat) : PowerSt :=
  { phase := .wake, deep := true, cold := true, retain := false, back := 0, entryAt := 0, commitAt := now, source := none,
    seq := { step := 1, stage := 0, since := now, again := false }, passed := 0, domains := 0, wakeLow := false, resetLow := false,
    link := false, jobs := [], blocked := 0, chipAt := none, chipEnd := none, timer := false, memHeld := false }

/-- Configuration space of PF0, the MSI-X table and the pending bits at reset: every vector masked, MSI-X off (R61;
notes/assumptions/8.md). -/
def HostSt.resetCfg (h : HostSt) : HostSt :=
  { h with
    msixTable := List.replicate 32 (0, 0), msixMask := 2 ^ 32 - 1, msixPend := 0, msixOn := false, msixFunc := false, busMaster := false,
    tag10 := false, extTag := false, mrrs := 512, timeoutValue := 0, aspm := 0, reporting := 0, aer := 0, aerMask := 0x400000
    aerSeverity := 0x462030, aerCor := 0, aerCorMask := 0xE000, dstate := (0, h.dstate.2) }

/-- A fundamental reset of the endpoint: the configuration space of both functions, and the link trains anew (R61, R482;
notes/assumptions/8.md). -/
def HostSt.resetLink (h : HostSt) : HostSt := { h.resetCfg with dstate := (0, 0), trained := (4, 4) }

/-- Host interface at reset: every ring disabled (R61, R68). -/
def HostSt.start (now : Nat) : HostSt := HostSt.resetCfg
  { cmdRings := List.replicate 16 default, cplRings := List.replicate 16 default, evRings := List.replicate 4 default, flight := [],
    nextId := 0, due := [], backlog := [], evq := [], rr := 0, lastPoll := now, kick := false, msixTable := [], msixMask := 0,
    msixPend := 0, msixOn := false, msixFunc := false, busMaster := false, tag10 := false, extTag := false, mrrs := 0, timeoutValue := 0,
    aspm := 0, reporting := 0, aer := 0, aerMask := 0, aerSeverity := 0, aerCor := 0, aerCorMask := 0, dstate := (0, 0), trained := (4, 4)
    strays := [], dmaTurn := 0, cfgLatch := 0, sampledAt := [] }

/-- The block right after the power-on reset (R454, R499): every register at the value of its field table (an unlisted word holds it) but
for EN_RAIL(1) of step 1, no object, nothing in course, no command waiting. The part is the IZA6490 (notes/assumptions/6.md). -/
def State.reset : State where
  part := .iza6490
  time := { now := 0, tick := 0, counting := false, laneUp := false, origin := 0, syncs := [], tddLog := [] }
  regs := [(0x200124, 0x00000200#32)]
  host := HostSt.start 0
  acts := []
  out := []
  store := []
  dram := []
  dramSize := 0
  memc :=
    { step := none, due := none, gather := none, ready := false, pause := none, owed := false, entry := none, exit := none,
      change := none, idleSince := 0, queue := [], waiting := [], turn := 0, banks := List.replicate 32 default, w2 := [] }
  hkm :=
    { dacs := List.replicate 80 { step := 255, interval := 1, next := none }, todo := [], anaLow := 0,
      units := List.replicate 4 default }
  trust :=
    { customer := 0, policy := 0, epochs := 0, boot := .off, bootImage := (0, 0), bootNew := none, run := none, old := none, new := none, since := none,
      jobs := [], fuse := none, apMem := List.replicate 4 [] }
  pmc := { upTo := List.replicate 4 0, sampled := List.replicate 4 0, taken := List.replicate 4 0, cycle := (0, [], []), lost := [], requests := [], latch0 := [], latch1 := [], held := [] }
  power := PowerSt.start 0
  gens := []
  owners := List.replicate 32 0
  carriers := []
  streams := []
  arrivals := []
  beam := { sets := [], active := [], fills := [], leaving := [], libTicks := [], loads := [], unmappedFrom := 0 }
  rx := List.replicate 64 default
  swaps := []
  swapSeq := 0
  caps := []
  captures := []
  dpd :=
    { live := [], orx := List.replicate 4 default, holdT := 0, holdO := 0, lastStart := [], lostSince := [], swapped := [],
      swapTemp := [], solves := [], base := [], estimates := [] }
  cals := []
  radio :=
    { los := List.replicate 3 none, pods := List.replicate 8 default, frames := [],
      coex := { reqO := false, priO := false, gntO := false, todo := [], gntAt := 0, heldSince := none, held := 0 } }
  dmas := []
  periph := { results := List.replicate 4 [], mirrors := List.replicate 3 [] }
  partners := []
  ports := List.replicate 3 PortSt.start
  inbox := []
  casc :=
    { next := [], beyond := none, minFeat := none, broken := false, cut := false, discover := [], seqs := List.replicate 3 0,
      lastSent := 0, times := List.replicate 3 (0, 0), sums := [], combined := [], lost := [] }
  past := { spans := [], eras := [] }
  cycle := { regs := [], held := [] }
  pending := []

end Sys2Proof.Machine
end

