-- ==== Sys2Proof/Machine/Ops.lean ====
section
/-!
DEFINITION. The named operations over sorted association lists, memories, register words and fields, device time and the record
of what the block drives outward. Every meaning is written over these.
-/
namespace Sys2Proof.Machine

/-- What one command answers. -/
abbrev Out := Host.Outcome State Fault Refusal

/-! ## Bits -/

/-- Bits [lo + w - 1 : lo] of a natural number. -/
def bitsOf (x lo w : Nat) : Nat := (x >>> lo) % 2 ^ w

/-- `x` with its bits [lo + w - 1 : lo] replaced by the low bits of `v`. -/
def putBits (x lo w v : Nat) : Nat :=
  x % 2 ^ lo + (v % 2 ^ w) <<< lo + (x >>> (lo + w)) <<< (lo + w)

/-- Bit `i` of a mask. -/
def bitAt (x i : Nat) : Bool := (x >>> i) % 2 = 1

/-- The numbers below `n` whose bit is set in `x`, rising. -/
def bitsSet (x n : Nat) : List Nat := (List.range n).filter (fun i => bitAt x i)

/-- A two's-complement number of `w` bits (R92). -/
def signed (w x : Nat) : Int := if x % 2 ^ w < 2 ^ (w - 1) then ((x % 2 ^ w : Nat) : Int) else ((x % 2 ^ w : Nat) : Int) - ((2 ^ w : Nat) : Int)

/-- The `w`-bit two's-complement pattern of an integer. -/
def unsigned (w : Nat) (x : Int) : Nat := (x % ((2 ^ w : Nat) : Int)).toNat

/-- Clamp an integer into [lo, hi]. -/
def clampInt (lo hi x : Int) : Int := if x < lo then lo else if hi < x then hi else x

/-- ⌈a / b⌉. -/
def ceilDiv (a b : Nat) : Nat := (a + b - 1) / b

/-- The number formed by bytes, the first lowest. -/
def leNat : List Byte → Nat
  | [] => 0
  | b :: l => b.toNat + 256 * leNat l

/-- The `n` little-endian bytes of a number. -/
def leBytes : Nat → Nat → List Byte
  | 0, _ => []
  | n + 1, x => BitVec.ofNat 8 x :: leBytes n (x / 256)

/-! ## Sorted association lists -/

/-- The value listed at a key. -/
def assocGet {α : Type} : List (Nat × α) → Nat → Option α
  | [], _ => none
  | (k, v) :: l, n => if k = n then some v else assocGet l n

/-- The list with `v` at key `n`. -/
def assocPut {α : Type} : List (Nat × α) → Nat → α → List (Nat × α)
  | [], n, v => [(n, v)]
  | (k, w) :: l, n, v =>
    if n < k then (n, v) :: (k, w) :: l else if n = k then (n, v) :: l else (k, w) :: assocPut l n v

/-- The list without key `n`. -/
def assocDel {α : Type} : List (Nat × α) → Nat → List (Nat × α)
  | [], _ => []
  | (k, w) :: l, n => if k = n then l else (k, w) :: assocDel l n

/-- The lowest number below `m` that is no key, if there is one (R87). -/
def lowestFree {α : Type} (l : List (Nat × α)) (m : Nat) : Option Nat :=
  (List.range m).find? (fun i => (assocGet l i).isNone)

/-- `l` with its `i`-th entry changed. -/
def listMod {α : Type} (l : List α) (i : Nat) (f : α → α) : List α := l.modify i f

/-- `x` placed into a list that rises by `key`, behind its equals. -/
def insertBy {α : Type} (key : α → Nat) (x : α) : List α → List α
  | [] => [x]
  | y :: l => if key x < key y then x :: y :: l else y :: insertBy key x l

/-- A list sorted by `key`, equals in their old order. -/
def sortBy {α : Type} (key : α → Nat) (l : List α) : List α := l.foldl (fun m x => insertBy key x m) []

/-! ## Memories (the store and the DRAM) -/

/-- The byte that a memory holds at an address; an unlisted address reads as 0 (notes/assumptions/2.md). -/
def memGet (m : List Host.Cell) (a : Nat) : Byte := (assocGet m a).getD 0

/-- A memory with one byte written; a byte of 0 leaves no entry. -/
def memSet (m : List Host.Cell) (a : Nat) (b : Byte) : List Host.Cell :=
  if b = 0 then assocDel m a else assocPut m a b

/-- `n` bytes from an address on. -/
def memRead (m : List Host.Cell) : Nat → Nat → List Byte
  | _, 0 => []
  | a, n + 1 => memGet m a :: memRead m (a + 1) n

/-- Bytes written from an address on. -/
def memWrite (m : List Host.Cell) : Nat → List Byte → List Host.Cell
  | _, [] => m
  | a, b :: l => memWrite (memSet m a b) (a + 1) l

/-- Cells written one by one (contents that the spec leaves undefined come as an operand). -/
def memCells (m : List Host.Cell) (l : List Host.Cell) : List Host.Cell := l.foldl (fun m c => memSet m c.1 c.2) m

/-- Canonical form of a memory: addresses strictly rising, no entry equal to what an unlisted address reads as. -/
def Memory.wf : List Host.Cell → Bool
  | [] => true
  | [(_, b)] => b != 0
  | (a, b) :: (c, d) :: l => b != 0 && decide (a < c) && Memory.wf ((c, d) :: l)

/-- Size of the on-chip store (R59, R102): 16 MiB. -/
def storeSize : Nat := 0x1000000

/-! ## Register words and fields -/

/-- The word held in a register. -/
def getR (s : State) (r : Reg) : Word := (assocGet s.regs r.addr).getD (BitVec.ofNat 32 r.reset)

/-- The state with a register word replaced. -/
def setR (s : State) (r : Reg) (v : Word) : State := { s with regs := assocPut s.regs r.addr v }

/-- The value of a field. -/
def getF (s : State) (f : Fld) : Nat := bitsOf (getR s f.reg).toNat f.lo f.width

/-- The state with a field replaced. -/
def setF (s : State) (f : Fld) (v : Nat) : State :=
  setR s f.reg (BitVec.ofNat 32 (putBits (getR s f.reg).toNat f.lo f.width v))

/-- A one-bit field as a truth value. -/
def flag (s : State) (f : Fld) : Bool := getF s f = 1

/-- A field set to a truth value. -/
def setFlag (s : State) (f : Fld) (b : Bool) : State := setF s f (if b then 1 else 0)

/-- The bits of a field in its word. -/
def Fld.mask (f : Fld) : Nat := (2 ^ f.width - 1) <<< f.lo

/-- The device has set bits of a word in this cycle: a register write in it does not take them back (R500). -/
def holdBits (s : State) (f : Fld) : State := { s with cycle := { s.cycle with held := (f.reg.addr, f.mask) :: s.cycle.held } }

/-- An event sets a W1C bit; a write of 1 to it in this cycle leaves it set (R500). -/
def raiseFlag (s : State) (f : Fld) : State := holdBits (setFlag s f true) f

/-- The bits of the word at an address that the device has set in this cycle. -/
def heldMask (s : State) (a : Nat) : Nat := (s.cycle.held.filter (·.1 = a)).foldl (fun m x => m ||| x.2) 0

/-- The word at `r` as a number. -/
def getN (s : State) (r : Reg) : Nat := (getR s r).toNat

/-- The register word at `r` set to a number. -/
def setN (s : State) (r : Reg) (v : Nat) : State := setR s r (BitVec.ofNat 32 v)

/-- A value held in two consecutive words, low word first (R500). -/
def get64 (s : State) (lo hi : Reg) : Nat := getN s lo + 2 ^ 32 * getN s hi

/-- Two consecutive words set to a 64-bit value. -/
def set64 (s : State) (lo hi : Reg) (v : Nat) : State := setN (setN s lo (v % 2 ^ 32)) hi (v / 2 ^ 32)

/-! ## Time -/

/-- Ticks of 1 ms and of a frame (R30). -/
def ticksPerMs : Nat := 983040
def frameTicks : Nat := 9830400

/-- What stands now decides the samples of the ticks from now up to `n`. -/
def spanTo (s : State) (n : Nat) : Span :=
  { start := s.time.tick, stop := n, regs := s.regs, carriers := s.carriers, streams := s.streams, active := s.beam.active, live := s.dpd.live,
    cals := s.cals }

/-- Time alone moves on to `t`: the tick counter advances with it while it counts, and the ticks passed join the past of the sample path (R30,
R506), and a cycle begins (R500). Time never runs backwards. -/
def moveTime (t : Nat) (s : State) : State :=
  if s.time.now < t then
    { s with
      time := { s.time with
        now := t
        tick := if s.time.counting then (s.time.tick + (t - s.time.now)) % 2 ^ 64 else s.time.tick }
      past := if s.time.counting then { s.past with spans := spanTo s (s.time.tick + (t - s.time.now)) :: s.past.spans } else s.past
      cycle := { regs := s.regs, held := [] } }
  else s

/-- The state as it stood in a span, at tick `n` of it. -/
def asIn (s : State) (x : Span) (n : Nat) : State :=
  { s with
    time := { s.time with tick := n }
    regs := x.regs
    acts := []
    carriers := x.carriers
    streams := x.streams
    beam := { s.beam with active := x.active }
    dpd := { s.dpd with live := x.live }
    cals := x.cals }

/-- The state as it stood at tick `n` of the count in course; for a tick not yet passed, as it stands. -/
def stateAt (s : State) (n : Nat) : State :=
  match s.past.spans.find? (fun x => x.start ≤ n && n < x.stop) with
  | some x => asIn s x n
  | none => s

/-- Elapsed time at tick `n` of the count in course. -/
def elapsedAt (s : State) (n : Nat) : Nat := s.time.now + n - s.time.tick

/-- The count in course ends now: what has passed of it is kept. -/
def closeEra (s : State) : State :=
  { s with past :=
    { spans := []
      eras := { stop := s.time.now, tick := s.time.tick, origin := s.time.origin, tddLog := s.time.tddLog, spans := s.past.spans } :: s.past.eras } }

/-- TICK_VALID (R31). -/
def tickValid (s : State) : Bool := flag s F.TIME_CLK_STATUS_TICK_VALID

/-- The first tick at or after `t` at which a clock of ratio `d` has an edge (R26). -/
def edgeAtOrAfter (s : State) (d t : Nat) : Nat :=
  let r := (t + (d - s.time.origin % d)) % d
  if r = 0 then t else t + (d - r)

/-- The first edge of a clock of ratio `d` after `t`. -/
def edgeAfter (s : State) (d t : Nat) : Nat := edgeAtOrAfter s d (t + 1)

/-- The frame that a tick lies in (R30). -/
def frameOf (t : Nat) : Nat := t / frameTicks

/-! ## What the block drives outward -/

/-- The state with one more output, stamped with the time. -/
def emit (s : State) (o : Output) : State := { s with out := s.out ++ [(s.time.now, o)] }

/-- Write requests for `len` bytes from an address on: none carries more than the 512 bytes of the max payload size (R56), or crosses a
4 KiB boundary. `n` bounds the pieces. -/
def writeRequests : Nat → Nat → Nat → Nat → List Output
  | 0, _, _, _ => []
  | n + 1, addr, len, val =>
    if len = 0 then []
    else
      let m := min len (min 512 (4096 - addr % 4096))
      .hostWrite addr m (val % 256 ^ m) :: writeRequests n (addr + m) (len - m) (val / 256 ^ m)

/-- A write of `len` bytes to host memory. -/
def hostWrite (s : State) (addr len val : Nat) : State := (writeRequests (len / 256 + 2) addr len val).foldl emit s

end Sys2Proof.Machine
end

