-- ==== Sys2Proof/Machine/Lines.lean ====
section
/-!
DEFINITION. Blocks as the lanes carry them: the scrambler, sync headers, and alignment markers (spec/09_serial_lanes.md R284;
spec/10_bxl_protocol.md R309, R311; notes/assumptions/61.md).
-/
namespace Sys2Proof.Machine

/-! ## The scrambler 1 + x^39 + x^58 (R309) -/

/-- The 8 bytes of a block as 64 bits, byte 0 lowest, and back; bit 0 goes first on the line. -/
def blockBits (b : List Byte) : BitVec 64 := BitVec.ofNat 64 (leNat b)
def blockBytes (w : BitVec 64) : List Byte := leBytes 8 w.toNat

/-- What the 64 line bits before a block add to its bits: those 39 and 58 places back. -/
def scramblerTail (before : BitVec 64) : BitVec 64 := (before >>> 25) ^^^ (before >>> 6)

/-- 64 bits scrambled, after the 64 line bits `before`: each line bit is the data bit and the line bits 39 and 58 places back. -/
def scramble (before data : BitVec 64) : BitVec 64 :=
  let x := data ^^^ scramblerTail before
  let low := x &&& BitVec.ofNat 64 (2 ^ 39 - 1)
  x ^^^ (low <<< 39) ^^^ (low <<< 58)

/-- 64 line bits descrambled. -/
def descramble (before line : BitVec 64) : BitVec 64 := line ^^^ (line <<< 39) ^^^ (line <<< 58) ^^^ scramblerTail before

/-- The sync header of a block: 01b for data, 10b for control (R284). -/
def syncHeader (control : Bool) : BitVec 2 := if control then 2 else 1

/-- A block on the line, after the line bits `before`. -/
def toLine (before : BitVec 64) (b : Block) : LineBlock := { header := syncHeader b.control, line := scramble before (blockBits b.bytes) }

/-- Blocks that follow one another on a lane. -/
def toLines : BitVec 64 → List Block → List LineBlock
  | _, [] => []
  | before, b :: l => toLine before b :: toLines (toLine before b).line l

/-- The line bits of the last block, or those before the first. -/
def lastLine (before : BitVec 64) (l : List LineBlock) : BitVec 64 := (l.getLast?.map (·.line)).getD before

/-- Headers and bytes of the blocks after the first, which only fills the descrambler. -/
def fromLines : List LineBlock → List (BitVec 2 × List Byte)
  | x :: y :: l => (y.header, blockBytes (descramble x.line y.line)) :: fromLines (y :: l)
  | _ => []

/-- START and IDLE (R309). -/
def startBlock : Block := { control := true, bytes := 0x78 :: List.replicate 7 0 }
def idleBlock : Block := { control := true, bytes := 0x1E :: List.replicate 7 0 }

/-- The line bits after `n` idle blocks. -/
def afterIdles : Nat → BitVec 64 → BitVec 64
  | 0, p => p
  | n + 1, p => afterIdles n (toLine p idleBlock).line

/-! ## Alignment markers (R311) -/

/-- CRC-8 of R311, most significant bit first. -/
def crc8 (l : List Byte) : Nat :=
  l.foldl (fun c b => (List.range 8).foldl (fun c _ => if c / 128 % 2 = 1 then (2 * c % 256) ^^^ 7 else 2 * c % 256) (c ^^^ b.toNat)) 0

/-- A marker's layout is valid (R311). -/
def markerValid (m : List Byte) : Bool :=
  m.length == 8 && m.getD 0 0 == 0x2D && decide ((m.getD 1 0).toNat < 16) && (m.getD 7 0).toNat == crc8 (m.take 7)

/-- The marker of a lane: version 2, ROLE the port's (R311). -/
def markerBytes (port lane own count : Nat) : List Byte :=
  let b := [0x2D, BitVec.ofNat 8 lane] ++ leBytes 2 own ++ [2, BitVec.ofNat 8 port, BitVec.ofNat 8 count]
  b ++ [BitVec.ofNat 8 (crc8 b)]

/-! ## Sync-header bursts (R308) -/

/-- Block `i` since a KIND 6 injection began gets an invalid header. -/
def headerChosen (x : Injector) (i : Nat) : Bool :=
  (x.arg2 % 2 ^ 31 == 0 || decide (i / x.arg1 < x.arg2 % 2 ^ 31)) && decide (i % x.arg1 < 64) && bitAt x.pattern (i % x.arg1)

end Sys2Proof.Machine
end

