-- ==== Sys2Proof/Machine/Operands.lean ====
section
/-!
DEFINITION. How a command entry's fields are read (R76, R92, R94), which bits of it a command names, and which paths, pods, ORx,
DACs and domains the part has (R6, R7).
-/
namespace Sys2Proof.Machine

/-- Byte `i` (16-63) of an entry. -/
def p8 (c : Cmd) (i : Nat) : Nat := bitsOf c.params.toNat (8 * (i - 16)) 8

/-- The 16-bit field at byte `i`. -/
def p16 (c : Cmd) (i : Nat) : Nat := bitsOf c.params.toNat (8 * (i - 16)) 16

/-- The 32-bit field at byte `i`. -/
def p32 (c : Cmd) (i : Nat) : Nat := bitsOf c.params.toNat (8 * (i - 16)) 32

/-- The 64-bit field at byte `i`. -/
def p64 (c : Cmd) (i : Nat) : Nat := bitsOf c.params.toNat (8 * (i - 16)) 64

/-- The bits that a list of (byte, low bit, width) names. -/
def namedBits (l : List (Nat × Nat × Nat)) : Nat :=
  l.foldl (fun m x => m ||| ((2 ^ x.2.2 - 1) <<< (8 * (x.1 - 16) + x.2.1))) 0

/-- True if every bit that the layout does not name is 0 (R94). -/
def reservedZero (c : Cmd) (l : List (Nat × Nat × Nat)) : Bool :=
  c.params.toNat &&& (2 ^ 384 - 1 - namedBits l) = 0

/-- FLAGS bits (R76). -/
def sched (c : Cmd) : Bool := bitAt c.flags 0
def order (c : Cmd) : Bool := bitAt c.flags 1
def quiet (c : Cmd) : Bool := bitAt c.flags 2

/-- Paths, pods, ORx, GB and AUX DACs present (R6, R7). -/
def nPaths (s : State) : Nat := match s.part with | .iza6490 => 64 | .iza6448 => 48
def nPods (s : State) : Nat := match s.part with | .iza6490 => 8 | .iza6448 => 6
def nOrx (s : State) : Nat := match s.part with | .iza6490 => 4 | .iza6448 => 3
def pathPresent (s : State) (n : Nat) : Bool := n < nPaths s
def podPresent (s : State) (p : Nat) : Bool := p < nPods s
def orxPresent (s : State) (k : Nat) : Bool := k < nOrx s

/-- DAC d is present: GB of a present path, or AUX0-AUX15 (AUX0-AUX11 on the IZA6448). -/
def dacPresent (s : State) (d : Nat) : Bool :=
  match s.part with
  | .iza6490 => d < 80
  | .iza6448 => d < 48 || (64 ≤ d && d < 76)

/-- Power domain d is on and ready (PWR.DOMAIN.ON, R436). -/
def domainOn (s : State) (d : Nat) : Bool := bitAt (getF s F.PWR_DOMAIN_ON) d

/-- Firmware runs on the adaptation processors (TRUST.BOOT.FW_RUN, R461, R462). -/
def fwRunning (s : State) : Bool := flag s F.TRUST_BOOT_FW_RUN

/-- The device is in ACTIVE, so that the transmit and receive chains run (R442). -/
def isActive (s : State) : Bool := getF s F.PWR_MODE_STATE = 0

/-- Every bit of a mask names something below `n`. -/
def maskWithin (mask n : Nat) : Bool := mask < 2 ^ n

/-- The pod of a path: eight paths each (R3). -/
def podOf (n : Nat) : Nat := n / 8

/-- The half of a pod: A pods 0-3, B pods 4-7 (R6). -/
def halfOf (p : Nat) : Nat := p / 4

/-- A handle of R86. -/
def mkHandle (type gen idx : Nat) : Nat := 2 ^ 26 * type + 2 ^ 16 * gen + idx

def handleType (h : Nat) : Nat := bitsOf h 26 6
def handleGen (h : Nat) : Nat := bitsOf h 16 10
def handleIdx (h : Nat) : Nat := bitsOf h 0 16

end Sys2Proof.Machine
end

