-- ==== Sys2Proof/Machine/Hold.lean ====
section
/-!
DEFINITION. The passing of time, with the chip reset that falls due in it (spec/19_register_map.md R501), and what a loss of every register
leaves: the pods at their pins, the rails, the state (spec/15_power_and_boot.md R437, R453, R454; spec/08_radio_control.md R263-R273).
-/
namespace Sys2Proof.Machine

/-- One period of the wick oscillator in CK_DP periods, at its shortest and at its longest: 30,000 less and plus 3 % (R449, R495). -/
def wickMin : Nat := 29100
def wickMax : Nat := 30900

def modPower (s : State) (f : PowerSt → PowerSt) : State := { s with power := f s.power }

/-! ## A pod at its pins (R263, R264, R269-R273) -/

def podSt (s : State) (p : Nat) : PodSt := s.radio.pods.getD p default
def modPod (s : State) (p : Nat) (f : PodSt → PodSt) : State :=
  { s with radio := { s.radio with pods := listMod s.radio.pods p f } }

/-- RAD.POD(p).STATE.STATE, the state last reached: 0 SLEEP, 1 STANDBY, 2 SYNTH, 3 RX, 4 TX. -/
def podState (s : State) (p : Nat) : Nat := getF s (F.RAD_POD_STATE_STATE p)
/-- The levels (FE_B, FE_A) at the pins of path n; none where FE_B serves as a chip select (R269, R272, R273). -/
def fePins (s : State) (n : Nat) : Option Bool × Bool :=
  let h := halfOf (podOf n)
  let c := bitsOf (getN s (A.RAD_POD_FE_NOW (podOf n))) (2 * (n % 8)) 2
  if flag s (F.RAD_FE_PROF_PROFILE h) then
    let v := [0, 2, 0, 1].getD c 0 ^^^ (if flag s (F.RAD_FE_PROF_POL h) then 3 else 0)
    (if flag s (F.RAD_FE_PROF_CS_EN h) && getF s (F.RAD_FE_PROF_CS_PATH h) = n % 32 then none else some (bitAt v 1), bitAt v 0)
  else (some (bitAt c 1), bitAt c 0)

/-- The pins of the eight paths of a pod are driven (R269-R273). -/
def drivePins (s : State) (p : Nat) : State := emit s (.fePins p ((List.range 8).map fun j => fePins s (8 * p + j)))

/-- The pins of a pod's paths take a native code (R269-R271). -/
def setFeCode (s : State) (p code : Nat) : State := drivePins (setN s (A.RAD_POD_FE_NOW p) (0x5555 * code)) p

/-- The analogue parts that are on in a state of a pod; `fdd` is DUPLEX at the start of the step that led there (R263). -/
def podParts (state : Nat) (fdd : Bool) : List PodPart :=
  let standby := [.references, .bias, .converterSupplies]
  let synth := standby ++ [.loDistribution, .converterClocks]
  match state with
  | 0 => [.references]
  | 1 => standby
  | 2 => synth
  | 3 => synth ++ [.receiveChain]
  | _ => synth ++ [.transmitOutput] ++ if fdd then [.receiveChain] else []

/-- TX output and receive input of a pod as they are switched; what is off follows the state last reached (R263, R264). -/
def setPodIo (s : State) (p : Nat) (tx rx : Bool) : State :=
  let x := podSt s p
  let asleep := podState s p = 0
  let out : TxPin := if tx then .modulator else if asleep then .highImpedance else .muted
  let inp : RxPin := if rx then .connected else if asleep then .terminated else .isolated
  let s := if x.tx = out then s else emit s (.podOutput p out)
  let s := if x.rx = inp then s else emit s (.podInput p inp)
  modPod s p fun x => { x with tx := out, rx := inp }

/-- A pod in SLEEP with target SLEEP, whatever it was at (R437, R439). -/
def quietPod (s : State) (p : Nat) : State :=
  let s := if podState s p = 0 then s else emit s (.podParts p (podParts 0 false))
  let s := setPodIo (setN s (A.RAD_POD_STATE p) 0) p false false
  let s := if getN s (A.RAD_POD_FE_NOW p) = 0 then s else setFeCode s p 0
  modPod s p fun x => { step := none, tx := x.tx, rx := x.rx, announce := false, edges := [], made := [] }

/-! ## Rails (R440) -/

/-- The rail of steps 1 to 8. -/
def railOf (n : Nat) : Nat := [0, 1, 0, 2, 3, 6, 4, 5, 7].getD n 0

/-- EN_RAIL(r) driven; a rail driven low has no power good. -/
def driveRail (s : State) (r : Nat) (on : Bool) : State :=
  let s := setF s F.PWR_WICK_RAILS_EN (putBits (getF s F.PWR_WICK_RAILS_EN) r 1 (if on then 1 else 0))
  if on then s else setF s F.PWR_WICK_RAILS_PG (putBits (getF s F.PWR_WICK_RAILS_PG) r 1 0)

/-! ## What a loss of every register leaves (R453, R454, R499) -/

/-- Every register and all state of PD1 to PD18 at reset; the wick page, the fuses, the memories and the pins seen from outside stay. -/
def loseAll (s : State) : State :=
  let now := s.time.now
  let s := (List.range 8).foldl quietPod s
  { State.reset with
    part := s.part
    time := { State.reset.time with now := now }
    regs := s.regs.filter fun r => 0x200100 ≤ r.1 && decide (r.1 < 0x200200)
    host := HostSt.start now
    out := s.out
    store := s.store
    dram := s.dram
    memc := { State.reset.memc with idleSince := now }
    trust := { State.reset.trust with customer := s.trust.customer, policy := s.trust.policy, epochs := s.trust.epochs }
    pmc := { State.reset.pmc with upTo := List.replicate 4 now }
    power := s.power
    pending := s.pending }

/-- Everything but the wick page is reset, every EN_RAIL is low, and RESET_CAUSE names the source. -/
def holdReset (s : State) (cause : Nat) : State :=
  let s := setF (loseAll s) F.PWR_WICK_CAUSE_RESET_CAUSE cause
  let s := (List.range 8).foldl (fun s r => driveRail s r false) s
  let now := s.time.now
  { s with power := { PowerSt.start now with phase := .held, wakeLow := s.power.wakeLow, resetLow := s.power.resetLow } }

/-! ## Time -/

/-- The chip reset of a write of GLB.RESET.CHIP begins: the device is held in reset for 33 wick periods (R454, R501). -/
def chipHold (s : State) : State :=
  let now := s.time.now
  modPower (holdReset s 2) fun p => { p with chipEnd := some (now + 33 * wickMin) }

/-- Time moves on to `t`. A wick period boundary on the way at which a chip reset is due starts it (R501). -/
def advance (t : Nat) (s : State) : State :=
  match s.power.chipAt with
  | some n => if s.time.now < n ∧ n ≤ t then moveTime t (chipHold (moveTime n s)) else moveTime t s
  | none => moveTime t s

end Sys2Proof.Machine
end

