-- ==== Sys2Proof/Machine/Flags.lean ====
section
/-!
DEFINITION. Counts that saturate or wrap, the count of configuration writes, and rounding and saturation of sample arithmetic
(spec/19_register_map.md R500; spec/02_host_rings.md R89; spec/04_beam_engine.md R139).
-/
namespace Sys2Proof.Machine

/-! ## Counts that saturate or wrap (R500) -/

/-- A count raised by `n`, holding at all ones. -/
def satAdd (s : State) (f : Fld) (n : Nat) : State := setF s f (min (getF s f + n) (2 ^ f.width - 1))

/-- A count raised by `n`, modulo its width. -/
def wrapAdd (s : State) (f : Fld) (n : Nat) : State := setF s f (getF s f + n)

/-- HOST.CFG_WRITES counts `n` more (R89). -/
def countCfg (s : State) (n : Nat) : State :=
  set64 s A.HOST_CFG_WRITES A.HOST_CFG_WRITES_1 ((get64 s A.HOST_CFG_WRITES A.HOST_CFG_WRITES_1 + n) % 2 ^ 64)

/-! ## Accesses while the device sleeps (R444) -/

/-- From the commit point of an entry until the wake sequence ends, and in reset, no register outside the wick page is reached. -/
def asleep (s : State) : Bool :=
  match s.power.phase with
  | .run | .drain | .store => false
  | .settle | .low | .wake | .held => true

/-- A write that the wick discards: counted while PCIe is up; `cfg` says that R89 counts it, as it does a write of W0 other than KICK. -/
def blockWrite (s : State) (cfg : Bool) : State :=
  if s.power.link then
    satAdd { s with power := { s.power with blocked := s.power.blocked + if cfg then 1 else 0 } } F.PWR_WICK_BLOCKED_WRITES 1
  else s

/-- A host write of a register outside the wick page at time `t`: discarded while the device sleeps (R444), else counted in
HOST.CFG_WRITES (R89) and then given its effect. -/
def byWrite (t : Nat) (s : State) (k : State → State) : Out :=
  let s := advance t s
  .next (if asleep s then blockWrite s true else k (countCfg s 1))

/-! ## Rounding and saturation (R139) -/

/-- Rounded to a shift of `n` bits; by 0 bits unchanged (R318). -/
def roundBits (n : Nat) (x : Int) : Int := if n = 0 then x else (x + (2 ^ (n - 1) : Nat)) / (2 ^ n : Nat)

/-- Saturated to `b` bits. -/
def saturate (b : Nat) (x : Int) : Int := clampInt (-(2 ^ (b - 1) : Nat)) ((2 ^ (b - 1) : Nat) - 1) x

/-- Taken modulo 2^b as a two's-complement number. -/
def wrapBits (b : Nat) (x : Int) : Int := signed b (unsigned b x)

end Sys2Proof.Machine
end

