-- ==== Sys2Proof/Machine/Rings.lean ====
section
/-!
DEFINITION. Completions, events and MSI-X messages: how an entry reaches its ring in host memory with its doorbell word and its
message, waits in the completion backlog or the event queue, or is lost (spec/02_host_rings.md R64-R67, R70, R78-R82, R85;
spec/03_commands.md R107-R110).
-/
namespace Sys2Proof.Machine

/-! ## Status codes (R99) -/

def stOK : Nat := 0x00
def stQueued : Nat := 0x01
def stLate : Nat := 0x02
def stTooFar : Nat := 0x03
def stQueueFull : Nat := 0x04
def stConflict : Nat := 0x05
def stCancelled : Nat := 0x06
def stSyncFlushed : Nat := 0x07
def stNoTime : Nat := 0x08
def stBadParam : Nat := 0x10
def stBadHandle : Nat := 0x11
def stNoResource : Nat := 0x12
def stBusy : Nat := 0x13
def stNotFound : Nat := 0x14
def stFetchTimeout : Nat := 0x15
def stFetchAbort : Nat := 0x16
def stMemDown : Nat := 0x17
def stStepBudget : Nat := 0x20
def stDmaFetchTimeout : Nat := 0x21
def stDmaFetchAbort : Nat := 0x22
def stWakePending : Nat := 0x23

/-! ## The completion and event rings by kind (1 completion, 2 event, as RING_ERROR codes them) -/

def outCtrl (kind r : Nat) : Reg := if kind = 1 then A.HOST_CQR_CTRL r else A.HOST_EVR_CTRL r
def outEnabled (s : State) (kind r : Nat) : Bool :=
  if kind = 1 then decide (r < 16) && flag s (F.HOST_CQR_CTRL_ENABLE r) else decide (r < 4) && flag s (F.HOST_EVR_CTRL_ENABLE r)
def outSize (s : State) (kind r : Nat) : Nat :=
  2 ^ (if kind = 1 then getF s (F.HOST_CQR_CTRL_LOG2_SIZE r) else getF s (F.HOST_EVR_CTRL_LOG2_SIZE r))
def outVector (s : State) (kind r : Nat) : Nat :=
  if kind = 1 then getF s (F.HOST_CQR_CTRL_VECTOR r) else getF s (F.HOST_EVR_CTRL_VECTOR r)
def outIrqEn (s : State) (kind r : Nat) : Bool :=
  if kind = 1 then flag s (F.HOST_CQR_CTRL_IRQ_EN r) else flag s (F.HOST_EVR_CTRL_IRQ_EN r)
def outModCount (s : State) (kind r : Nat) : Nat :=
  max 1 (if kind = 1 then getF s (F.HOST_CQR_CTRL_MOD_COUNT r) else getF s (F.HOST_EVR_CTRL_MOD_COUNT r))
/-- MOD_DELAY in ticks: CK_CTL periods are two ticks (R26, R65). -/
def outModDelay (s : State) (kind r : Nat) : Nat :=
  2 * (if kind = 1 then getF s (F.HOST_CQR_MOD_MOD_DELAY r) else getF s (F.HOST_EVR_MOD_MOD_DELAY r))
def outBase (s : State) (kind r : Nat) : Nat :=
  if kind = 1 then get64 s (A.HOST_CQR_BASE r) (A.HOST_CQR_BASE_1 r) else get64 s (A.HOST_EVR_BASE r) (A.HOST_EVR_BASE_1 r)
def outDb (s : State) (kind r : Nat) : Nat :=
  if kind = 1 then get64 s (A.HOST_CQR_DB r) (A.HOST_CQR_DB_1 r) else get64 s (A.HOST_EVR_DB r) (A.HOST_EVR_DB_1 r)

/-- The device side of a completion or event ring. -/
def outRing (s : State) (kind r : Nat) : OutRing := (if kind = 1 then s.host.cplRings else s.host.evRings).getD r default

/-- The device side of a completion or event ring changed. -/
def modOutRing (s : State) (kind r : Nat) (f : OutRing → OutRing) : State :=
  if kind = 1 then { s with host := { s.host with cplRings := listMod s.host.cplRings r f } }
  else { s with host := { s.host with evRings := listMod s.host.evRings r f } }

/-- The ring's copy of CI shows it full (R66, R74); a CI from which PI is further away than the size counts as full (log 62). -/
def outFull (s : State) (kind r : Nat) : Bool :=
  ((outRing s kind r).pi + 2 ^ 32 - (outRing s kind r).ci) % 2 ^ 32 ≥ outSize s kind r

/-- PHASE of the entry at index `i` of a ring of `size` entries (R80). -/
def phaseOf (i size : Nat) : Nat := 1 - (i / size) % 2

/-! ## MSI-X (R64, R65) -/

/-- A vector can be sent: MSI-X is on, and neither the function nor the vector is masked. -/
def vectorOpen (s : State) (vec : Nat) : Bool := s.host.msixOn && !s.host.msixFunc && !bitAt s.host.msixMask vec

/-- The message of a vector: its data is written to its address. -/
def emitMsix (s : State) (vec : Nat) : State :=
  let x := s.host.msixTable.getD vec (0, 0)
  emit s (.msix vec x.1 x.2)

/-- A message of a vector: sent, or held in its pending bit while it cannot be (R64; log 8). -/
def sendMsix (s : State) (vec : Nat) : State :=
  if vectorOpen s vec then emitMsix s vec else { s with host := { s.host with msixPend := s.host.msixPend ||| 2 ^ vec } }

/-- A message held in a pending bit is sent once its vector can be (R64). -/
def releaseMsix (s : State) (vec : Nat) : State :=
  if bitAt s.host.msixPend vec && vectorOpen s vec then
    emitMsix { s with host := { s.host with msixPend := s.host.msixPend - 2 ^ vec } } vec
  else s

/-- One more entry was written to a ring: its message goes out when MOD_COUNT is reached or MOD_DELAY is 0 (R65); MOD_COUNT and
IRQ_EN are looked at here only (log 52). -/
def noteWritten (s : State) (kind r : Nat) : State :=
  let s := modOutRing s kind r fun o =>
    { o with unsignalled := o.unsignalled + 1, firstAt := if o.unsignalled = 0 then s.time.now else o.firstAt }
  if outIrqEn s kind r && (outModDelay s kind r == 0 || decide (outModCount s kind r ≤ (outRing s kind r).unsignalled)) then
    sendMsix (modOutRing s kind r fun o => { o with unsignalled := 0 }) (outVector s kind r)
  else s

/-- An entry, then the PI word, then the message when due (R85). -/
def writeEntry (s : State) (kind r len val : Nat) : State :=
  let o := outRing s kind r
  let s := hostWrite s (outBase s kind r + len * (o.pi % outSize s kind r)) len val
  let pi := (o.pi + 1) % 2 ^ 32
  let s := modOutRing s kind r fun o => { o with pi := pi }
  noteWritten (hostWrite s (outDb s kind r + 64) 4 pi) kind r

/-! ## Reads of the ring intake (R62, R71, R72, R74) -/

/-- Tags that the device reserves for ring polling and fetches (R62). -/
def ringTags (s : State) : Nat := if s.host.tag10 || s.host.extTag then 32 else 8

/-- Tags that DMA channels and the source reads of commands share: the limit in force less the reserved ones (R62; log 10). -/
def sharedTags (s : State) : Nat := if s.host.tag10 then 480 else if s.host.extTag then 224 else 24

/-- Ring reads outstanding. -/
def ringReads (s : State) : Nat :=
  (s.host.cmdRings.map (fun r => r.fetches.length + if r.piOut then 1 else 0)).sum
    + (s.host.cplRings.filter (·.ciOut)).length + (s.host.evRings.filter (·.ciOut)).length

/-- A tag reserved for the rings is free. -/
def ringTagFree (s : State) : Bool := decide (ringReads s < ringTags s)

/-- The ring is full and has an entry to write: a completion in the backlog, an event in the queue, an EVENTS_LOST that is due (R74, R82). -/
def needsCi (s : State) (kind r : Nat) : Bool :=
  outEnabled s kind r && outFull s kind r && (if kind = 1 then s.host.backlog.any fun c => c.cq == r
    else s.host.evq.any (fun e => e.ring == r) || decide (0 < (outRing s 2 r).lost))

/-- A CI read that is asked for and still needed is issued when a tag is free; after one that failed the word is read again at the next poll
(R74). -/
def issueCi (s : State) (kind r : Nat) : State :=
  if (outRing s kind r).ciWant && !(outRing s kind r).ciOut && !(outRing s kind r).ciFailed && needsCi s kind r && ringTagFree s then
    emit (modOutRing s kind r fun o => { o with ciOut := true, ciStale := false, ciWant := false, ciAt := s.time.now })
      (.hostRead (outDb s kind r) 4)
  else s

/-- The ring is full with something to write: its CI word is read, unless that read is outstanding (R74). -/
def askCi (s : State) (kind r : Nat) : State :=
  if (outRing s kind r).ciOut || (outRing s kind r).ciFailed then s else issueCi (modOutRing s kind r fun o => { o with ciWant := true }) kind r

/-! ## Events -/

/-- Event types (R108). -/
def evRingError : Nat := 0x0001
def evEventsLost : Nat := 0x0002
def evClockUnlock : Nat := 0x0010
def evSyncApplied : Nat := 0x0011
def evSyncMismatch : Nat := 0x0012
def evAdaptSwap : Nat := 0x0020
def evSwapLogFull : Nat := 0x0021
def evDpdCaptureDiscarded : Nat := 0x0022
def evLoUnlockedTx : Nat := 0x0030
def evLoLocked : Nat := 0x0031
def evLoCalPending : Nat := 0x0032
def evLoCalDone : Nat := 0x0033
def evPodStateReached : Nat := 0x0034
def evCalDone : Nat := 0x0040
def evCalAborted : Nat := 0x0041
def evCoexPeerGranted : Nat := 0x0042
def evCaptureDone : Nat := 0x0050
def evPartnerHello : Nat := 0x0060
def evPartnerLost : Nat := 0x0061
def evOrphanDestroyed : Nat := 0x0062
def evDlLate : Nat := 0x0063
def evLaneLocked : Nat := 0x0070
def evLaneDead : Nat := 0x0071
def evPortState : Nat := 0x0072
def evChainChanged : Nat := 0x0080
def evDmaHalt : Nat := 0x0090
def evMonOvr : Nat := 0x00A0
def evMonUrgentDone : Nat := 0x00A1
def evWakeReplayed : Nat := 0x00B0
def evDomainState : Nat := 0x00B1
def evDramTrainFail : Nat := 0x00C0
def evDramPrefetchLate : Nat := 0x00C1
def evFwActivated : Nat := 0x00D0
def evFiEvent : Nat := 0x00E0

/-- The class of an event type: bits [11:4] of its code in the table "Event types" (R108). -/
def evClass (type : Nat) : Nat := type / 16

/-- DATA of an event from (byte, length, value) (R82, R108). -/
def evData (l : List (Nat × Nat × Nat)) : Nat :=
  l.foldl (fun m x => m + (x.2.2 % 256 ^ x.2.1) <<< (8 * (x.1 - 16))) 0

/-- The event ring that a class is sent to (HOST.EVT_ROUTE). -/
def routeOf (s : State) (cls : Nat) : Nat := bitsOf (getN s A.HOST_EVT_ROUTE) (2 * cls) 2

/-- The 32 bytes of an event entry (R82). -/
def evEntry (e : Ev) (phase : Nat) : Nat :=
  e.type + (phase + if e.tickOk then 2 else 0) <<< 16 + e.cls <<< 24 + e.seq <<< 32 + e.tick <<< 64 + e.data <<< 128

/-- An event written to its ring. -/
def writeEvent (s : State) (e : Ev) : State :=
  writeEntry s 2 e.ring 32 (evEntry e (phaseOf (outRing s 2 e.ring).pi (outSize s 2 e.ring)))

/-- The next sequence number of an event ring is taken: a discarded event takes one too, so that a gap shows the loss (R82). -/
def takeSeq (s : State) (r : Nat) : State := modOutRing s 2 r fun o => { o with seq := (o.seq + 1) % 2 ^ 32 }

/-- An event is waiting in the event queue for ring `r`. -/
def evWaiting (s : State) (r : Nat) : Bool := s.host.evq.any (fun e => e.ring = r)

/-- An event can be written to its ring or held in the event queue (R53, R82). -/
def evRoom (s : State) (r : Nat) : Bool :=
  (!outFull s 2 r && !evWaiting s r) || decide (s.host.evq.length < 256)

/-- An event placed on its ring, or in the event queue behind those that wait for the ring. -/
def placeEvent (s : State) (e : Ev) : State :=
  if !outFull s 2 e.ring && !evWaiting s e.ring then writeEvent s e
  else askCi { s with host := { s.host with evq := s.host.evq ++ [e] } } 2 e.ring

/-- EVENTS_LOST goes ahead of any later event for the ring as soon as there is room (R82); one that is due for a disabled ring is counted in
HOST.LOST and discarded (R70). -/
def placeLost (s : State) (r : Nat) : State :=
  let n := (outRing s 2 r).lost
  if n = 0 then s
  else if !outEnabled s 2 r then satAdd (modOutRing s 2 r fun o => { o with lost := 0 }) F.HOST_LOST_EVENTS 1
  else if !evRoom s r then s
  else placeEvent (takeSeq (modOutRing s 2 r fun o => { o with lost := 0 }) r)
    { ring := r, seq := (outRing s 2 r).seq, type := evEventsLost, cls := 0, tick := s.time.tick, tickOk := tickValid s,
      data := evData [(16, 4, n), (20, 1, r)] }

/-- Room has returned in the event queue: every EVENTS_LOST that is due and fits is posted (R82). -/
def placeAllLost (s : State) : State := (List.range 4).foldl placeLost s

/-- An event posted on an event ring: discarded and counted in HOST.LOST while the ring is disabled (R70), discarded and counted
in DROPPED while ring and queue are full (R82). -/
def postOn (s : State) (e : Ev) : State :=
  if !outEnabled s 2 e.ring then satAdd s F.HOST_LOST_EVENTS 1
  else
    let s := placeLost s e.ring
    let n := (outRing s 2 e.ring).seq
    if evRoom s e.ring then placeEvent (takeSeq s e.ring) { e with seq := n }
    else
      let s := satAdd (takeSeq s e.ring) (F.HOST_EVR_STATUS_DROPPED e.ring) 1
      modOutRing s 2 e.ring fun o => { o with lost := o.lost + 1 }

/-- Post an event of `type` that occurred at `tick`. -/
def postAt (s : State) (type tick data : Nat) : State :=
  postOn s { ring := routeOf s (evClass type), seq := 0, type := type, cls := evClass type, tick := tick, tickOk := tickValid s, data := data }

/-- Post an event that occurs now. -/
def post (s : State) (type data : Nat) : State := postAt s type s.time.tick data

/-- RING_ERROR (R73, R74). -/
def postRingError (s : State) (kind ring cause : Nat) : State :=
  post s evRingError (evData [(16, 1, kind), (17, 1, ring), (18, 1, cause)])

/-- Events that wait for ring `r` are written in order while the ring has room (R82, R110). -/
def drainEvents : Nat → State → Nat → State
  | 0, s, _ => s
  | n + 1, s, r =>
    match s.host.evq.find? (fun e => e.ring = r) with
    | none => s
    | some e =>
      if outFull s 2 r then s
      else drainEvents n (writeEvent { s with host := { s.host with evq := s.host.evq.erase e } } e) r

/-! ## Completions -/

/-- The 16 bytes of a completion entry (R78). -/
def cplEntry (c : Cpl) (phase : Nat) : Nat :=
  c.tag + c.status <<< 16 + (phase + (if c.final then 2 else 0) + (if c.tickOk then 4 else 0) + c.ring <<< 3) <<< 24
    + c.result <<< 32 + c.tick <<< 64

/-- A command whose final completion is written, discarded or suppressed leaves flight (R81). -/
def leaveFlight (s : State) (id : Nat) : State :=
  { s with host := { s.host with flight := s.host.flight.filter (fun f => f.id != id) } }

/-- A completion written to its ring. -/
def writeCpl (s : State) (c : Cpl) : State :=
  let o := outRing s 1 c.cq
  let s := writeEntry s 1 c.cq 16 (cplEntry c (phaseOf o.pi (outSize s 1 c.cq)))
  if c.final then leaveFlight s c.id else s

/-- A completion discarded for a disabled ring (R70). -/
def loseCpl (s : State) (c : Cpl) : State :=
  let s := satAdd s F.HOST_LOST_COMPLETIONS 1
  if c.final then leaveFlight s c.id else s

/-- The number of completions that the backlog holds for a ring. -/
def backlogOf (s : State) (cq : Nat) : Nat := (s.host.backlog.filter (fun c => c.cq = cq)).length

/-- HOST.CQR(c).STATUS.BACKLOG shows the backlog of the ring (R81). -/
def showBacklog (s : State) (cq : Nat) : State := setF s (F.HOST_CQR_STATUS_BACKLOG cq) (backlogOf s cq)

/-- A completion that falls due is written, or waits in the backlog behind those of its ring (R81), or is lost with a disabled
ring (R70). -/
def deliverCpl (s : State) (c : Cpl) : State :=
  if !outEnabled s 1 c.cq then loseCpl s c
  else if outFull s 1 c.cq || decide (0 < backlogOf s c.cq) then
    askCi (showBacklog { s with host := { s.host with backlog := s.host.backlog ++ [c] } } c.cq) 1 c.cq
  else writeCpl s c

/-- Backlogged completions of a ring are written in order while it has room (R81). -/
def drainBacklog : Nat → State → Nat → State
  | 0, s, _ => s
  | n + 1, s, r =>
    match s.host.backlog.find? (fun c => c.cq = r) with
    | none => s
    | some c =>
      if outFull s 1 r then s
      else drainBacklog n (showBacklog (writeCpl { s with host := { s.host with backlog := s.host.backlog.erase c } } c) r) r

end Sys2Proof.Machine
end

