-- ==== Sys2Proof/Machine/Command.lean ====
section
/-!
DEFINITION. How a ring command runs: its turn (R83, R505), the checks in their fixed order (R98), its completions (R79), the
pending-activation queue (R44-R46, R95), handles and slots (R86-R88), and store banks (R102).
-/
namespace Sys2Proof.Machine

/-! ## The opcode table (R91) -/

/-- Mode of an opcode: immediate only, scheduled only, either. -/
inductive Mode where
  | i | s | e
deriving DecidableEq, Repr

/-- Mode, configuration mark and handle type (0: bytes 4-7 are reserved) of an opcode; none for an opcode outside the table. -/
def opcodeRow (op : Nat) : Option (Mode × Bool × Nat) :=
  match op with
  | 0x00 => some (.i, false, 0) | 0x01 => some (.i, false, 0) | 0x02 => some (.i, false, 0) | 0x03 => some (.i, false, 0)
  | 0x04 => some (.i, false, 0) | 0x05 => some (.i, true, 0) | 0x06 => some (.i, true, 0)
  | 0x10 => some (.i, true, 0) | 0x11 => some (.e, true, 1) | 0x12 => some (.i, true, 1)
  | 0x14 => some (.i, true, 1) | 0x15 => some (.i, true, 2)
  | 0x18 => some (.i, true, 0) | 0x19 => some (.i, true, 3) | 0x1A => some (.s, true, 3) | 0x1B => some (.i, true, 3)
  | 0x20 => some (.e, true, 0) | 0x21 => some (.s, true, 0) | 0x22 => some (.e, true, 0) | 0x23 => some (.s, true, 0)
  | 0x28 => some (.s, true, 0) | 0x29 => some (.e, false, 0) | 0x2A => some (.s, true, 0) | 0x2C => some (.s, false, 0)
  | 0x2D => some (.s, true, 0)
  | 0x30 => some (.i, true, 0) | 0x31 => some (.s, false, 7) | 0x32 => some (.i, true, 7)
  | 0x34 => some (.i, true, 0) | 0x35 => some (.e, false, 4) | 0x36 => some (.i, true, 4)
  | 0x38 => some (.e, true, 0) | 0x39 => some (.s, true, 0) | 0x3A => some (.i, false, 0)
  | 0x40 => some (.e, true, 0) | 0x41 => some (.s, false, 0) | 0x42 => some (.i, true, 0) | 0x43 => some (.e, false, 0)
  | 0x48 => some (.e, true, 0) | 0x49 => some (.e, true, 0)
  | 0x50 => some (.i, true, 0) | 0x58 => some (.i, true, 0) | 0x59 => some (.i, true, 0)
  | 0x60 => some (.i, true, 0) | 0x61 => some (.e, false, 5) | 0x62 => some (.i, false, 5) | 0x63 => some (.i, true, 5)
  | 0x68 => some (.i, true, 6)
  | _ => none

/-- The bits of PARAMS that an opcode's layout names, as (byte, low bit, width) (the table "Parameter layouts", R94). -/
def layoutOf (op : Nat) : List (Nat × Nat × Nat) :=
  match op with
  | 0x01 => [(16, 0, 16)]
  | 0x02 => [(16, 0, 8), (18, 0, 16), (24, 0, 64)]
  | 0x03 => [(16, 0, 64)]
  | 0x04 => [(16, 0, 64), (24, 0, 256)]
  | 0x05 => [(16, 0, 32)]
  | 0x06 => [(16, 0, 32)]
  | 0x10 => [(16, 0, 8), (17, 0, 8), (18, 0, 16), (20, 0, 8), (21, 0, 3), (21, 4, 1), (24, 0, 32)]
  | 0x11 => [(16, 0, 3), (18, 0, 16), (20, 0, 8), (21, 0, 3), (21, 4, 1), (24, 0, 32)]
  | 0x14 => [(16, 0, 8), (17, 0, 8), (18, 0, 8), (20, 0, 32)]
  | 0x18 => [(16, 0, 16), (18, 0, 8), (19, 0, 8), (20, 0, 8), (24, 0, 32)]
  | 0x19 => [(16, 0, 8), (24, 0, 64)]
  | 0x20 => [(16, 0, 8), (17, 0, 8), (18, 0, 16), (20, 0, 16), (22, 0, 16)]
  | 0x21 => [(16, 0, 8), (17, 0, 8)]
  | 0x22 => [(16, 0, 64), (24, 0, 8), (26, 0, 16)]
  | 0x23 => [(16, 0, 8), (17, 0, 8), (18, 0, 8), (20, 0, 16), (22, 0, 16)]
  | 0x28 => [(16, 0, 8), (24, 0, 64)]
  | 0x29 => [(16, 0, 3), (17, 0, 8)]
  | 0x2A => [(16, 0, 8), (17, 0, 8)]
  | 0x2C => [(16, 0, 8), (17, 0, 8), (18, 0, 8), (20, 0, 32)]
  | 0x2D => [(16, 0, 8)]
  | 0x30 => [(16, 0, 8), (17, 0, 8), (18, 0, 16), (20, 0, 8), (24, 0, 64), (32, 0, 64)]
  | 0x34 => [(16, 0, 8), (17, 0, 8), (18, 0, 8), (20, 0, 32), (24, 0, 64), (32, 0, 32)]
  | 0x38 => [(16, 0, 8), (17, 0, 8), (18, 0, 16), (20, 0, 16), (22, 0, 16), (24, 0, 8), (32, 0, 64)]
  | 0x39 => [(16, 0, 8), (17, 0, 8), (18, 0, 8), (24, 0, 64)]
  | 0x3A => [(16, 0, 8), (17, 0, 8), (18, 0, 8), (24, 0, 64)]
  | 0x40 => [(16, 0, 8), (18, 0, 16), (20, 0, 8), (22, 0, 16)]
  | 0x41 => [(16, 0, 8)]
  | 0x42 => [(16, 0, 8), (17, 0, 8), (18, 0, 8), (20, 0, 24)]
  | 0x43 => [(16, 0, 8), (17, 0, 8)]
  | 0x48 => [(16, 3, 16), (20, 0, 8)]
  | 0x49 => [(16, 0, 8), (18, 0, 16), (20, 0, 8)]
  | 0x58 => [(16, 0, 8), (17, 0, 8), (18, 0, 8), (19, 0, 8), (20, 0, 32), (24, 0, 32), (32, 0, 64)]
  | 0x59 => [(16, 0, 8), (19, 0, 8)]
  | 0x60 => [(16, 0, 8), (17, 0, 8), (18, 0, 8), (20, 0, 32), (24, 0, 64)]
  | _ => []

/-- A configuration command (R89, R91). -/
def isCfg (op : Nat) : Bool := match opcodeRow op with | some (_, c, _) => c | none => false

/-! ## Handles (R86-R88) -/

/-- The generation of the live object in a slot, if the slot holds one. -/
def liveGen (s : State) (type idx : Nat) : Option Nat :=
  match type with
  | 1 => (assocGet s.carriers idx).map (·.gen)
  | 2 => (assocGet s.streams idx).map (·.gen)
  | 3 => (assocGet s.beam.sets idx).map (·.gen)
  | 4 => (assocGet s.caps idx).map (·.gen)
  | 5 => (assocGet s.dmas idx).map (·.gen)
  | 6 => (assocGet s.partners idx).map (·.gen)
  | 7 => (assocGet s.cals idx).map (·.gen)
  | _ => none

/-- The handle names a live object of the given type (R88). -/
def handleLive (s : State) (type h : Nat) : Bool :=
  handleType h = type && liveGen s type (handleIdx h) == some (handleGen h)

/-- The generation that the next assignment of a slot gets: 1, 2, ... 1,023, 1, ... (R87). -/
def nextGen (s : State) (type idx : Nat) : Nat := (assocGet s.gens (2 ^ 16 * type + idx)).getD 0 % 1023 + 1

/-- A slot is assigned: its generation is recorded (R87). -/
def takeGen (s : State) (type idx : Nat) : State :=
  { s with gens := assocPut s.gens (2 ^ 16 * type + idx) (nextGen s type idx) }

/-! ## The last unit of a resource (R102, R104) -/

/-- Owner of a bank: 0 nobody, 1 the system, else a handle. -/
def bankOwner (s : State) (b : Nat) : Nat := s.owners.getD b 0

/-- Banks b to b + n - 1 are all unowned and exist. -/
def runFree (s : State) (b n : Nat) : Bool := decide (b + n ≤ 32) && (List.range n).all (fun i => bankOwner s (b + i) = 0)

/-- The lowest-numbered run of n contiguous unowned banks (R102). -/
def findRun (s : State) (n : Nat) : Option Nat := (List.range 32).find? (fun b => runFree s b n)

/-- Entries of the pending-activation queue that are taken: a DPD_COEF_LOAD whose block is being read has passed check 9 and keeps its
entry (R45, R98; log 19). -/
def queueUse (s : State) : Nat :=
  s.acts.length + (s.host.flight.filter fun f => f.stage == .running && f.cmd.opcode == 0x39).length

/-- What the rings compete for: entries of the pending-activation queue, contiguous store banks, slots of carriers, of downlink and uplink
streams, of calibration jobs, capture jobs, DMA channels, the supervisory channel, the stream budgets, a slot of a weight set, staged and
active columns, the receivers and windows of calibration jobs, the frames of a serial bus (R100). -/
inductive Shared where
  | queue | banks | carrier | stream (dir : Nat) | cal | capture | dma | supervisor | budget (dir : Nat) | set (slot : Nat) | staged | columns | window
  | frame (half : Nat)
deriving DecidableEq, Repr

/-- What a command may take, as (resource, units); a STORE_CLAIM names its banks and may break any run. -/
def takes (c : Cmd) : List (Shared × Nat) :=
  (if sched c then [(.queue, 1)] else []) ++ match c.opcode with
  | 0x05 => [(.banks, 33)]
  | 0x10 => [(.carrier, 1)]
  | 0x11 => if bitAt (p8 c 16) 1 then [(.budget 0, 1), (.budget 1, 1)] else []
  | 0x14 => [(.stream (p8 c 16), 1), (.budget (p8 c 16), 1)]
  | 0x18 => [(.set (p16 c 16), 1)]
  | 0x19 => if 8192 ≤ handleIdx c.handle then [(.staged, 1)] else []
  | 0x1A => [(.columns, 1)]
  | 0x30 => [(.cal, 1), (.banks, p8 c 20)]
  | 0x2C => [(.frame (p8 c 16), 1)]
  | 0x31 => [(.window, 1)]
  | 0x34 => [(.capture, 1), (.banks, if p8 c 18 = 1 then ceilDiv (8 * p32 c 20) 524288 else 0)]
  | 0x60 => [(.dma, 1), (.banks, p8 c 18), (.supervisor, p8 c 17)]
  | _ => []

/-- Units of a resource that can be given out before commands compete for the last one; of the budgets, columns and windows, whose units
the commands' operands and the objects decide, always the last one. -/
def unitsFree (s : State) : Shared → Nat
  | .queue => 512 - queueUse s
  | .banks => ((List.range 33).filter fun n => (findRun s n).isSome).foldl max 0
  | .carrier => 8 - s.carriers.length
  | .stream d => 64 - (s.streams.filter fun x => x.2.dir = d).length
  | .cal => 16 - s.cals.length
  | .capture => 32 - s.caps.length
  | .dma => 64 - s.dmas.length
  | .supervisor | .budget _ | .set _ | .staged | .columns | .window | .frame _ => 1

/-- A command waits for commands of other rings that were read before it, still wait, and compete with it for the last units of a resource: the
command read first takes it (R104; log 62). -/
def heldBack (s : State) (f : Flight) : Bool :=
  let rivals : List (Shared × Nat) := (s.host.flight.filter fun g => g.stage == .waiting && decide (g.id < f.id) && g.cmd.ring != f.cmd.ring).flatMap fun g => takes g.cmd
  (takes f.cmd).any fun x =>
    let n : Nat := ((rivals.filter fun y => y.1 = x.1).map fun y => y.2).sum
    decide (0 < x.2) && decide (0 < n) && decide (unitsFree s x.1 < n + x.2)

/-! ## Turns (R83, R104, R505) -/

/-- Earlier commands of the rings in `mask`, read before command `id`, all have settled. -/
def settledBefore (s : State) (id mask : Nat) : Bool :=
  s.host.flight.all fun f => !(decide (f.id < id) && bitAt mask f.cmd.ring) || f.stage == .settled

/-- A command of the ring read before `id` still waits, or is an immediate one that has not completed. -/
def blockedInRing (s : State) (f : Flight) : Bool :=
  s.host.flight.any fun g => decide (g.id < f.id) && g.cmd.ring == f.cmd.ring &&
    (g.stage == .waiting || (g.stage == .running && (!sched f.cmd) && !sched g.cmd))

/-- The first command of its ring that waits, if it is `c` and may start, the device being awake: ORDER waits for its own ring (R83.6), FENCE for the
rings of its mask and its own (R83.7), and no command takes the last unit of a resource from one read before it (R104). -/
def turn (s : State) (c : Cmd) : Option Flight :=
  match s.host.flight.find? (fun f => f.cmd.ring == c.ring && f.stage == .waiting) with
  | none => none
  | some f =>
    if asleep s || f.cmd != c || blockedInRing s f then none
    else if order c && !settledBefore s f.id (2 ^ c.ring) then none
    else if c.opcode == 0x01 && !settledBefore s f.id (p16 c 16 ||| 2 ^ c.ring) then none
    else if heldBack s f then none
    else some f

/-- The stage of a command in flight changed. -/
def setStage (s : State) (id : Nat) (st : FlightStage) : State :=
  { s with host := { s.host with flight := s.host.flight.map fun f => if f.id = id then { f with stage := st } else f } }

/-! ## Source reads (R62, R98) -/

/-- Read requests of source reads that hold a tag. -/
def sourceReads (s : State) : Nat := ((s.host.flight.filter fun f => f.stage == .running).map (·.reads)).sum

/-- The completion timeout in CK_DP periods: 1 ms as the device default; another Completion Timeout Value selects a range of the PCI Express
standard, in which the device's limit is a free value (R63; log 8). -/
def cplTimeout (s : State) : Nat := if s.host.timeoutValue = 0 then ticksPerMs else Config.cplTimeout s.host.timeoutValue

/-- Reads of a failed source read or burst that have no completion yet: each holds its tag until its timeout (R62, R63; log 10). -/
def strayReads (s : State) : Nat :=
  ((s.host.strays.filter fun x => decide (s.time.now < x.1 + cplTimeout s)).map (·.2)).sum

/-- What issued `n` reads at elapsed time `at'` ends without them: they stay outstanding. -/
def leaveStrays (s : State) (at' n : Nat) : State :=
  if n = 0 then s else { s with host := { s.host with
    strays := (at', n) :: s.host.strays.filter fun x => decide (s.time.now < x.1 + cplTimeout s) } }

/-- Non-posted reads that hold one of the shared tags: those of DMA channels and of commands. -/
def sharedReads (s : State) : Nat := (s.dmas.map fun x => x.2.reads).sum + sourceReads s + strayReads s

/-- `n` shared tags are free. -/
def sharedFree (s : State) (n : Nat) : Bool := decide (sharedReads s + n ≤ sharedTags s)

/-- Read requests for `n` bytes from an address on: each ends at a multiple of the max read request size or of 4,096, and, where the
region has a head, at the end of the head (R72, R385). `k` bounds the pieces. -/
def readRequests (s : State) : Nat → Nat → Nat → Bool → List Output
  | 0, _, _, _ => []
  | k + 1, a, n, head =>
    if n = 0 then []
    else
      let cut := if head && a % 64 != 0 then 64 - a % 64 else min (max 1 s.host.mrrs - a % max 1 s.host.mrrs) (4096 - a % 4096)
      let m := min n cut
      .hostRead a m :: readRequests s k (a + m) (n - m) false

/-- The read requests that cover a region. -/
def regionReads (s : State) (r : Nat × Nat) : List Output := readRequests s (r.2 / 64 + 2) r.1 r.2 false

/-- Bytes that a list of read requests asks for. -/
def bytesAsked (l : List Output) : Nat := (l.map fun o => match o with | .hostRead _ n => n | _ => 0).sum

/-- As many read requests of a command's source region are issued as there are free shared tags; the rest follows as tags come free (R62). -/
def issueSource (s : State) (f : Flight) : State :=
  let l := (regionReads s f.rest).take (sharedTags s - sharedReads s)
  if f.stage == .running && !l.isEmpty then
    let s := l.foldl emit s
    let n := bytesAsked l
    { s with host := { s.host with flight := s.host.flight.map fun g => if g.id = f.id then
        { g with readAt := if g.reads = 0 then some s.time.now else g.readAt, reads := g.reads + l.length, rest := (g.rest.1 + n, g.rest.2 - n) } else g } }
  else s

/-- The outstanding requests of a source read have completed with `data`: their tags are free, and the bytes are kept for the rest. -/
def keepSource (s : State) (f : Flight) (data : List Byte) : State :=
  { s with host := { s.host with flight := s.host.flight.map fun g => if g.id = f.id then { g with reads := 0, got := f.got ++ data } else g } }

/-- Source reads that wait for a tag are issued in read order. -/
def issueSources (s : State) : State := s.host.flight.foldl issueSource s

/-- A command starts to read a region of host memory. -/
def readSource (s : State) (f : Flight) (addr len : Nat) : State :=
  issueSources { s with host := { s.host with flight := s.host.flight.map fun g =>
    if g.id = f.id then { g with source := (addr, len), rest := (addr, len) } else g } }

/-- The command in flight with a read order number. -/
def flightOf (s : State) (id : Nat) : Option Flight := s.host.flight.find? (fun f => f.id = id)

/-- The completion ring of a command ring (HOST.CMDR(r).CTRL.CQ). -/
def cqOf (s : State) (ring : Nat) : Nat := getF s (F.HOST_CMDR_CTRL_CQ ring)

/-! ## Completions (R78, R79) -/

/-- A completion falls due. -/
def pushCpl (s : State) (f : Flight) (status : Nat) (final : Bool) (result tick : Nat) (ok : Bool) : State :=
  { s with host := { s.host with due := s.host.due ++
      [{ id := f.id, ring := f.cmd.ring, cq := cqOf s f.cmd.ring, tag := f.cmd.tag, status := status, final := final,
         result := result, tick := tick, tickOk := ok }] } }

/-- The final completion of a command: QUIET suppresses it when its status is OK (R79), a configuration command that ends with OK
counts in CFG_WRITES (R89), a scheduled command rejected with LATE counts in LATE_COUNT (R45). -/
def finish (s : State) (f : Flight) (status result tick : Nat) (ok : Bool) : State :=
  let s := setStage s f.id .settled
  let s := if status = stOK && isCfg f.cmd.opcode then countCfg s 1 else s
  let s := if status = stLate && f.cmd.opcode != 0x02 then wrapAdd s F.TIME_LATE_COUNT_COUNT 1 else s
  if quiet f.cmd && status = stOK then leaveFlight s f.id else pushCpl s f status true result tick ok

/-- A command rejected: its completion carries the arrival tick (R78). -/
def reject (s : State) (f : Flight) (status : Nat) : State := finish s f status 0 f.arrival f.tickOk

/-- An immediate command that has taken effect now (R78, R79). -/
def complete (s : State) (f : Flight) (result : Nat) : State := finish s f stOK result s.time.tick (tickValid s)

/-! ## Checks (R98) -/

/-- The lead L of R44 for a command or pending activation. -/
def leadOf (c : Cmd) : Nat := if c.opcode = 0x1A && decide (handleIdx c.handle < 8192) then 49152 else 24576

/-- Checks 1 to 3 of R98: opcode, FLAGS, reserved bits and mode; TICK_VALID; the handle of bytes 4-7 and the handles that PARAMS
names, each with its type. -/
def earlyChecks (s : State) (c : Cmd) (more : List (Nat × Nat)) : Option Nat :=
  match opcodeRow c.opcode with
  | none => some stBadParam
  | some (mode, _, type) =>
    if decide (8 ≤ c.flags) || (mode == .i && sched c) || (mode == .s && !sched c) || !reservedZero c (layoutOf c.opcode)
        || (type == 0 && c.handle != 0) then some stBadParam
    else if sched c && !tickValid s then some stNoTime
    else if (type != 0 && !handleLive s type c.handle) || more.any (fun h => !handleLive s h.1 h.2) then some stBadHandle
    else none

/-- Two lists of conflict keys share one. -/
def keysMeet (a b : List (Nat × Nat × Nat)) : Bool := a.any (fun k => b.contains k)

/-- Conflict key of an adaptive swap: that of the command which replays it (R95, R212). -/
def swapKey (x : AdaptSwap) : Nat × Nat × Nat :=
  (if x.kind = 0 then 0x39 else if x.kind = 1 then 0x23 else 0x21, x.path, x.bin)

/-- An activation or adaptive swap with one of these keys is pending at that tick (R46, R95, R212). -/
def conflicts (s : State) (tick : Nat) (keys : List (Nat × Nat × Nat)) : Bool :=
  s.acts.any (fun p => p.tick = tick && keysMeet p.keys keys) || s.swaps.any fun x => x.tick = tick && keys.contains (swapKey x)

/-- Checks 4 to 10 of R98 in their order. `bad` says a parameter is out of range; `res` is the answer of the resource and object
state check; `mem` says that DRAM which the command needs is not there. -/
def lateChecks (s : State) (f : Flight) (bad : Bool) (keys : List (Nat × Nat × Nat)) (res : Option Nat) (mem : Bool) : Option Nat :=
  if bad then some stBadParam
  else if sched f.cmd && decide (f.cmd.actTick < f.arrival + leadOf f.cmd) then some stLate
  else if sched f.cmd && decide (f.arrival + 2 ^ 34 ≤ f.cmd.actTick) then some stTooFar
  else if sched f.cmd && conflicts s f.cmd.actTick keys then some stConflict
  else match res with
    | some st => some st
    | none =>
      if sched f.cmd && decide (512 ≤ queueUse s) then some stQueueFull
      else if mem then some stMemDown
      else none

/-- TIME.QUEUE follows the queue; PEAK is the highest depth since its last read (R45). -/
def showQueue (s : State) : State :=
  let d := s.acts.length
  setF (setF s F.TIME_QUEUE_DEPTH d) F.TIME_QUEUE_PEAK (max (getF s F.TIME_QUEUE_PEAK) d)

/-- A scheduled command is accepted: it settles, takes its entry of the pending-activation queue and, unless QUIET, completes
provisionally with QUEUED (R45, R79, R83). -/
def accept (s : State) (f : Flight) (keys : List (Nat × Nat × Nat)) (src : List Byte) : State :=
  let s := setStage s f.id .settled
  let s := showQueue { s with acts := s.acts ++ [{ id := f.id, cmd := f.cmd, tick := f.cmd.actTick, keys := keys, src := src }] }
  if quiet f.cmd then s else pushCpl s f stQueued false 0 f.arrival f.tickOk

/-- Columns of a set (R118). -/
def colsOf (w : WeightSet) : Nat := w.l * 2 ^ w.sLog2

/-- BEAM.COLS(d) follows the banks (R121, R122); ACTIVE may pass 512 while an old set leaves (log 53). -/
def showCols (s : State) (d : Nat) : State :=
  let active := ((s.beam.active.filter (·.dir = d)).map (·.cols)).sum + ((s.beam.leaving.filter (·.dir = d)).map (·.cols)).sum
  let shadow := ((s.beam.fills.filter fun x => x.dir = d && x.started).map (·.cols)).sum
  let staged := ((s.beam.sets.filter fun x => x.2.dir = d && x.2.bank.isSome).map fun x => colsOf x.2).sum
  setF (setF (setF s (F.BEAM_COLS_ACTIVE d) (min 1023 active)) (F.BEAM_COLS_SHADOW d) (min 1023 shadow)) (F.BEAM_COLS_STAGED d) (min 2047 staged)

def showAllCols (s : State) : State := showCols (showCols s 0) 1

/-- The fill of an activation ends: its columns leave the shadow bank (R121, R127). -/
def endFill (s : State) (id : Nat) : State :=
  match s.beam.fills.find? (fun x => x.id = id) with
  | none => s
  | some x => showCols { s with beam := { s.beam with fills := s.beam.fills.filter (fun y => y.id != id) } } x.dir

/-- A pending activation leaves the queue with a final completion at `tick`; the fill of a weight-set activation ends with it
(R79, R127). -/
def endAct (s : State) (p : Pending) (status tick : Nat) : State :=
  let s := showQueue { endFill s p.id with acts := s.acts.filter (fun q => q.id != p.id) }
  match flightOf s p.id with
  | none => s
  | some f => finish s f status 0 tick (tickValid s)

/-- Every pending activation that names the handle completes with CANCELLED now (R88). -/
def cancelNaming (s : State) (h : Nat) : State :=
  (s.acts.filter (fun p => p.cmd.handle = h)).foldl (fun s p => endAct s p stCancelled s.time.tick) s

/-- A command row: time moves to `t`; if `c` has the row's opcode and its turn has come, checks 1 to 3 run and then the command's
own part `k`; otherwise nothing happens (R83, R98, R505). -/
def runCmd (t op : Nat) (c : Cmd) (s : State) (more : List (Nat × Nat)) (k : State → Flight → State) : Out :=
  let s := advance t s
  if c.opcode != op then .next s
  else match turn s c with
    | none => .next s
    | some f =>
      match earlyChecks s c more with
      | some st => .next (reject s f st)
      | none => .next (k s f)

/-- The rest of an immediate command: checks 4 to 10, then its effect and result. -/
def immediate (s : State) (f : Flight) (bad : Bool) (res : Option Nat) (mem : Bool) (effect : State → State × Nat) : State :=
  match lateChecks s f bad [] res mem with
  | some st => reject s f st
  | none =>
    let r := effect s
    complete r.1 f r.2

/-- The rest of a scheduled or either-mode command: checks 4 to 10, then acceptance, or with SCHED = 0 its effect at once (R93). -/
def schedulable (s : State) (f : Flight) (bad : Bool) (keys : List (Nat × Nat × Nat)) (res : Option Nat) (mem : Bool)
    (effect : State → State) : State :=
  match lateChecks s f bad keys res mem with
  | some st => reject s f st
  | none => if sched f.cmd then accept s f keys [] else complete (effect s) f 0

/-! ## Store banks (R102, R103) -/

/-- The banks of a list given to an owner. -/
def ownBanks (s : State) (l : List Nat) (h : Nat) : State :=
  { s with owners := l.foldl (fun o b => o.set b h) s.owners }

/-- The banks that a handle owns go back to nobody (R102, R105). -/
def releaseBanks (s : State) (h : Nat) : State := { s with owners := s.owners.map (fun o => if o = h then 0 else o) }

/-- The banks of a run. -/
def bankRun (b n : Nat) : List Nat := (List.range n).map (fun i => b + i)

/-! ## The DRAM as commands see it -/

/-- DRAM port trained (MEMC.STATUS.TRAINED). -/
def dramTrained (s : State) : Bool := flag s F.MEMC_STATUS_TRAINED

/-- A region with SPACE runs past the store or past 2^48 (check 4 of R98, R94); SPACE is 0 host, 1 store, 2 DRAM. -/
def regionBad (space addr len : Nat) : Bool :=
  decide (2 < space) || (space = 1 && decide (storeSize < addr + len)) || (space = 0 && decide (2 ^ 48 < addr + len))

/-- A region in DRAM that is not there: port untrained, or past the installed size (check 10 of R98, R94). -/
def regionDown (s : State) (space addr len : Nat) : Bool :=
  space = 2 && (!dramTrained s || decide (s.dramSize < addr + len))

end Sys2Proof.Machine
end

