-- ==== Sys2Proof/Machine/Pattern.lean ====
section
/-!
DEFINITION. The TDD pattern table: its banks, their validity and segments, which bank runs at a tick, and its start and stop
(spec/01_clocks_and_time.md R38-R43, R503, R504).
-/
namespace Sys2Proof.Machine

/-- A segment of a bank: start and end offset, KIND (0 GUARD, 1 DL, 2 UL) and CAL. -/
structure Segment where
  start : Nat
  stop : Nat
  kind : Nat
  cal : Bool
deriving DecidableEq, Repr

/-- PERIOD of a bank. -/
def period (s : State) (b : Nat) : Nat := getF s (F.TIME_TDD_PERIOD_PERIOD b)

/-- The valid entries of a bank from entry 0 on, up to the first that is not valid: (OFFSET, KIND, CAL). -/
def bankEntries (s : State) (b : Nat) : List (Nat × Nat × Bool) :=
  ((List.range 64).takeWhile (fun i => flag s (F.TIME_TDD_ENTRY_VALID b i))).map fun i =>
    (getF s (F.TIME_TDD_ENTRY_OFFSET b i), getF s (F.TIME_TDD_ENTRY_KIND b i), flag s (F.TIME_TDD_ENTRY_CAL b i))

/-- Segments from entries: each runs to the next entry or to the end of the period (R39). -/
def segmentsOf (per : Nat) : List (Nat × Nat × Bool) → List Segment
  | [] => []
  | [(o, k, c)] => [⟨o, per, k, c⟩]
  | (o, k, c) :: (o', k', c') :: l => ⟨o, o', k, c⟩ :: segmentsOf per ((o', k', c') :: l)

/-- The segments of a bank. -/
def segments (s : State) (b : Nat) : List Segment := segmentsOf (period s b) (bankEntries s b)

/-- The turnaround before an edge to a segment of kind `k` (R40): UL to DL 1,536 ticks, DL to UL 1,024. -/
def turnaround (k : Nat) : Nat := if k = 1 then 1536 else 1024

/-- Every switching edge of a list of segments has its turnaround within GUARD segments; `prev` is the end (raised by one period)
and the kind of the last DL or UL segment before the list. -/
def turnaroundsFit (per : Nat) : Option (Nat × Nat) → List Segment → Bool
  | _, [] => true
  | prev, g :: l =>
    if g.kind = 0 then turnaroundsFit per prev l
    else
      (match prev with
        | none => true
        | some (e, k) => k == g.kind || decide (e + turnaround g.kind ≤ g.start + per))
      && turnaroundsFit per (some (g.stop + per, g.kind)) l

/-- The last DL or UL segment of the period, as the one before the first across the period boundary. -/
def lastTraffic (l : List Segment) : Option (Nat × Nat) :=
  ((l.filter (fun g => g.kind != 0)).getLast?).map fun g => (g.stop, g.kind)

/-- PERIOD divides a frame and is at least 98,304 ticks (R38). -/
def periodValid (per : Nat) : Bool := decide (98304 ≤ per) && frameTicks % per == 0

/-- A bank is valid (R39). -/
def bankValid (s : State) (b : Nat) : Bool :=
  let e := bankEntries s b
  let g := segments s b
  periodValid (period s b)
  && (match e with | (o, _) :: _ => o == 0 | [] => false)
  && ((List.range 64).all fun i => decide (i < e.length) || !flag s (F.TIME_TDD_ENTRY_VALID b i))
  && (g.all fun x => decide (x.start + 1024 ≤ x.stop) && x.kind != 3 && decide (x.stop ≤ period s b))
  && turnaroundsFit (period s b) (lastTraffic g) g

/-- RUNNING and the bank in force, if one runs now. -/
def runningBank (s : State) : Option Nat :=
  if flag s F.TIME_TDD_CTRL_RUNNING then some (getF s F.TIME_TDD_CTRL_ACTIVE_BANK) else none

/-- What the log of starts, stops and swaps gives for a tick: since when, and the bank. -/
def bankLogged : List (Nat × Nat) → Nat → Option (Nat × Nat)
  | [], _ => none
  | (t, v) :: l, n => if t ≤ n then (if v = 0 then none else some (t, v - 1)) else bankLogged l n

/-- The conditions under which the table starts hold, while it does not run (R42). -/
def startReady (s : State) : Bool :=
  flag s F.TIME_TDD_CTRL_ENABLE && tickValid s && !flag s F.TIME_TDD_CTRL_RUNNING && bankValid s 0

/-- The table starts at tick `n` if its conditions hold there: a whole multiple of bank 0's PERIOD (R42). -/
def startsAt (s : State) (n : Nat) : Bool := startReady s && n % period s 0 == 0

/-- The start that the registers will make: the first multiple of bank 0's PERIOD from now on. -/
def nextStart (s : State) : Option Nat :=
  if startReady s then some (period s 0 * ceilDiv s.time.tick (period s 0)) else none

/-- Since when which bank runs at a tick, by the log, or by the start that the registers will make. -/
def bankBase (s : State) (n : Nat) : Option (Nat × Nat) :=
  match bankLogged s.time.tddLog n with
  | some x => some x
  | none => match nextStart s with
    | some a => if a ≤ n then some (a, 0) else none
    | none => none

/-- Of the TDD_SWAPs pending for a tick of [a, n] whose bank is valid, the one with the latest tick. -/
def swapBetween (s : State) (a n : Nat) : Option Pending :=
  (s.acts.filter (fun p => p.cmd.opcode = 0x2D && decide (a ≤ p.tick) && decide (p.tick ≤ n) && bankValid s (p8 p.cmd 16))).foldl
    (fun m p => match m with | none => some p | some q => if q.tick ≤ p.tick then some p else some q) none

/-- The bank in force at a tick, with every start, stop and accepted TDD_SWAP at its own tick (R504). -/
def bankAt (s : State) (n : Nat) : Option Nat :=
  (bankBase s n).map fun x => match swapBetween s x.1 n with
    | some p => p8 p.cmd 16
    | none => x.2

/-- The segment of a bank that a tick lies in (R38, R39). -/
def segmentAt (s : State) (b n : Nat) : Option Segment :=
  let o := n % period s b
  (segments s b).find? (fun g => g.start ≤ o && o < g.stop)

/-- KIND of the segment in force at a tick, by the entries as they stood there; none while no bank runs. -/
def kindAt (s : State) (n : Nat) : Option Nat := (bankAt s n).bind fun b => (segmentAt (stateAt s n) b n).map (·.kind)

/-- The tick lies in a DL segment, in a UL segment. -/
def inDl (s : State) (n : Nat) : Bool := kindAt s n == some 1
def inUl (s : State) (n : Nat) : Bool := kindAt s n == some 2

/-- The ticks of [a, b) at which the segment in force can change: `a`, starts and stops of banks, pending swaps, segment starts. -/
def changesIn (s : State) (a b : Nat) : List Nat :=
  (a :: ((nextStart s).toList ++ s.time.tddLog.map (·.1) ++ (s.acts.filter (fun p => p.cmd.opcode = 0x2D)).map (·.tick)
    ++ [0, 1].flatMap fun k =>
      let per := period s k
      if per = 0 then [] else (segments s k).flatMap fun g =>
        (List.range ((b - a) / per + 2)).map fun i => a + (g.start + per - a % per) % per + i * per)).filter
    fun n => decide (a ≤ n) && decide (n < b)

/-- Some tick of [a, b) lies in a running bank's segment of another KIND than `k`. -/
def leavesKind (s : State) (k a b : Nat) : Bool :=
  (changesIn s a b).any fun n => match kindAt s n with | some x => x != k | none => false

/-- The KIND of the last DL or UL segment of a bank that ends at or before offset `o`, across the period boundary. -/
def kindBefore (s : State) (b o : Nat) : Option Nat :=
  let l := (segments s b).filter (fun g => g.kind != 0)
  ((l.filter (fun g => g.start < o)).getLast? <|> l.getLast?).map (·.kind)

/-- Tick `n` is the start of a UL segment that follows a DL segment (R40, R191). -/
def ulAfterDl (s : State) (n : Nat) : Bool :=
  match bankAt s n with
  | none => false
  | some b => match segmentAt s b n with
    | none => false
    | some g => g.kind == 2 && g.start == n % period s b && kindBefore s b g.start == some 1

/-- Which bank runs from tick `n` on is logged. -/
def logBank (s : State) (n v : Nat) : State := { s with time := { s.time with tddLog := (n, v) :: s.time.tddLog } }

/-- The named bank runs from tick `n`. -/
def runBank (s : State) (b n : Nat) : State :=
  logBank (setF (setFlag s F.TIME_TDD_CTRL_RUNNING true) F.TIME_TDD_CTRL_ACTIVE_BANK b) n (b + 1)

/-- The table stops at once; ACTIVE_BANK keeps the bank that ran last (R503). -/
def stopPattern (s : State) : State := logBank (setFlag s F.TIME_TDD_CTRL_RUNNING false) s.time.tick 0

/-- A running table whose conditions no longer hold stops (R503). -/
def checkPattern (s : State) : State :=
  match runningBank s with
  | none => s
  | some b => if flag s F.TIME_TDD_CTRL_ENABLE && tickValid s && bankValid s b then s else stopPattern s

/-- TDD_SWAP's tick is a boundary of the new bank's period and the bank is valid (R42). -/
def tddSwapGood (s : State) (b n : Nat) : Bool := bankValid s b && n % period s b == 0

/-- TDD_SWAP (2Dh): the bank and its tick are checked on acceptance (R42). -/
def execTddSwap (t : Nat) (c : Cmd) (s : State) : Out :=
  runCmd t 0x2D c s [] fun s f =>
    let b := p8 c 16
    schedulable s f (decide (1 < b) || !tddSwapGood s b c.actTick) [(0x2D, 0, 0)] none false id

/-- A TDD_SWAP reaches its tick: a start that falls on it comes first; the named bank runs from it while the table runs; a bank that
has become invalid ends it with BAD_PARAM; while no bank runs it has no effect (R42, R97). -/
def actTddSwap (s : State) (p : Pending) : State × Nat :=
  let b := p8 p.cmd 16
  let s := if startsAt s p.tick then runBank s 0 p.tick else s
  if (runningBank s).isSome then
    if bankValid s b then (runBank s b p.tick, stOK) else (s, stBadParam)
  else (s, stOK)

end Sys2Proof.Machine
end

