-- ==== Sys2Proof/Machine/Link.lean ====
section
/-!
DEFINITION. What the link layers share: CRC-32C, packets and their bytes, sample formats, the queues of the ports, packet fault
injection, partners and the messages to them (spec/10_bxl_protocol.md R311-R318, R322, R323, R335-R337; spec/11_cascade.md R338,
R346; spec/07_predistortion.md R218).
-/
namespace Sys2Proof.Machine

/-! ## CRC-32C (R218, R312) -/

/-- One bit of the reflected CRC-32C. -/
def crcBit (x : Nat) : Nat := if x % 2 = 1 then (x / 2) ^^^ 0x82F63B78 else x / 2

/-- One byte. -/
def crcByte (x : Nat) (b : Byte) : Nat :=
  crcBit (crcBit (crcBit (crcBit (crcBit (crcBit (crcBit (crcBit (x ^^^ b.toNat))))))))

/-- CRC-32C of a list of bytes. -/
def crc32c (l : List Byte) : Nat := (l.foldl crcByte 0xFFFFFFFF) ^^^ 0xFFFFFFFF

/-! ## Roles (R338) -/

def roleOf (s : State) : Nat := getF s F.CAS_STATUS_ROLE
def isLantern (s : State) : Bool := roleOf s = 1
def isMember (s : State) : Bool := roleOf s = 2

/-- The cascade port that carries this chip's uplink sums, if any, runs in NRZ (R100, R345). -/
def nrzCascade (s : State) : Bool :=
  (isLantern s && !flag s (F.LN_PORT_CTRL_PAM4 2)) || (isMember s && !flag s (F.LN_PORT_CTRL_PAM4 1))

/-! ## Sample formats (R316-R318) -/

/-- LENGTH of a FORMAT. -/
def formatBytes (f : Nat) : Nat := [4096, 3104, 2336, 5120].getD f 0

/-- Bits of a mantissa of a BFP format. -/
def mantissaBits (f : Nat) : Nat := if f = 1 then 12 else 9

/-- A BFP payload's exponents are within range (R317). -/
def exponentsGood (f v : Nat) : Bool :=
  f = 0 || f = 3 || (List.range 64).all fun k => decide (bitsOf v (4 * k) 4 ≤ 16 - mantissaBits f)

/-- Sample i of a payload of FORMAT f, as a little-endian number (R316, R317). -/
def sampleAt (f v i : Nat) : Int × Int :=
  if f = 0 then (signed 16 (bitsOf v (32 * i) 16), signed 16 (bitsOf v (32 * i + 16) 16))
  else if f = 3 then (signed 20 (bitsOf v (40 * i) 20), signed 20 (bitsOf v (40 * i + 20) 20))
  else
    let b := mantissaBits f
    let e : Int := (2 ^ bitsOf v (4 * (i / 16)) 4 : Nat)
    let at' := 256 + 2 * b * i
    (signed b (bitsOf v at' b) * e, signed b (bitsOf v (at' + b) b) * e)

/-- The 1,024 samples of a payload. -/
def decodeSamples (f : Nat) (l : List Byte) : List (Int × Int) := let v := leNat l; (List.range 1024).map (sampleAt f v)

/-- A list of numbers of `w` bits each, the first lowest. -/
def packBits (w : Nat) (l : List Nat) : Nat := l.foldr (fun x a => x % 2 ^ w + 2 ^ w * a) 0

/-- The exponent of a block for `b`-bit mantissas (R318). -/
def blockExponent (b : Nat) (l : List (Int × Int)) : Nat :=
  let fits := fun e => l.all fun x => saturate b (roundBits e x.1) == roundBits e x.1 && saturate b (roundBits e x.2) == roundBits e x.2
  ((List.range (16 - b + 1)).find? fits).getD (16 - b)

/-- Samples as a payload of FORMAT f (R316, R318). -/
def encodeSamples (f : Nat) (data : List (Int × Int)) : List Byte :=
  let at' := fun i => data.getD i (0, 0)
  if f = 0 then leBytes 4096 (packBits 16 ((List.range 1024).flatMap fun i => [unsigned 16 (at' i).1, unsigned 16 (at' i).2]))
  else if f = 3 then leBytes 5120 (packBits 20 ((List.range 1024).flatMap fun i => [unsigned 20 (at' i).1, unsigned 20 (at' i).2]))
  else
    let b := mantissaBits f
    let exps := (List.range 64).map fun k => blockExponent b ((List.range 16).map fun i => at' (16 * k + i))
    let mant := (List.range 1024).flatMap fun i =>
      let e := exps.getD (i / 16) 0
      [unsigned b (saturate b (roundBits e (at' i).1)), unsigned b (saturate b (roundBits e (at' i).2))]
    leBytes 32 (packBits 4 exps) ++ leBytes (256 * b) (packBits b mant)

/-! ## Packets and their bytes (R312-R314, R335) -/

def padding (len : Nat) : Nat := (8 - (28 + len) % 8) % 8

/-- Bytes of a packet of a given LENGTH, header to trailer. -/
def packetSize (len : Nat) : Nat := 28 + len + padding len

/-- The header in the framing of the packet's version. -/
def headerBytes (p : Packet) : List Byte :=
  let a := [BitVec.ofNat 8 (16 * p.ver + p.type), BitVec.ofNat 8 p.flags] ++ leBytes 2 p.payload.length
  if p.ver = 1 then a ++ leBytes 2 (handleIdx p.handle) ++ leBytes 2 p.seq ++ leBytes 4 p.tick ++ leBytes 4 0 ++ leBytes 8 p.pip
  else a ++ leBytes 4 p.handle ++ leBytes 5 p.tick ++ [BitVec.ofNat 8 p.format] ++ leBytes 2 p.seq ++ leBytes 8 p.pip

/-- The whole packet; a stomped trailer is the correct one inverted (R353). -/
def packetBytes (p : Packet) (stomp : Bool) : List Byte :=
  let b := headerBytes p ++ p.payload ++ List.replicate (padding p.payload.length) 0
  b ++ leBytes 4 (if stomp then crc32c b ^^^ 0xFFFFFFFF else crc32c b)

/-- Largest LENGTH of a TYPE (R313); a reserved TYPE has none of its own. -/
def maxLength (type : Nat) : Nat := [65535, 4096, 4096, 1024, 32, 5120].getD type 65535

/-- LENGTH of received bytes. -/
def lengthOf (b : List Byte) : Nat := leNat ((b.drop 2).take 2)

/-- The bytes form one packet (R312). -/
def framed (b : List Byte) : Bool :=
  decide (28 ≤ b.length) && b.length == packetSize (lengthOf b) && decide (lengthOf b ≤ maxLength ((b.getD 0 0).toNat % 16))

/-- The trailer is right, is the inverted right one (R312, R353). -/
def crcGood (b : List Byte) : Bool := leNat (b.drop (b.length - 4)) == crc32c (b.take (b.length - 4))
def crcStomped (b : List Byte) : Bool := leNat (b.drop (b.length - 4)) == crc32c (b.take (b.length - 4)) ^^^ 0xFFFFFFFF

/-- The packet of framed bytes; TICK is not yet extended. -/
def parsePacket (b : List Byte) : Packet :=
  let n := fun i k => leNat ((b.drop i).take k)
  let ver := n 0 1 / 16
  if ver = 1 then
    { ver := 1, type := n 0 1 % 16, flags := n 1 1, handle := n 4 2, tick := n 8 4, format := 0, seq := n 6 2, pip := n 16 8,
      payload := (b.drop 24).take (lengthOf b) }
  else
    { ver := ver, type := n 0 1 % 16, flags := n 1 1, handle := n 4 4, tick := n 8 5, format := n 13 1, seq := n 14 2, pip := n 16 8,
      payload := (b.drop 24).take (lengthOf b) }

/-- A `b`-bit TICK field extended to the tick of [a - 2^(b-1), a + 2^(b-1)) that equals it modulo 2^b (R315). -/
def extendTick (b x a : Nat) : Nat :=
  let lo := a + 2 ^ 64 - 2 ^ (b - 1)
  (lo + (x + 2 ^ 64 - lo % 2 ^ b) % 2 ^ b) % 2 ^ 64

/-! ## Ports and queues (R301, R322) -/

def port (s : State) (q : Nat) : PortSt := s.ports.getD q default
def modPort (s : State) (q : Nat) (f : PortSt → PortSt) : State := { s with ports := listMod s.ports q f }
def portUp (s : State) (q : Nat) : Bool := flag s (F.LN_PORT_STATUS_UP q)

/-- A packet is queued at a port; a port that is DOWN discards and counts it (R295). -/
def enqueue (s : State) (q : Nat) (x : Queued) : State :=
  if portUp s q then modPort s q fun p => { p with queue := p.queue ++ [x] } else satAdd s (F.LN_PORT_STAT_OVERRUN q) 1

/-- A CTRL or TIME packet is queued now. -/
def enqueueCtrl (s : State) (q : Nat) (p : Packet) : State :=
  enqueue s q { pkt := p, since := s.time.now, ctrl := true, index := 0, q := none, stomp := false }

/-! ## Fault injection on packets (R306, R336, R337) -/

def injAt (s : State) (q j : Nat) : Option Injector := (port s q).inj.getD j none
def setInj (s : State) (q j : Nat) (x : Option Injector) : State := modPort s q fun p => { p with inj := p.inj.set j x }

/-- Injected events are counted in the slot and in an FI_EVENT, at most one per slot in 983,040 ticks (R108, R109, R306, R337). -/
def countInjected (s : State) (q j n : Nat) : State :=
  match injAt s q j with
  | none => s
  | some x =>
    if n = 0 then s
    else
      let s := satAdd s (F.BXL_FI_COUNT q j) n
      let s := setInj s q j (some { x with events := x.events + n })
      let y := (port s q).fi.getD j (0, none)
      let put := fun (y : Nat × Option Nat) => modPort s q fun p => { p with fi := p.fi.set j y }
      if match y.2 with | some l => decide (l + 983040 ≤ s.time.now) | none => true then
        post (put (0, some s.time.now)) evFiEvent (evData [(16, 1, q), (17, 1, j), (20, 4, y.1 + n)])
      else put (y.1 + n, y.2)

/-- A slot stops injecting. -/
def stopInj (s : State) (q j : Nat) : State := setFlag (setInj s q j none) (F.BXL_FI_1_ACTIVE q j) false

/-- The slot stops once its events have reached the limit of ARG2 (R336). -/
def limitInj (s : State) (q j : Nat) : State :=
  match injAt s q j with
  | some x => if x.arg2 % 2 ^ 24 ≠ 0 && decide (x.arg2 % 2 ^ 24 ≤ x.events) then stopInj s q j else s
  | none => s

/-- An injector acts on packets of this TYPE on this side (R336). -/
def injMatches (x : Injector) (side type : Nat) : Bool :=
  decide (x.kind ≤ 4) && x.arg2 / 2 ^ 31 == side &&
    (if bitsOf x.arg2 24 4 = 0 then type == 1 || type == 2 || type == 5 else type == bitsOf x.arg2 24 4)

/-- One bit of a packet flipped; with FIXCRC the trailer follows (R336). -/
def flipBit (b : List Byte) (i : Nat) (fix : Bool) : List Byte :=
  let c := b.modify (i / 8) fun x => x ^^^ BitVec.ofNat 8 (2 ^ (i % 8))
  if fix then let d := c.take (c.length - 4); d ++ leBytes 4 (crc32c d) else c

/-- The handle that a packet names: version 1 gives an INDEX, to which belongs the generation now live in that slot (R335). -/
def handleOf (s : State) (p : Packet) : Option Nat :=
  if p.ver != 1 then some p.handle
  else if p.type = 1 || p.type = 2 then (assocGet s.streams p.handle).map fun x => mkHandle 2 x.gen p.handle
  else (assocGet s.partners p.handle).map fun x => mkHandle 6 x.gen p.handle

/-- One packet passes one injector slot: what goes on, each with whether it was corrupted here. -/
def injectSlot (s : State) (q side j : Nat) (b : List Byte × Bool) : State × List (List Byte × Bool) :=
  match injAt s q j with
  | none => (s, [b])
  | some x =>
    let p := parsePacket b.1
    if !injMatches x side p.type then (s, [b])
    else
      let i := x.seen
      let s := setInj s q j (some { x with seen := i + 1 })
      let chosen := bitAt x.pattern (i % 64)
      match x.kind with
      | 0 => if i % x.arg1 = x.arg1 - 1 then (limitInj (countInjected s q j 1) q j, []) else (s, [b])
      | 1 => if handleOf s p = some x.arg1 then
          (limitInj (countInjected s q j 1) q j, []) else (s, [b])
      | 2 => if chosen then (limitInj (countInjected s q j 1) q j, []) else (s, [b])
      | 3 =>
        if chosen && decide (x.arg1 % 2 ^ 17 < 8 * b.1.length) then
          (limitInj (countInjected s q j 1) q j, [(flipBit b.1 (x.arg1 % 2 ^ 17) (bitAt x.arg1 31), true)])
        else (s, [b])
      | _ =>
        match x.held with
        | some h =>
          if h.until' = i then
            let s := setInj s q j (some { x with seen := i + 1, held := none })
            (limitInj (countInjected s q j 1) q j, [b, (h.bytes, h.corrupted)])
          else (s, [b])
        | none =>
          if chosen then
            (setInj s q j (some { x with
              seen := i + 1
              held := some { bytes := b.1, corrupted := b.2, until' := i + x.arg1 % 16, deadline := s.time.now + 32768 } }), [])
          else (s, [b])

/-- A packet passes the slots of a port on one side, from slot `first` on. -/
def injectFrom (s : State) (q side first : Nat) (b : List Byte × Bool) : State × List (List Byte × Bool) :=
  ((List.range 8).drop first).foldl (fun a j =>
    a.2.foldl (fun r x => let y := injectSlot r.1 q side j x; (y.1, r.2 ++ y.2)) (a.1, [])) (s, [b])

/-- A packet passes the eight slots of a port on one side. -/
def injectPacket (s : State) (q side : Nat) (b : List Byte) : State × List (List Byte × Bool) := injectFrom s q side 0 (b, false)

/-! ## Lanes (R285, R304, R307) -/

def lane (s : State) (q l : Nat) : LaneSt := (port s q).lanes.getD l default
def modLane (s : State) (q l : Nat) (f : LaneSt → LaneSt) : State := modPort s q fun p => { p with lanes := listMod p.lanes l f }

/-- Power domain of a port's lanes (R285). -/
def laneDomain (q : Nat) : Nat := if q = 0 then 16 else 17

/-- The lane is enabled, powered and clocked (R285). -/
def laneRuns (s : State) (q l : Nat) : Bool :=
  s.time.laneUp && domainOn s (laneDomain q) && flag s (F.LN_PORT_CTRL_EN q) && flag s (F.LANE_CTRL_EN q l)

def isDead (s : State) (q l : Nat) : Bool := flag s (F.LANE_STATUS_DEAD q l)
def isLocked (s : State) (q l : Nat) : Bool := flag s (F.LANE_STATUS_BLOCK_LOCK q l)
def isAligned (s : State) (q l : Nat) : Bool := flag s (F.LANE_STATUS_ALIGNED q l)

/-- A lane-down is injected on this side of a lane (R307). -/
def laneDown (s : State) (q l side : Nat) : Bool :=
  (port s q).inj.any fun x => match x with | some x => x.kind == 5 && x.lane == l && x.arg2 / 2 ^ 31 == side | none => false

/-- The lane's transmitter is on: not in L1, in LD or on the way out of them, not down by injection (R285, R304, R307). -/
def laneDrives (s : State) (q l : Nat) : Bool :=
  laneRuns s q l && !laneDown s q l 0 && (getF s (F.LANE_STATUS_PSTATE q l) == 0 || (lane s q l).leave.isSome)

/-- The lane sends blocks of its own: it is in no far-end loop (R303). -/
def laneSends (s : State) (q l : Nat) : Bool := laneDrives s q l && getF s (F.LANE_CTRL_LOOP q l) != 3

/-! ## The block stream (R284, R309, R310, R312) -/

/-- The blocks of a packet: START, then its bytes, eight in a block (R312). -/
def packetBlocks (b : List Byte) : List Block :=
  startBlock :: (List.range (ceilDiv b.length 8)).map fun i => { control := false, bytes := (b.drop (8 * i)).take 8 }

/-- Blocks of the stream, the first of them number `first` since a marker, dealt round-robin over the lanes of a set: what each of the 16
lanes of the port carries (R310). -/
def deal (set : List Nat) (first : Nat) (l : List Block) : List (List Block) :=
  (List.range 16).map fun i => (l.zipIdx.filter fun x => set.getD ((first + x.2) % set.length) 16 = i).map (·.1)

/-- The stream gathered back from what the lanes of a set carry (R310). -/
def gather {α : Type} : Nat → List Nat → Nat → List (List α) → List α
  | 0, _, _, _ => []
  | n + 1, set, k, lanes =>
    let i := set.getD (k % set.length) 16
    match lanes.getD i [] with
    | [] => []
    | b :: l => b :: gather n set (k + 1) (lanes.set i l)

/-- Blocks of a lane in `n` ticks (R284). -/
def blocksIn (s : State) (q n : Nat) : Nat := (if flag s (F.LN_PORT_CTRL_PAM4 q) then 32 else 16) * n / 33

/-- The lanes in use (R294), and the number since the last marker of the first block of the stream that has not left: idle blocks fill
every lane (R310; notes/assumptions/61.md). -/
def lanesInUse (s : State) (q : Nat) : List Nat := bitsSet (getF s (F.LN_PORT_STATUS_IN_USE q)) 16
def streamPos (s : State) (q : Nat) : Nat :=
  (lanesInUse s q).length * (blocksIn s q (s.time.now - (port s q).mark.getD 0) - 1)

/-- Blocks of the stream from number `a` up to `b` that a lane of a set carries (R310). -/
def laneShare (set : List Nat) (a b lane : Nat) : Nat :=
  let c := set.idxOf lane
  let n := set.length
  if c < n then (b + n - 1 - c) / n - (a + n - 1 - c) / n else 0

/-- The lane's receiver runs: the lane is enabled, not in LD or on the way out of it, not down by injection (R285, R304, R307). -/
def laneReceives (s : State) (q l : Nat) : Bool :=
  laneRuns s q l && !laneDown s q l 1 && getF s (F.LANE_STATUS_PSTATE q l) != 2
    && !(match (lane s q l).exit with | some (_, 2) => true | _ => false)

/-- Blocks that the lane of a KIND 6 injector has carried on its side since the injection began, in 1/33 of a block: none while it neither sends
nor receives (R284, R308). -/
def injUnits (s : State) (q : Nat) (x : Injector) : Nat :=
  let on := if x.arg2 / 2 ^ 31 = 0 then laneSends s q x.lane else laneReceives s q x.lane
  x.units + if on then (if flag s (F.LN_PORT_CTRL_PAM4 q) then 32 else 16) * (s.time.now - x.upTo) else 0

/-- A KIND 6 injection on this side gives a block of a lane an invalid header: the block `ahead` places after the next one that the lane carries,
-1 the last; blocks from before the injection are spared (R306, R308). -/
def headerHit (s : State) (q lane side : Nat) (ahead : Int) : Bool :=
  (port s q).inj.any fun x => match x with
    | some x =>
      let i := ((injUnits s q x / 33 : Nat) : Int) + ahead
      x.kind == 6 && x.lane == lane && x.arg2 / 2 ^ 31 == side && decide (0 ≤ i) && headerChosen x i.toNat
    | none => false

/-- The lane is in a near-end loop, where it receives what it sends (R303). -/
def nearEnd (s : State) (q l : Nat) : Bool := getF s (F.LANE_CTRL_LOOP q l) == 1 || getF s (F.LANE_CTRL_LOOP q l) == 2

/-- A lane after a run of blocks that it has sent; the last eight runs are kept for a near-end loop. -/
def LaneSt.sent (x : LaneSt) (near : Bool) (run : List LineBlock × Option (BitVec 64)) : LaneSt :=
  { x with line := run.2, looped := if near && decide (1 < run.1.length) then (run.1 :: x.looped).take 8 else x.looped }

/-- A block with the header 00b where it is hit. -/
def withHit (b : LineBlock) (hit : Bool) : LineBlock := if hit then { b with header := 0 } else b

/-- The line bits before the next block of a lane, if it sends blocks of its own: those of the last block it sent, any value if it sent none
yet. -/
def lineBefore (s : State) (q l : Nat) : Option (BitVec 64) :=
  if laneSends s q l then some ((lane s q l).line.getD (Config.lineStart q l s.time.now)) else none

/-- What a lane sends of a run of the stream that begins with block `first`, after the idle blocks since block `dealt`: its blocks on the
line behind the block before them, and its last line bits. -/
def sendLane (s : State) (q : Nat) (set : List Nat) (dealt first l : Nat) (blocks : List Block) : List LineBlock × Option (BitVec 64) :=
  match lineBefore s q l with
  | none => ([], none)
  | some p =>
    let p := afterIdles (laneShare set dealt first l) p
    let out := toLines p blocks
    let ahead : Int := (laneShare set 0 first l : Int) - (blocksIn s q (s.time.now - (port s q).mark.getD 0) - 1 : Nat)
    ({ header := 0, line := p } :: out.zipIdx.map fun x => withHit x.1 (headerHit s q l 0 (ahead + x.2)),
      some (lastLine p out))

/-- Blocks join the stream of a port: those that fit before the next marker are dealt and sent now, the rest follow it (R286, R309, R310,
R312). -/
def sendBlocks (s : State) (q : Nat) (l : List Block) : State :=
  let p := port s q
  if !p.rest.isEmpty then modPort s q fun p => { p with rest := p.rest ++ l }
  else
    let set := lanesInUse s q
    let first := max p.dealt (streamPos s q)
    let n := min l.length (16383 * set.length - first)
    let s' := modPort s q fun p => { p with dealt := first + n, rest := l.drop n }
    if n = 0 then s'
    else
      let sent := (deal set first (l.take n)).zipIdx.map fun x => sendLane s q set p.dealt first x.2 x.1
      emit (modPort s' q fun p => { p with lanes := p.lanes.zipIdx.map fun x => x.1.sent (nearEnd s q x.2) (sent.getD x.2 ([], none)) })
        (.blocks q (sent.map (·.1.drop 1)))

/-- Capacity of a port with its lanes in use: for partial sums 1.5 w layer-units in NRZ and min(3 w, 32) in PAM4, here in halves; for other data
24 w units of load in NRZ and 48 w in PAM4 (R300). -/
def capacity (s : State) (q type : Nat) : Nat :=
  let w := (lanesInUse s q).length
  let pam := flag s (F.LN_PORT_CTRL_PAM4 q)
  if type = 5 then (if pam then 2 * min (3 * w) 32 else 3 * w) else (if pam then 48 else 24) * w

/-- What a packet takes of its port's capacity, in units times ticks: a stream of load or layer-units 2 f / K has a packet every 1,024 K ticks
(R101, R300); CTRL and TIME take none. -/
def packetLoad (p : Packet) : Nat :=
  match p.type with
  | 1 | 2 => 2048 * [16, 12, 9].getD p.format 16
  | 5 => 4096
  | _ => 0

/-- The load that a port still owes for packets it has started. -/
def owedNow (s : State) (q type : Nat) : Nat := (port s q).owed.1 - capacity s q type * (s.time.now - (port s q).owed.2)

/-- A packet may start: every block of the one before has begun, and the port's data has left it capacity (R300, R301, R322; log 29). -/
def mayStart (s : State) (q : Nat) (p : Packet) : Bool :=
  (port s q).rest.isEmpty && decide ((port s q).dealt < streamPos s q + max 1 (lanesInUse s q).length)
    && (packetLoad p == 0 || decide (owedNow s q p.type < capacity s q p.type))

/-- A packet that starts takes its share of the port's capacity. -/
def takeCapacity (s : State) (q : Nat) (p : Packet) : State :=
  if packetLoad p = 0 then s else modPort s q fun x => { x with owed := (owedNow s q p.type + packetLoad p, s.time.now) }

/-- A packet of a port enters its stream. -/
def sendPacket (s : State) (q : Nat) (b : List Byte) : State := sendBlocks (emit s (.packet q b)) q (packetBlocks b)

/-- A packet leaves a port through its transmit-side injectors (R336). -/
def sendBytes (s : State) (q : Nat) (b : List Byte) : State :=
  let r := injectPacket s q 0 b
  r.2.foldl (fun s x => sendPacket s q x.1) r.1

/-! ## Partners and messages (R323, R324) -/

def partnerAt (s : State) (i : Nat) : Option Partner := assocGet s.partners i
def modPartner (s : State) (i : Nat) (f : Partner → Partner) : State :=
  match partnerAt s i with
  | some p => { s with partners := assocPut s.partners i (f p) }
  | none => s
def partnerHandle (s : State) (i : Nat) : Nat := match partnerAt s i with | some p => mkHandle 6 p.gen i | none => 0

/-- Streams that name a partner slot, orphans included. -/
def partnerStreams (s : State) (i : Nat) : List (Nat × Stream) :=
  s.streams.filter fun x => x.2.partner != 0 && x.2.partner == partnerHandle s i

/-- BXL.PARTNER(i).STREAMS follows. -/
def showStreams (s : State) (i : Nat) : State := setF s (F.BXL_PARTNER_1_STREAMS i) (partnerStreams s i).length

/-- The payload of a message: MSG, body length and body, padded to four bytes (R323). -/
def messagePayload (msg : Nat) (body : List Byte) : List Byte :=
  let l := [BitVec.ofNat 8 msg, 0] ++ leBytes 2 body.length ++ body
  l ++ List.replicate ((4 - l.length % 4) % 4) 0

/-- A packet of CTRL or TIME without a stream. -/
def ctrlPacket (ver type handle seq : Nat) (payload : List Byte) : Packet :=
  { ver := ver, type := type, flags := 0, handle := handle, tick := 0, format := 0, seq := seq, pip := 0, payload := payload }

/-- A CTRL or TIME packet goes to a JOINED partner with its handle and its next SEQ (R321). -/
def sendPartner (s : State) (i type : Nat) (payload : List Byte) : State :=
  match partnerAt s i with
  | none => s
  | some p =>
    modPartner (enqueueCtrl s 0 (ctrlPacket p.ver type (mkHandle 6 p.gen i) p.seq payload)) i
      fun p => { p with seq := (p.seq + 1) % 2 ^ 16 }

/-- A message to a JOINED partner. -/
def sendMessage (s : State) (i msg : Nat) (body : List Byte) : State := sendPartner s i 3 (messagePayload msg body)

/-- JOINED partners, ascending. -/
def joined (s : State) : List (Nat × Partner) := s.partners.filter fun x => !x.2.lost

/-- The slot of the JOINED partner that a stream names. -/
def streamPartner (s : State) (x : Stream) : Option Nat :=
  ((joined s).find? fun y => mkHandle 6 y.2.gen y.1 = x.partner).map (·.1)

/-! ## The chain as other layers see it (R340-R343) -/

def modCasc (s : State) (f : CascSt → CascSt) : State := { s with casc := f s.casc }
def ownIndex (s : State) : Nat := getF s F.CAS_STATUS_INDEX
def isIndexed (s : State) : Bool := flag s F.CAS_STATUS_INDEXED
def ownFeature (s : State) : Nat := getF s F.CAS_FEATURE_OWN
def chainE (s : State) : Nat := get64 s A.CAS_CHAIN_E A.CAS_CHAIN_E_1

/-- A chip beyond this one holds an index of the E in force and is reached through the child port (R343, R351). -/
def childInChain (s : State) : Bool := portUp s 2 && s.casc.beyond.isSome

/-- CAS.STATUS.LAST and BROKEN of a lantern or member follow (R343). -/
def showChain (s : State) : State :=
  if isLantern s || isMember s then
    setFlag (setFlag s F.CAS_STATUS_LAST (isMember s && isIndexed s && !childInChain s)) F.CAS_STATUS_BROKEN
      (!portUp s 2 || (s.casc.beyond.isSome && s.casc.broken))
  else s

/-- A message on a cascade port: HANDLE 0, next SEQ of the port (R321, R340). -/
def sendCascade (s : State) (q msg : Nat) (body : List Byte) : State :=
  let n := s.casc.seqs.getD q 0
  modCasc (enqueueCtrl s q (ctrlPacket 2 3 0 n (messagePayload msg body))) fun x => { x with seqs := x.seqs.set q ((n + 1) % 2 ^ 16) }

/-- The least feature level of this chip and of those that report through its child port (R367). -/
def leastFeature (s : State) : Nat := min (ownFeature s) (s.casc.minFeat.getD (ownFeature s))

/-- CASC_REPORT on the parent port for the assignment of `e`, which waits for it or is in force: LAST, MINFEAT, BROKEN and E (R340-R342). -/
def sendReport (s : State) (e : Nat) : State :=
  let x := (assocGet s.casc.next e).getD (if isIndexed s then some (ownIndex s) else none, s.casc.beyond)
  let own := x.1
  let far := if portUp s 2 then x.2 else none
  let feat := leastFeature s
  sendCascade s 1 0x11 ([BitVec.ofNat 8 (far.getD (own.getD 0)), BitVec.ofNat 8 feat, BitVec.ofNat 8 (getF s F.CAS_STATUS_BROKEN), 0]
    ++ leBytes 8 e)

/-- CASC_REPORT for every assignment that waits for its E, or else for the one in force (R342; log 31). -/
def sendReports (s : State) : State :=
  match s.casc.next with
  | [] => sendReport s (chainE s)
  | l => l.foldl (fun s x => sendReport s x.1) s

/-- CASC_ASSIGN on the child port (R340). -/
def sendAssign (s : State) (index depth common e : Nat) : State :=
  sendCascade s 2 0x10 ([BitVec.ofNat 8 index, BitVec.ofNat 8 depth, BitVec.ofNat 8 common, 0] ++ leBytes 8 e)

/-- The child port's state has changed: DOWN ends the chain here, and a link that returns does not restore it; a member loses the sums it
has not passed and reports at once (R295, R342, R358, R359). -/
def childPortChanged (s : State) : State :=
  let s := showChain (if portUp s 2 then s else modCasc s fun x =>
    { x with cut := x.cut || x.beyond.isSome, beyond := none, minFeat := none, next := x.next.map fun y => (y.1, y.2.1, none)
             sums := if isMember s then [] else x.sums })
  if isMember s then sendReports s else s

end Sys2Proof.Machine
end

