-- ==== Sys2Proof/Machine/Carriers.lean ====
section
/-!
DEFINITION. Carriers: their settings and grids, the published delays, the stream budgets, creation, changes of NCO, rate and
response with their restarts and spoilt spans, destruction (spec/03_commands.md R97, R101, R105; spec/04_beam_engine.md R134,
R138, R145; spec/05_transmit_path.md R148-R152, R159, R163, R179; spec/06_receive_path.md R186, R206-R210).
-/
namespace Sys2Proof.Machine

/-! ## Settings (R148, R184, R207) -/

/-- The response class of an ID fits the rate ratio (R207). -/
def respFits (resp k : Nat) : Bool :=
  if resp < 32 || (48 ≤ resp && resp < 56) then decide (k ≤ 8) else decide (resp < 64) && decide (9 ≤ k)

/-- Settings that the device accepts for a carrier of direction `dir` (R148, R159, R184, R207). -/
def settingsGood (dir k resp n : Nat) : Bool :=
  decide (1 ≤ k) && decide (k ≤ if dir = 2 then 4096 else 2048) && respFits resp k && (decide (k ≤ 8) || (decide (3 ≤ n) && decide (n ≤ 5)))

def carriesDl (c : Carrier) : Bool := c.dir = 0 || c.dir = 1
def carriesUl (c : Carrier) : Bool := c.dir = 0 || c.dir = 2
def carries (c : Carrier) (d : Nat) : Bool := if d = 0 then carriesDl c else carriesUl c

/-- Slices S, and F of R149. -/
def slices (c : Carrier) : Nat := 2 ^ c.sLog2
def sliceDelay (c : Carrier) : Nat := if c.sLog2 = 0 then 0 else 8 * slices c - 1

/-! ## Delays (R149, R186, R208) -/

/-- Group delay g of the native section responses (table of R208), grade 0 and 1, by b. -/
def groupDelay (resp : Nat) : Nat :=
  if resp < 16 then [32, 29, 27, 25, 23, 21, 20, 19, 18, 17, 16, 15, 15, 14, 13, 13].getD resp 0
  else [24, 22, 20, 18, 17, 16, 15, 14, 13, 13, 12, 11, 11, 10, 10, 10].getD (resp - 16) 0

/-- Compensation delay c of the CIC responses by N and M (table of R208). -/
def compDelay (n m : Nat) : Nat := if m = 1 then [4, 4, 3].getD (n - 3) 0 else [3, 2, 1].getD (n - 3) 0

/-- Four times the delay d of the forerunner responses 48-55 (table of R208). -/
def forerunnerDelay4 (resp : Nat) : Nat := [25, 22, 20, 17, 19, 17, 15, 13].getD (resp - 48) 0

/-- D_rate in ticks (R208). -/
def rateDelay (resp k n m : Nat) : Nat :=
  if resp < 32 then groupDelay resp * k + 8
  else if resp < 48 then ceilDiv (n * (k * m - 1)) 2 + compDelay n m * k + 12
  else if resp < 56 then ceilDiv (forerunnerDelay4 resp * k) 4 + 8
  else ceilDiv (n * (k * m - 1)) 2 + ceilDiv (compDelay n m * k) 2 + 12

def carrierRateDelay (c : Carrier) : Nat := rateDelay c.resp c.k c.cicN c.cicM

/-- D_DL of a carrier for a correction DELAY (R149). -/
def dDl (c : Carrier) (delay : Nat) : Nat :=
  c.k * (sliceDelay c + ceilDiv 64 c.k + 4 + delay / 64) + carrierRateDelay c + 160

/-- D_UL of a carrier for a correction DELAY (R186). -/
def dUl (c : Carrier) (delay : Nat) : Nat :=
  40 + carrierRateDelay c + c.k * (4 + delay / 64 + sliceDelay c + ceilDiv 64 c.k)

/-- q of a slot: the tick at which its samples are complete and converted (R322, R351). -/
def slotDone (c : Carrier) (n : Nat) : Nat := n + 1023 * c.k + dUl c 0 + 16

/-- DEPTH and UL_ALLOW in force (R351, R354). -/
def cascDepth (s : State) : Nat := getF s F.CAS_CTRL_DEPTH
def ulAllow (s : State) : Nat := max 1024 (min 32768 (getF s F.CAS_UL_ALLOW_ALLOW))

/-- The lantern combines partial sums: DEPTH is not 0 (R355). -/
def combines (s : State) : Bool := isLantern s && cascDepth s != 0

/-- Z of a slot (R354). -/
def combineTick (s : State) (c : Carrier) (n : Nat) : Nat := slotDone c n + ulAllow s + 256 * cascDepth s + 96

/-- The correction DELAY of path n in direction d. -/
def corrDelay (s : State) (n d : Nat) : Nat := getF s (F.BEAM_CORR_1_DELAY n d)

/-- The largest correction DELAY among the paths (R180, R211). -/
def delayMax (s : State) (d : Nat) : Nat := ((List.range (nPaths s)).map (fun n => corrDelay s n d)).foldl max 0

/-- The first tick of a carrier grid of spacing `k` at or after `t` (R49). -/
def gridUp (s : State) (k t : Nat) : Nat := edgeAtOrAfter s k t

/-- Capacity C of the jitter buffer in samples (R154). -/
def bufferCap (k : Nat) : Nat := max (62914 / k) 2048

/-! ## Objects -/

def carrierAt (s : State) (i : Nat) : Option Carrier := assocGet s.carriers i
def putCarrier (s : State) (i : Nat) (c : Carrier) : State := { s with carriers := assocPut s.carriers i c }
def modCarrier (s : State) (i : Nat) (f : Carrier → Carrier) : State :=
  match carrierAt s i with
  | some c => putCarrier s i (f c)
  | none => s

def streamAt (s : State) (i : Nat) : Option Stream := assocGet s.streams i
def putStream (s : State) (i : Nat) (x : Stream) : State := { s with streams := assocPut s.streams i x }
def modStream (s : State) (i : Nat) (f : Stream → Stream) : State :=
  match streamAt s i with
  | some x => putStream s i (f x)
  | none => s

/-- Streams of a carrier in a direction. -/
def streamsOf (s : State) (i d : Nat) : List (Nat × Stream) := s.streams.filter fun x => x.2.carrier = i && x.2.dir = d

/-- Every stream of a carrier changed. -/
def modStreamsOf (s : State) (i : Nat) (f : Stream → Stream) : State :=
  { s with streams := s.streams.map fun x => if x.2.carrier = i then (x.1, f x.2) else x }

/-! ## Settings by pin tick (R48) -/

def Carrier.settings (c : Carrier) : Settings :=
  { k := c.k, resp := c.resp, cicN := c.cicN, cicM := c.cicM, nco := c.nco, phaseAt := c.phaseAt, grid := c.grid, dlFrom := c.dlFrom
    ulFrom := c.ulFrom }

def Carrier.under (c : Carrier) (x : Settings) : Carrier :=
  { c with k := x.k, resp := x.resp, cicN := x.cicN, cicM := x.cicM, nco := x.nco, phaseAt := x.phaseAt, grid := x.grid, dlFrom := x.dlFrom
           ulFrom := x.ulFrom }

/-- The carrier with the settings that hold for samples of pin tick `p`: what a change replaced holds up to the first sample of the carrier
grid at or after its tick (R48). -/
def Carrier.atTick (c : Carrier) (p : Nat) : Carrier :=
  match (c.was.filter fun y => decide (p < y.2.1)).getLast? with
  | some y => c.under y.2.2
  | none => c

/-- The pin tick up to which the grid `g` of a carrier has held, if another has followed it. -/
def gridEnd (c : Carrier) (g : Nat) : Option Nat :=
  if c.grid = g then none else some (((c.was.filter fun y => y.2.2.grid = g).map fun y => y.2.1).foldl max 0)

/-! ## Changes of settings (R97) -/

/-- A carrier with the fields that a CARRIER_SET selects: NCO, rate, response. -/
def withSelection (x : Carrier) (c : Cmd) : Carrier :=
  let w := p8 c 16
  let x := if bitAt w 0 then { x with nco := p32 c 24 } else x
  let x := if bitAt w 1 then { x with k := p16 c 18, cicN := bitsOf (p8 c 21) 0 3, cicM := bitsOf (p8 c 21) 4 1 + 1 } else x
  if bitAt w 2 then { x with resp := p8 c 20 } else x

/-- The CARRIER_SETs pending for a carrier handle, as (tick, entry). -/
def pendingSets (s : State) (h : Nat) : List (Nat × Cmd) :=
  (s.acts.filter (fun p => p.cmd.opcode = 0x11 && p.cmd.handle = h)).map fun p => (p.tick, p.cmd)

/-- Insertion into a list that rises by tick. -/
def insertByTick {α : Type} (x : Nat × α) : List (Nat × α) → List (Nat × α)
  | [] => [x]
  | y :: l => if x.1 < y.1 then x :: y :: l else y :: insertByTick x l

/-- The settings that a carrier will have at tick `n` once every listed selection up to it is applied (R97). -/
def settingsAt (x : Carrier) (l : List (Nat × Cmd)) (n : Nat) : Carrier :=
  ((l.foldl (fun m y => insertByTick y m) []).filter (fun y => y.1 ≤ n)).foldl (fun x y => withSelection x y.2) x

def carrierGood (x : Carrier) : Bool := settingsGood x.dir x.k x.resp x.cicN

/-- A CARRIER_SET that takes effect at `n` leaves the carrier within range there, its own fields over those pending for the same tick, and
at every later pending tick (R97). -/
def setGood (s : State) (x : Carrier) (c : Cmd) (n : Nat) : Bool :=
  let old := pendingSets s c.handle
  let l := old ++ [(n, c)]
  carrierGood (settingsAt x l n) && old.all fun y => decide (y.1 < n) || carrierGood (settingsAt x l y.1)

/-! ## Stream budgets (R101) -/

/-- The smallest K that a carrier has or has pending: the sums count it at its larger rate (R101). -/
def smallestK (s : State) (i : Nat) (x : Carrier) : Nat :=
  (s.acts.filter (fun p => p.cmd.opcode = 0x11 && p.cmd.handle = mkHandle 1 x.gen i && bitAt (p8 p.cmd 16) 1)).foldl
    (fun m p => min m (p16 p.cmd 18)) x.k

/-- A sum of fractions 2 w / k. -/
def unitSum (l : List (Nat × Nat)) : Nat × Nat := l.foldl (fun a x => (a.1 * x.1 + 2 * x.2 * a.2, a.2 * x.1)) (0, 1)

/-- The sum of 2 w / k is at most `lim`. -/
def unitsWithin (l : List (Nat × Nat)) (lim : Nat) : Bool := (unitSum l).1 ≤ lim * (unitSum l).2

/-- Front-port bits per layer-unit of a FORMAT (R101). -/
def formatLoad (f : Nat) : Nat := if f = 0 then 16 else if f = 1 then 12 else 9

/-- (K, FORMAT) of every stream of a direction, with carrier `i` counted at `k`. -/
def directionLoad (s : State) (d i k : Nat) : List (Nat × Nat) :=
  (s.streams.filter (fun x => x.2.dir = d)).map fun x =>
    (if x.2.carrier = i then k else match carrierAt s x.2.carrier with
      | some c => smallestK s x.2.carrier c
      | none => 1, x.2.format)

/-- Layer-units allowed in a direction: 32; 24 on the uplink while the child port of a lantern, or the parent port of a member, runs in
NRZ (R100, R345). -/
def unitLimit (s : State) (d : Nat) : Nat := if d = 1 && nrzCascade s then 24 else 32

/-- The two budgets hold for a list of (K, FORMAT) (R101); the served streams of a member bear no front-port load (R345). -/
def budgetsHold (s : State) (d : Nat) (l : List (Nat × Nat)) : Bool :=
  unitsWithin (l.map fun x => (x.1, 1)) (unitLimit s d) && (isMember s || unitsWithin (l.map fun x => (x.1, formatLoad x.2)) 384)

/-! ## Unmapped streams (R112) -/

/-- The active set of a carrier and direction. -/
def activeOf (s : State) (i d : Nat) : Option ActiveSet := s.beam.active.find? fun x => x.carrier = i && x.dir = d

/-- First slice block at or after tick `n` with its length SK, in ticks, over the settings that changes have replaced, oldest first, each up
to its first tick without them; `a` is the first tick of those at the head (R48, R115, R131). -/
def blockFrom (s : State) (c : Carrier) (n : Nat) : List (Nat × Nat × Settings) → Nat → Nat × Nat
  | [], a => (gridUp s (slices c * c.k) (max n a), slices c * c.k)
  | y :: l, a =>
    let x := c.under y.2.2
    let b := gridUp s (slices x * x.k) (max n a)
    if b < y.2.1 then (b, slices x * x.k) else blockFrom s c n l (max a y.2.1)

/-- B and SK of an activation at tick `n` of a carrier (R131, R134). -/
def swapBlock (s : State) (i n : Nat) : Nat × Nat :=
  match carrierAt s i with
  | some c => blockFrom s c n c.was.reverse 0
  | none => (n, 0)

/-- B of an active set, if its columns do not map layers yet (R131). -/
def mapBlock (s : State) (a : ActiveSet) : Option Nat := a.mapAt.map fun n => (swapBlock s a.carrier n).1

/-- L of the columns that map layers at tick `n`: those of the set itself from its block B on (R131). -/
def mappedAt (s : State) (a : ActiveSet) (n : Nat) : Option Nat :=
  match mapBlock s a with
  | some b => if b ≤ n then some a.layers else a.mapped
  | none => a.mapped

/-- The slice blocks of a carrier that start in the ticks [a, b) under its settings (R115). -/
def blocksUnder (s : State) (c : Carrier) (a b : Nat) : Nat :=
  ceilDiv (b - s.time.origin) (slices c * c.k) - ceilDiv (a - s.time.origin) (slices c * c.k)

/-- The slice blocks of a stream that start in the ticks [a, b), each under the settings that hold there. -/
def sliceBlocksIn (s : State) (c : Carrier) (a b : Nat) : Nat :=
  let r := c.was.reverse.foldl (fun (x : Nat × Nat) y =>
    let e := min b y.2.1
    if x.1 < e then (e, x.2 + blocksUnder s (c.under y.2.2) x.1 e) else x) (a, 0)
  r.2 + blocksUnder s c r.1 b

/-- The slice blocks in [a, b) at which a stream is unmapped: its LAYER is not below L; without a set that maps layers no stream is
unmapped (R112). -/
def unmappedIn (s : State) (x : Stream) (a b : Nat) : Nat :=
  match activeOf s x.carrier x.dir, carrierAt s x.carrier with
  | some y, some c =>
    let cut := match mapBlock s y with | some m => min (max m a) b | none => a
    let part := fun l u v => match l with | some l => if l ≤ x.layer then sliceBlocksIn s c u v else 0 | none => 0
    part y.mapped a cut + part (if y.mapAt.isSome then some y.layers else y.mapped) cut b
  | _, _ => 0

/-- The sample of reference pin tick q of a stream lies in a slice block at whose start the stream was unmapped (R112, R115). -/
def unmappedSample (s : State) (x : Stream) (c : Carrier) (q : Nat) : Bool :=
  let p := q - (q - s.time.origin) % (slices c * c.k)
  let v := stateAt s p
  match (activeOf v x.carrier x.dir).bind fun a => mappedAt v a p with
  | some l => decide (l ≤ x.layer)
  | none => false

/-- BEAM.UNMAPPED counts the slice blocks of unmapped streams that start before tick `n`, in IDLE too (R112; log 48). -/
def countUnmapped (s : State) (n : Nat) : State :=
  let a := s.beam.unmappedFrom
  let s := { s with beam := { s.beam with unmappedFrom := max a n } }
  satAdd s F.BEAM_UNMAPPED_COUNT ((s.streams.map fun x => unmappedIn s x.2 a n).sum)

/-! ## Spoilt spans (R179, R210) -/

def addUlSpan (s : State) (i a b : Nat) : State := modCarrier s i fun x => { x with ulSpans := (a, b) :: x.ulSpans }
def addDlSpan (s : State) (i a b : Nat) : State := modCarrier s i fun x => { x with dlSpans := (a, b) :: x.dlSpans }

/-- B_in and B_nco of R210 in carrier samples. -/
def bIn (c : Carrier) : Nat := ceilDiv (carrierRateDelay c + 24) c.k
def bNco (c : Carrier) : Nat := ceilDiv (carrierRateDelay c) c.k

/-- The span of a change of correction DELAY from d1 to d2 at tick `n` for every uplink carrier (R138, R210). -/
def spoilByDelay (s : State) (n d1 d2 : Nat) : State :=
  s.carriers.foldl (fun s y =>
    if carriesUl y.2 && d1 != d2 then
      let a := gridUp s y.2.k n
      addUlSpan s y.1 a (a + (8 + ceilDiv (max d1 d2 - min d1 d2) 64) * y.2.k)
    else s) s

/-! ## The restarts of a rate or response change -/

/-- Block j of a slot at `n` is required: the carrier is FDD, or one of its samples lies in a DL segment (R157). -/
def blockRequired (s : State) (c : Carrier) (n j : Nat) : Bool :=
  c.dir != 0 || (List.range 16).any fun i => inDl s (n + (16 * j + i) * c.k)

/-- A 64-bit mask of the blocks that satisfy a test. -/
def blockMask (p : Nat → Bool) : Nat := ((List.range 64).map fun j => if p j then 2 ^ j else 0).sum

/-- A slot of a stream under the settings of `c`, as it stands or as it begins. -/
def slotAt (x : Stream) (c : Carrier) (n : Nat) : Slot :=
  (x.slots.find? fun y => y.first = n && y.grid = c.grid).getD
    { first := n, grid := c.grid, k := c.k, written := false, late := false, dropped := false, decided := none, required := 0, echoed := false,
      data := [] }

/-- A stream with a slot put in place of that of the same tick and grid. -/
def putSlot (x : Stream) (y : Slot) : Stream :=
  { x with slots := insertBy (·.first) y (x.slots.filter fun z => z.first != y.first || z.grid != y.grid) }

/-- The slot of the old grid that holds tick `n` is never read out to its end: it counts neither as late nor as missing from here on, but
its record falls due. Slots of the old grid that start at or after `n` go (R163, R181). -/
def cutSlots (s : State) (c : Carrier) (n : Nat) (x : Stream) : Stream :=
  let f := c.grid + (n - c.grid) / (1024 * c.k) * (1024 * c.k)
  let y := slotAt x c f
  let x := { x with slots := x.slots.filter fun z => z.grid != c.grid || decide (z.first < n) }
  if n ≤ f then x
  else putSlot x { y with
    decided := some (y.decided.getD (if y.written then 0 else 3))
    required := if y.decided.isSome then y.required else blockMask (blockRequired s c f) }

/-- The downlink restart: buffered samples of the old grid from T on are discarded (R163). -/
def restartDl (s : State) (i : Nat) (c : Carrier) (n : Nat) : State :=
  modStreamsOf s i fun x => if x.dir = 0 then cutSlots s c n x else x

/-- The first sample of the new carrier grid at or after T (R152, R163, R206). -/
def firstNew (s : State) (x : Carrier) (n : Nat) : Nat := gridUp s x.k n

/-- A carrier's streams move to a new packet origin `g` (R152, R188): uplink slots go on from it and their origin is announced
(R322). -/
def moveOrigin (s : State) (i g : Nat) : State :=
  modStreamsOf s i fun x => { x with ulNext := if x.dir = 1 then g else x.ulNext, newOrigin := x.dir = 1 }

/-- The slots of older grids that are not sent yet go on up to the new origin `g`, before the slots from it on (R206, R322). -/
def keepOldSlots (s : State) (i g : Nat) : State :=
  modStreamsOf s i fun x => if x.dir != 1 then x else
    { x with ulOld := ((x.ulOld.map fun y => (y.1, min y.2.1 g, y.2.2)) ++ [(x.ulNext, g, x.newOrigin)]).filter fun y => decide (y.1 < y.2.1) }

/-- LEASE_GRANT of a stream goes to its JOINED partner with the values of its last grant (R323, R326). -/
def sendGrant (s : State) (j : Nat) : State :=
  match streamAt s j with
  | none => s
  | some x => match streamPartner s x, carrierAt s x.carrier with
    | some p, some c =>
      sendMessage s p 0x05 (leBytes 4 (mkHandle 2 x.gen j) ++ leBytes 4 (mkHandle 1 c.gen x.carrier)
        ++ [BitVec.ofNat 8 x.dir, BitVec.ofNat 8 x.layer, BitVec.ofNat 8 x.format, 0] ++ leBytes 2 x.grant.1 ++ [0, 0]
        ++ leBytes 8 x.grant.2.1 ++ leBytes 8 x.grant.2.2)
    | _, _ => s

/-- Every stream of a carrier is granted anew with K and packet origin `g`, FROM `g` (R326). -/
def regrant (s : State) (i k g : Nat) : State :=
  let s := modStreamsOf s i fun x => { x with grant := (k, g, g), acked := false }
  ((s.streams.filter fun y => y.2.carrier = i).map (·.1)).foldl sendGrant s

/-- Phase of a carrier's NCOs at a tick: zero at the SYNC origin, advancing by the word in force (R165). -/
def ncoPhase (x : Carrier) (n : Nat) : Nat :=
  unsigned 32 ((x.phaseAt.2 : Int) + (x.nco : Int) * ((n : Int) - (x.phaseAt.1 : Int)))

/-- A carrier starts anew at the origin `g`: its packet grid, cleared stages, the spans of R179 and R210, no restart due. -/
def syncCarrier (s : State) (g : Nat) (c : Carrier) : Carrier :=
  let m := delayMax s 1 / 64
  { c with
    grid := g
    phaseAt := (g, 0)
    dlSpans := if carriesDl c then [(g, g + (ceilDiv (dDl c 0) c.k + 120) * c.k)] else []
    ulSpans := if carriesUl c then [(g, g + (56 + m) * c.k)] else []
    ulZero := []
    ulRestart := []
    dlFrom := g
    ulFrom := g
    dlRestarted := []
    dlDue := []
    was := [] }

/-- A carrier once a CARRIER_SET has been made at tick `n`: the new settings hold from the first sample `g` of the carrier grid at or after it,
the NCO without a phase step there; a rate or response change moves the packet origin to `g`, restarts the stages and spoils the spans of
R179, R206 and R210, a change of the NCO alone its retune span (R48, R152, R163, R166, R179, R201, R206, R210). What another change of
the same tick, or one that would have taken hold later, replaced holds up to `g` too. -/
def changeCarrier (s : State) (old : Carrier) (c : Cmd) (n : Nat) : Carrier :=
  let new := withSelection old c
  let g := firstNew s new n
  let was := (n, g, old.settings) :: old.was.map fun y => if y.1 = n || g < y.2.1 then (y.1, g, y.2.2) else y
  let before := { old with was := was }.atTick (g - 1)
  let x := { new with was := was, phaseAt := (g, ncoPhase before g) }
  let m := delayMax s 1 / 64
  if bitAt (p8 c 16) 1 || bitAt (p8 c 16) 2 then
    { x with
      grid := g
      dlFrom := g - 160
      ulFrom := g
      dlDue := (old.dlDue.filter fun y => decide (y.2.1 < g)) ++ if n + 160 < g then [(n, g, before.settings)] else []
      dlSpans := if carriesDl new then (g, g + (ceilDiv (dDl new 0) new.k + 120) * new.k) :: old.dlSpans else old.dlSpans
      ulRestart := (old.ulRestart.filter fun y => decide (y.2.2 < g)) ++
        if carriesUl new then [(g + 40, g + 40 - dUl before 0 - before.k * m, g)] else []
      ulSpans := if carriesUl new then (g, g + (56 + m) * new.k) :: old.ulSpans else old.ulSpans }
  else if bitAt (p8 c 16) 0 then
    { x with
      dlSpans := if carriesDl new then (g - delayMax s 0 / 64 * new.k, g + (1 + ceilDiv 128 new.k) * new.k) :: old.dlSpans else old.dlSpans
      ulSpans := if carriesUl new then (g - bNco new * new.k, g + 49 * new.k) :: old.ulSpans else old.ulSpans }
  else old

/-- The CARRIER_SETs that are pending for a carrier, in the order of their ticks, each with the carrier as it will be once it is made. -/
def pendingChanges (s : State) (i : Nat) (x : Carrier) : List (Pending × Carrier) :=
  ((sortBy (fun p => p.tick) (s.acts.filter fun p => p.cmd.opcode = 0x11 && p.cmd.handle = mkHandle 1 x.gen i)).foldl
    (fun (r : List (Pending × Carrier) × Carrier) p => let y := changeCarrier s r.2 p.cmd p.tick; (r.1 ++ [(p, y)], y)) ([], x)).1

/-- The carrier with every pending CARRIER_SET made. -/
def carrierAhead (s : State) (i : Nat) (x : Carrier) : Carrier := ((pendingChanges s i x).getLast?.map fun y => y.2).getD x

/-- The carrier with the CARRIER_SETs made that are pending up to tick `n`: what else happens at tick `n` meets them (R46). -/
def carrierBy (s : State) (i n : Nat) (x : Carrier) : Carrier :=
  (((pendingChanges s i x).filter fun y => decide (y.1.tick ≤ n)).getLast?.map fun y => y.2).getD x

/-- The span of an RX gain step or DC coarse swap at tick `n` for every uplink carrier, under the settings that tick `n` brings (R46, R210). -/
def spoilByGain (s : State) (n : Nat) : State :=
  s.carriers.foldl (fun s y =>
    let c := carrierBy s y.1 n y.2
    if carriesUl c then
      let a := gridUp s c.k n
      addUlSpan s y.1 (a - bIn c * c.k) (a + (49 + ceilDiv 64 c.k) * c.k)
    else s) s

/-- A stream capture meets the rate `k` at tick `g`. -/
def Capture.meetRate (x : Capture) (g k : Nat) : Capture :=
  let l := x.rates.filter fun y => decide (y.1 < g)
  match l with
  | y :: _ => { x with rates := (g, y.2.1 + ceilDiv (g - y.1) (max 1 y.2.2), k) :: l }
  | [] => { x with rates := x.rates.map fun y => (y.1, y.2.1, k) }

/-- The stream captures of a carrier meet its new rate at the first new-rate sample `g`. -/
def captureRates (s : State) (i g k : Nat) : State :=
  { s with captures := s.captures.map fun x => if x.source = 3 && x.carrier = i && x.first.isSome then x.meetRate g k else x }

/-- A CARRIER_SET in force from tick `n`: the carrier changes; at a rate or response change the downlink restarts unless it has done so before or
does so later, the slots of the old grid go on to their end and those of the new one follow (R163, R206, R322). -/
def applyCarrierSet (s : State) (c : Cmd) (id n : Nat) : State :=
  let i := handleIdx c.handle
  match carrierAt s i with
  | none => s
  | some old =>
    let s := countUnmapped s n
    let new := changeCarrier s old c n
    if bitAt (p8 c 16) 1 || bitAt (p8 c 16) 2 then
      let g := new.grid
      let s := if n + 160 < g || old.dlRestarted.contains id then s else restartDl s i (new.atTick (g - 1)) n
      moveOrigin (putCarrier (keepOldSlots (captureRates s i g new.k) i g) i { new with dlRestarted := old.dlRestarted.erase id }) i g
    else putCarrier s i new

/-- Conflict keys of a CARRIER_SET: the carrier and each selected item (R95). -/
def carrierSetKeys (c : Cmd) : List (Nat × Nat × Nat) := (bitsSet (p8 c 16) 3).map fun b => (0x11, handleIdx c.handle, b)

/-- CARRIER_SET (11h). -/
def execCarrierSet (t : Nat) (c : Cmd) (s : State) : Out :=
  runCmd t 0x11 c s [] fun s f =>
    let i := handleIdx c.handle
    let n := if sched c then c.actTick else s.time.tick
    match carrierAt s i with
    | none => s
    | some x =>
      let k := p16 c 18
      let excess := bitAt (p8 c 16) 1 && !(budgetsHold s 0 (directionLoad s 0 i k) && budgetsHold s 1 (directionLoad s 1 i k))
      let keys := carrierSetKeys c
      match lateChecks s f (!setGood s x c n) keys (if excess then some stNoResource else none) false with
      | some st => reject s f st
      | none =>
        let new := settingsAt x (pendingSets s c.handle ++ [(n, c)]) n
        let grant := fun s => if bitAt (p8 c 16) 1 || bitAt (p8 c 16) 2 then regrant s i new.k (firstNew s new n) else s
        if sched c then grant (accept s f keys []) else complete (applyCarrierSet (grant s) c f.id n) f 0

/-- CARRIER_CREATE (10h): the lowest free slot of eight (R87, R100, R159). -/
def execCarrierCreate (t : Nat) (c : Cmd) (s : State) : Out :=
  runCmd t 0x10 c s [] fun s f =>
    let k := p16 c 18
    let n := bitsOf (p8 c 21) 0 3
    let bad := decide (2 < p8 c 16) || decide (4 < p8 c 17) || !settingsGood (p8 c 16) k (p8 c 20) n
    match lowestFree s.carriers 8 with
    | none => immediate s f bad (some stNoResource) false fun s => (s, 0)
    | some i =>
      immediate s f bad none false fun s =>
        let g := nextGen s 1 i
        let x : Carrier :=
          { gen := g, dir := p8 c 16, sLog2 := p8 c 17, k := k, resp := p8 c 20, cicN := n, cicM := bitsOf (p8 c 21) 4 1 + 1,
            nco := p32 c 24, phaseAt := (s.time.origin, 0), grid := s.time.origin, ulSpans := [], dlSpans := [], ulZero := [],
            ulRestart := [], dlFrom := s.time.tick, ulFrom := s.time.tick, dlRestarted := [], dlDue := [], was := [] }
        (putCarrier (takeGen s 1 i) i x, mkHandle 1 g i)

/-- CARRIER_DESTROY (12h): BUSY while a stream or a weight set names it (R105). -/
def execCarrierDestroy (t : Nat) (c : Cmd) (s : State) : Out :=
  runCmd t 0x12 c s [] fun s f =>
    let i := handleIdx c.handle
    let busy := s.streams.any (fun x => x.2.carrier = i) || s.beam.sets.any (fun x => x.2.carrier = c.handle)
    immediate s f false (if busy then some stBusy else none) false fun s =>
      (cancelNaming { s with carriers := assocDel s.carriers i } c.handle, 0)

/-- The first pending rate or response change of a carrier whose downlink restart, 160 ticks before its first new-rate sample, is
due and has not run (R163), with the carrier as it will be. -/
def dueRestart (s : State) (i : Nat) (x : Carrier) : Option (Pending × Carrier) :=
  (pendingChanges s i x).find? fun y => decide (2 ≤ p8 y.1.cmd 16) && decide (y.2.grid ≤ s.time.tick + 160) && !x.dlRestarted.contains y.1.id

/-- CARRIER_RESTART: the restart of stages 1-6 of a carrier at the stage tick of its first new-rate sample, before the tick of the change or
after it (R163). -/
def execCarrierRestart (t carrier : Nat) (s : State) : Out :=
  let s := advance t s
  match carrierAt s carrier with
  | none => .next s
  | some x =>
    match x.dlDue.find? (fun y => decide (y.2.1 ≤ s.time.tick + 160)), dueRestart s carrier x with
    | some y, _ => .next (modCarrier (restartDl s carrier (x.under y.2.2) y.1) carrier fun x => { x with dlDue := x.dlDue.erase y })
    | none, some (p, y) =>
      .next (modCarrier (restartDl s carrier (y.atTick (y.grid - 1)) p.tick) carrier fun x => { x with dlRestarted := p.id :: x.dlRestarted })
    | none, none => .next s

/-- UL_CARRIER_RESTART: at T' + 40 stages 8-10 are cleared and the layer samples still incomplete are sent as pipped zeros
(R206). -/
def execUlCarrierRestart (t carrier : Nat) (s : State) : Out :=
  let s := advance t s
  match carrierAt s carrier with
  | none => .next s
  | some x =>
    match x.ulRestart.find? (fun y => decide (y.1 ≤ s.time.tick)) with
    | none => .next s
    | some y => .next (modCarrier s carrier fun x => { x with ulRestart := x.ulRestart.erase y, ulZero := y.2 :: x.ulZero })

/-! ## Per-path correction (R135-R138) -/

/-- TAPER, PHASE and DELAY of a path and direction set, in force from tick `n`. -/
def applyCorr (s : State) (path d taper phase delay n : Nat) : State :=
  let old := corrDelay s path d
  let s := setF (setF (setF s (F.BEAM_CORR_TAPER path d) taper) (F.BEAM_CORR_PHASE path d) phase) (F.BEAM_CORR_1_DELAY path d) delay
  if d = 1 then spoilByDelay s n old delay else s

/-- PATH_CORR (20h). -/
def execPathCorr (t : Nat) (c : Cmd) (s : State) : Out :=
  runCmd t 0x20 c s [] fun s f =>
    let n := if sched c then c.actTick else s.time.tick
    schedulable s f (!pathPresent s (p8 c 16) || decide (1 < p8 c 17) || decide (4095 < p16 c 22)) [(0x20, p8 c 16, p8 c 17)] none
      false fun s => applyCorr s (p8 c 16) (p8 c 17) (p16 c 18) (p16 c 20) (p16 c 22) n

/-- A field is written, but where a scheduled activation has set it at this very tick (R500). -/
def writeF (s : State) (f : Fld) (v : Nat) : State := if heldMask s f.reg.addr &&& f.mask = 0 then setF s f v else s

/-- A word of BEAM.CORR written, in force at once (R135, R43). -/
def writeCorr (s : State) (path d word data : Nat) : State :=
  if word = 0 then
    writeF (writeF s (F.BEAM_CORR_PHASE path d) (bitsOf data 16 16)) (F.BEAM_CORR_TAPER path d) (bitsOf data 0 16)
  else
    let old := corrDelay s path d
    let s := writeF s (F.BEAM_CORR_1_DELAY path d) (bitsOf data 0 12)
    if d = 1 then spoilByDelay s s.time.tick old (corrDelay s path d) else s

/-- CORR_WRITE: a write of word 0 or 1 of BEAM.CORR(n, d); registers of absent paths ignore it (R7, R135). -/
def execCorrWrite (t path dir word data : Nat) (s : State) : Out :=
  byWrite t s fun s => if pathPresent s path && decide (dir < 2) && decide (word < 2) then writeCorr s path dir word data else s

end Sys2Proof.Machine
end

