-- ==== Sys2Proof/Machine/DramPort.lean ====
section
/-!
DEFINITION. The DRAM port under the requests that reach it: its address hash and pages, the order of its requests, the gathering of a
retraining that had to wait, self-refresh as requests cancel or end it, and the end of a change of rate (spec/13_dram.md R399-R413).
-/
namespace Sys2Proof.Machine

def modMemc (s : State) (f : MemcSt → MemcSt) : State := { s with memc := f s.memc }

/-! ## Address map (R399) -/

/-- XOR of the listed bits of an address. -/
def xorBits (a : Nat) (l : List Nat) : Nat := (l.filter fun i => bitAt a i).length % 2

/-- Channel of an address. -/
def dramChannel (a : Nat) : Nat := xorBits a [6, 16, 17, 20, 24, 29]

/-- Bank of an address: bank group [1:0] and bank [1:0], high to low. -/
def dramBank (a : Nat) : Nat :=
  8 * xorBits a [15, 18, 20, 22, 27, 32] + 4 * xorBits a [14, 19, 20, 25, 30] + 2 * xorBits a [13, 18, 20, 23, 28]
    + xorBits a [12, 17, 19, 21, 26, 31]

/-- Row and column of an address. -/
def dramRow (a : Nat) : Nat := bitsOf a 16 17
def dramColumn (a : Nat) : Nat := bitsOf a 7 5

/-! ## Pages (R404) -/

/-- An access to the row of an address: the history of its bank takes in whether it was a page hit, that is, whether the bank's previous
access was to the same row (log 36), and the row stays open if two or more of the last four accesses were page hits; else auto-precharge
closes it. -/
def accessRow (s : State) (a : Nat) : State :=
  let k := 16 * dramChannel a + dramBank a
  modMemc s fun m => { m with banks := listMod m.banks k fun b =>
    let h := (2 * b.hits + if b.row = some (dramRow a) then 1 else 0) % 16
    { hits := h, row := some (dramRow a), held := decide (2 ≤ (bitsSet h 4).length) } }

/-- Entries leave the write queue for the memory, oldest first. -/
def writeBack (s : State) (l : List (Nat × Nat)) : State :=
  l.foldl (fun s x => accessRow (modMemc s fun m => { m with queue := m.queue.erase x }) (64 * x.1)) s

/-! ## Requests (R402, R403) -/

/-- Byte mask of `len` bytes at `a` within a 64-byte word. -/
def byteMask (a len : Nat) : Nat := ((2 ^ len - 1) <<< (a % 64)) % 2 ^ 64

/-- The bytes of a word that the queue holds. -/
def queuedMask (q : List (Nat × Nat)) (word : Nat) : Nat := ((q.find? fun x => x.1 = word).map (·.2)).getD 0

/-- A write joins the queue: merged into the entry of its word, else an entry of its own, for which the oldest makes room in a full queue. -/
def queueWrite (s : State) (word mask : Nat) : State :=
  let s :=
    if s.memc.queue.any (fun x => x.1 = word) then
      modMemc s fun m => { m with queue := m.queue.map fun x => if x.1 = word then (x.1, x.2 ||| mask) else x }
    else
      let s := writeBack s (s.memc.queue.take (s.memc.queue.length - 63))
      modMemc s fun m => { m with queue := m.queue ++ [(word, mask)] }
  setF s F.MEMC_REQ_STAT_WQ_PEAK (max (getF s F.MEMC_REQ_STAT_WQ_PEAK) (min 64 s.memc.queue.length))

/-- A read is compared against the queue: held whole it is forwarded without an access; held in part it waits for its entry to be
written. -/
def queueRead (s : State) (word mask : Nat) : State :=
  let held := queuedMask s.memc.queue word
  if held &&& mask = mask then satAdd s F.MEMC_REQ_STAT_FORWARDED 1
  else accessRow (if held &&& mask = 0 then s else writeBack s (s.memc.queue.filter fun x => x.1 = word)) (64 * word)

/-- The request that is served next: beam prefetch first, the other sources in turn after the one served last; of one source the oldest. -/
def nextRequest (turn : Nat) (l : List DramReq) : Option DramReq :=
  (l.find? fun x => x.source = 0)
    <|> ((List.range 5).findSome? fun k => l.find? fun x => x.source = (turn + k) % 5 + 1)

/-- The requests that wait are served. -/
def serveRequests : Nat → State → State
  | 0, s => s
  | n + 1, s =>
    match nextRequest s.memc.turn s.memc.waiting with
    | none => s
    | some x =>
      let s := modMemc s fun m => { m with
        waiting := m.waiting.erase x
        turn := if x.source = 0 then m.turn else x.source }
      serveRequests n (if x.write then queueWrite s (x.addr / 64) (byteMask x.addr x.len) else queueRead s (x.addr / 64) (byteMask x.addr x.len))

/-- The port issues requests: it is awake, and neither a pause nor a change of rate runs (R405, R410, R413). -/
def portServes (s : State) : Bool :=
  dramTrained s && !flag s F.MEMC_STATUS_SR && s.memc.exit.isNone && s.memc.pause.isNone && s.memc.change.isNone

/-- What waits is served if the port issues requests: the requests, then the reads of W2 that arrived in a pause or a change of rate. -/
def serveWaiting (s : State) : State :=
  if portServes s then
    let s := modMemc (serveRequests s.memc.waiting.length s) fun m => { m with idleSince := s.time.now }
    let l := s.memc.w2
    l.foldl (fun s x => emit s (.readData x.1)) (modMemc s fun m => { m with w2 := [] })
  else s

/-! ## Retraining that had to wait, and the rate (R405, R413) -/

/-- A gathering starts. -/
def startGather (s : State) : State :=
  let now := s.time.now
  setFlag (modMemc s fun m => { m with gather := some now, owed := false }) F.MEMC_STATUS_GATHER true

/-- A retraining that had to wait starts its gathering once the memory is out of self-refresh and no change of rate runs (R405, R413). -/
def payGather (s : State) : State :=
  if s.memc.owed && !flag s F.MEMC_STATUS_SR && s.memc.change.isNone then startGather s else s

/-- In self-refresh, or on the way into it. -/
def asleepDram (s : State) : Bool := flag s F.MEMC_STATUS_SR || s.memc.entry.isSome

/-- RATE is compared with the rate in force: a difference requests a change, which a gathering defers; while the port is untrained the request
stands (R413, R416). -/
def askRate (s : State) : State :=
  let differs := getF s F.MEMC_CTRL_RATE != getF s F.MEMC_STATUS_RATE_NOW
  if s.memc.change.isSome then s
  else if differs && !flag s F.MEMC_STATUS_RATE_PENDING then
    let s := setFlag s F.MEMC_STATUS_RATE_PENDING true
    if s.memc.gather.isSome then satAdd s F.MEMC_RETRAIN_DEFERRED 1 else s
  else setFlag s F.MEMC_STATUS_RATE_PENDING differs

/-- The change of rate in course ends: the port runs at the new rate with its contents kept, and what waited is served. -/
def endChange (s : State) : State :=
  match s.memc.change with
  | none => s
  | some (_, rate) =>
    let s := setF (modMemc s fun m => { m with change := none, idleSince := s.time.now }) F.MEMC_STATUS_RATE_NOW rate
    askRate (payGather (serveWaiting (setFlag s F.MEMC_STATUS_RATE_PENDING false)))

/-! ## Self-refresh (R410) -/

/-- The exit from self-refresh completes: it is counted, what waited is served, and a retraining that fell due meanwhile starts its gathering
(R405, R410). -/
def leaveSr (s : State) : State :=
  let now := s.time.now
  payGather (serveWaiting (wrapAdd
    (setFlag (modMemc s fun m => { m with entry := none, exit := none, idleSince := now }) F.MEMC_STATUS_SR false) F.MEMC_SR_STAT_EXITS 1))

/-! ## A port that loses its training, and the end of a pause (R405, R408, R416) -/

/-- A library slot; slots from 8,192 are on-chip-only (R86). -/
def isLib (slot : Nat) : Bool := slot < 8192

/-- The DRAM port has become untrained: every library fetch that is open has failed (R130). -/
def fillsLosePort (s : State) : State :=
  { s with beam := { s.beam with fills := s.beam.fills.map fun x => if isLib x.slot && x.started && !x.done && !x.failed then { x with down := true } else x } }

/-- The port becomes untrained: nothing of it runs on, reads of W2 that wait miss, and open library fetches have failed (R59, R408, R416). -/
def dramLost (s : State) : State :=
  let s := setFlag (setFlag (setFlag s F.MEMC_STATUS_TRAINED false) F.MEMC_STATUS_TRAINING false) F.MEMC_STATUS_SR false
  let s := setFlag (setFlag s F.MEMC_STATUS_GATHER false) F.MEMC_STATUS_PAUSE false
  let s := s.memc.w2.foldl (fun s x => emit (raiseFlag s F.HOST_APERTURE_STATUS_MISS) (.readData (2 ^ (8 * x.2) - 1))) s
  askRate (fillsLosePort (modMemc s fun _ =>
    { step := none, due := none, gather := none, ready := false, pause := none, owed := false, entry := none, exit := none,
      change := none, idleSince := s.time.now, queue := [], waiting := [], turn := 0, banks := List.replicate 32 default, w2 := [] }))

/-- A training failure is recorded and reported (R408, R415). -/
def trainFail (s : State) (channel step : Nat) : State :=
  post (setF (setF s F.MEMC_STATUS_FAIL_STEP step) F.MEMC_STATUS_FAIL_CH channel) evDramTrainFail
    (evData [(16, 1, channel), (17, 1, step)])

/-- The pause ends; drift out of range on a channel keeps the old delays and counts a failure, and the third in a row makes the port untrained
(R405, R408). -/
def endPause (s : State) (fail0 fail1 : Bool) : State :=
  let now := s.time.now
  let s := setFlag (modMemc s fun m => { m with pause := none, idleSince := now }) F.MEMC_STATUS_PAUSE false
  let s := wrapAdd s F.MEMC_RETRAIN_COUNT 1
  serveWaiting <| if fail0 || fail1 then
    let s := if fail0 then trainFail s 0 9 else s
    let s := if fail1 then trainFail s 1 9 else s
    let s := satAdd s F.MEMC_STATUS_RETRAIN_FAILS 1
    if getF s F.MEMC_STATUS_RETRAIN_FAILS = 3 then dramLost s else s
  else setF s F.MEMC_STATUS_RETRAIN_FAILS 0

/-- An exit from self-refresh is over after 1,279 ticks at the latest, a pause after 1,180, a change of rate after 3,933; whether the drift of a
pause that no PAUSE_END has ended was in range is a free value (R405, R410, R413; log 36). -/
def settleDram (s : State) : State :=
  let s := match s.memc.exit with
    | some e => if e + 1279 ≤ s.time.now then leaveSr s else s
    | none => s
  let s := match s.memc.pause with
    | some p => if p + 1180 ≤ s.time.now then endPause s (Config.driftOut 0 p) (Config.driftOut 1 p) else s
    | none => s
  match s.memc.change with
  | some (a, _) => if a + 3933 ≤ s.time.now then endChange s else s
  | none => s

/-- A request reaches the port: up to the commit point and in its tick it cancels an entry, which counts; behind it, it starts the exit
(R410). -/
def disturbSr (s : State) : State :=
  let s := settleDram s
  let now := s.time.now
  let s := modMemc s fun m => { m with idleSince := now }
  match s.memc.entry with
  | some e =>
    if now ≤ e + 48 then
      payGather (satAdd (setFlag (modMemc s fun m => { m with entry := none }) F.MEMC_STATUS_SR false) F.MEMC_SR_STAT_CANCELLED 1)
    else setFlag (modMemc s fun m => { m with entry := none, exit := some now }) F.MEMC_STATUS_SR true
  | none => if flag s F.MEMC_STATUS_SR && s.memc.exit.isNone then modMemc s fun m => { m with exit := some now } else s

/-- What needs an access to the memory, if it `uses` it: the access reaches the port and is made while the port issues requests; in a pause, a
change of rate or an exit from self-refresh it has to wait (R405, R410, R413). -/
def throughPort (uses : Bool) (k : State → State) (s : State) : State :=
  if !uses then k s
  else
    let s := disturbSr s
    if portServes s then k s else s

end Sys2Proof.Machine
end

