-- ==== Sys2Proof/Machine/Pmc.lean ====
section
/-!
DEFINITION. The performance counters of the adaptation processors: how they count, how a pair of words is read and written, and the sampled
records (spec/17_counters.md R471-R477).
-/
namespace Sys2Proof.Machine

def modPmc (s : State) (f : PmcSt → PmcSt) : State := { s with pmc := f s.pmc }

/-- The largest number of occurrences of an event in one cycle (R472, the table "Events"). -/
def perCycle (event : Nat) : Nat :=
  match event with
  | 0x00 => 0 | 0x01 => 1 | 0x08 => 1 | 0x0B => 1 | 0x0D => 1
  | _ => if event ≤ 0x0C then 2 else 0

/-- The event to which an issue slot counts: one that waits on several resources is charged to capture data first, then to the vector unit,
then to store (R474). -/
def slotEvent : Config.SlotUse → Nat
  | .retired => 2
  | .wasted => 3
  | .frontStarved => 4
  | .waiting capture vector _ => if capture then 7 else if vector then 6 else 5

/-- An adaptive swap request is passed to the device now (R53, R472). -/
def noteRequest (s : State) : State :=
  modPmc s fun p => { p with requests := (Config.requestAp s.time.now % 4, s.time.now) :: p.requests }

/-- Occurrences of an event on AP `a` in one cycle: for 02h-07h the slots, of its two, that count to it (R474); for 0Dh the swap requests that it
has passed on (R53); otherwise what the firmware makes of it, within the limit per cycle (R472). -/
def inCycle (s : State) (a event cycle : Nat) : Nat :=
  if 2 ≤ event && event ≤ 7 then ((List.range 2).filter fun k => slotEvent (Config.apSlot a cycle k) = event).length
  else if event = 0x0D then (if s.pmc.requests.contains (a, cycle) then 1 else 0)
  else min (perCycle event) (Config.apEvents a event cycle)

/-- Occurrences of an event on AP `a` in the cycles from `n` to `m`: every cycle for event 01h (R472). -/
def occurrences (s : State) (a event n m : Nat) : Nat :=
  if event = 1 then m - n
  else if perCycle event = 0 then 0
  else ((List.range (m - n)).map fun i => inCycle s a event (n + i)).sum

/-- A programmable counter raised; a wrap sets its OVF bit (R472). -/
def countEvent (s : State) (a i n : Nat) : State :=
  let v := getN s (A.PMC_CNT a i) + 2 ^ 32 * getN s (A.PMC_CNT_1 a i) + n
  let s := setN (setN s (A.PMC_CNT a i) (v % 2 ^ 32)) (A.PMC_CNT_1 a i) (v / 2 ^ 32 % 2 ^ 16)
  if 2 ^ 48 ≤ v then setF s (F.PMC_OVF_OVF a) (getF s (F.PMC_OVF_OVF a) ||| 2 ^ i) else s

/-- AP `a` runs firmware, on a clock that runs (R471). -/
def apStarted (s : State) : Bool := fwRunning s && s.time.counting && !asleep s

/-- The occurrences of the sampled event of AP `a` in the cycles from `n` to `m` while SAMP.EN is 1 (R475). -/
def settleSampling (s : State) (a n m : Nat) : State :=
  if flag s (F.PMC_SAMP_EN a) && apStarted s then
    modPmc s fun p => { p with sampled := p.sampled.modify a (· + occurrences s a (getF s (F.PMC_SAMP_EVENT a)) n m) }
  else s

/-- The first cycle from `n` on that a counter still counts: a write has taken that of its own cycle (R472). -/
def countFrom (s : State) (addr n : Nat) : Nat :=
  match assocGet s.pmc.lost addr with
  | some k => max n (k + 1)
  | none => n

/-- The counters of AP `a` count the cycles before the one that begins now, while EN is 1 and the AP is started (R471). -/
def settlePmc (s : State) (a : Nat) : State :=
  let n := s.pmc.upTo.getD a 0
  let m := s.time.now
  let s := settleSampling (modPmc s fun p => { p with upTo := p.upTo.set a m }) a n m
  let s :=
    if flag s (F.PMC_CTL_EN a) && apStarted s then
      let s := set64 s (A.PMC_CYCLE a) (A.PMC_CYCLE_1 a)
        ((get64 s (A.PMC_CYCLE a) (A.PMC_CYCLE_1 a) + (m - countFrom s (A.PMC_CYCLE a).addr n)) % 2 ^ 64)
      (List.range 8).foldl (fun s i =>
        countEvent s a i (occurrences s a (getF s (F.PMC_EVSEL_EVENT a i)) (countFrom s (A.PMC_CNT a i).addr n) m)) s
    else s
  modPmc s fun p => { p with requests := p.requests.filter fun x => x.1 != a || decide (m ≤ x.2) }

/-- The counters of every AP count up to now. -/
def settleAllPmc (s : State) : State := (List.range 4).foldl settlePmc s

/-- The increment of a counter in the cycle of a write is lost (R472). -/
def loseCycle (s : State) (addr : Nat) : State := modPmc s fun p => { p with lost := assocPut p.lost addr s.time.now }

/-- CTL of an AP written: EN, and with CLEAR its nine counters become 0 and lose the increment of this cycle (R471, R472). -/
def writePmcCtl (s : State) (a data : Nat) : State :=
  let s := setF (settlePmc s a) (F.PMC_CTL_EN a) (bitsOf data 0 1)
  if bitAt data 1 then
    (List.range 8).foldl (fun s i => loseCycle (setN (setN s (A.PMC_CNT a i) 0) (A.PMC_CNT_1 a i) 0) (A.PMC_CNT a i).addr)
      (loseCycle (set64 s (A.PMC_CYCLE a) (A.PMC_CYCLE_1 a) 0) (A.PMC_CYCLE a).addr)
  else s

/-- CLEAR: a write of PMC(a).CTL (R472). -/
def execClear (t ap data : Nat) (s : State) : Out :=
  byWrite t s fun s => if ap < 4 then writePmcCtl s ap data else s

/-- The low words of the counter pairs of an AP (CYCLE, CNT(0)-CNT(7)), and the width of their high words. -/
def pairAt (a addr : Nat) : Option Nat :=
  if addr = (A.PMC_CYCLE a).addr then some 32
  else if (List.range 8).any (fun i => (A.PMC_CNT a i).addr = addr) then some 16 else none

/-- A write of a word of a counter pair: a high word is held, a low word stores both halves at once, in place of the increment of its cycle
(R472, R473). -/
def writeCounter (s : State) (a addr data : Nat) : State :=
  let s := settlePmc s a
  match pairAt a addr, pairAt a (addr - 4) with
  | some w, _ =>
    let high := match assocGet s.pmc.held addr with
      | some h => h % 2 ^ w
      | none => getN s ⟨addr + 4, 0⟩
    let s := setN (setN s ⟨addr, 0⟩ (data % 2 ^ 32)) ⟨addr + 4, 0⟩ high
    modPmc (loseCycle s addr) fun p => { p with held := assocDel p.held addr }
  | none, some w => modPmc s fun p => { p with held := assocPut p.held (addr - 4) (data % 2 ^ w) }
  | none, none => s

/-- COUNTER_WRITE: a write of a word of a counter pair of an AP (R472, R473). -/
def execCounterWrite (t ap addr data : Nat) (s : State) : Out :=
  byWrite t s fun s => if ap < 4 then writeCounter s ap addr data else s

/-- A read of a word of a counter pair through PF0 (`host`) or PF1: a low word latches its high word, a high word reads the latch of its
reader (R473). -/
def readCounter (s : State) (a addr : Nat) (host : Bool) : State × Nat :=
  let s := settlePmc s a
  match pairAt a addr with
  | some _ =>
    let high := getN s ⟨addr + 4, 0⟩
    (modPmc s fun p => if host then { p with latch0 := assocPut p.latch0 addr high } else { p with latch1 := assocPut p.latch1 addr high },
      getN s ⟨addr, 0⟩)
  | none => (s, (assocGet (if host then s.pmc.latch0 else s.pmc.latch1) (addr - 4)).getD 0)

/-- The 16 bytes of a sampled record (R475). -/
def sampleRecord (s : State) (a addr latency event : Nat) : List Byte :=
  let lat := if event = 0x09 || (5 ≤ event && event ≤ 7) then min 65535 latency else 0
  leBytes 4 addr ++ leBytes 2 lat ++ [BitVec.ofNat 8 event, BitVec.ofNat 8 (a + if tickValid s then 4 else 0)] ++ leBytes 8 s.time.tick

/-- The buffer takes no record: it is full in STOP mode (R476; notes/assumptions/64.md). -/
def samplesFull (s : State) : Bool := flag s F.PMC_SAMP_WR_FULL && !flag s F.PMC_SAMP_CTRL_MODE

/-- A record of AP `a` enters the buffer: in STOP mode a full buffer discards one, in WRAP mode the index goes round; the records of one cycle
stand in ascending AP order, in whatever order their rows come (R476). -/
def putSample (s : State) (a : Nat) (rec : List Byte) : State :=
  let full := samplesFull s
  let i := getF s F.PMC_SAMP_WR_WR
  let now := s.time.now
  let x := if s.pmc.cycle.1 = now then s.pmc.cycle.2 else ([], [])
  let recs := insertBy (·.1) (a, rec) x.1
  let slots := if full then x.2 else x.2 ++ [65536 * getF s F.PMC_SAMP_BASE_BASE + 16 * i]
  let s := { s with store := (slots.zip recs).foldl (fun m y => memWrite m y.1 y.2.2) s.store }
  let s := modPmc s fun p => { p with cycle := (now, recs, slots) }
  if full then satAdd s F.PMC_SAMP_LOST_COUNT 1
  else
    let s := setF s F.PMC_SAMP_WR_WR ((i + 1) % 4096)
    if i = 4095 then
      if flag s F.PMC_SAMP_CTRL_MODE then wrapAdd s F.PMC_SAMP_WR_WRAPS 1 else setFlag s F.PMC_SAMP_WR_FULL true
    else s

/-- SAMP.N; 0 means 2^24 (R475). -/
def sampleEvery (s : State) (a : Nat) : Nat := if getF s (F.PMC_SAMP_N_N a) = 0 then 2 ^ 24 else getF s (F.PMC_SAMP_N_N a)

/-- SAMP written: with EN at 1 the occurrences count from here (R475). -/
def restartSampling (s : State) (a data : Nat) : State :=
  if bitAt data 31 then modPmc s fun p => { p with sampled := p.sampled.set a 0, taken := p.taken.set a 0 } else s

/-- The number of the next N-th occurrence of the sampled event that is not past: `n` times it is the count at which it comes. -/
def nextSample (s : State) (a n : Nat) : Nat := max (s.pmc.taken.getD a 0 / n) (s.pmc.sampled.getD a 0 / n) + 1

/-- SAMPLE_RECORD: this cycle brings the N-th occurrence of the sampled event on an AP, at the instruction at `addr` with its latency (R475,
R476). -/
def execSampleRecord (t ap addr latency : Nat) (s : State) : Out :=
  let s := settlePmc (advance t s) ap
  let n := sampleEvery s ap
  .next <|
    let k := nextSample s ap n
    let now := s.time.now
    if decide (ap < 4) && flag s (F.PMC_SAMP_EN ap) && apStarted s
        && decide (n * k ≤ s.pmc.sampled.getD ap 0 + occurrences s ap (getF s (F.PMC_SAMP_EVENT ap)) now (now + 1)) then
      let s := modPmc s fun p => { p with taken := p.taken.set ap (n * k) }
      putSample s ap (sampleRecord s ap addr latency (getF s (F.PMC_SAMP_EVENT ap)))
    else s

/-- SAMP_WR written: the index, with FULL cleared (R476). -/
def writeSampWr (s : State) (data : Nat) : State := setFlag (setF s F.PMC_SAMP_WR_WR (bitsOf data 0 12)) F.PMC_SAMP_WR_FULL false

/-- Sampling of every AP ends with the image that ran (R477). -/
def stopSampling (s : State) : State := (List.range 4).foldl (fun s a => setFlag s (F.PMC_SAMP_EN a) false) s

end Sys2Proof.Machine
end

