-- ==== Sys2Proof/Machine/Adapt.lean ====
section
/-!
DEFINITION. Adaptive swaps: the swap log, the request of a swap with its ADAPT_SWAP event and log entry
(spec/01_clocks_and_time.md R53, R54; spec/06_receive_path.md R198, R212).
-/
namespace Sys2Proof.Machine

/-! ## The swap log (R54) -/

def logSize (s : State) : Nat := getF s F.TIME_SWAP_LOG_CTRL_SIZE
def logLoc (s : State) : Nat := getF s F.TIME_SWAP_LOG_CTRL_LOC

/-- Address of log entry WR; a SIZE written below WR leaves WR as it is (log 13). -/
def logAddr (s : State) : Nat :=
  get64 s A.TIME_SWAP_LOG_BASE A.TIME_SWAP_LOG_BASE_1 + 256 * getF s F.TIME_SWAP_LOG_WR_WR

/-- WR + 1 = RD modulo SIZE. -/
def logFull (s : State) : Bool := (getF s F.TIME_SWAP_LOG_WR_WR + 1) % logSize s = getF s F.TIME_SWAP_LOG_RD_RD % logSize s

/-- The memory that LOC selects can take the entry (R53). -/
def logReady (s : State) : Bool :=
  match logLoc s with
  | 1 => decide (logAddr s + 256 ≤ storeSize)
  | 2 => dramTrained s && decide (logAddr s + 256 ≤ s.dramSize)
  | _ => s.host.busMaster

/-- CAUSE of SWAP_LOG_FULL when no entry can be logged: 1 off, 0 full, 2 memory unavailable (R53; log 13). -/
def logRefusal (s : State) : Option Nat :=
  if logSize s = 0 || logLoc s = 0 then some 1 else if logFull s then some 0 else if !logReady s then some 2 else none

/-- A block written to entry WR, which then advances. -/
def logWrite (s : State) (block : List Byte) : State :=
  let a := logAddr s
  let s := match logLoc s with
    | 1 => { s with store := memWrite s.store a block }
    | 2 => let s := disturbSr s; { s with dram := memWrite s.dram a block }
    | _ => hostWrite s a 256 (leNat block)
  setF s F.TIME_SWAP_LOG_WR_WR ((getF s F.TIME_SWAP_LOG_WR_WR + 1) % logSize s)

/-! ## The request of a swap (R53) -/

/-- An event of class 2 can be written to its ring or held in the event queue, behind an EVENTS_LOST that is due. -/
def adaptEventRoom (s : State) : Bool :=
  let r := routeOf s 2
  outEnabled s 2 r && evRoom (placeLost s r) r

/-- A block tagged with the sequence number in bytes 252-255. -/
def tagBlock (data : List Byte) (seq : Nat) : List Byte :=
  (data ++ List.replicate 252 0).take 252 ++ leBytes 4 seq

/-- An adaptive swap is requested for tick `n`; the request counts (R472), and the answer says whether it is made: device time is valid, the swap keeps the
lead and horizon of R44 and meets no pending activation (R212), the log and the event queue take both writes (R53). -/
def requestSwap (s : State) (path kind bin n : Nat) (coarse : Bool) (data : List Byte) : State × Bool :=
  let s := noteRequest s
  let key := (if kind = 0 then 0x39 else if kind = 1 then 0x23 else 0x21, path, bin)
  if !tickValid s || decide (n < s.time.tick + 24576) || decide (s.time.tick + 2 ^ 34 ≤ n) || conflicts s n [key] then (s, false)
  else match logRefusal s with
    | some c => (post s evSwapLogFull (evData [(16, 1, path), (17, 1, kind), (18, 1, c)]), false)
    | none =>
      let seq := s.swapSeq
      let block := tagBlock data seq
      let ok := adaptEventRoom s
      let s := postAt s evAdaptSwap n
        (evData [(16, 1, path), (17, 1, kind), (18, 1, bin), (20, 4, seq), (24, 4, crc32c (block.take 252))])
      if !ok then (s, false)
      else
        let s := logWrite s block
        ({ s with
            swapSeq := (seq + 1) % 2 ^ 32
            swaps := s.swaps ++ [{ coarse := coarse, path := path, kind := kind, bin := bin, tick := n, seq := seq, block := block }] }, true)

end Sys2Proof.Machine
end

