-- ==== Sys2Proof/Machine/DmaCtx.lean ====
section
/-!
DEFINITION. The context of a DMA channel: its registers, the instructions that its program words spell, the halt, and what a
destroyed peripheral object does to the channels that wait on it (spec/12_dma_programs.md R369-R395).
-/
namespace Sys2Proof.Machine

/-! ## Context -/

/-- Channel states (R369). -/
def chFree : Nat := 0
def chIdle : Nat := 1
def chRunning : Nat := 2
def chWaiting : Nat := 3
def chParked : Nat := 4
def chHalted : Nat := 5

def chState (s : State) (c : Nat) : Nat := getF s (F.DMA_CH_STATE_STATE c)
def setChState (s : State) (c n : Nat) : State := setF s (F.DMA_CH_STATE_STATE c) n
def chAt (s : State) (c : Nat) : DmaCh := (assocGet s.dmas c).getD default

/-- The channel in slot `c` changed, with its loop depth shown. -/
def modCh (s : State) (c : Nat) (f : DmaCh → DmaCh) : State :=
  match assocGet s.dmas c with
  | none => s
  | some x => setF { s with dmas := assocPut s.dmas c (f x) } (F.DMA_CH_STATE_LOOP_DEPTH c) (f x).loops.length

/-- A 48-bit address with its space, as a pair of register words holds it: (space, address). -/
def spaceAddr (s : State) (lo hi : Reg) : Nat × Nat :=
  let v := get64 s lo hi
  (bitsOf v 48 2, bitsOf v 0 48)

def setSpaceAddr (s : State) (lo hi : Reg) (space addr : Nat) : State := set64 s lo hi (addr % 2 ^ 48 + 2 ^ 48 * (space % 4))

def chPc (s : State) (c : Nat) : Nat × Nat := spaceAddr s (A.DMA_CH_PC c) (A.DMA_CH_PC_1 c)
def setPc (s : State) (c space addr : Nat) : State := setSpaceAddr s (A.DMA_CH_PC c) (A.DMA_CH_PC_1 c) space addr
def chScur (s : State) (c : Nat) : Nat × Nat := spaceAddr s (A.DMA_CH_SCUR c) (A.DMA_CH_SCUR_1 c)
def setScur (s : State) (c space addr : Nat) : State := setSpaceAddr s (A.DMA_CH_SCUR c) (A.DMA_CH_SCUR_1 c) space addr
def chDcur (s : State) (c : Nat) : Nat × Nat := spaceAddr s (A.DMA_CH_DCUR c) (A.DMA_CH_DCUR_1 c)
def setDcur (s : State) (c space addr : Nat) : State := setSpaceAddr s (A.DMA_CH_DCUR c) (A.DMA_CH_DCUR_1 c) space addr
def chDone (s : State) (c : Nat) : Nat := getF s (F.DMA_CH_DONE_BYTES c)
def setDone (s : State) (c n : Nat) : State := setF s (F.DMA_CH_DONE_BYTES c) n

/-- The budget in force; 0 acts as 65,536 (R392). -/
def budgetOf (s : State) (c : Nat) : Nat := let b := getN s (A.DMA_CH_BUDGET c); if b = 0 then 65536 else b

/-- The handle of the channel in a slot. -/
def chHandle (s : State) (c : Nat) : Nat := mkHandle 5 (chAt s c).gen c

/-- The channel runs in the sense of R105 (log 34). -/
def chBusy (s : State) (c : Nat) : Bool := chState s c = chRunning || chState s c = chWaiting || chState s c = chParked

/-! ## Instructions (R374, R376) -/

/-- What a program word spells. -/
inductive DmaInstr where
  | move (scur dcur : Bool) (sspace dspace len src dst : Nat)
  | fill (dcur : Bool) (dspace len pattern dst : Nat)
  | cmp (scur dcur pat halt : Bool) (sspace dspace len src dst pattern : Nat)
  | loop (count back : Nat)
  | wait (kind : Nat) (clr : Bool) (bit periph tick : Nat)
  | signal (kind bit vector value addr : Nat)
  | link (space addr : Nat)
  | halt (quiet : Bool)
deriving DecidableEq, Repr, Inhabited

/-- LENGTH: 0 means 1,048,576 (R376). -/
def dmaLength (w : Nat) : Nat := let n := bitsOf w 12 20; if n = 0 then 1048576 else n

/-- The reserved bits of a layout, listed as (low bit, width), are 0. -/
def zeroBits (w : Nat) (l : List (Nat × Nat)) : Bool := l.all fun x => bitsOf w x.1 x.2 = 0

/-- MOVE (R376): a space that a cursor replaces is ignored (R377). -/
def decodeMove (w : Nat) : Option DmaInstr :=
  if zeroBits w [(6, 2)] && (bitAt w 5 || decide (bitsOf w 10 2 ≤ 2)) then
    some (.move (bitAt w 4) (bitAt w 5) (bitsOf w 8 2) (bitsOf w 10 2) (dmaLength w) (bitsOf w 32 48) (bitsOf w 80 48))
  else none

/-- FILL (R376, R379). -/
def decodeFill (w : Nat) : Option DmaInstr :=
  if zeroBits w [(4, 1), (6, 4), (64, 16)] && (bitAt w 5 || decide (bitsOf w 10 2 ≤ 2)) then
    some (.fill (bitAt w 5) (bitsOf w 10 2) (dmaLength w) (bitsOf w 32 32) (bitsOf w 80 48))
  else none

/-- CMP (R376, R380). -/
def decodeCmp (w : Nat) : Option DmaInstr :=
  let pat := bitAt w 6
  if (bitAt w 4 || decide (bitsOf w 8 2 ≤ 2)) && (pat || bitAt w 5 || decide (bitsOf w 10 2 ≤ 2))
      && (!pat || zeroBits w [(5, 1), (10, 2), (112, 16)]) then
    some (.cmp (bitAt w 4) (bitAt w 5) pat (bitAt w 7) (bitsOf w 8 2) (bitsOf w 10 2) (dmaLength w) (bitsOf w 32 48) (bitsOf w 80 48)
      (bitsOf w 80 32))
  else none

/-- LOOP: COUNT 0 means 65,536; OFFSET is negative (R381). -/
def decodeLoop (w : Nat) : Option DmaInstr :=
  if zeroBits w [(4, 12), (48, 80)] && bitAt w 47 then
    some (.loop (if bitsOf w 16 16 = 0 then 65536 else bitsOf w 16 16) (2 ^ 16 - bitsOf w 32 16))
  else none

/-- WAIT: the fields that its KIND does not use are 0 (R387). -/
def decodeWait (w : Nat) : Option DmaInstr :=
  let kind := bitsOf w 4 2
  if zeroBits w [(7, 1), (14, 2), (24, 40)] && (kind = 0 || zeroBits w [(6, 1), (8, 6)]) && (kind = 1 || zeroBits w [(64, 64)])
      && (kind = 2 || zeroBits w [(16, 8)]) then
    some (.wait kind (bitAt w 6) (bitsOf w 8 6) (bitsOf w 16 8) (bitsOf w 64 64))
  else none

/-- SIGNAL: KIND 3 is reserved; the ADDR of a host write is 4-byte aligned (R388, log 34). -/
def decodeSignal (w : Nat) : Option DmaInstr :=
  let kind := bitsOf w 4 2
  if zeroBits w [(6, 2), (14, 2), (21, 11), (112, 16)] && decide (kind < 3) && (kind != 2 || bitsOf w 64 2 == 0) then
    some (.signal kind (bitsOf w 8 6) (bitsOf w 16 5) (bitsOf w 32 32) (bitsOf w 64 48))
  else none

/-- LINK: SPACE 0-2, ADDR 16-byte aligned and inside host memory or the store (R382). -/
def decodeLink (w : Nat) : Option DmaInstr :=
  let space := bitsOf w 8 2
  let addr := bitsOf w 32 48
  if zeroBits w [(4, 4), (10, 22), (80, 48)] && decide (space ≤ 2) && addr % 16 = 0 && !regionBad space addr 16 then some (.link space addr)
  else none

/-- HALT (R383). -/
def decodeHalt (w : Nat) : Option DmaInstr := if zeroBits w [(5, 123)] then some (.halt (bitAt w 4)) else none

/-- The instruction that a 128-bit word spells; none halts the channel with BAD_PARAM (R374). -/
def decodeDma (w : Nat) : Option DmaInstr :=
  match bitsOf w 0 4 with
  | 1 => decodeMove w
  | 2 => decodeFill w
  | 3 => decodeCmp w
  | 4 => decodeLoop w
  | 5 => decodeWait w
  | 6 => decodeSignal w
  | 7 => decodeLink w
  | 8 => decodeHalt w
  | _ => none

/-- The word at the program counter, if the channel holds its line. -/
def wordAtPc (s : State) (c : Nat) : Option Nat :=
  let (space, addr) := chPc s c
  match (chAt s c).line with
  | some (sp, base, bytes) =>
    if sp = space && base = addr / 64 * 64 then some (leNat ((bytes.drop (addr % 64)).take 16)) else none
  | none => none

/-- The instruction at the program counter, if the channel holds it and it is legal. -/
def instrAtPc (s : State) (c : Nat) : Option DmaInstr := (wordAtPc s c).bind decodeDma

/-- Source of a data instruction: (space, address), from its cursor if it says so (R377). -/
def sourceOf (s : State) (c : Nat) : DmaInstr → Option (Nat × Nat)
  | .move scur _ sp _ _ src _ => some (if scur then chScur s c else (sp, src))
  | .cmp scur _ _ _ sp _ _ src _ _ => some (if scur then chScur s c else (sp, src))
  | _ => none

/-- Destination, or second region of a CMP. -/
def destOf (s : State) (c : Nat) : DmaInstr → Option (Nat × Nat)
  | .move _ dcur _ dp _ _ dst => some (if dcur then chDcur s c else (dp, dst))
  | .fill dcur dp _ _ dst => some (if dcur then chDcur s c else (dp, dst))
  | .cmp _ dcur pat _ _ dp _ _ dst _ => if pat then none else some (if dcur then chDcur s c else (dp, dst))
  | _ => none

/-- LENGTH of a data instruction. -/
def dataLength : DmaInstr → Nat
  | .move _ _ _ _ n _ _ => n
  | .fill _ _ n _ _ => n
  | .cmp _ _ _ _ _ _ n _ _ _ => n
  | _ => 0

/-! ## Writes to host memory (R385) -/

/-- Bytes cut at every multiple of 512 of their address: (address, bytes) (R385). `n` bounds the pieces. -/
def cut512 : Nat → Nat → List Byte → List (Nat × List Byte)
  | 0, _, _ => []
  | n + 1, a, l =>
    if l = [] then [] else (a, l.take (512 - a % 512)) :: cut512 n (a + (512 - a % 512)) (l.drop (512 - a % 512))

/-- Bytes written to host memory from an address on. -/
def hostBytes (s : State) (a : Nat) (l : List Byte) : State :=
  (cut512 (l.length + 1) a l).foldl (fun s x => hostWrite s x.1 x.2.length (leNat x.2)) s

/-- Every byte that the channel has read and not yet written goes to host memory, unless Bus Master Enable is 0 (R393, R394). -/
def flushKept (s : State) (c : Nat) : State :=
  let kept := (chAt s c).kept
  let s' := modCh s c fun x => { x with kept := [] }
  match (instrAtPc s c).bind (destOf s c) with
  | some (0, a) =>
    if s.host.busMaster then setDone (hostBytes s' (a + chDone s c) kept) c (chDone s c + kept.length) else s'
  | _ => s'

/-! ## Halts (R372, R383, R394) -/

/-- DMA_HALT (R394). -/
def postDmaHalt (s : State) (c status : Nat) : State :=
  let (space, addr) := chPc s c
  post s evDmaHalt (evData [(16, 4, chHandle s c), (20, 1, status), (24, 8, addr + 2 ^ 48 * space)])

/-- The channel halts with a status at its program counter; every DMA_STOP that waits for it completes; reads that it has outstanding keep
their tags (R62). -/
def haltDma (s : State) (c status : Nat) (tell : Bool) : State :=
  let s := leaveStrays (flushKept s c) (chAt s c).readAt (chAt s c).reads
  let waiters := ((chAt s c).stop.getD []).filterMap (flightOf s)
  let s := modCh s c fun x =>
    { x with reading := false, busy := false, burst := none, line := none, stop := none, want := false, reads := 0 }
  let s := setF (setChState s c chHalted) (F.DMA_CH_STATE_STATUS c) status
  let s := if tell then postDmaHalt s c status else s
  waiters.foldl (fun s f => complete s f 0) s

/-- A fault halts the channel; one that DMA_STOP is stopping halts with CANCELLED (R372, R394). -/
def faultDma (s : State) (c status : Nat) : State := haltDma s c (if (chAt s c).stop.isSome then stCancelled else status) true

/-! ## Peripherals that go away (R391) -/

/-- The peripheral that a channel waits on now: in a WAIT of KIND 2, or between the bursts of a MOVE. -/
def waitsOn (s : State) (c : Nat) : Option Nat :=
  match instrAtPc s c with
  | some (.wait 2 _ _ i _) => if chState s c = chWaiting then some i else none
  | some (.move scur dcur sp dp n src dst) =>
    match sourceOf s c (.move scur dcur sp dp n src dst) with
    | some (3, i) => if chState s c = chRunning && (chAt s c).busy && (chAt s c).burst.isNone then some i else none
    | _ => none
  | _ => none

/-- The object of peripheral `i` is destroyed: every channel that waits on it halts with CANCELLED (R391). -/
def periphGone (s : State) (i : Nat) : State :=
  (s.dmas.map (·.1)).foldl (fun s c => if waitsOn s c = some i then haltDma s c stCancelled true else s) s

/-- The source of peripheral `i` has ended with nothing left: a MOVE that waits for it halts with CANCELLED (R391). -/
def periphEnded (s : State) (i : Nat) : State :=
  match assocGet s.caps i with
  | none => s
  | some j =>
    if j.dest = 1 && j.ended && decide (j.written ≤ j.taken) then
      (s.dmas.map (·.1)).foldl (fun s c =>
        if waitsOn s c = some i && chState s c = chRunning then haltDma s c stCancelled true else s) s
    else s

/-! ## FIFOs of the peripherals (R389, R433) -/

/-- LEVEL of a unit's FIFO follows its records. -/
def showFifo (s : State) (k : Nat) : State := setF s (F.MON_STAT_LEVEL k) ((s.periph.results.getD k []).length / 8)


/-- A CTRL packet that passed R320 on port `q` is copied to its mirror while that is enabled, or counted as dropped when it does not
fit whole in 16 KiB. -/
def mirrorCtrl (s : State) (q : Nat) (payload : List Byte) (msg : Nat) : State :=
  let i := 0x28 + q
  if decide (q < 3) && flag s (F.DMA_PERIPH_1_EN i) then
    let fifo := s.periph.mirrors.getD q []
    if fifo.length + 4 + payload.length ≤ 16384 then
      { s with periph := { s.periph with
          mirrors := s.periph.mirrors.set q (fifo ++ leBytes 4 (payload.length + 2 ^ 16 * q + 2 ^ 24 * msg) ++ payload) } }
    else satAdd s (F.DMA_PERIPH_1_DROPPED i) 1
  else s

end Sys2Proof.Machine
end

