-- ==== Sys2Proof/Machine/Orx.lean ====
section
/-!
DEFINITION. The four observation receivers and their users: windows of calibration jobs, host captures, the visits of the
pre-distortion firmware, and how a higher rank takes an ORx from a lower one (spec/07_predistortion.md R227-R237, R240, R245;
spec/11_cascade.md R362-R365).
-/
namespace Sys2Proof.Machine

/-! ## Calibration jobs as windows (R362, R363, R365) -/

/-- ⌈983.04 x GRANT_WAIT⌉ ticks (R279). -/
def grantTicks (j : CalJob) : Nat := ceilDiv (98304 * j.grantWait) 100

/-- BURST x 64 ticks; 0 acts as 1 (R363). -/
def stepTicks (s : State) : Nat := 64 * max 1 (getF s F.CAS_CANDLE_BURST_BURST)

/-- Emitters of a job, one per step, ascending; 0xFE is CAL_IO (R362). -/
def emitters (j : CalJob) : List Nat :=
  match j.kind with
  | 0 => bitsSet j.txMask 64
  | 1 => bitsSet j.txMask 64 ++ (if j.rxMask = 0 then [] else [0xFE])
  | 3 => if j.txMask = 1 then [0xFE] else []
  | _ => []

/-- Steps of a job; an LO phase job without an emitter of its own receives for one step (log 20). -/
def stepsOf (j : CalJob) : Nat := if j.kind = 3 then 1 else (emitters j).length

/-- End of the run window of a job started at `n` (R365). -/
def calWindow (s : State) (j : CalJob) (n : Nat) : Nat :=
  if j.kind = 2 then n + 1966080
  else n + grantTicks j + getF s F.RAD_COEX_START_DELAY + stepsOf j * stepTicks s + 4096

/-- The ORx of a job, as a mask (R230, R362). -/
def calOrx (j : CalJob) : Nat :=
  if j.kind = 2 then j.rxMask % 16 else if j.kind = 1 then 1 else 0

/-- Running jobs, with the tick at which they started. -/
def runningCals (s : State) : List (CalJob × Nat) :=
  s.cals.filterMap fun x => x.2.run.map fun r => (x.2, r.start)

/-- Pending CAL_STARTs, with their ticks. -/
def pendingCals (s : State) : List (CalJob × Nat) :=
  s.acts.filterMap fun p => if p.cmd.opcode = 0x31 then (assocGet s.cals (handleIdx p.cmd.handle)).map fun j => (j, p.tick) else none

/-- A calibration job holds ORx k now (rank 1 of R235). -/
def calHolds (s : State) (k : Nat) : Bool := (runningCals s).any fun x => bitAt (calOrx x.1) k

/-! ## Host captures -/

/-- The rate at which sample m of a stream capture lies: (tick from which it holds, samples before it, K). -/
def Capture.rateOf (x : Capture) (m : Nat) : Nat × Nat × Nat := (x.rates.find? fun y => decide (y.2.1 ≤ m)).getD (x.first.getD x.tick, 0, 1)

/-- Tick of sample m of a capture on the basis of its source (R231). -/
def Capture.tickOf (x : Capture) (first m : Nat) : Nat :=
  if x.source = 3 then (x.rateOf m).1 + (m - (x.rateOf m).2.1) * (x.rateOf m).2.2 else first + m / 2

/-- The tick at which a capture has taken all its samples (R231, R233). -/
def captureEnd (x : Capture) (first : Nat) : Nat :=
  if x.source = 3 then x.tickOf first x.length else first + ceilDiv x.length 2

/-- Samples that a capture has taken before tick `n` of its basis. -/
def samplesBy (x : Capture) (first n : Nat) : Nat :=
  min x.length <|
    if x.source = 3 then match x.rates.find? fun y => decide (y.1 ≤ n) with
      | some y => y.2.1 + ceilDiv (n - y.1) (max 1 y.2.2)
      | none => 0
    else 2 * (n - first)

/-- The reference tick below which the layer samples of an uplink carrier are complete at tick `n`: D_UL after it, on a lantern that combines
at Z of its slot (R187, R354). -/
def layersDone (s : State) (c : Carrier) (n : Nat) : Nat :=
  if combines s then
    if n < combineTick s c c.grid then c.grid
    else c.grid + ((n - combineTick s c c.grid) / (1024 * max 1 c.k) + 1) * (1024 * c.k)
  else n + 1 - dUl c 0

/-- The tick of its basis before which the samples of a capture have left their source at tick `n`: an ORx sample leaves its chain 40 ticks
after its FB tick, an uplink stream's when its layer sample is complete (R229, R231, R233). -/
def sourceReach (s : State) (x : Capture) (n : Nat) : Nat :=
  if x.source = 0 then n - 40
  else if x.source = 3 && x.layer.1 = 1 then match carrierAt s x.carrier with
    | some c => layersDone s (c.atTick (n - dUl c 0)) n
    | none => n
  else n

/-- Samples of a capture that have left its source by tick `n`: of those taken before it stopped, if it has (R229, R233, R235). -/
def outBy (s : State) (x : Capture) (first n : Nat) : Nat :=
  min (samplesBy x first (sourceReach s x n)) (match x.stop with | some (u, _) => samplesBy x first u | none => x.length)

/-- A host capture that holds ORx k now (rank 2). -/
def hostHolds (s : State) (k : Nat) : Option Capture :=
  s.captures.find? fun x => x.source = 0 && x.index = k && x.stop.isNone &&
    match x.first with | some f => decide (s.time.tick < captureEnd x f) | none => false

/-- A user of rank 1 or 2 is known to hold ORx k somewhere in [a, b) (R241). -/
def claimedIn (s : State) (k a b : Nat) : Bool :=
  ((runningCals s ++ pendingCals s).any fun x => bitAt (calOrx x.1) k && decide (x.2 < b) && decide (a < calWindow s x.1 x.2))
  || (s.captures.any fun x => x.source = 0 && x.index = k && x.stop.isNone &&
      decide (x.first.getD x.tick < b) && decide (a < captureEnd x (x.first.getD x.tick)))
  || s.acts.any fun p => p.cmd.opcode = 0x35 && match assocGet s.caps (handleIdx p.cmd.handle) with
      | some j => j.source = 0 && j.index = k && decide (p.tick < b) && decide (a < p.tick + ceilDiv j.length 2)
      | none => false

/-! ## Visits -/

def orxSched (s : State) (k : Nat) : OrxSched := s.dpd.orx.getD k default
def modOrx (s : State) (k : Nat) (f : OrxSched → OrxSched) : State := { s with dpd := { s.dpd with orx := listMod s.dpd.orx k f } }

/-- A DPD slot of ORx k is lost (R240, R245). -/
def loseSlot (s : State) (k : Nat) : State :=
  let s := satAdd s (F.ORX_SLOTS_LOST k) 1
  { s with dpd := { s.dpd with lostSince := (List.range 16).foldl (fun l j =>
      assocPut l (16 * k + j) ((assocGet l (16 * k + j)).getD 0 + 1)) s.dpd.lostSince } }

/-- The visit of ORx k is given up: its slot is lost (R240, R250). -/
def dropVisit (s : State) (k : Nat) : State :=
  match (orxSched s k).visit with
  | none => s
  | some v =>
    let s := modOrx s k fun o => { o with visit := none }
    loseSlot (if v.started then setF s (F.ORX_STAT_USER k) 0 else s) k

/-- A user of rank 1 or 2 takes ORx k now: a host capture stops with CANCELLED if the new rank is 1, a DPD capture is discarded, a
monitor capture ends (R235). -/
def takeOrx (s : State) (k rank : Nat) : State :=
  let s := if rank = 1 then
      { s with captures := s.captures.map fun x =>
          if x.source = 0 && x.index = k && x.stop.isNone && x.first.isSome
              && decide (s.time.tick < captureEnd x (x.first.getD 0)) then { x with stop := some (s.time.tick, stCancelled) } else x }
    else s
  let s := match (orxSched s k).visit with | some v => if v.started then dropVisit s k else s | none => s
  setF s (F.ORX_STAT_USER k) rank

/-! ## Capture jobs (R102, R233-R237) -/

/-- CAP_CREATE (34h); INDEX is not looked at when SOURCE is 3, nor STREAM when it is not (log 62). -/
def execCapCreate (t : Nat) (c : Cmd) (s : State) : Out :=
  let source := p8 c 16
  runCmd t 0x34 c s (if source = 3 then [(2, p32 c 32)] else []) fun s f =>
    let index := p8 c 17
    let dest := p8 c 18
    let len := p32 c 20
    let bad := decide (3 < source) || decide (dest < 1) || decide (3 < dest) || decide (len < 1) || decide (2 ^ 28 < len)
      || (source = 0 && (!orxPresent s index || decide (65536 < len)))
      || ((source = 1 || source = 2) && !pathPresent s index)
      || (dest != 1 && regionBad (if dest = 2 then 2 else 0) (p64 c 24) (8 * len))
    let n := if dest = 1 then ceilDiv (8 * len) 524288 else 0
    match lowestFree s.caps 32, (if n = 0 then some 0 else findRun s n) with
    | some i, some b =>
      immediate s f bad none false fun s =>
        let g := nextGen s 4 i
        let h := mkHandle 4 g i
        let j : CapJob :=
          { gen := g, source := source, index := index, dest := dest, length := len, addr := p64 c 24, stream := p32 c 32, bank := b,
            written := 0, taken := 0, ended := false }
        (ownBanks { takeGen s 4 i with caps := assocPut s.caps i j } (bankRun b n) h, h)
    | _, _ => immediate s f bad (some stNoResource) false fun s => (s, 0)

/-- A capture of a job is started with T = `n`; while one of the job is in progress nothing happens (log 18). -/
def startCapture (s : State) (h n : Nat) : State :=
  let i := handleIdx h
  match assocGet s.caps i with
  | none => s
  | some j =>
    if s.captures.any (fun x => x.handle = h) then s
    else
      let y := (streamAt s (handleIdx j.stream)).filter fun _ => j.source = 3
      { s with
        caps := assocPut s.caps i { j with written := 0, taken := 0, ended := false }
        captures := s.captures ++ [{ job := i, handle := h, source := j.source, index := j.index, dest := j.dest, length := j.length,
                                     base := if j.dest = 1 then 524288 * j.bank else j.addr, tick := n, first := none, stop := none, rates := [],
                                     carrier := (y.map (·.carrier)).getD 0, layer := (y.map fun y => (y.dir, y.layer)).getD (0, 0) }] }

/-- CAP_START (35h) (R233). -/
def execCapStart (t : Nat) (c : Cmd) (s : State) : Out :=
  runCmd t 0x35 c s [] fun s f =>
    schedulable s f false [(0x35, c.handle, 0)] none false fun s => startCapture s c.handle s.time.tick

/-- CAP_DESTROY (36h): a running capture stops; its CAPTURE_DONE reports CANCELLED; channels that wait on the job halt (R105,
R391). -/
def execCapDestroy (t : Nat) (c : Cmd) (s : State) : Out :=
  runCmd t 0x36 c s [] fun s f =>
    immediate s f false none false fun s =>
      let n := s.time.tick
      let s := { s with
        caps := assocDel s.caps (handleIdx c.handle)
        captures := s.captures.map fun x =>
          if x.handle = c.handle && x.stop.isNone then { x with stop := some (n, stCancelled) } else x }
      (periphGone (releaseBanks (cancelNaming s c.handle) c.handle) (handleIdx c.handle), 0)

/-- Tick of the first sample of a capture with T = `n`: every tick has one, a stream's lie on the carrier grid (R231, R233). -/
def firstSample (s : State) (x : Capture) : Nat :=
  if x.source = 3 then match carrierAt s x.carrier with | some c => gridUp s c.k x.tick | none => x.tick else x.tick

/-- A capture of a job changed. -/
def modCapture (s : State) (h : Nat) (f : Capture → Capture) : State :=
  { s with captures := s.captures.map fun x => if x.handle = h then f x else x }

/-- Which status an ORx capture that starts now ends with at once, if it cannot run (R235-R237); for one that meets a calibration job on its
ORx, PD15 off or the device in IDLE the spec gives none (log 60). -/
def orxRefusal (s : State) (x : Capture) : Option Nat :=
  if !flag s (F.ORX_CTRL_EN x.index) || !domainOn s 15 || !isActive s then some stBusy
  else if calHolds s x.index then some stCancelled
  else match hostHolds s x.index with
    | some y => if y.first = some s.time.tick && decide (x.job < y.job) then none else some stBusy
    | none => none

/-- CAPTURE_START: a capture whose first sample is due starts; an ORx capture takes its ORx, or ends with BUSY or CANCELLED and no
samples (R233-R237). -/
def execCaptureStart (t job : Nat) (s : State) : Out :=
  let s := advance t s
  match s.captures.find? (fun x => x.job = job && x.first.isNone && x.stop.isNone) with
  | none => .next s
  | some x =>
    let n := firstSample s x
    if s.time.tick < n then .next s
    else if x.source != 0 then
      let k := match carrierAt s x.carrier with | some c => c.k | none => 1
      .next (modCapture s x.handle fun x => { x with first := some n, rates := if x.source = 3 then [(n, 0, k)] else [] })
    else match orxRefusal s x with
      | some st => .next (modCapture s x.handle fun x => { x with first := some n, stop := some (n, st) })
      | none =>
        let s := match hostHolds s x.index with
          | some y => modCapture s y.handle fun y => { y with stop := some (n, stBusy) }
          | none => s
        let s := takeOrx s x.index 2
        .next (modCapture (setF s (F.ORX_STAT_SEL x.index) (getF s (F.ORX_CTRL_HOST_SEL x.index))) x.handle
          fun x => { x with first := some n })

/-- How many samples an ending capture has and its status; none while its last sample has not left its source. A capture longer than its
buffer of 65,536 samples ends with NO_RESOURCE after `n` samples where its destination has taken fewer than n - 65,535 of them (R229,
R233). -/
def captureResult (s : State) (x : Capture) (n : Nat) : Option (Nat × Nat) :=
  match x.first, x.stop with
  | some f, some (u, st) => if samplesBy x f u ≤ outBy s x f s.time.tick then some (samplesBy x f u, st) else none
  | none, some (_, st) => some (0, st)
  | none, none => none
  | some f, none =>
    if x.length ≤ outBy s x f s.time.tick then some (x.length, stOK)
    else if decide (65536 ≤ n) && decide (n < outBy s x f s.time.tick) then some (n, stNoResource)
    else none

/-- Records of a capture that its peripheral has brought to the store already (R389). -/
def brought (s : State) (x : Capture) : Nat :=
  match assocGet s.caps x.job with
  | some j => if x.dest = 1 && mkHandle 4 j.gen x.job = x.handle then j.written else 0
  | none => 0

/-- Captured records written to store, DRAM or host memory; an untrained port or an absent address takes nothing (R59, R231). -/
def writeRecords (s : State) (x : Capture) (data : List Byte) (skip : Nat) : State :=
  match x.dest with
  | 1 => { s with store := memWrite s.store (x.base + skip) data }
  | 2 => if dramTrained s && decide (x.base + data.length ≤ s.dramSize) then { s with dram := memWrite s.dram x.base data } else s
  | _ => if data.length = 0 then s else hostWrite s x.base data.length (leNat data)

end Sys2Proof.Machine
end

