-- ==== Sys2Proof/Machine/Dpd.lean ====
section
/-!
DEFINITION. Pre-distortion and its adaptation: term table and banks, LO bins, the ORx intermediate frequency, policies, loads and
dumps of coefficient blocks, the visit schedule, solves and their swaps, retunes (spec/07_predistortion.md R213-R228, R238-R250).
-/
namespace Sys2Proof.Machine

/-! ## Blocks, banks and bins (R216-R221) -/

/-- The bypass block (R219). -/
def bypassBlock : List Byte := List.replicate 250 0 ++ [1, 0, 255, 255, 255, 255]

/-- The live block of a path's bin (R220, R221). -/
def liveBlock (s : State) (n b : Nat) : List Byte := (assocGet s.dpd.live (16 * n + b)).getD bypassBlock

def setLive (s : State) (n b : Nat) (block : List Byte) : State :=
  { s with dpd := { s.dpd with live := assocPut s.dpd.live (16 * n + b) block } }

/-- DPD.BASIS_TAG: CRC-32C of the 48 term words (R216). -/
def basisTag (s : State) : Nat := crc32c ((List.range 48).flatMap fun k => leBytes 4 (getN s (A.DPD_TERM k)))

/-- A block may be live under the term table: BYPASS is set or TAG is that of the table (R217, R225). -/
def blockTagGood (s : State) (block : List Byte) : Bool :=
  bitAt (leNat ((block.drop 250).take 1)) 0 || leNat ((block.drop 251).take 1) == basisTag s % 256

/-- A write of DPD.TERM(k) sets every bank to the bypass block (R216). -/
def writeTerm (s : State) (k data : Nat) : State :=
  let s := setF (setF s (F.DPD_TERM_EN k) (bitsOf data 15 1)) (F.DPD_TERM_P k) (bitsOf data 8 4)
  let s := setF (setF s (F.DPD_TERM_M k) (bitsOf data 4 3)) (F.DPD_TERM_E k) (bitsOf data 0 3)
  { s with dpd := { s.dpd with live := [] } }

/-- DPD_TERM_WRITE (R216). -/
def execDpdTermWrite (t k data : Nat) (s : State) : Out :=
  byWrite t s fun s => if k < 48 then writeTerm s k data else s

/-- W of a synthesiser (R252). -/
def loWord (s : State) (i : Nat) : Nat := getN s (A.RAD_LO_WORD i) + 2 ^ 32 * getF s (F.RAD_LO_WORD_1_WORD i)

/-- The bin in force: the highest edge at or below the frequency of LO-T (R220, R252). -/
def binOf (s : State) : Nat :=
  ((List.range 16).filter fun b => decide (0 < b) && decide (100 * 2 ^ 32 * getF s (F.DPD_BIN_EDGE_EDGE b) ≤ 24576 * loWord s 0)).foldl max 0

/-- ORX(k).IF and IF_RANGE follow f(LO-T) - f(LO-O) (R228): the NCO word is the difference of the words in units of
3,932.16 MHz / 2^32, rounded half up. -/
def setOrxIf (s : State) : State :=
  let d : Int := (loWord s 0 : Int) - (loWord s 2 : Int)
  let word := unsigned 32 ((d + 8) / 16)
  let a := 24576 * d.natAbs
  let out := decide (a < 700 * 100 * 2 ^ 32) || decide (1000 * 100 * 2 ^ 32 < a)
  (List.range (nOrx s)).foldl (fun s k => setFlag (setN s (A.ORX_IF k) word) (F.ORX_STAT_IF_RANGE k) out) s

/-! ## Policies (R238, R239) -/

def modeOf (s : State) (n : Nat) : Nat := getF s (F.DPD_PATH_POLICY_MODE n)

/-- A path that is now in FROZEN or MANUAL gives up its visit (R239). -/
def policyEffect (s : State) (n : Nat) : State :=
  if modeOf s n = 1 || modeOf s n = 2 then s
  else match (orxSched s (n / 16)).visit with
    | some v => if v.path = n then dropVisit s (n / 16) else s
    | none => s

/-- A DPD_POLICY in force: mode, targets, rate and threshold of its paths, the share of the ORx that serve them (R238). -/
def applyPolicy (s : State) (c : Cmd) : State :=
  let paths := bitsSet (p64 c 32) 64
  let s := paths.foldl (fun s n =>
    let s := setF (setF s (F.DPD_PATH_POLICY_MODE n) (p8 c 16)) (F.DPD_PATH_POLICY_MAX_RATE n) (p16 c 22)
    let s := setF s (F.DPD_PATH_POLICY_THERM n) (p8 c 24)
    policyEffect (setF (setF s (F.DPD_PATH_TARGET_ACLR n) (p16 c 18)) (F.DPD_PATH_TARGET_EVM n) (p16 c 20)) n) s
  (List.range (nOrx s)).foldl (fun s k => if paths.any (fun n => n / 16 == k) then setF s (F.DPD_ORX_SHARE_SHARE k) (p8 c 17) else s) s

/-- DPD_POLICY (38h). -/
def execDpdPolicy (t : Nat) (c : Cmd) (s : State) : Out :=
  runCmd t 0x38 c s [] fun s f =>
    let bad := decide (3 < p8 c 16) || decide (100 < p8 c 17) || decide (p16 c 22 < 1) || decide (1000 < p16 c 22)
      || decide (p8 c 24 < 1) || decide (40 < p8 c 24) || !maskWithin (p64 c 32) (nPaths s)
    schedulable s f bad ((bitsSet (p64 c 32) 64).map fun n => (0x38, n, 0)) none false fun s => applyPolicy s c

/-- A write of DPD.PATH(n).POLICY acts as an immediate DPD_POLICY of the path (R238). -/
def writePolicy (s : State) (n data : Nat) : State :=
  let s := setF (setF s (F.DPD_PATH_POLICY_MODE n) (bitsOf data 0 2)) (F.DPD_PATH_POLICY_MAX_RATE n) (bitsOf data 16 10)
  policyEffect (setF s (F.DPD_PATH_POLICY_THERM n) (bitsOf data 8 6)) n

/-! ## Loading and dumping (R225, R226) -/

/-- Another DPD_COEF_LOAD of the path and bin is pending, or is reading its block. -/
def loadPending (s : State) (n b : Nat) : Bool :=
  s.acts.any (fun p => p.cmd.opcode = 0x39 && p8 p.cmd 16 = n && p8 p.cmd 17 = b)
  || s.host.flight.any fun f => f.stage == .running && f.cmd.opcode == 0x39 && p8 f.cmd 16 == n && p8 f.cmd 17 == b

/-- DPD_COEF_LOAD (39h): checks 1 to 10; the block is read before the QUEUED completion (R98, R225). -/
def execDpdCoefLoad (t : Nat) (c : Cmd) (s : State) : Out :=
  runCmd t 0x39 c s [] fun s f =>
    let n := p8 c 16
    let b := p8 c 17
    let bad := !pathPresent s n || decide (15 < b) || regionBad (p8 c 18) (p64 c 24) 256
    let res := if loadPending s n b then some stNoResource else if modeOf s n = 3 then none else some stBusy
    match lateChecks s f bad [(0x39, n, b)] res (regionDown s (p8 c 18) (p64 c 24) 256) with
    | some st => reject s f st
    | none =>
      let s := setStage s f.id .running
      if p8 c 18 = 0 then readSource s f (p64 c 24) 256 else s

/-- The block of a DPD_COEF_LOAD has arrived: a wrong TAG is BAD_PARAM, otherwise the command is accepted with SEQ FFFF_FFFFh in its
pending block (R225); where it lies in DRAM and the port is untrained by then, the command ends with MEM_DOWN (R408). Its entry of the queue has been kept since check 9 (`queueUse`), so that no run meets a full queue here. -/
def coefArrived (s : State) (f : Flight) (host : List Byte) : State :=
  let addr := p64 f.cmd 24
  let block := if p8 f.cmd 18 = 0 then (host ++ List.replicate 256 0).take 256
    else if p8 f.cmd 18 = 1 then memRead s.store addr 256 else memRead s.dram addr 256
  if decide (p8 f.cmd 18 = 2) && !dramTrained s then reject s f stMemDown
  else if !blockTagGood s block then reject s f stBadParam
  else if 512 ≤ s.acts.length then reject s f stQueueFull
  else accept s f [(0x39, p8 f.cmd 16, p8 f.cmd 17)] (block.take 252 ++ [255, 255, 255, 255])

/-- A DPD_COEF_LOAD reaches its tick: its block is live, unless its path is no longer in MANUAL (R97, R222). -/
def actCoefLoad (s : State) (p : Pending) : State × Nat :=
  if modeOf s (p8 p.cmd 16) = 3 then (setLive s (p8 p.cmd 16) (p8 p.cmd 17) p.src, stOK) else (s, stCancelled)

/-- DPD_DUMP (3Ah): the live block of the path and bin is written out (R226). -/
def execDpdDump (t : Nat) (c : Cmd) (s : State) : Out :=
  runCmd t 0x3A c s [] fun s f =>
    let bad := !pathPresent s (p8 c 16) || decide (15 < p8 c 17) || regionBad (p8 c 18) (p64 c 24) 256
    immediate s f bad none (regionDown s (p8 c 18) (p64 c 24) 256) fun s =>
      let block := liveBlock s (p8 c 16) (p8 c 17)
      (match p8 c 18 with
        | 0 => hostWrite s (p64 c 24) 256 (leNat block)
        | 1 => { s with store := memWrite s.store (p64 c 24) block }
        | _ => let s := disturbSr s; { s with dram := memWrite s.dram (p64 c 24) block }, 0)

/-! ## Temperatures and estimates (R244, R247) -/

/-- The result of TS(p), input 16 or 17 of MU p/2, in 1/4096 °C (R425, R426). -/
def podTemp (s : State) (p : Nat) : Int := signed 20 (getF s (F.MON_RESULT_RESULT (p / 2) (16 + p % 2)))
def podTempValid (s : State) (p : Nat) : Bool := flag s (F.MON_RESULT_VALID (p / 2) (16 + p % 2))

/-- The latest estimates of a path meet both targets (DPD.PATH(n).STAT.MEETS). -/
def meets (s : State) (n : Nat) : Bool :=
  match assocGet s.dpd.estimates n with
  | some (aclr, evm) => decide (getF s (F.DPD_PATH_TARGET_ACLR n) ≤ aclr) && decide (evm ≤ getF s (F.DPD_PATH_TARGET_EVM n))
  | none => false

/-- The sensor of the path's pod has moved by THERM °C since the last adaptive swap of the bin in force (R244). -/
def isStale (s : State) (n : Nat) : Bool :=
  match assocGet s.dpd.swapTemp (16 * n + binOf s) with
  | none => false
  | some x => podTempValid s (podOf n) && decide (4096 * getF s (F.DPD_PATH_POLICY_THERM n) ≤ (podTemp s (podOf n) - x).natAbs)

/-- The firmware marks STALE on every path (R244). -/
def markStale (s : State) : State :=
  if fwRunning s then (List.range (nPaths s)).foldl (fun s n => setFlag s (F.DPD_PATH_STAT_STALE n) (isStale s n)) s else s

/-! ## The visit schedule (R240-R242) -/

def shareOf (s : State) (k : Nat) : Nat := min 100 (getF s (F.DPD_ORX_SHARE_SHARE k))

/-- Slot q is a DPD slot at share `sh` (R240). -/
def isDpdSlot (sh q : Nat) : Bool := q * sh / 100 < (q + 1) * sh / 100

/-- SLOT in ticks, and the capture length in samples (DPD.SCHED). -/
def slotTicks (s : State) : Nat := 65536 * max 1 (getF s F.DPD_SCHED_SLOT)
def captureLen (s : State) : Nat := 1024 * 2 ^ min 6 (getF s F.DPD_SCHED_LEN)

/-- Every path is held after a retune of LO-T or LO-O (R248, R249). -/
def isHeld (s : State) : Bool := s.dpd.holdT != 0 || s.dpd.holdO != 0

/-- A path is eligible (R240). -/
def eligible (s : State) (n : Nat) : Bool :=
  pathPresent s n && (modeOf s n = 1 || modeOf s n = 2) && flag s (F.TXP_CTRL_EN n) && !isHeld s

/-- The hash of a slot (R241 step 2). -/
def slotHash (s : State) (k start : Nat) : Nat := crc32c (leBytes 8 start ++ leBytes 4 k ++ leBytes 4 (getF s F.DPD_SEED_SEED))

/-- The first position at or after `pos` of a round (a, b) whose local path is eligible. -/
def nextPos (s : State) (k a b : Nat) (pos : Nat) : Option Nat :=
  (List.range 16).find? fun i => decide (pos ≤ i) && eligible s (16 * k + (a * i + b) % 16)

/-- The round and position that a DPD slot with hash `h` takes: the round in course, or a new one when it has ended (R241 steps 1 to
5). -/
def roundFor (s : State) (k h : Nat) : Option (Nat × Nat × Nat) :=
  let fresh : Nat × Nat := (2 * (h % 8) + 1, bitsOf h 4 4)
  match (orxSched s k).round with
  | some (a, b, pos) => match nextPos s k a b pos with
    | some i => some (a, b, i)
    | none => (nextPos s k fresh.1 fresh.2 0).map fun i => (fresh.1, fresh.2, i)
  | none => (nextPos s k fresh.1 fresh.2 0).map fun i => (fresh.1, fresh.2, i)

/-- The bound of R245 in ticks for a path of ORx k. -/
def revisitBound (s : State) (k n : Nat) : Nat :=
  let e := ((List.range 16).filter fun j => eligible s (16 * k + j)).length
  (ceilDiv (100 * (2 * e - 1 + (assocGet s.dpd.lostSince n).getD 0)) (max 1 (shareOf s k)) + 1) * slotTicks s

/-- The rank of a path in AUTONOMOUS mode: overdue against R245, STALE, missing a target, then ticks since its last capture; a path
never captured comes first in each (R242). -/
def staleness (s : State) (k n : Nat) : Nat :=
  let age := match assocGet s.dpd.lastStart n with | some m => s.time.tick - m | none => 2 ^ 64
  let late := decide (revisitBound s k n < age + 2 * slotTicks s)
  age + (if meets s n then 0 else 2 ^ 65) + (if flag s (F.DPD_PATH_STAT_STALE n) then 2 ^ 66 else 0)
    + if late then 2 ^ 67 else 0

/-- The eligible path of the highest rank; ties go to the lowest number (R242; log 19). -/
def autonomousPick (s : State) (k : Nat) : Option Nat :=
  (((List.range 16).map (fun j => 16 * k + j)).filter (eligible s)).foldl (fun m n =>
    match m with
    | none => some n
    | some x => if staleness s k x < staleness s k n then some n else some x) none

/-- A pattern bank runs and the path carries a TDD carrier: every path carries every carrier (R241, R243). -/
def tddTraffic (s : State) : Bool := (bankAt s s.time.tick).isSome && s.carriers.any fun x => x.2.dir = 0

/-- The ticks at which the table is known to start, stop or swap (R42, R504). -/
def bankTicks (s : State) : List Nat :=
  (nextStart s).toList ++ s.time.tddLog.map (·.1) ++ (s.acts.filter (fun p => p.cmd.opcode = 0x2D)).map (·.tick)

/-- [a, a + d) lies wholly inside one DL segment of the bank that runs there (R241 step 7). -/
def inOneDl (s : State) (a d : Nat) : Bool :=
  match bankAt s a with
  | none => false
  | some b => match segmentAt s b a with
    | none => false
    | some g => g.kind == 1 && decide (a % period s b + d ≤ g.stop)
        && (bankTicks s).all fun n => decide (n ≤ a) || decide (a + d ≤ n) || bankAt s n == some b

/-- A capture of ORx k may start at `a` (R241 step 7). -/
def startFits (s : State) (k a d : Nat) : Bool :=
  !claimedIn s k a (a + d) && (!tddTraffic s || inOneDl s a d)

/-- The first candidate start that fits (R241 steps 6 and 7). -/
def findStart (s : State) (k base off nc d : Nat) : Nat → Nat → Option Nat
  | 0, _ => none
  | fuel + 1, i =>
    let a := base + 64 * ((off + i) % nc)
    if startFits s k a d then some a else findStart s k base off nc d fuel (i + 1)

/-- A capture of `path` planned in the slot that starts now; the path keeps the next DPD slot if this one is lost (R240). -/
def planVisit (s : State) (k h path : Nat) (pos : Option Nat) : State :=
  let s := modOrx s k fun o => { o with kept := if pos.isNone then some path else none }
  let d := captureLen s / 2
  let len := slotTicks s
  let nc := (len - 4096 - d) / 64 + 1
  if len < 4096 + d then loseSlot s k
  else match findStart s k (s.time.tick + 4096) (h / 256) nc d nc 0 with
    | none => loseSlot s k
    | some a => modOrx s k fun o => { o with visit := some { path := path, pos := pos, start := a, stop := a + d, started := false, bin := 0 } }

/-- ORx k makes DPD captures: it is enabled, the firmware runs, the device is in ACTIVE and PD15 is on (R237, R436, R442, R462). -/
def orxCaptures (s : State) (k : Nat) : Bool := flag s (F.ORX_CTRL_EN k) && fwRunning s && isActive s && domainOn s 15

/-- The DPD slot that starts now: its path and capture. A slot without a capture is lost; it starts a round and keeps its path all the same
(R237, R240-R242, R462). -/
def startDpdSlot (s : State) (k : Nat) : State :=
  let h := slotHash s k s.time.tick
  if (List.range 16).any (fun j => eligible s (16 * k + j) && modeOf s (16 * k + j) == 2) then
    match ((orxSched s k).kept.filter (eligible s)) <|> (if fwRunning s then autonomousPick s k else none) with
    | none => loseSlot s k
    | some n => if orxCaptures s k then planVisit s k h n none else loseSlot (modOrx s k fun o => { o with kept := some n }) k
  else match roundFor s k h with
    | none => loseSlot (modOrx s k fun o => { o with round := none }) k
    | some (a, b, i) =>
      let s := modOrx s k fun o => { o with round := some (a, b, i) }
      if orxCaptures s k then planVisit s k h (16 * k + (a * i + b) % 16) (some i) else loseSlot s k

/-- A capture that has completed: its slot is not lost, its position of the round is taken, its solve starts (R241, R243). -/
def finishVisit (s : State) (k : Nat) (v : Visit) : State :=
  let s := setF (wrapAdd s (F.ORX_SLOTS_VISITS k) 1) (F.ORX_STAT_USER k) 0
  let s := modOrx s k fun o =>
    { o with
      visit := none
      kept := none
      round := match v.pos, o.round with
        | some i, some (a, b, _) => if i = 15 then none else some (a, b, i + 1)
        | _, r => r }
  { s with dpd := { s.dpd with solves := s.dpd.solves ++ [(v.path, v.bin)] } }

/-- DPD_SLOT_START: a slot of ORx k starts. A hold waiting for it ends; a monitor slot gives the ORx to the spectrum monitor; a DPD
slot plans its capture or is lost (R240-R242, R247, R248). -/
def execDpdSlotStart (t orx : Nat) (s : State) : Out :=
  let s := advance t s
  let o := orxSched s orx
  if !orxPresent s orx || !tickValid s || decide (s.time.tick < o.slotAt) || (s.time.tick - o.slotAt) % max 1 o.slotLen != 0 then .next s
  else
    let q := o.slotQ + (s.time.tick - o.slotAt) / max 1 o.slotLen
    let s := match o.visit with
      | some v => if v.started && decide (v.stop ≤ s.time.tick) then finishVisit s orx v else dropVisit s orx
      | none => s
    let s := { s with dpd := { s.dpd with
      holdT := if s.dpd.holdT = 2 then 0 else s.dpd.holdT
      holdO := if s.dpd.holdO = 2 then 0 else s.dpd.holdO } }
    let s := modOrx s orx fun o => { o with slotQ := q + 1, slotAt := s.time.tick + slotTicks s, slotLen := slotTicks s }
    let s := if getF s (F.ORX_STAT_USER orx) = 4 then setF s (F.ORX_STAT_USER orx) 0 else s
    .next <|
      if isDpdSlot (shareOf s orx) q then startDpdSlot s orx
      else if orxCaptures s orx && getF s (F.ORX_STAT_USER orx) == 0 then
        setF s (F.ORX_STAT_USER orx) 4
      else s

/-- REVISIT_MAX and the capture starts of a path (ORX(k).REVISIT_MAX, R245). -/
def noteStart (s : State) (k n : Nat) : State :=
  let s := match assocGet s.dpd.lastStart n with
    | some m => setF s (F.ORX_REVISIT_MAX_MAX k) (max (getF s (F.ORX_REVISIT_MAX_MAX k)) (min 65535 (ceilDiv (s.time.tick - m) 65536)))
    | none => s
  { s with dpd := { s.dpd with lastStart := assocPut s.dpd.lastStart n s.time.tick, lostSince := assocDel s.dpd.lostSince n } }

/-- DPD_CAPTURE_START: the planned capture starts, unless a user of rank 1 or 2 holds the ORx or its path is no longer eligible
(R235, R240, R241). -/
def execDpdCaptureStart (t orx : Nat) (s : State) : Out :=
  let s := advance t s
  match (orxSched s orx).visit with
  | none => .next s
  | some v =>
    if v.started || s.time.tick != v.start then .next s
    else if calHolds s orx || (hostHolds s orx).isSome || !eligible s v.path || !orxCaptures s orx then
      .next (dropVisit s orx)
    else
      let b := binOf s
      let s := setF (setF s (F.ORX_STAT_USER orx) 3) (F.ORX_STAT_SEL orx) (v.path % 16)
      .next (noteStart (modOrx s orx fun o => { o with visit := some { v with started := true, bin := b } }) orx v.path)

/-- DPD_CAPTURE_END: the capture completes and the firmware starts its solve (R243). -/
def execDpdCaptureEnd (t orx : Nat) (s : State) : Out :=
  let s := advance t s
  match (orxSched s orx).visit with
  | none => .next s
  | some v => .next (if v.started && decide (v.stop ≤ s.time.tick) then finishVisit s orx v else s)

/-! ## Solves and swaps (R243, R244, R222) -/

/-- The starts of GUARD segments that follow a DL segment, from `a` on for two frames. -/
def guardStarts (s : State) (a : Nat) : List Nat :=
  (changesIn s a (a + 2 * frameTicks)).filter fun n =>
    match bankAt s n with
    | none => false
    | some b => match segmentAt s b n with
      | none => false
      | some g => g.kind == 0 && g.start == n % period s b && kindAt s (n - 1) == some 1

/-- The swap tick of a solve that is done now (R243); a pattern without such a GUARD segment falls back to the 4,096-tick grid
(log 19). -/
def swapTick (s : State) : Nat :=
  let a := s.time.tick + 24576
  let grid := 4096 * ceilDiv a 4096
  if tddTraffic s then
    match guardStarts s a with
    | [] => grid
    | x :: l => l.foldl min x
  else grid

/-- Least spacing of a path's adaptive DPD swaps (R243). -/
def swapSpacing (s : State) (n : Nat) : Nat := ceilDiv 983040000 (max 1 (getF s (F.DPD_PATH_POLICY_MAX_RATE n)))

/-- A term is enabled (R213, DPD.TERM). -/
def termOn (s : State) (k : Nat) : Bool :=
  flag s (F.DPD_TERM_EN k) && decide (1 ≤ getF s (F.DPD_TERM_P k)) && decide (getF s (F.DPD_TERM_P k) ≤ 9)

/-- The firmware solves for entry k of a block: every enabled term, w and d; while models are pooled the first RES_TERMS enabled terms only
(R246). -/
def solvesFor (s : State) (k : Nat) : Bool :=
  if k < 48 then termOn s k && (!flag s F.DPD_POOL_EN || decide (((List.range k).filter (termOn s)).length < getF s F.DPD_POOL_RES_TERMS))
  else !flag s F.DPD_POOL_EN

/-- A value in 1/65,536 of a coefficient's unit in the format of a block (R214, R217). -/
def coefBytes (x : Int × Int) : List Byte :=
  let part := fun (v : Int) => unsigned 18 (saturate 18 (roundBits 16 v))
  leBytes 5 (part x.1 + 2 ^ 18 * part x.2)

/-- The block that a solve gives for a bin: what was solved for, and while models are pooled the base model of the bin besides; BYPASS
clear, TAG of the table (R217, R246). `data` is the 48 coefficients, w and d. -/
def solvedBlock (s : State) (bin : Nat) (data : Coefs) : List Byte :=
  let base := if flag s F.DPD_POOL_EN then (assocGet s.dpd.base bin).getD [] else []
  ((List.range 50).flatMap fun k =>
    let x := base.getD k (0, 0)
    let y := if solvesFor s k then data.getD k (0, 0) else (0, 0)
    coefBytes (x.1 + y.1, x.2 + y.2)) ++ [0, BitVec.ofNat 8 (basisTag s)]

/-- The base model of a bin as the firmware has it after a solve; it is kept while models are pooled (R246). -/
def setBase (s : State) (bin : Nat) (base : Option Coefs) : State :=
  match base with
  | some b => if flag s F.DPD_POOL_EN then { s with dpd := { s.dpd with base := assocPut s.dpd.base bin b } } else s
  | none => s

/-- The result of a solve may be swapped in: always in SCHEDULED mode; in AUTONOMOUS mode when the path misses a target, is STALE or
the block lowers the fitted error by 0.5 dB; never in the other modes (R239, R244). -/
def mayswap (s : State) (n : Nat) (better : Bool) : Bool :=
  modeOf s n = 1
  || (modeOf s n = 2 && (!meets s n || flag s (F.DPD_PATH_STAT_STALE n) || better))

/-- The firmware has solved a completed capture: `data` in 1/65,536 of a coefficient's unit, and `base` if the base model of the bin has
changed; the swap is requested, or the result dropped and counted when it would break the spacing (R243, R244, R246). -/
def solveDone (s : State) (path bin : Nat) (better : Bool) (base : Option Coefs) (data : Coefs) : State :=
  if !s.dpd.solves.contains (path, bin) || !fwRunning s then s
  else
    let s := setBase { s with dpd := { s.dpd with solves := s.dpd.solves.erase (path, bin) } } bin base
    let n := swapTick s
    let close := match assocGet s.dpd.swapped path with
      | some m => decide (n < m + swapSpacing s path)
      | none => false
    if !mayswap s path better then s
    else if close then satAdd s (F.DPD_PATH_STAT_DROPPED path) 1
    else
      let r := requestSwap s path 0 bin n false (solvedBlock s bin data)
      if r.2 then { r.1 with dpd := { r.1.dpd with swapped := assocPut r.1.dpd.swapped path n } } else r.1

/-- DPD_SOLVE_DONE: a solve is done (R243). -/
def execDpdSolveDone (t path bin : Nat) (better : Bool) (base : Option Coefs) (data : Coefs) (s : State) : Out :=
  .next (solveDone (advance t s) path bin better base data)

/-- An adaptive DPD swap takes effect (R222): its block is live, and the temperature of its pod is noted for R244. -/
def applyDpdSwap (s : State) (x : AdaptSwap) : State :=
  let s := setLive s x.path x.bin x.block
  let key := 16 * x.path + x.bin
  let l := if podTempValid s (podOf x.path) then assocPut s.dpd.swapTemp key (podTemp s (podOf x.path)) else assocDel s.dpd.swapTemp key
  markStale { s with dpd := { s.dpd with swapTemp := l } }

/-- SPECTRUM_MONITOR_CAPTURE: in a monitor slot the firmware captures the path of the ORx whose turn it is and reports its estimates
(R247). -/
def execSpectrumMonitorCapture (t orx path aclr evm : Nat) (s : State) : Out :=
  let s := advance t s
  .next <|
    if orxPresent s orx && getF s (F.ORX_STAT_USER orx) == 4 && path == 16 * orx + (orxSched s orx).turn && orxCaptures s orx then
      let s := modOrx s orx fun o => { o with turn := (o.turn + 1) % 16 }
      let s := setF (setF s (F.ORX_STAT_SEL orx) (path % 16)) (F.DPD_PATH_STAT_ACLR_EST path) (min 65535 aclr)
      { s with dpd := { s.dpd with estimates := assocPut s.dpd.estimates path (aclr, evm) } }
    else s

/-! ## Retunes (R248-R250) -/

/-- Every DPD capture in progress is discarded and reported with the bin now in force (R248 step 1, R249). -/
def discardCaptures (s : State) : State :=
  (List.range (nOrx s)).foldl (fun s k =>
    match (orxSched s k).visit with
    | none => s
    | some v =>
      if v.started then post (dropVisit s k) evDpdCaptureDiscarded (evData [(16, 1, v.path), (17, 1, binOf s)])
      else dropVisit s k) s

/-- An LO_TUNE of LO-T (0) or LO-O (2) has taken effect: the NCO words follow, captures are discarded, every path is held until the
first slot start after lock, and the bin is shown (R224, R228, R248, R249). -/
def dpdRetune (s : State) (i : Nat) : State :=
  let s := discardCaptures (setOrxIf s)
  markStale { s with dpd := { s.dpd with
    holdT := if i = 0 then 1 else s.dpd.holdT
    holdO := if i = 2 then 1 else s.dpd.holdO } }

/-- LO-T or LO-O is in lock at its new frequency (R248 step 3, R249). -/
def dpdLocked (s : State) (i : Nat) : State :=
  { s with dpd := { s.dpd with
    holdT := if i = 0 && s.dpd.holdT == 1 then 2 else s.dpd.holdT
    holdO := if i = 2 && s.dpd.holdO == 1 then 2 else s.dpd.holdO } }

/-- An ORx is switched by ORX(k).CTRL.EN: at 0 its visit is lost and it is idle unless a host holds it (R237). -/
def orxEnChanged (s : State) (k : Nat) : State :=
  if flag s (F.ORX_CTRL_EN k) then s
  else
    let s := dropVisit s k
    if getF s (F.ORX_STAT_USER k) = 4 then setF s (F.ORX_STAT_USER k) 0 else s

/-- The schedule after an applied SYNC: slots and rounds restart at the origin, visits are lost (R240, R241). -/
def dpdOnSync (s : State) : State :=
  let s := (List.range (nOrx s)).foldl (fun s k => dropVisit s k) s
  let n := slotTicks s
  { s with dpd := { s.dpd with
    orx := s.dpd.orx.map fun o =>
      { slotQ := 0, slotAt := s.time.origin, slotLen := n, round := none, visit := none, kept := none, turn := o.turn }
    lastStart := []
    lostSince := []
    swapped := [] } }

end Sys2Proof.Machine
end

