-- ==== Sys2Proof/Machine/Radio.lean ====
section
/-!
DEFINITION. Radio control: synthesisers and their calibrations, the pods' ladder and the pattern, the front-end pins and the FE serial
bus (spec/08_radio_control.md R251-R277; spec/15_power_and_boot.md R437, R439).
-/
namespace Sys2Proof.Machine

/-! ## Pods as the synthesisers see them -/

def podTarget (s : State) (p : Nat) : Nat := getF s (F.RAD_POD_STATE_TARGET p)
def podFdd (s : State) (p : Nat) : Bool := flag s (F.RAD_POD_CFG_DUPLEX p)

/-- The domain of pod p, PD6 + p, is on (R436, R439). -/
def podOn (s : State) (p : Nat) : Bool := podPresent s p && domainOn s (6 + p)

/-- Pods whose TX output is enabled, as a mask. -/
def txPods (s : State) : Nat := ((List.range 8).map fun p => if (podSt s p).tx = .modulator then 2 ^ p else 0).sum

/-! ## Synthesisers (R251-R262) -/

def loCal (s : State) (i : Nat) : Option LoCal := (s.radio.los.getD i none)
def setLoCal (s : State) (i : Nat) (x : Option LoCal) : State :=
  setFlag { s with radio := { s.radio with los := s.radio.los.set i x } } (F.RAD_LO_STAT_CAL_RUN i)
    (match x with | some c => c.kind != 2 || c.table | none => false)

def loOn (s : State) (i : Nat) : Bool := flag s (F.RAD_LO_STAT_ON i)
def loLocked (s : State) (i : Nat) : Bool := flag s (F.RAD_LO_STAT_LOCK i)
def tableValid (s : State) (i : Nat) : Bool := flag s (F.RAD_LO_STAT_TABLE_VALID i)

/-- Durations of R258 and R260. -/
def fullTicks : Nat := 393216
def fineTicks : Nat := 122880
def loStartTicks : Nat := 147456

/-- LO-T is unlocked while the outputs of these pods are enabled (R262). -/
def unlockedTx (s : State) (mask : Nat) : State :=
  if mask = 0 || loLocked s 0 then s
  else post (raiseFlag s (F.RAD_LO_STAT_UNLOCKED_TX 0)) evLoUnlockedTx (evData [(16, 1, 0), (17, 1, mask)])

/-- A synthesiser loses lock (R256, R258, R262). -/
def unlockLo (s : State) (i : Nat) : State :=
  if loLocked s i then
    let s := raiseFlag (setFlag s (F.RAD_LO_STAT_LOCK i) false) (F.RAD_LO_STAT_LOCK_LOST i)
    if i = 0 then unlockedTx s (txPods s) else s
  else s

/-- A full calibration has ended: the band table is valid if a usable code was found, the temperature is recorded and a pending calibration
is satisfied (R255, R258, R259). -/
def tableBuilt (s : State) (i : Nat) (good : Bool) : State :=
  setFlag (setF (if good then setFlag s (F.RAD_LO_STAT_TABLE_VALID i) true else s) (F.RAD_LO_CAL_TEMP_AT_CAL i) (getF s (F.RAD_LO_CAL_TEMP_NOW i)))
    (F.RAD_LO_STAT_CAL_PENDING i) false

/-- Ticks of a calibration of a kind (R258). -/
def calTicks (kind : Nat) : Nat := if kind = 0 then fullTicks else fineTicks

/-- A calibration of a synthesiser that is on starts at elapsed time `n` (R258). -/
def beginCal (s : State) (i kind n : Nat) : State :=
  let s := unlockLo s i
  setLoCal s i (some
    { kind := kind, start := n, stop := n + calTicks kind, table := kind = 0, post := true, queued := none, saved := tableValid s i, pod := false })

/-- What the end of a start without a calibration brings as its tick passes: a calibration queued behind it starts (R258, R260). -/
def settleLo (s : State) (i : Nat) : State :=
  match loCal s i with
  | none => s
  | some c =>
    if c.kind != 2 || c.post || s.time.now < c.stop then s
    else match c.queued with
      | some k => beginCal s i k c.stop
      | none => s

def settleLos (s : State) : State := settleLo (settleLo (settleLo s 0) 1) 2

/-- A synthesiser calibrates, or starts and has not come to the end of its start. -/
def loBusy (s : State) (i : Nat) : Bool :=
  match loCal s i with
  | some c => c.kind != 2 || c.post || decide (s.time.now < c.stop)
  | none => false

/-- A full or fine calibration is requested: merged with one that runs, except a full one behind a fine one (R258); during a start without a
calibration it follows the start (log 21). -/
def askCal (s : State) (i kind : Nat) : State :=
  let s := settleLo s i
  match (loCal s i).filter fun _ => loBusy s i with
  | none => beginCal s i kind s.time.now
  | some c =>
    if c.kind = 2 && !c.table then setLoCal s i (some { c with queued := some (min kind (c.queued.getD kind)) })
    else if c.kind = 1 && kind = 0 then setLoCal s i (some { c with queued := some 0 })
    else s

/-- A running calibration, but not a start, is aborted at the tick of an activation (R261). -/
def abortCal (s : State) (i : Nat) : State :=
  let s := settleLo s i
  match loCal s i with
  | none => s
  | some c =>
    if c.kind = 2 then s
    else post (setFlag (setLoCal s i none) (F.RAD_LO_STAT_TABLE_VALID i) c.saved) evCalAborted
      (evData [(16, 4, 0), (20, 1, 1), (21, 1, i)])

/-- A synthesiser starts for `n` ticks (R260); a start that goes on lasts at least so long and takes a calibration of the table with it; one that
calibrates already goes on with it (log 21). -/
def startLo (s : State) (i n : Nat) (table pod : Bool) : State :=
  let s := settleLo s i
  match (loCal s i).filter fun _ => loOn s i && loBusy s i with
  | some c =>
    if c.kind = 2 then setLoCal s i (some { c with stop := if table || pod then max c.stop (s.time.now + n) else c.stop,
                                                   table := c.table || table, post := c.table || table, pod := c.pod || pod })
    else s
  | none =>
    let s := unlockLo (setFlag s (F.RAD_LO_STAT_ON i) true) i
    setLoCal s i (some
      { kind := 2, start := s.time.now, stop := s.time.now + n, table := table, post := table, queued := none,
        saved := tableValid s i, pod := pod })

/-- A synthesiser is switched off (R254); what it was calibrating is given up (log 21). -/
def stopLo (s : State) (i : Nat) : State :=
  let s := settleLo s i
  let s := match loCal s i with
    | some c => setFlag (setLoCal s i none) (F.RAD_LO_STAT_TABLE_VALID i) c.saved
    | none => s
  setFlag (unlockLo s i) (F.RAD_LO_STAT_ON i) false

/-- Some pod wants LO-T and LO-R: it is in SYNTH or above or steps there (R254). -/
def podsWantLo (s : State) : Bool :=
  (List.range (nPods s)).any fun p => decide (2 ≤ podState s p) || match (podSt s p).step with | some x => x.goal == 2 | none => false

/-- The synthesiser is wanted on (R254). -/
def loWanted (s : State) (i : Nat) : Bool :=
  domainOn s 14 && (flag s (F.RAD_LO_CTRL_FORCE_ON i)
    || if i < 2 then podsWantLo s else (List.range (nOrx s)).any fun k => flag s (F.ORX_CTRL_EN k))

/-- A synthesiser follows what wants it (R254); a start that no pod step makes takes the time of R260 for itself (log 21). -/
def refreshLo (s : State) (i : Nat) : State :=
  if loWanted s i = loOn s i then s
  else if loOn s i then stopLo s i
  else
    let c := !tableValid s i
    startLo s i (loStartTicks + if c then fullTicks else 0) c false

def refreshLos (s : State) : State := refreshLo (refreshLo (refreshLo s 0) 1) 2

/-- LO-T and LO-R as a pod starts the step from STANDBY to SYNTH, and by how much the step lengthens: a pod that starts its step at the tick
at which another has switched them on goes with it (R254, R260). -/
def podStartsLo (s : State) : State × Nat :=
  let s := settleLo (settleLo s 0) 1
  let begun := (List.range 2).filterMap fun i => match loCal s i with
    | some c => if c.kind = 2 && c.pod && c.start = s.time.now then some (c.stop - c.start) else none
    | none => none
  if !begun.isEmpty then (s, begun.foldl max 0)
  else if !domainOn s 14 || (loOn s 0 && loOn s 1) then (s, 0)
  else
    let c := !(tableValid s 0 && tableValid s 1)
    let n := loStartTicks + if c then fullTicks else 0
    ((List.range 2).foldl (fun s i => if c || !loOn s i then startLo s i n c true else s) s, n)

/-- Ranges of R251. -/
def freqGood (i freq : Nat) : Bool := decide (600000000 ≤ freq) && decide (freq ≤ if i = 2 then 8200000000 else 7200000000)

/-- W of R252, rounded half up. -/
def freqWord (freq : Nat) : Nat := (2 ^ 33 * freq + 245760000) / (2 * 245760000)

/-- The frequency that a word gives, to the nearest whole Hz, a half upwards (R252; log 63). -/
def wordFreq (w : Nat) : Nat := (245760000 * w * 2 + 2 ^ 32) / 2 ^ 33

/-- One synthesiser takes a new word (R256, R261); a start goes on with it (log 21). -/
def tuneLo (s : State) (i w : Nat) : State :=
  let s := settleLo s i
  let s := setF (setN s (A.RAD_LO_WORD i) (w % 2 ^ 32)) (F.RAD_LO_WORD_1_WORD i) (w / 2 ^ 32)
  let s := match loCal s i with
    | some c =>
      if c.kind = 2 then s
      else
        let s := abortCal s i
        if tableValid s i then s else beginCal s i 0 s.time.now
    | none =>
      if !loOn s i then s
      else
        let s := unlockLo s i
        if tableValid s i then s else beginCal s i 0 s.time.now
  if i = 1 then s else dpdRetune s i

/-- LO_TUNE at its tick (R253, R256). -/
def actLoTune (s : State) (c : Cmd) : State :=
  let i := p8 c 16
  let w := freqWord (p64 c 24)
  let s := tuneLo s i w
  if i = 0 && flag s F.RAD_LO_CFG_TDD_TIE then tuneLo s 1 w else s

/-- LO_TUNE (28h) (R251, R253). -/
def execLoTune (t : Nat) (c : Cmd) (s : State) : Out :=
  runCmd t 0x28 c s [] fun s f =>
    let i := p8 c 16
    schedulable s f (decide (2 < i) || !freqGood i (p64 c 24) || (i = 1 && flag s F.RAD_LO_CFG_TDD_TIE)) [(0x28, i, 0)] none false id

/-- LO_CAL takes effect on each synthesiser of its mask that is on (R258). -/
def applyLoCal (s : State) (c : Cmd) : State :=
  (bitsSet (p8 c 16) 3).foldl (fun s i => if loOn s i then askCal s i (p8 c 17) else s) s

/-- LO_CAL (29h) (R258). -/
def execLoCal (t : Nat) (c : Cmd) (s : State) : Out :=
  runCmd t 0x29 c s [] fun s f =>
    let l := bitsSet (p8 c 16) 3
    schedulable s f (decide (1 < p8 c 17)) (l.map fun i => (0x29, i, 0))
      (if l.any (fun i => !loOn s i) then some stBusy else none) false fun s => applyLoCal s c

/-- LO_CAL_DONE: a calibration of synthesiser `synth` that is due ends, also that of a start, which waits for its lock (R255, R258, R260). -/
def execLoCalDone (t synth : Nat) (failed : Bool) (s : State) : Out :=
  let s := advance t s
  .next <|
    match loCal s synth with
    | none => s
    | some c =>
      if !c.post || s.time.now < c.stop then s
      else
        let s := setLoCal s synth
          (if c.kind = 2 then some { c with post := false, table := false, queued := none, saved := c.saved || !failed } else none)
        let s := if c.table then tableBuilt s synth (!failed) else s
        let s := post s evLoCalDone (evData [(16, 1, synth), (17, 1, if failed then 1 else 0)])
        match c.queued with
        | some k => beginCal s synth k c.stop
        | none => s

/-- The synthesiser is in lock (R256). -/
def lockLo (s : State) (i : Nat) : State :=
  let s := setFlag s (F.RAD_LO_STAT_LOCK i) true
  dpdLocked (post s evLoLocked (evData [(16, 1, i), (24, 8, wordFreq (loWord s i))])) i

/-- LO_LOCKED: a synthesiser that is on and neither calibrates nor starts is detected in lock; a start ends so (R256, R260). -/
def execLoLocked (t synth : Nat) (s : State) : Out :=
  let s := settleLo (advance t s) synth
  .next <|
    if synth < 3 && loOn s synth && !loLocked s synth && !loBusy s synth then lockLo (setLoCal s synth none) synth else s

/-- LO_LOSS_OF_LOCK: a synthesiser loses lock (R262). -/
def execLoLossOfLock (t synth : Nat) (s : State) : Out := .next (unlockLo (advance t s) synth)

/-- A new result of on-die temperature sensor 7 while a monitor scan includes it: CAL_TEMP.NOW follows, and a drift of TEMP_THR or more marks
a full calibration pending (R259). -/
def loTemperature (s : State) (result : Nat) : State :=
  if !flag s (F.MON_SCAN_RUN 3) || !bitAt (getF s (F.MON_SCAN_MASK 3)) 17 then s
  else (List.range 3).foldl (fun s i =>
    let s := setF s (F.RAD_LO_CAL_TEMP_NOW i) (unsigned 16 (signed 20 result / 256))
    let d := signed 16 (getF s (F.RAD_LO_CAL_TEMP_NOW i)) - signed 16 (getF s (F.RAD_LO_CAL_TEMP_AT_CAL i))
    if flag s (F.RAD_LO_STAT_CAL_PENDING i) || d.natAbs < 16 * max 1 (getF s F.RAD_LO_CFG_TEMP_THR) then s
    else post (setFlag s (F.RAD_LO_STAT_CAL_PENDING i) true) evLoCalPending
      (evData [(16, 1, i), (17, 1, unsigned 8 (clampInt (-128) 127 (d / 16)))])) (settleLos s)

/-- CALIBRATION_GAP_START: a declared gap of at least 393,216 ticks starts; every pending calibration of a synthesiser that is free starts,
one that finds its synthesiser calibrating stays pending for a later gap; an accepted TDD_SWAP ends the gap at its tick (R41, R259, R504). -/
def execCalibrationGapStart (t : Nat) (s : State) : Out :=
  let s := advance t s
  .next <|
    match bankAt s s.time.tick with
    | none => s
    | some b => match segmentAt s b s.time.tick with
      | none => s
      | some g =>
        if g.cal && g.start == s.time.tick % period s b && decide (g.start + fullTicks ≤ g.stop)
            && (swapBetween s (s.time.tick + 1) (s.time.tick + fullTicks - 1)).isNone then
          (List.range 3).foldl (fun s i =>
            if flag s (F.RAD_LO_STAT_CAL_PENDING i) && loOn s i && !loBusy s i then beginCal s i 0 s.time.now else s) (settleLos s)
        else s

/-- PD14 has been switched (R254, R255, R437). -/
def loDomain (s : State) (on : Bool) : State :=
  refreshLos (let s := settleLos s
    if on then (List.range 3).foldl (fun s i => setFlag s (F.RAD_LO_STAT_TABLE_VALID i) false) s else s)

/-! ## The pattern as a pod follows it (R40, R267) -/

/-- KIND of the last DL or UL segment in force at or before tick `n`, across bank swaps; before the first one, the last of the bank. -/
def heldKind (s : State) (n : Nat) : Option Nat :=
  match bankAt s n with
  | none => none
  | some b =>
    let l := (changesIn s (n - 2 * period s b) (n + 1)).filter fun m => kindAt s m == some 1 || kindAt s m == some 2
    match l with
    | [] => kindBefore s b (n % period s b + 1)
    | m :: l => kindAt s (l.foldl max m)

/-- Switching edges of (n, n + span], with the KIND they lead to, that have their turnaround before them: it lies within GUARD segments of
the banks that run there. A change of direction that a TDD_SWAP makes without one has none (R40, R267). -/
def edgesAfter (s : State) (n span : Nat) : List (Nat × Nat) :=
  (changesIn s (n + 1) (n + span + 1)).filterMap fun e => match kindAt s e with
    | some k =>
      if k != 0 && heldKind s (e - 1) != some k && (changesIn s (e - turnaround k) e).all (fun m => kindAt s m == some 0) then some (e, k)
      else none
    | none => none

/-- The state that a pod in PATTERN wants at tick `n`: TX (4) or RX (3); SYNTH (2) while no bank runs. Within a turnaround it wants the
new direction (R267). -/
def wantedAt (s : State) (n : Nat) : Nat :=
  match heldKind s n with
  | none => 2
  | some k =>
    let j := if (edgesAfter s n 1536).any (fun x => x.2 != k && decide (x.1 ≤ n + turnaround x.2)) then 3 - k else k
    if j = 1 then 4 else 3

/-! ## The ladder (R263-R268) -/

/-- Ladder steps in ticks (R264). -/
def stepLength (a b : Nat) : Nat :=
  match a, b with
  | 0, 1 => 314573 | 1, 2 => 58983 | 2, 3 => 3933 | 2, 4 => 4916 | 3, 4 => 1536 | 4, 3 => 1024
  | 3, 2 => 492 | 4, 2 => 492 | 2, 1 => 1967 | 1, 0 => 4916 | _, _ => 0

/-- The next rung from `a` towards `g`; RX and TX are neighbours (R265). -/
def nextRung (a g : Nat) : Nat :=
  if 3 ≤ a then (if 3 ≤ g then g else 2)
  else if a = 2 && decide (3 ≤ g) then g
  else if a < g then a + 1 else a - 1

/-- Where a pod in state `a` heads at tick `n` (R265-R267). -/
def podGoal (s : State) (p a target n : Nat) : Nat :=
  if target = 5 then (if a < 2 then 2 else if podFdd s p then 4 else wantedAt s n)
  else if target = 3 && podFdd s p then 4 else target

/-- Timing values of RAD.POD(p).FE_TIME. -/
def txrLead (s : State) (p : Nat) : Nat := getF s (F.RAD_POD_FE_TIME_TXR_LEAD p)
def txLead (s : State) (p : Nat) : Nat := getF s (F.RAD_POD_FE_TIME_TX_LEAD p)
def txrLag (s : State) (p : Nat) : Nat := getF s (F.RAD_POD_FE_TIME_1_TXR_LAG p)
def txLag (s : State) (p : Nat) : Nat := getF s (F.RAD_POD_FE_TIME_1_TX_LAG p)
def rxLead (s : State) (p : Nat) : Nat := getF s (F.RAD_POD_FE_TIME_2_RX_LEAD p)
def rxLag (s : State) (p : Nat) : Nat := getF s (F.RAD_POD_FE_TIME_2_RX_LAG p)

/-- Edges of an entry into `to` at X, with rule 1 of R270 applied. -/
def entryEdges (s : State) (p goal x : Nat) : List FeEdge :=
  if goal = 4 then
    (if txLead s p < txrLead s p then [⟨x - txrLead s p, 2, false⟩] else []) ++ [⟨x - txLead s p, 3, false⟩]
  else if goal = 3 then [⟨x - rxLead s p, 1, false⟩] else []

/-- Edges of an exit from `a` at Y, with rule 1 of R270 applied. -/
def exitEdges (s : State) (p a y : Nat) : List FeEdge :=
  if a = 4 then
    (if txLag s p < txrLag s p then [⟨y + txLag s p, 2, true⟩] else []) ++ [⟨y + txrLag s p, 0, true⟩]
  else if a = 3 then [⟨y + rxLag s p, 0, true⟩] else []

/-- A write of RAD.FE_PROF(h) reaches the pins of the half at once (R272, R273). -/
def profileChanged (s : State) (h : Nat) : State :=
  (List.range 4).foldl (fun s k => if podPresent s (4 * h + k) then drivePins s (4 * h + k) else s) s

/-- A pod starts the step to `to` now: calibrations it meets are aborted (R261), what the step leaves is disabled (R264), and its pin
edges are placed (R270). -/
def startStep (s : State) (p goal : Nat) : State :=
  let a := podState s p
  let fdd := podFdd s p
  let s := if goal = 4 then abortCal s 0 else s
  let s := if goal = 3 || (goal = 4 && fdd) then abortCal s 1 else s
  let r := if a = 1 && goal = 2 then podStartsLo s else (s, 0)
  let s := r.1
  let n := s.time.now
  let x := n + stepLength a goal + r.2
  let s := if 3 ≤ a then setPodIo s p false false else s
  let y := podSt s p
  let all := entryEdges s p goal x
  let entry := all.filter fun e => !y.made.contains (e.at', e.code)
  let first := (all.map (·.at')).foldl min x
  let cut := fun l : List FeEdge => if 2 < goal then l.filter fun e => !(e.exit && decide (first ≤ e.at')) else l
  let old := if 3 ≤ a then y.edges ++ cut (exitEdges s p a n) else cut y.edges
  let s := modPod s p fun y => { y with
    step := some { goal := goal, stop := x, fdd := fdd }
    edges := old ++ entry.filter (fun e => decide (n ≤ e.at'))
    made := y.made.filter fun m => !(all.any fun e => (e.at', e.code) = m) && decide (n ≤ m.1 + 4095) }
  let s := setFlag s (F.RAD_POD_STATE_STEPPING p) true
  (entry.filter fun e => decide (e.at' < n)).foldl (fun s e => setFeCode s p e.code) s

/-- A pod that runs no step starts the next one towards its goal, or reports that it has reached its target (R265, R267). -/
def drivePod (s : State) (p : Nat) : State :=
  if !podOn s p || (podSt s p).step.isSome then s
  else
    let a := podState s p
    let g := podGoal s p a (podTarget s p) s.time.tick
    if g != a then startStep s p (nextRung a g)
    else if (podSt s p).announce then
      post (modPod s p fun x => { x with announce := false }) evPodStateReached (evData [(16, 1, p), (17, 1, a)])
    else s

/-- POD_STATE at its tick: every pod of the mask whose domain is on heads for the target (R265, R268, R439). -/
def actPodState (s : State) (c : Cmd) : State :=
  (bitsSet (p8 c 16) (nPods s)).foldl (fun s p =>
    if !podOn s p then s
    else
      let s := setF s (F.RAD_POD_STATE_TARGET p) (p8 c 17)
      drivePod (modPod s p fun x => { x with announce := p8 c 17 != 5 }) p) s

/-- POD_STATE (2Ah). -/
def execPodState (t : Nat) (c : Cmd) (s : State) : Out :=
  runCmd t 0x2A c s [] fun s f =>
    schedulable s f (!maskWithin (p8 c 16) (nPods s) || decide (5 < p8 c 17))
      ((bitsSet (p8 c 16) 8).map fun p => (0x2A, p, 0)) none false id

/-- The step of a pod has ended: it is in the new state, and what the state connects is connected (R264). -/
def endStep (s : State) (p : Nat) : State :=
  match (podSt s p).step with
  | none => s
  | some x =>
    let s := modPod s p fun y => { y with step := none }
    let s := setFlag (setF s (F.RAD_POD_STATE_STATE p) x.goal) (F.RAD_POD_STATE_STEPPING p) false
    setPodIo (emit s (.podParts p (podParts x.goal x.fdd))) p (x.goal == 4) (x.goal == 3 || (x.goal == 4 && x.fdd))

/-- LADDER_STEP_END: every step that is due ends; LO-T is checked once for the pods whose output is enabled now (R262); each pod
goes on (R265). -/
def execLadderStepEnd (t : Nat) (s : State) : Out :=
  let s := advance t s
  let due := (List.range (nPods s)).filter fun p => match (podSt s p).step with | some x => decide (x.stop ≤ s.time.now) | none => false
  let on := ((due.filter fun p => match (podSt s p).step with | some x => x.goal == 4 | none => false).map (2 ^ ·)).sum
  let s := due.foldl endStep s
  let s := refreshLo (refreshLo (unlockedTx s on) 0) 1
  .next (due.foldl drivePod s)

/-- Every pod in PATTERN whose wanted state differs from its state starts the turnaround or step (R267). -/
def followPattern (s : State) : State := ((List.range (nPods s)).filter fun p => podTarget s p = 5).foldl drivePod s

/-- PATTERN_TURNAROUND: the pods in PATTERN take the turnaround or step of this tick (R267). -/
def execPatternTurnaround (t : Nat) (s : State) : Out := .next (followPattern (advance t s))

/-- PATTERN_TABLE_START: bank 0 starts at a tick that is a whole multiple of its PERIOD, and the pods in PATTERN follow it (R42, R267). -/
def execPatternTableStart (t : Nat) (s : State) : Out :=
  let s := advance t s
  .next (if startsAt s s.time.tick then followPattern (runBank s 0 s.time.tick) else s)

/-- The pattern table after a change of its registers or of TICK_VALID: it stops where it may not run on, and the pods in PATTERN follow (R43,
R267, R503). -/
def patternChanged (s : State) : State := followPattern (checkPattern s)

/-- PATTERN_TABLE_STOP: ENABLE was cleared, TICK_VALID fell or the running bank became invalid (R503). -/
def execPatternTableStop (t : Nat) (s : State) : Out := .next (patternChanged (advance t s))

/-- A TDD_SWAP at its tick, which the pods in PATTERN follow (R42, R267). -/
def actSwapBank (s : State) (p : Pending) : State × Nat :=
  let r := actTddSwap s p
  (followPattern r.1, r.2)

/-! ## Front-end pins (R269-R273) -/

/-- Elapsed time of a tick. -/
def nowOf (s : State) (n : Nat) : Nat := s.time.now + n - s.time.tick

/-- POD_STATEs that are pending for a pod, in the order of their ticks, as (tick, target). -/
def podCommands (s : State) (p : Nat) : List (Nat × Nat) :=
  sortBy (·.1) ((s.acts.filter fun q => q.cmd.opcode = 0x2A && bitAt (p8 q.cmd 16) p).map fun q => (q.tick, p8 q.cmd 17))

/-- The steps that a pod takes from tick `n` on, at which it has reached state `a` with target `g`, by the POD_STATEs that are pending and the
pattern as it stands, as (start, end, new state): each step starts where the one before it ends, a POD_STATE that comes within a step heads
on from its end, and one in PATTERN ends it (R265, R267, R268). -/
def plannedSteps (s : State) (p : Nat) (commands : List (Nat × Nat)) : Nat → Nat → Nat → Nat → List (Nat × Nat × Nat)
  | 0, _, _, _ => []
  | fuel + 1, n, a, g =>
    let g := (((commands.filter fun x => decide (x.1 ≤ n)).getLast?).map (·.2)).getD g
    let goal := podGoal s p a g n
    if goal != a then
      let r := nextRung a goal
      (n, n + stepLength a r, r) :: plannedSteps s p (commands.filter fun x => decide (n < x.1)) fuel (n + stepLength a r) r g
    else
      let turns := if g = 5 && !podFdd s p && decide (2 ≤ a) then
          (edgesAfter s n 8192).map (fun x => x.1 - turnaround x.2) ++ (changesIn s (n + 1) (n + 4097))
        else []
      match (commands.map (·.1) ++ turns).filter fun m => decide (n < m) with
      | [] => []
      | m :: l => plannedSteps s p (commands.filter fun x => decide (n < x.1)) fuel (l.foldl min m) a g

/-- Steps of a pod that are known before they start, as (start, X, new state) in elapsed time (rule 3 of R270). -/
def knownSteps (s : State) (p : Nat) : List (Nat × Nat × Nat) :=
  let a := match (podSt s p).step with | some x => x.goal | none => podState s p
  let free := match (podSt s p).step with | some x => x.stop | none => s.time.now
  ((plannedSteps s p (podCommands s p) 64 (s.time.tick + (free - s.time.now)) a (podTarget s p)).map fun x =>
    (nowOf s x.1, nowOf s x.2.1, x.2.2)).filter fun x => decide (s.time.now < x.1)

/-- The earliest edge of a list that is due. -/
def dueEdge (n : Nat) (l : List FeEdge) : Option FeEdge :=
  (l.filter fun e => decide (e.at' ≤ n)).foldl (fun m e => match m with | none => some e | some x => if e.at' < x.at' then some e else some x) none

/-- Entry edges that fall before the start of a known step of a pod and have not been made (rule 3 of R270). -/
def earlyEdges (s : State) (p : Nat) : List FeEdge :=
  if podOn s p then
    (knownSteps s p).flatMap fun k => (entryEdges s p k.2.2 k.2.1).filter fun e =>
      decide (e.at' < k.1) && !(podSt s p).made.contains (e.at', e.code)
  else []

/-- The known step that an early edge belongs to starts from SYNTH, so that the exit before it is the last one made (rule 2 of R270); a
turnaround brings its own exit. -/
def fromSynth (s : State) (p : Nat) (e : FeEdge) : Bool :=
  (knownSteps s p).any fun k => (entryEdges s p k.2.2 k.2.1).contains e && k.2.1 == k.1 + stepLength 2 k.2.2

/-- An early entry edge applies: it overrides the later edges of the exit before it (rules 2 and 3 of R270). -/
def makeEarly (s : State) (p : Nat) (e : FeEdge) : State :=
  let l := (podSt s p).edges
  setFeCode (modPod s p fun x => { x with
    made := (e.at', e.code) :: x.made
    edges := if fromSynth s p e then l.filter fun y => !(y.exit && decide (e.at' ≤ y.at')) else l }) p e.code

/-- FE_PIN_EDGE: the next edge of pod `pod` that is due applies, whatever the pod's state (R270). -/
def execFePinEdge (t pod : Nat) (s : State) : Out :=
  let s := advance t s
  let x := podSt s pod
  .next <|
    match dueEdge s.time.now (x.edges ++ earlyEdges s pod) with
    | none => s
    | some e =>
      if x.edges.contains e then setFeCode (modPod s pod fun x => { x with edges := x.edges.erase e }) pod e.code
      else makeEarly s pod e

/-- A pod's domain is off, or has just turned on: SLEEP with target SLEEP (R437, R439). -/
def resetPod (s : State) (p : Nat) : State :=
  refreshLo (refreshLo (quietPod s p) 0) 1

/-! ## FE serial bus (R274-R277) -/

/-- The chip select of a frame as the profile of its half stands: FECS (0), but in the forerunner profile with CS_EN, for SLAVE 1, FE_B of the
designated path (1 + path); in the native profile FE_B never serves (R10, R275). -/
def fesbSelect (s : State) (c : Cmd) : Nat :=
  let h := p8 c 16
  if flag s (F.RAD_FE_PROF_PROFILE h) && flag s (F.RAD_FE_PROF_CS_EN h) && decide (p8 c 18 = 1) then 1 + getF s (F.RAD_FE_PROF_CS_PATH h) else 0

/-- A frame with the DIV + 1 that a FESB_WRITE keeps from its acceptance, Q bits by the profile as it stands, and its select (R274, R275). -/
def fesbFrame (s : State) (div : Byte) (c : Cmd) : List Byte :=
  [div, BitVec.ofNat 8 (if flag s (F.RAD_FE_PROF_PROFILE (p8 c 16)) then p8 c 17 else 3 + p8 c 17), BitVec.ofNat 8 (fesbSelect s c)]

/-- DIV + 1 of a half; DIV is at least 3 (R274). -/
def fesbDiv (s : State) (h : Nat) : Byte := BitVec.ofNat 8 (max 3 (getF s (F.RAD_FESB_CFG_DIV h)) + 1)

/-- The frame of a pending FESB_WRITE: as it started, or, before, as it would start now (R275). -/
def fesbNow (s : State) (p : Pending) : List Byte :=
  if s.radio.frames.contains p.id then p.src else fesbFrame s (p.src.getD 0 0) p.cmd

/-- Period P and bits Q of a frame. -/
def fesbPeriod (l : List Byte) : Nat := 4 * (l.getD 0 0).toNat
def fesbBits (l : List Byte) : Nat := (l.getD 1 0).toNat

/-- The span of a frame, from its select edge to T + P (R277). -/
def fesbSpan (l : List Byte) (n : Nat) : Nat × Nat := (n - (fesbBits l + 1) * fesbPeriod l, n + fesbPeriod l)

/-- Pending FESB_WRITEs of a half. -/
def fesbPending (s : State) (h : Nat) : List Pending := s.acts.filter fun p => p.cmd.opcode = 0x2C && p8 p.cmd 16 = h

/-- FESB_WRITE (2Ch). -/
def execFesbWrite (t : Nat) (c : Cmd) (s : State) : Out :=
  runCmd t 0x2C c s [] fun s f =>
    let h := p8 c 16
    let fore := flag s (F.RAD_FE_PROF_PROFILE h)
    let bad := decide (1 < h) || decide (p8 c 17 < 8) || decide (32 < p8 c 17) || decide (3 < p8 c 18)
      || (fore && (decide (1 < p8 c 18) || (p8 c 18 = 1 && !flag s (F.RAD_FE_PROF_CS_EN h))))
    let fr := fesbFrame s (fesbDiv s h) c
    let a := fesbSpan fr c.actTick
    let res := if (fesbPending s h).any (fun p => decide (a.1 < (fesbSpan (fesbNow s p) p.tick).2) && decide ((fesbSpan (fesbNow s p) p.tick).1 < a.2))
      then some stNoResource else none
    let keys := [(0x2C, h, 0)]
    match lateChecks s f bad keys res false with
    | some st => reject s f st
    | none => accept s f keys fr

/-- The bits of a frame, most significant first (R274). -/
def fesbWord (l : List Byte) (c : Cmd) : Nat :=
  let w := p32 c 20 % 2 ^ p8 c 17
  if fesbBits l = p8 c 17 then w else p8 c 18 * 2 ^ (p8 c 17 + 1) + 2 ^ p8 c 17 + w

/-- Level of bit i of a frame, from its most significant one (R274). -/
def fesbBit (l : List Byte) (c : Cmd) (i : Nat) : Bool := bitAt (fesbWord l c) (fesbBits l - 1 - i)

/-- The edges of a frame with T at elapsed time `n`, but for the rise of the select at T: the active-low select falls a period and Q bits ahead;
bit i is on FESDO from T - (Q + 1 - i) P; FESCK, low before it, rises half a period after and falls, and FESDO changes, where the next
bit starts; the last period has FESCK low (R274, R275). -/
def fesbEdges (l : List Byte) (c : Cmd) (n : Nat) : List (Nat × FesbPin × Bool) :=
  let q := fesbBits l
  let per := fesbPeriod l
  (n - (q + 1) * per, .select, false) :: (List.range q).flatMap fun i =>
    let a := n - (q + 1 - i) * per
    [(a, .data, fesbBit l c i), (a + per / 2, .clock, true), (a + per, .clock, false)]

/-- A frame goes out as the profile stands now. -/
def startFrame (s : State) (p : Pending) (half : Nat) : State :=
  let fr := fesbNow s p
  emit { s with
      radio := { s.radio with frames := p.id :: s.radio.frames }
      acts := s.acts.map fun q => if q.id = p.id then { q with src := fr } else q }
    (.fesb half (fr.getD 2 0).toNat (fesbEdges fr p.cmd (nowOf s p.tick)))

/-- The rise of the select that ends a frame; one that was FE_B and no longer serves as chip select carries its front-end state again (R10,
R273, R275). -/
def endFrame (s : State) (p : Pending) (half : Nat) : State :=
  let sel := (p.src.getD 2 0).toNat
  let s := { s with radio := { s.radio with frames := s.radio.frames.erase p.id } }
  if sel = 0 || fesbSelect s p.cmd = sel then emit s (.fesb half sel [(nowOf s p.tick, .select, true)]) else s

/-- FESB_FRAME_START: the select of a half falls at T - (Q + 1) P and the frame goes out (R275). -/
def execFesbFrameStart (t half : Nat) (s : State) : Out :=
  let s := advance t s
  .next <|
    match (fesbPending s half).find? fun p => !s.radio.frames.contains p.id && decide ((fesbSpan (fesbNow s p) p.tick).1 ≤ s.time.tick) with
    | none => s
    | some p => startFrame s p half

/-- FESB_FRAME_END: the select rises at T, which the slave takes the word at; `bits` are the last 32 bits sampled on FESDI (R275, R276; log 23
for a shorter frame). -/
def execFesbFrameEnd (t half bits : Nat) (s : State) : Out :=
  let s := advance t s
  .next <|
    match (fesbPending s half).find? fun p => s.radio.frames.contains p.id && decide (p.tick ≤ s.time.tick) with
    | none => s
    | some p => endAct (setN (endFrame s p half) (A.RAD_FESB_RDATA half) (bits % 2 ^ 32)) p stOK p.tick

/-- After an applied SYNC no edge made ahead of its step stands, no frame goes on (R34), and the pods in PATTERN follow the pattern of the new
count (R267). -/
def radioOnSync (s : State) : State :=
  followPattern { s with radio := { s.radio with frames := [], pods := s.radio.pods.map fun x => { x with made := [] } } }

end Sys2Proof.Machine
end

