-- ==== Sys2Proof/Machine/Cal.lean ====
section
/-!
DEFINITION. Calibration jobs and the coexistence wires they use (spec/11_cascade.md R362-R366; spec/07_predistortion.md R230, R235;
spec/08_radio_control.md R278-R281).
-/
namespace Sys2Proof.Machine

def calAt (s : State) (i : Nat) : Option CalJob := assocGet s.cals i

/-- The run of a job changed. -/
def modRun (s : State) (i : Nat) (f : CalRun → CalRun) : State :=
  match calAt s i with
  | some j => { s with cals := assocPut s.cals i { j with run := j.run.map f } }
  | none => s

/-- Running jobs with their slots and runs. -/
def calRuns (s : State) : List (Nat × CalJob × CalRun) := s.cals.filterMap fun x => x.2.run.map fun r => (x.1, x.2, r)

/-- The job emits (R279). -/
def isEmitting (x : Nat × CalJob × CalRun) : Bool := x.2.2.phase == .emitting

/-- The job waits for the grant or for its emission. -/
def isWaiting (x : Nat × CalJob × CalRun) : Bool := x.2.2.phase == .asking || x.2.2.phase == .granted

/-- Jobs of KIND 0, 1 and 3 use the wires (R279). -/
def usesWires (x : Nat × CalJob × CalRun) : Bool := x.2.1.kind != 2

/-! ## Coexistence wires (R278-R281) -/

def coexEn (s : State) : Bool := flag s F.RAD_COEX_EN
def onHk (s : State) : Bool := edgeAtOrAfter s 32 s.time.tick == s.time.tick
def modCoex (s : State) (f : CoexSt → CoexSt) : State := { s with radio := { s.radio with coex := f s.radio.coex } }

/-- A pin is driven to a level from elapsed time `n` on (0 COEX_REQ_O, 1 COEX_PRI_O, 2 COEX_GNT_O). -/
def driveCoex (s : State) (pin : Nat) (level : Bool) (n : Nat) : State :=
  modCoex (emit s (.coexPin pin level n)) fun x => { x with todo := x.todo ++ [(n, pin, level)] }

/-- A rise of a pin that is due at elapsed time `n` does not take place. -/
def undoRise (s : State) (pin n : Nat) : State :=
  modCoex (emit s (.coexPin pin false n)) fun x => { x with todo := x.todo.filter fun y => y != (n, pin, true) }

/-- The bits of RAD.COEX follow the pins whose edge has come. -/
def settleCoex (s : State) : State :=
  let l := s.radio.coex.todo.filter fun x => decide (x.1 ≤ s.time.now)
  l.foldl (fun s x =>
      if x.2.1 = 0 then setFlag s F.RAD_COEX_REQ_O x.2.2 else if x.2.1 = 2 then setFlag s F.RAD_COEX_GNT_O x.2.2 else s)
    (modCoex s fun x => { x with todo := x.todo.filter fun y => decide (s.time.now < y.1) })

/-- Elapsed time of the first CK_HK edge at or after now, and of the first after now. -/
def hkNow (s : State) : Nat := nowOf s (edgeAtOrAfter s 32 s.time.tick)
def hkNext (s : State) : Nat := nowOf s (edgeAfter s 32 s.time.tick)

/-- The ticks for which own jobs are held are counted while COEX_GNT_O is high, from its edge on, and a job waits (R280). -/
def noteHeld (s : State) : State :=
  let holding := s.radio.coex.gntO && (calRuns s).any fun x => usesWires x && isWaiting x
  modCoex s fun x =>
    match x.heldSince with
    | none => if holding then { x with heldSince := some (max s.time.now x.gntAt) } else x
    | some n => if holding then x else { x with heldSince := none, held := x.held + (s.time.now - n) }

/-- REQ_O and PRI_O: raised with a job, lowered at the next CK_HK edge after the last one has ended (R279). -/
def refreshReq (s : State) : State :=
  let busy := coexEn s && (calRuns s).any usesWires
  let x := s.radio.coex
  if busy || !x.reqO then s
  else
    let n := hkNext s
    modCoex (driveCoex (if x.priO then driveCoex s 1 false n else s) 0 false n) fun x => { x with reqO := false, priO := false }

/-- COEX_GNT_O is raised with the pin at elapsed time `n`; jobs that have not begun to emit wait for a new grant (R280). -/
def raiseGnt (s : State) (n : Nat) : State :=
  let s := modCoex (driveCoex s 2 true n) fun x => { x with gntO := true, gntAt := n }
  noteHeld ((calRuns s).foldl (fun s x =>
    if usesWires x && x.2.2.phase == .granted then modRun s x.1 fun r => { r with phase := .asking } else s) s)

/-- The peer may be granted: its request is seen, no own job emits and none of PRIO 1 waits (R280). -/
def mayGrantPeer (s : State) : Bool :=
  coexEn s && flag s F.RAD_COEX_REQ_I && !s.radio.coex.gntO
    && !(calRuns s).any fun x => usesWires x && (isEmitting x || (isWaiting x && x.2.1.prio == 1))

/-- A deferred grant of the peer comes at the next CK_HK edge (R280). -/
def settleGnt (s : State) : State := if mayGrantPeer s then raiseGnt s (hkNext s) else s

/-- Waiting jobs get the grant at tick `g`: COEX_GNT_I is seen high while COEX_GNT_O is low, or the wires are off (R278, R279). -/
def grantJobs (s : State) (g : Nat) : State :=
  if coexEn s && (!flag s F.RAD_COEX_GNT_I || s.radio.coex.gntO) then s
  else (calRuns s).foldl (fun s x =>
    if usesWires x && x.2.2.phase == .asking && decide (g < x.2.2.start + grantTicks x.2.1 + 1) then
      modRun s x.1 fun r => { r with phase := .granted, grantAt := some g, emitAt := g + getF s F.RAD_COEX_START_DELAY }
    else s) s

/-! ## The end of a run -/

/-- A run ends: its ORx goes idle, the wires follow, a deferred grant of the peer may come (R235, R279, R280). -/
def endRun (s : State) (i : Nat) : State :=
  match calAt s i with
  | none => s
  | some j =>
    let s := { s with cals := assocPut s.cals i { j with run := none } }
    let s := (bitsSet (calOrx j) 4).foldl (fun s k => if calHolds s k then s else setF s (F.ORX_STAT_USER k) 0) s
    settleGnt (refreshReq (noteHeld s))

def calHandle (s : State) (i : Nat) : Nat := match calAt s i with | some j => mkHandle 7 j.gen i | none => 0

/-- CAL_DONE is posted and the run ends (R364). -/
def doneRun (s : State) (i result : Nat) : State :=
  endRun (post s evCalDone (evData [(16, 4, calHandle s i), (20, 1, result)])) i

/-- CAL_ABORTED for the job of slot i (R279, R365). -/
def postCalAborted (s : State) (i cause : Nat) : State :=
  post s evCalAborted (evData [(16, 4, calHandle s i), (20, 1, cause)])

/-- CAL_ABORTED is posted and the run ends (R279, R365). -/
def abortRun (s : State) (i cause : Nat) : State :=
  endRun (postCalAborted s i cause) i

/-! ## Commands -/

/-- A mask names only present paths. -/
def pathMask (s : State) (m : Nat) : Bool := maskWithin m (nPaths s)

/-- The mask rules of R362 and R230 hold. -/
def calMasksGood (s : State) (kind tx rx banks : Nat) : Bool :=
  match kind with
  | 0 => tx != 0 && rx != 0 && banks != 0 && pathMask s tx && pathMask s rx
  | 1 => (tx != 0 || rx != 0) && banks != 0 && pathMask s tx && pathMask s rx
  | 2 => tx == 0 && maskWithin rx (nOrx s)
  | 3 => decide (tx ≤ 1) && banks != 0 && pathMask s rx
  | _ => false

/-- CAL_CREATE (30h) (R102, R362). -/
def execCalCreate (t : Nat) (c : Cmd) (s : State) : Out :=
  runCmd t 0x30 c s [] fun s f =>
    let kind := p8 c 16
    let banks := p8 c 20
    let bad := decide (3 < kind) || decide (1 < p8 c 17) || p16 c 18 = 0 || decide (8 < banks)
      || !calMasksGood s kind (p64 c 24) (p64 c 32) banks
    match lowestFree s.cals 16, (if banks = 0 then some 0 else findRun s banks) with
    | some i, some b =>
      immediate s f bad none false fun s =>
        let g := nextGen s 7 i
        let h := mkHandle 7 g i
        let j : CalJob :=
          { gen := g, kind := kind, prio := p8 c 17, grantWait := p16 c 18, bank := b, banks := banks, txMask := p64 c 24,
            rxMask := p64 c 32, run := none }
        (ownBanks { takeGen s 7 i with cals := assocPut s.cals i j } (bankRun b banks) h, h)
    | _, _ => immediate s f bad (some stNoResource) false fun s => (s, 0)

/-- Paths, CAL_IO and ORx that a job uses (R365). -/
def calPaths (j : CalJob) : Nat := if j.kind = 2 then 0 else if j.kind = 3 then j.rxMask else j.txMask ||| j.rxMask
def calUsesIo (j : CalJob) : Bool := j.kind = 1 || (j.kind = 3 && j.txMask = 1)

/-- Two jobs share a path, CAL_IO or an ORx (R365). -/
def calShare (a b : CalJob) : Bool :=
  calPaths a &&& calPaths b != 0 || (calUsesIo a && calUsesIo b) || calOrx a &&& calOrx b != 0

/-- The window of a job started at `n` overlaps that of a pending or running job that shares something with it (R365). -/
def calClash (s : State) (j : CalJob) (n : Nat) : Bool :=
  (runningCals s ++ pendingCals s).any fun x =>
    calShare j x.1 && decide (n < calWindow s x.1 x.2) && decide (x.2 < calWindow s j n)

/-- CAL_START (31h) (R365). -/
def execCalStart (t : Nat) (c : Cmd) (s : State) : Out :=
  runCmd t 0x31 c s [] fun s f =>
    let res := match calAt s (handleIdx c.handle) with
      | some j => if calClash s j c.actTick then some stNoResource else none
      | none => none
    schedulable s f false [(0x31, c.handle, 0)] res false id

/-- CAL_DESTROY (32h): a running job is aborted with CAUSE 0, pending activations of the handle are cancelled, banks go back (R88,
R102, R365). -/
def execCalDestroy (t : Nat) (c : Cmd) (s : State) : Out :=
  runCmd t 0x32 c s [] fun s f =>
    immediate s f false none false fun s =>
      let i := handleIdx c.handle
      let s := match calAt s i with | some j => if j.run.isSome then abortRun s i 0 else s | none => s
      let s := cancelNaming s c.handle
      (releaseBanks { s with cals := assocDel s.cals i } c.handle, 0)

/-! ## Runs -/

/-- The jobs of a filter wait for the grant anew. -/
def askAgain (s : State) (f : CalRun → Bool) : State :=
  (calRuns s).foldl (fun s x => if usesWires x && f x.2.2 then modRun s x.1 fun r => { r with phase := .asking, grantAt := none } else s) s

/-- A rise of COEX_GNT_O at this edge or the next does not take place: a job of PRIO 1 starts by then (R281), or the peer's request has gone
(R280; log 24). Jobs that it set back have their grant. -/
def holdPeer (s : State) : State :=
  let s := modCoex (undoRise s 2 s.radio.coex.gntAt) fun y => { y with gntO := false, heldSince := none }
  (calRuns s).foldl (fun s y => if usesWires y && y.2.2.phase == .asking && y.2.2.grantAt.isSome then
    modRun s y.1 fun r => { r with phase := .granted } else s) (setFlag s F.RAD_COEX_GNT_O false)

/-- The observation receivers have power and clocks (R436). -/
def orxClocked (s : State) : Bool := domainOn s 15 && isActive s

/-- The runs that hold an ORx are aborted with CAUSE 0: the observation receivers lose their power or clocks (R436, R437; log 60). -/
def abortOrxRuns (s : State) : State := ((calRuns s).filter fun x => calOrx x.2.1 != 0).foldl (fun s x => abortRun s x.1 0) s

/-- A job starts at tick T: KIND 2 holds its ORx (R230); any other raises COEX_REQ_O with its PRIO and waits for the grant (R279,
R281). One that needs an ORx while the receivers are without power or clocks is aborted at once (log 60). -/
def startCalRun (s : State) (i : Nat) (j : CalJob) (n : Nat) : State :=
  let r : CalRun :=
    { start := n, phase := if j.kind = 2 then .image else .asking, grantAt := none, emitAt := n, step := 0, records := 0, bad := false }
  let s := { s with cals := assocPut s.cals i { j with run := some r } }
  let s := (bitsSet (calOrx j) (nOrx s)).foldl (fun s k => takeOrx s k 1) s
  if j.kind = 2 then s
  else if !coexEn s then grantJobs s (edgeAtOrAfter s 32 n)
  else
    let e := hkNow s
    let s := modCoex (driveCoex (driveCoex s 1 (j.prio = 1) e) 0 true e) fun x => { x with reqO := true, priO := j.prio = 1 }
    let s := if j.prio = 1 && s.radio.coex.gntO && decide (e ≤ s.radio.coex.gntAt) then holdPeer s else s
    grantJobs (noteHeld s) (edgeAtOrAfter s 32 n)

/-- CAL_START at its tick: a job that runs already completes the activation with CANCELLED (R97). -/
def actCalStart (s : State) (p : Pending) : State × Nat :=
  let i := handleIdx p.cmd.handle
  match calAt s i with
  | none => (s, stCancelled)
  | some j =>
    if j.run.isSome then (s, stCancelled)
    else if calOrx j != 0 && !orxClocked s then (postCalAborted s i 0, stOK)
    else (startCalRun s i j p.tick, stOK)

/-- COEX_GNT_I_SEEN: a level is seen at a CK_HK edge: waiting jobs are granted; at a low level a job that was to be granted at this very edge
waits on, emitting jobs are aborted, one that has emitted since EN was 0 among them (R279). -/
def execCoexGntISeen (t : Nat) (level : Bool) (s : State) : Out :=
  let s := settleCoex (advance t s)
  .next <|
    if !coexEn s || !onHk s then s
    else
      let s := setFlag s F.RAD_COEX_GNT_I level
      if level then grantJobs s s.time.tick
      else
        let s := askAgain s fun r => (r.phase == .granted || r.phase == .emitting) && r.grantAt == some s.time.tick
        ((calRuns s).filter fun x => usesWires x && isEmitting x).foldl (fun s x => abortRun s x.1 2) s

/-- COEX_REQ_I_SEEN: a change of the level is seen at a CK_HK edge (R280). A job of PRIO 0 that starts at this very edge gives way
(R281). A grant whose rise has not come before the request is seen low is never made (log 24). -/
def execCoexReqISeen (t : Nat) (level : Bool) (s : State) : Out :=
  let s := settleCoex (advance t s)
  .next <|
    if !coexEn s || !onHk s || flag s F.RAD_COEX_REQ_I = level then s
    else
      let s := setFlag s F.RAD_COEX_REQ_I level
      if level then (if mayGrantPeer s then settleCoex (raiseGnt s s.time.now) else s)
      else if s.radio.coex.gntO && decide (s.time.now ≤ s.radio.coex.gntAt) then grantJobs (holdPeer s) s.time.tick
      else if s.radio.coex.gntO then
        let s := noteHeld (modCoex (driveCoex s 2 false s.time.now) fun x => { x with gntO := false })
        let s := post s evCoexPeerGranted (evData [(16, 4, s.radio.coex.held)])
        grantJobs (askAgain (settleCoex (modCoex s fun x => { x with held := 0, heldSince := none })) (·.phase == .asking)) s.time.tick
      else s

/-- A write of RAD.COEX.EN or START_DELAY: with EN at 0 every output is low, the inputs are ignored and waiting requests are granted
(R278). -/
def writeCoex (s : State) (data : Nat) : State :=
  let was := coexEn s
  let s := settleCoex s
  let s := setF (setF s F.RAD_COEX_EN (bitsOf data 0 1)) F.RAD_COEX_START_DELAY (bitsOf data 1 15)
  if was && !coexEn s then
    let n := hkNow s
    let x := s.radio.coex
    let s := (x.todo.filter (·.2.2)).foldl (fun s y => undoRise s y.2.1 y.1) s
    let s := if x.reqO then driveCoex s 0 false n else s
    let s := if x.priO then driveCoex s 1 false n else s
    let s := if x.gntO then driveCoex s 2 false n else s
    let s := setFlag (setFlag s F.RAD_COEX_GNT_I false) F.RAD_COEX_REQ_I false
    grantJobs (noteHeld (modCoex s fun x => 
      { x with reqO := false, priO := false, gntO := false, held := 0, heldSince := none })) (edgeAtOrAfter s 32 s.time.tick)
  else s

/-- GRANT_WAIT_EXPIRY: no grant has come within GRANT_WAIT of T (R279). -/
def execGrantWaitExpiry (t job : Nat) (s : State) : Out :=
  let s := settleCoex (advance t s)
  .next <|
    match calAt s job with
    | some j => match j.run with
      | some r => if r.phase == .asking && decide (r.start + grantTicks j ≤ s.time.tick) then doneRun s job 1 else s
      | none => s
    | none => s

/-- CAL_EMISSION_START: START_DELAY after the grant the job emits, unless the peer is granted; a grant that has gone by then aborts it
at once (R279, R280). -/
def execCalEmissionStart (t job : Nat) (s : State) : Out :=
  let s := settleCoex (advance t s)
  .next <|
    match calAt s job with
    | some j => match j.run with
      | some r =>
        if r.phase == .granted && decide (r.emitAt ≤ s.time.tick) && !s.radio.coex.gntO then
          let s := modRun s job fun r => { r with phase := .emitting }
          if coexEn s && !flag s F.RAD_COEX_GNT_I then abortRun s job 2 else s
        else s
      | none => s
    | none => s

/-- Receivers of a step, ascending; 0xFE is CAL_IO (R362). -/
def receivers (j : CalJob) (step : Nat) : List Nat :=
  match j.kind with
  | 0 => bitsSet j.rxMask 64
  | 1 => if (emitters j).getD step 0 = 0xFE then bitsSet j.rxMask 64 else [0xFE]
  | 3 => bitsSet j.rxMask 64
  | _ => []

/-- A calibration record (R364): `m` is STATUS, PHASE, DELAY and GAIN as measured. -/
def calRecord (src dst : Nat) (m : Nat × Nat × Nat × Nat) : List Byte :=
  [BitVec.ofNat 8 src, BitVec.ofNat 8 dst, BitVec.ofNat 8 (m.1 % 3), 0] ++ leBytes 2 m.2.1 ++ leBytes 2 m.2.2.1 ++ leBytes 2 m.2.2.2
    ++ List.replicate 6 0

/-- CAL_STEP_END: the step's records are written in ascending receiver order and the next step follows (R363, R364). `meas` holds what
each receiver measured. -/
def execCalStepEnd (t job : Nat) (meas : List (Nat × Nat × Nat × Nat)) (s : State) : Out :=
  let s := settleCoex (advance t s)
  .next <|
    match calAt s job with
    | some j => match j.run with
      | some r =>
        if r.phase == .emitting && decide (r.step < stepsOf j) && decide (r.emitAt + stepTicks s ≤ s.time.tick) then
          let l := receivers j r.step
          let src := (emitters j).getD r.step 0xFE
          let recs := (List.range l.length).map fun i => calRecord src (l.getD i 0) (meas.getD i (0, 0, 0, 0))
          let s := { s with store := memWrite s.store (524288 * j.bank + 16 * r.records) recs.flatten }
          modRun s job fun r => { r with
            step := r.step + 1
            emitAt := r.emitAt + stepTicks s
            records := r.records + l.length
            bad := r.bad || (List.range l.length).any fun i => (meas.getD i (0, 0, 0, 0)).1 % 3 != 0 }
        else s
      | none => s
    | none => s

/-- Steps after which a run is over; the one step of KIND 2 ends with ORX_IMAGE_CAL_END. -/
def runSteps (j : CalJob) : Nat := if j.kind = 2 then 1 else stepsOf j

/-- CAL_DONE: a run whose last step has ended ends with RESULT 0, or 2 if a record has a nonzero STATUS (R364). -/
def execCalDone (t job : Nat) (s : State) : Out :=
  let s := settleCoex (advance t s)
  .next <|
    match calAt s job with
    | some j => match j.run with
      | some r =>
        if (r.phase == .emitting || r.phase == .image) && decide (runSteps j ≤ r.step) then doneRun s job (if r.bad then 2 else 0) else s
      | none => s
    | none => s

/-- ORX_IMAGE_CAL_END: 1,966,080 ticks after its start a KIND 2 job writes g and dc to ORX(k).IRC of each of its ORx (R230); `found`
holds the two words of each, ascending. -/
def execOrxImageCalEnd (t job : Nat) (found : List (Nat × Nat)) (s : State) : Out :=
  let s := settleCoex (advance t s)
  .next <|
    match calAt s job with
    | some j => match j.run with
      | some r =>
        if r.phase == .image && r.step == 0 && decide (r.start + 1966080 ≤ s.time.tick) then
          let l := bitsSet (calOrx j) 4
          let s := (List.range l.length).foldl (fun s i =>
            let v := found.getD i (0, 0)
            setN (setN s (A.ORX_IRC (l.getD i 0)) v.1) (A.ORX_IRC_1 (l.getD i 0)) v.2) s
          modRun s job fun r => { r with step := 1 }
        else s
      | none => s
    | none => s

end Sys2Proof.Machine
end

