-- ==== Sys2Proof/Machine/Lanes.lean ====
section
/-!
DEFINITION. The serial lanes: enabling, the search for block lock, alignment markers and lane masks, the latency test, power states,
equaliser, loops and lane-level fault injection (spec/09_serial_lanes.md R283-R308; spec/10_bxl_protocol.md R311).
-/
namespace Sys2Proof.Machine

/-! ## Lanes -/

/-- The own mask of R293. -/
def ownMask (s : State) (q : Nat) : Nat :=
  ((List.range 16).map fun l =>
    if laneRuns s q l && isAligned s q l && !isDead s q l && getF s (F.LANE_STATUS_PSTATE q l) = 0 && !flag s (F.LANE_STATUS_LAT_ERR q l)
        && getF s (F.LANE_CTRL_LOOP q l) != 3 && !laneDown s q l 1 && !(lane s q l).rejoins then 2 ^ l else 0).sum

def showOwn (s : State) (q : Nat) : State := setF s (F.LN_PORT_MASKS_OWN q) (ownMask s q)

def popCount (w x : Nat) : Nat := (bitsSet x w).length

/-! ## Sync-header bursts (R306, R308) -/

/-- Headers that a KIND 6 injector has corrupted once `n` blocks have passed. -/
def headersInjected (x : Injector) (n : Nat) : Nat :=
  let begun := min (if x.arg2 % 2 ^ 31 = 0 then n else x.arg2 % 2 ^ 31) (ceilDiv n (max 1 x.arg1))
  if begun = 0 then 0
  else (begun - 1) * popCount 64 x.pattern + popCount 64 (x.pattern % 2 ^ min 64 (n - (begun - 1) * x.arg1))

/-- The sync-header injectors of a port are accounted up to now: the lane's INJ, the slot's COUNT and FI_EVENT. One that has had its last burst
is active no more, and stays only for the blocks of it that are still to be delivered. -/
def settleHeaders (s : State) (q : Nat) : State :=
  (List.range 8).foldl (fun s j =>
    match injAt s q j with
    | none => s
    | some x =>
      if x.kind = 6 then
        let u := injUnits s q x
        let c := headersInjected x (u / 33)
        let s := satAdd (setInj s q j (some { x with seen := c, units := u, upTo := s.time.now })) (F.LANE_SH_ERR_INJ q x.lane) (c - x.seen)
        let s := countInjected s q j (c - x.seen)
        if x.arg2 % 2 ^ 31 ≠ 0 && decide ((x.arg2 % 2 ^ 31 - 1) * x.arg1 + 64 ≤ u / 33) then setFlag s (F.BXL_FI_1_ACTIVE q j) false else s
      else s) s

/-- Those of every port, before what a lane sends or receives changes. -/
def settleInjectors (s : State) : State := settleHeaders (settleHeaders (settleHeaders s 0) 1) 2

/-- The most invalid headers among `n` blocks of a lane: with block lock, fewer than 16 in any 64 (R287). -/
def mostErrors (s : State) (q l n : Nat) : Nat := if isLocked s q l then min n (15 * ceilDiv n 64) else n

/-- The blocks with invalid headers that a receiving lane has had since the last count, beside those that rows bring, are counted: with block
lock, on a port that is DOWN and between the packets too (R288; log 26). -/
def settleSearch (s : State) (q l : Nat) : State :=
  let x := lane s q l
  let s := if laneReceives s q l && !isDead s q l then
      satAdd s (F.LANE_SH_ERR_NAT q l)
        (min (mostErrors s q l (blocksIn s q (s.time.now - x.errorsAt))) (Config.searchErrors q l x.errorsAt s.time.now))
    else s
  modLane s q l fun x => { x with errorsAt := s.time.now }

/-! ## The set in use (R294, R295) -/

/-- Lanes needed for UP. -/
def minLanes (s : State) (q : Nat) : Nat := max 1 (min 16 (getF s (F.LN_PORT_CTRL_MIN_LANES q)))

/-- The set in use and the state of the port that follows from it; PORT_STATE at every change. A port that goes DOWN discards what is
queued (R295). -/
def setInUse (s : State) (q mask : Nat) : State :=
  let n := popCount 16 mask
  let up := decide (minLanes s q ≤ n)
  let was := portUp s q
  if mask = getF s (F.LN_PORT_STATUS_IN_USE q) && up = was then s
  else
    let s := setFlag (setF (setF s (F.LN_PORT_STATUS_IN_USE q) mask) (F.LN_PORT_STATUS_LANES q) n) (F.LN_PORT_STATUS_UP q) up
    let s :=
      if was && !up then
        let s := satAdd (satAdd s (F.LN_PORT_STAT_DOWN q) 1) (F.LN_PORT_STAT_OVERRUN q) (port s q).queue.length
        modPort s q fun p => { p with queue := [], rest := [], opened := none, owed := (0, 0) }
      else s
    let s := post s evPortState (evData [(16, 1, q), (17, 1, if up then 1 else 0), (18, 2, mask)])
    if q = 2 && was != up then childPortChanged s else s

/-! ## Search and lock (R287-R291) -/

/-- Block lock and alignment end, without a count. -/
def dropLock (s : State) (q l : Nat) : State :=
  showOwn (setFlag (setFlag s (F.LANE_STATUS_BLOCK_LOCK q l) false) (F.LANE_STATUS_ALIGNED q l) false) q

/-- The search of a lane starts (R289); a lane-down injected on the receive side holds its timer (R290). -/
def startSearch (s : State) (q l : Nat) : State :=
  if laneRuns s q l && !isDead s q l && getF s (F.LANE_STATUS_PSTATE q l) != 2 then
    let n := s.time.now
    modLane s q l fun x => { x with search := some n, errorsAt := n, pausedAt := if laneDown s q l 1 then some n else none }
  else s

/-- A lane that no longer runs: electrical idle, receiver off (R285). -/
def laneOff (s : State) (q l : Nat) : State :=
  modLane (setFlag (dropLock s q l) (F.LANE_STATUS_SIG q l) false) q l fun x =>
    { x with search := none, pausedAt := none, bad := 0, line := none, rejoins := false, looped := [] }

/-- The free marker count of a port runs anew if none of its other lanes sends (R286). -/
def restartCount (s : State) (q : Nat) (starting : Nat → Bool) : State :=
  if (List.range 16).any (fun l => laneSends s q l && !starting l) || !(List.range 16).any (fun l => laneRuns s q l && starting l) then s
  else modPort s q fun p => { p with countFrom := s.time.now, mark := none }

/-- Lanes of a port follow after what runs them has changed; a port without a running lane has no lane in use. -/
def lanesFollow (s : State) (q : Nat) (starting : Nat → Bool) : State :=
  let s := (List.range 16).foldl (fun s l =>
    if !laneRuns s q l then laneOff s q l
    else if starting l then startSearch s q l else s) (restartCount s q starting)
  if (List.range 16).any (fun l => laneRuns s q l) then s
  else setInUse (modPort s q fun p => { p with mark := none, round := none, sent := 0, runs := [] }) q 0

/-- LANE_PLL_LOCK: every enabled lane starts to transmit and to search (R285, R289). -/
def execLanePllLock (t : Nat) (s : State) : Out :=
  let s := settleInjectors (advance t s)
  .next <|
    if flag s F.TIME_CLK_CTRL_LANE_EN && s.time.counting && !s.time.laneUp then
      let s := setFlag { s with time := { s.time with laneUp := true } } F.TIME_CLK_STATUS_LANE_LOCK true
      (List.range 3).foldl (fun s q => lanesFollow s q fun _ => true) s
    else s

/-- The lane PLL has been switched off (R29). -/
def lanePllOff (s : State) : State :=
  let s := settleInjectors s
  let s := setFlag { s with time := { s.time with laneUp := false } } F.TIME_CLK_STATUS_LANE_LOCK false
  (List.range 3).foldl (fun s q => lanesFollow s q fun _ => false) s

/-- A domain of lanes has been switched (R437); the injectors were settled before. -/
def laneDomainChanged (s : State) (d : Nat) : State :=
  (if d = 16 then [0] else [1, 2]).foldl (fun s q => lanesFollow s q fun _ => true) s

/-- BLOCK_LOCK: 64 valid sync headers in a row; `nat` more invalid ones came before (R287). A lane in a near-end loop locks on what it sends,
whatever its RX pins show, a parallel one at position 0 (R303). -/
def execBlockLock (t port lane nat : Nat) (s : State) : Out :=
  let s := advance t s
  .next <|
    if laneReceives s port lane && !isLocked s port lane && !isDead s port lane && (!nearEnd s port lane || laneSends s port lane) then
      let s := satAdd s (F.LANE_SH_ERR_NAT port lane) nat
      let s := if getF s (F.LANE_CTRL_LOOP port lane) = 2 then setF s (F.LANE_STATUS_POS port lane) 0 else s
      let s := setFlag (setFlag s (F.LANE_STATUS_BLOCK_LOCK port lane) true) (F.LANE_STATUS_SIG port lane)
        (!nearEnd s port lane || flag s (F.LANE_STATUS_SIG port lane))
      let n := s.time.now
      let s := modLane s port lane fun x => { x with search := none, bad := 0, errorsAt := n }
      post s evLaneLocked (evData [(16, 1, port), (17, 1, lane), (18, 1, getF s (F.LANE_STATUS_POS port lane))])
    else s

/-- BLOCK_LOCK_LOSS: 16 invalid headers in 64, or signal detect has fallen; a new search starts (R287, R289). -/
def execBlockLockLoss (t port lane nat : Nat) (signal : Bool) (s : State) : Out :=
  let s := advance t s
  .next <|
    if isLocked s port lane then
      let s := satAdd (satAdd s (F.LANE_SH_ERR_NAT port lane) nat) (F.LANE_LINK_ERR_LOCK_LOSS port lane) 1
      startSearch (setFlag (dropLock s port lane) (F.LANE_STATUS_SIG port lane)
        (if nearEnd s port lane then flag s (F.LANE_STATUS_SIG port lane) else signal)) port lane
    else s

/-- D of R290. -/
def dwellTicks (s : State) (q : Nat) : Nat := 256 * max 1 (getF s (F.LN_PORT_SLIP_DWELL_DWELL q))

/-- LANE_DEAD: no lock at S + 66 x D (R290); `signal` is what signal detect shows (R291). -/
def execLaneDead (t port lane : Nat) (signal : Bool) (s : State) : Out :=
  let s := advance t s
  let x := Sys2Proof.Machine.lane s port lane
  .next <|
    match x.search with
    | none => s
    | some n =>
      if x.pausedAt.isNone && !isLocked s port lane && decide (n + 66 * dwellTicks s port ≤ s.time.now) then
        let s := modLane s port lane fun x => { x with search := none }
        let s := setFlag (setFlag s (F.LANE_STATUS_DEAD port lane) true) (F.LANE_STATUS_SIG port lane) signal
        post (showOwn s port) evLaneDead (evData [(16, 1, port), (17, 1, lane)])
      else s

/-- LANE.STATUS.SIG as read: none while the receiver is off or down by injection; the receiver of a DEAD lane goes on reporting signal, and
what it finds at RX pins that a near-end loop ignores is not known (R287, R291, R303, R304, R307). -/
def signalShown (s : State) (q l : Nat) : Bool :=
  laneReceives s q l && if isDead s q l || nearEnd s q l then Config.laneSignal q l s.time.now else flag s (F.LANE_STATUS_SIG q l)

/-! ## LANE.CTRL and PORT_CTRL (R285, R288, R289, R302, R303) -/

/-- The lane restarts its search. -/
def researchLane (s : State) (q l : Nat) : State := startSearch (dropLock s q l) q l

/-- A write of LANE.CTRL. -/
def writeLaneCtrl (s : State) (q l data : Nat) : State :=
  let s := settleSearch (settleHeaders s q) q l
  let en := flag s (F.LANE_CTRL_EN q l)
  let loop := getF s (F.LANE_CTRL_LOOP q l)
  let adapt := flag s (F.LANE_CTRL_ADAPT q l)
  let s := setF (setF s (F.LANE_CTRL_PEAK q l) (bitsOf data 16 4)) (F.LANE_CTRL_ADAPT q l) (bitsOf data 12 1)
  let s := setF (setF s (F.LANE_CTRL_LOOP q l) (bitsOf data 4 2)) (F.LANE_CTRL_EN q l) (bitsOf data 0 1)
  let s := if bitAt data 12 && adapt then s
    else modLane (setF s (F.LANE_STATUS_PEAK_NOW q l) (bitsOf data 16 4)) q l fun x => { x with stepAt := s.time.now }
  let s :=
    if en && !bitAt data 0 then lanesFollow s q fun _ => false
    else if !en && bitAt data 0 then lanesFollow (setFlag s (F.LANE_STATUS_DEAD q l) false) q fun x => x = l
    else s
  let s := if loop != bitsOf data 4 2 then researchLane (modLane s q l fun x => { x with line := none, looped := [] }) q l else s
  let s := if bitAt data 8 then
      let s := setF (setFlag s (F.LANE_STATUS_DEAD q l) false) (F.LANE_STATUS_POS q l) 0
      researchLane s q l
    else s
  let s := if bitAt data 9 && !isLocked s q l && !isDead s q l then
      setN (setF s (F.LANE_STATUS_POS q l) ((getF s (F.LANE_STATUS_POS q l) + 1) % 66)) (A.LANE_SH_ERR q l) 0
    else s
  showOwn s q

/-- A write of PORT_CTRL. -/
def writePortCtrl (s : State) (q data : Nat) : State :=
  let s := settleHeaders s q
  let en := flag s (F.LN_PORT_CTRL_EN q)
  let pam := getF s (F.LN_PORT_CTRL_PAM4 q)
  let s := setF (setF s (F.LN_PORT_CTRL_MIN_LANES q) (bitsOf data 8 5)) (F.LN_PORT_CTRL_FIXED q) (bitsOf data 2 1)
  let s := setF (if q = 0 then s else setF s (F.LN_PORT_CTRL_PAM4 q) (bitsOf data 1 1)) (F.LN_PORT_CTRL_EN q) (bitsOf data 0 1)
  let s := if !en && bitAt data 0 then
      lanesFollow ((List.range 16).foldl (fun s l =>
        if flag s (F.LANE_CTRL_EN q l) then setFlag s (F.LANE_STATUS_DEAD q l) false else s) s) q fun _ => true
    else if en && !bitAt data 0 then lanesFollow s q fun _ => false
    else s
  let s := if pam != getF s (F.LN_PORT_CTRL_PAM4 q) then
      (List.range 16).foldl (fun s l => researchLane s q l) (modPort s q fun p => { p with countFrom := p.mark.getD p.countFrom })
    else s
  showOwn (setInUse s q (getF s (F.LN_PORT_STATUS_IN_USE q))) q

/-- A write of LANE.CTRL of a lane, or of PORT_CTRL of a port; it counts under R89. -/
def writeLanes (t q : Nat) (lane : Option Nat) (data : Nat) (s : State) : Out :=
  byWrite t s fun s =>
    if 3 ≤ q then s
    else match lane with
      | none => writePortCtrl s q data
      | some l => if l < 16 then writeLaneCtrl s q l data else s

/-- SLIP: a write of LANE.CTRL with SLIP at 1 (R288). -/
def execSlip (t port lane data : Nat) (s : State) : Out := writeLanes t port (some lane) data s

/-- RESTART: a write of LANE.CTRL with RESTART at 1 (R289, R291). -/
def execRestart (t port lane data : Nat) (s : State) : Out :=
  let s := advance t s
  writeLanes t port (some lane) data s

/-- LANE_LOOP_WRITE: a write of LANE.CTRL that changes LOOP, or of PORT_CTRL that changes PAM4 (R284, R303). -/
def execLaneLoopWrite (t port : Nat) (lane : Option Nat) (data : Nat) (s : State) : Out := writeLanes t port lane data s

/-- LANE_ENABLE_CHANGE: a write of LANE.CTRL or PORT_CTRL that changes EN (R285, R289, R291). -/
def execLaneEnableChange (t port : Nat) (lane : Option Nat) (data : Nat) (s : State) : Out :=
  let s := advance t s
  writeLanes t port lane data s

/-! ## Lane-down (R306, R307) -/

/-- A lane-down starts: on the receive side the fall of signal takes a lock, which counts in LOCK_LOSS (R287, R307). -/
def beginLaneDown (s : State) (q j l side : Nat) : State :=
  let s := satAdd (countInjected s q j 1) (F.LANE_SH_ERR_INJ q l) 1
  let s := if side = 0 then modLane s q l fun x => { x with line := none } else s
  if side = 1 then
    let n := s.time.now
    let was := isLocked s q l
    let s := dropLock (if was then satAdd s (F.LANE_LINK_ERR_LOCK_LOSS q l) 1 else s) q l
    modLane s q l fun x => { x with search := if was then some n else x.search, pausedAt := some (x.pausedAt.getD n) }
  else s

/-- An injector of a lane stops: a lane-down ends, and the timer of R290 goes on (R306, R307). -/
def stopLaneInj (s : State) (q j : Nat) : State :=
  match injAt s q j with
  | none => s
  | some x =>
    let s := stopInj (settleHeaders s q) q j
    if x.kind = 5 && x.arg2 / 2 ^ 31 == 1 && !laneDown s q x.lane 1 then
      modLane s q x.lane fun y =>
        { y with
          search := match y.search, y.pausedAt with | some a, some b => some (a + (s.time.now - b)) | a, _ => a
          pausedAt := none }
    else s

/-- LANE_DOWN_END: the duration of an injected lane-down has run out (R307). -/
def execLaneDownEnd (t port slot : Nat) (s : State) : Out :=
  let s := advance t s
  .next <|
    match injAt s port slot with
    | some x => if x.kind = 5 && x.arg1 != 0 && decide (x.start + 1024 * x.arg1 ≤ s.time.now) then stopLaneInj s port slot else s
    | none => s

/-! ## Markers (R286, R292-R299, R311) -/

/-- P_M of R286: 16,384 blocks. -/
def markerTicks (s : State) (q : Nat) : Nat := if flag s (F.LN_PORT_CTRL_PAM4 q) then 16896 else 33792

/-- Markers lie on the grid of R286. -/
def isFixed (s : State) (q : Nat) : Bool := flag s (F.LN_PORT_CTRL_FIXED q) && tickValid s

/-- The largest grid tick at or before a tick. -/
def gridTick (s : State) (q a : Nat) : Nat := a - (a - s.time.origin) % markerTicks s q

/-- Elapsed time of a tick that has passed. -/
def timeOf (s : State) (n : Nat) : Nat := s.time.now - (s.time.tick - n)

/-- A marker is due (R286): at the first block boundary from the grid tick on, or a whole number of marker periods after its free count
began. -/
def markerDue (s : State) (q : Nat) : Bool :=
  (List.range 16).any (fun l => laneRuns s q l) &&
    if isFixed s q then
      let g := gridTick s q s.time.tick
      decide (s.time.tick < g + 3) && (match (port s q).mark with | none => true | some m => decide (m < timeOf s g))
    else decide ((port s q).countFrom ≤ s.time.now) && (s.time.now - (port s q).countFrom) % markerTicks s q == 0
      && (match (port s q).mark with | none => true | some m => decide (m < s.time.now))

/-- The marker that a lane sends, if it sends, behind the block before it (R311): after the idle blocks since the last block dealt to it. -/
def markerLine (s : State) (q own l : Nat) : Option (LineBlock × LineBlock) :=
  (lineBefore s q l).map fun p =>
    let idles := match (port s q).mark with
      | none => 0
      | some m => blocksIn s q (s.time.now - m) - 1 - laneShare (lanesInUse s q) 0 (port s q).dealt l
    let p := afterIdles idles p
    let b := toLine p { control := true, bytes := markerBytes q l own (lane s q l).count }
    ({ header := 0, line := p }, withHit b (headerHit s q l 0 0))

/-- A lane after a marker of its port. -/
def afterMarker (x : LaneSt) (near : Bool) (b : Option (LineBlock × LineBlock)) : LaneSt :=
  { x.sent near ((b.map fun y => [y.1, y.2]).getD [], b.map (·.2.line)) with
    leave := x.leave.map fun y => (y.1, y.2 - 1)
    count := if b.isSome then (x.count + 1) % 256 else x.count }

/-- MARKER_SEND: the port's lanes send a marker with the own mask; the transmit set follows, and the blocks of the stream that the marker
parted are dealt over it (R293, R294, R310, R311). Lanes that leave L0 count it (R304). -/
def execMarkerSend (t port : Nat) (s : State) : Out :=
  let s := settleHeaders (advance t s) port
  .next <|
    if !markerDue s port then s
    else
      let s := showOwn s port
      let rest := (Sys2Proof.Machine.port s port).rest
      let own := getF s (F.LN_PORT_MASKS_OWN port)
      let out := (List.range 16).map (markerLine s port own)
      let s := emit s (.marker port own (out.zipIdx.filterMap fun x => x.1.map fun b => (x.2, b.2)))
      let s := modPort s port fun p => { p with
        mark := some s.time.now
        sent := own
        dealt := 0
        rest := []
        lanes := p.lanes.zipIdx.map fun x => afterMarker x.1 (nearEnd s port x.2) (out.getD x.2 none) }
      let t := setInUse s port (own &&& getF s (F.LN_PORT_MASKS_FAR port))
      if portUp t port then sendBlocks t port rest else t

/-- An invalid or missing marker: after three in a row the lane loses alignment (R292). -/
def badMarker (s : State) (q l : Nat) : State :=
  let s := satAdd s (F.LANE_LINK_ERR_MARKER_ERR q l) 1
  let s := modLane s q l fun x => { x with bad := x.bad + 1 }
  if 3 ≤ (lane s q l).bad then showOwn (setFlag s (F.LANE_STATUS_ALIGNED q l) false) q else s

/-- The marker arriving now passes the latency test of R297 or R298. -/
def latencyGood (s : State) (q l : Nat) : Bool :=
  if bitAt (port s q).skip l then true
  else if isFixed s q then
    decide (s.time.tick ≤ gridTick s q s.time.tick + max 128 (getF s (F.LN_PORT_LAT_LATENCY q)) - 48)
  else match (port s q).round with
    | some r => decide (s.time.now ≤ r + 512)
    | none => true

/-- A far-end loop retransmits what its lane receives, 24 ticks after the CDR, at which the first of these blocks was at elapsed time `n`
(R303); not while its transmitter or its receiver is off (R304, R307). -/
def loopBack (s : State) (q l n : Nat) (b : List LineBlock) : State :=
  if laneDrives s q l && laneReceives s q l && getF s (F.LANE_CTRL_LOOP q l) == 3 && !b.isEmpty then emit s (.retransmit q l (n + 24) b) else s

/-- What a lane in a near-end loop receives is a run of what it has sent; the first block only fills the descrambler (R303). -/
def canReceive (s : State) (q l : Nat) (b : List LineBlock) : Bool :=
  !nearEnd s q l || decide (b.length < 2) || (lane s q l).looped.any fun r => (List.range r.length).any fun i =>
    let r := (r.drop i).take b.length
    r.length == b.length && (r.map (·.line)).take 1 == (b.map (·.line)).take 1 && r.drop 1 == b.drop 1

/-- A marker with mask `mask` that has passed its test sets when and over which lanes the blocks after it are delivered: in FIXED mode
LATENCY after its grid tick, else 48 ticks after the latest marker of the round on a lane of the set (R294, R296, R298). `again` is a later
marker of a round; `l` its lane. -/
def setRun (s : State) (q l mask : Nat) (again : Bool) : State :=
  let fixed := isFixed s q
  let start := if fixed then timeOf s (gridTick s q s.time.tick) + max 128 (getF s (F.LN_PORT_LAT_LATENCY q)) else s.time.now + 48
  modPort s q fun p => { p with runs := match p.runs with
    | x :: r =>
      if if fixed then x.1 == start else again then (if fixed || bitAt (mask &&& p.sent) l then start else x.1, mask &&& p.sent) :: r
      else (start, mask &&& p.sent) :: [x]
    | [] => [(start, mask &&& p.sent)] }

/-- A marker of 8 bytes on a locked lane (R292-R298). -/
def takeMarker (s : State) (q l : Nat) (m : List Byte) : State :=
  if !markerValid m then badMarker s q l
  else
    let s := modLane s q l fun x => { x with bad := 0, markerAt := s.time.now }
    let s := setF (setF s (F.BXL_RX_5_MARKER_INFO_ROLE q) (m.getD 5 0).toNat) (F.BXL_RX_5_MARKER_INFO_VER q) (m.getD 4 0).toNat
    if (m.getD 1 0).toNat ≠ l then
      showOwn (setFlag (setFlag s (F.LANE_STATUS_ID_ERR q l) true) (F.LANE_STATUS_ALIGNED q l) false) q
    else
      let s := setFlag (setFlag s (F.LANE_STATUS_ID_ERR q l) false) (F.LANE_STATUS_ALIGNED q l) true
      let n := s.time.now
      let again := match (port s q).round with | some r => decide (n < r + markerTicks s q / 2) | none => false
      let s := if again then s else modPort s q fun p => { p with round := some n }
      let good := latencyGood s q l
      let s := modPort s q fun p => { p with skip := p.skip - (if bitAt p.skip l then 2 ^ l else 0) }
      let s := setFlag (if good then s else satAdd s (F.LANE_LINK_ERR_LAT_VIOL q l) 1) (F.LANE_STATUS_LAT_ERR q l) (!good)
      let mask := leNat ((m.drop 2).take 2)
      let s := modLane s q l fun x => { x with rejoins := x.rejoins && !good }
      let s := showOwn (setF s (F.LN_PORT_MASKS_FAR q) mask) q
      if good then setRun s q l mask again else s

/-- MARKER_RECEIVE: a control block arrives where a marker stands, scrambled, after the line bits `before` (R292-R298, R309). One whose
header an injection spoils is no marker (R308). -/
def execMarkerReceive (t port lane : Nat) (before line : BitVec 64) (s : State) : Out :=
  let s := settleHeaders (advance t s) port
  .next <|
    if !(laneRuns s port lane && isLocked s port lane && !isDead s port lane && decide (port < 3) && decide (lane < 16)
        && canReceive s port lane [{ header := 0, line := before }, { header := syncHeader true, line := line }]) then s
    else
      let s := loopBack s port lane s.time.now [{ header := syncHeader true, line := line }]
      if headerHit s port lane 1 (-1) then badMarker s port lane
      else takeMarker s port lane (blockBytes (descramble before line))

/-- MISSING_MARKER: no marker where the far end's count places it (R292). -/
def execMissingMarker (t port lane : Nat) (s : State) : Out :=
  let s := settleHeaders (advance t s) port
  .next (if laneRuns s port lane && isLocked s port lane && !isDead s port lane then badMarker s port lane else s)

/-- After an applied SYNC the next latency test of every lane is suspended, and the marker grid has moved (R297, R299). -/
def lanesOnSync (s : State) : State := { s with ports := s.ports.map fun p => { p with skip := 0xFFFF, round := none } }

/-! ## Power states (R304, R305) -/

/-- The state a lane is in or heads to. -/
def laneHeading (s : State) (q l : Nat) : Nat :=
  match (lane s q l).leave, (lane s q l).exit with
  | some y, _ => y.1
  | none, some _ => 0
  | none, none => getF s (F.LANE_STATUS_PSTATE q l)

/-- A lane enters L1 or LD: in LD its receiver is off (R304). -/
def enterPower (s : State) (q l st : Nat) : State :=
  let s := settleHeaders s q
  let s := modLane (setF s (F.LANE_STATUS_PSTATE q l) st) q l fun x =>
    { x with leave := none, exit := none, line := none, rejoins := false, looped := [] }
  if st = 2 then modLane (dropLock s q l) q l fun x => { x with search := none } else showOwn s q

/-- A lane is moved to a state: from L0 it leaves the own mask now and enters the state after the next marker and two more; to L0 its
exit takes the time of R304. -/
def moveLane (s : State) (q l st : Nat) : State :=
  if laneHeading s q l = st then s
  else
    match (lane s q l).leave, (lane s q l).exit with
    | some _, _ =>
      if st = 0 then showOwn (modLane (setF s (F.LANE_STATUS_PSTATE q l) 0) q l fun x => { x with leave := none }) q
      else modLane s q l fun x => { x with leave := x.leave.map fun y => (st, y.2) }
    | none, some _ => enterPower s q l st
    | none, none =>
      let now := getF s (F.LANE_STATUS_PSTATE q l)
      if now = 0 then showOwn (modLane (setF s (F.LANE_STATUS_PSTATE q l) 3) q l fun x => { x with leave := some (st, 3) }) q
      else if st = 0 then
        modLane (setF s (F.LANE_STATUS_PSTATE q l) 3) q l fun x =>
          { x with exit := some (s.time.now + (if now = 2 then 147456 else 1967), now) }
      else enterPower s q l st

/-- LANE_STATE takes effect. -/
def applyLaneState (s : State) (c : Cmd) : State := (bitsSet (p16 c 18) 16).foldl (fun s l => moveLane s (p8 c 16) l (p8 c 20)) s

/-- LANE_STATE (49h) (R304). -/
def execLaneState (t : Nat) (c : Cmd) (s : State) : Out :=
  runCmd t 0x49 c s [] fun s f =>
    schedulable s f (decide (2 < p8 c 16) || decide (2 < p8 c 20))
      ((bitsSet (p16 c 18) 16).map fun l => (0x49, p8 c 16, l)) none false fun s => applyLaneState s c

/-- LANE_POWER_ENTRY: the markers of R304 have been sent. -/
def execLanePowerEntry (t port lane : Nat) (s : State) : Out :=
  let s := advance t s
  .next <|
    match (Sys2Proof.Machine.lane s port lane).leave with
    | some (st, 0) => enterPower s port lane st
    | _ => s

/-- LANE_POWER_EXIT_END: the exit to L0 has ended; from LD the lane searches again, and from either state it joins the own mask at its first
marker; a port whose other lanes do not send counts its markers from here (R286, R289, R305). -/
def execLanePowerExitEnd (t port lane : Nat) (s : State) : Out :=
  let s := advance t s
  .next <|
    match (Sys2Proof.Machine.lane s port lane).exit with
    | some (n, from') =>
      if n ≤ s.time.now then
        let s := settleHeaders s port
        let s := modLane (setF s (F.LANE_STATUS_PSTATE port lane) 0) port lane fun x => { x with exit := none, rejoins := true }
        let s := restartCount s port fun l => l == lane
        if from' = 2 then startSearch s port lane else showOwn s port
      else s
    | none => s

/-- EQUALISER_ADAPT_STEP: the adaptation moves peaking by one step, at most once in 983,040 ticks (R302). -/
def execEqualiserAdaptStep (t port lane : Nat) (up : Bool) (s : State) : Out :=
  let s := advance t s
  .next <|
    if laneRuns s port lane && flag s (F.LANE_CTRL_ADAPT port lane) && getF s (F.LANE_STATUS_PSTATE port lane) != 2
        && decide ((Sys2Proof.Machine.lane s port lane).stepAt + 983040 ≤ s.time.now) then
      let p := getF s (F.LANE_STATUS_PEAK_NOW port lane)
      modLane (setF s (F.LANE_STATUS_PEAK_NOW port lane) (if up then min 15 (p + 1) else p - 1)) port lane fun x =>
        { x with stepAt := s.time.now }
    else s

end Sys2Proof.Machine
end

