-- ==== Sys2Proof/Machine/Beam.lean ====
section
/-!
DEFINITION. Weight sets and the weight memory: creation, loading, activation with its checks, prefetch and staged copy, swap and
release (spec/04_beam_engine.md R120-R134, R509).
-/
namespace Sys2Proof.Machine

def setAt (s : State) (i : Nat) : Option WeightSet := assocGet s.beam.sets i
def putSet (s : State) (i : Nat) (w : WeightSet) : State := { s with beam := { s.beam with sets := assocPut s.beam.sets i w } }

/-- Bytes of a set (R118). -/
def bytesOf (w : WeightSet) : Nat := 256 * colsOf w

/-- DRAM address of a library slot (R124). -/
def libAddr (s : State) (slot : Nat) : Nat := get64 s A.BEAM_LIB_BASE A.BEAM_LIB_BASE_1 + 131072 * slot

/-- Start of the fill window of an activation (R127). -/
def fillStart (slot tick : Nat) : Nat := if isLib slot then tick - 49152 else tick - 4096

/-- Columns held in a staged bank of a direction, with those being loaded (R121, R123). -/
def stagedCols (s : State) (d b : Nat) : Nat :=
  ((s.beam.sets.filter fun x => x.2.dir = d && (x.2.bank == some b || s.beam.loads.any fun y => y.2 = (x.1, b))).map fun x => colsOf x.2).sum

/-- A set is in the active bank: active, or an old set whose columns are not yet freed (R125, R131). -/
def inActive (s : State) (slot : Nat) : Bool :=
  s.beam.active.any (fun x => x.slot = slot) || s.beam.leaving.any (fun x => x.slot = slot)

/-- A set is in the shadow bank: a fill window of it is open (R121, R127). -/
def inShadow (s : State) (slot : Nat) : Bool :=
  s.beam.fills.any fun x => x.slot = slot && (x.started || decide (fillStart slot x.tick ≤ s.time.tick))

/-- WS_CREATE (18h) (R120, R509). -/
def execWsCreate (t : Nat) (c : Cmd) (s : State) : Out :=
  runCmd t 0x18 c s [(1, p32 c 24)] fun s f =>
    let slot := p16 c 16
    let d := p8 c 18
    let l := p8 c 19
    let sl := p8 c 20
    let bad := decide (8255 < slot) || decide (1 < d) || decide (l < 1) || decide (64 < l) || decide (4 < sl) || decide (512 < l * 2 ^ sl)
      || (match carrierAt s (handleIdx (p32 c 24)) with
          | some x => x.sLog2 != sl || !carries x d
          | none => true)
      || (isLib slot && decide (getF s F.BEAM_LIB_CTRL_SLOTS ≤ slot))
    immediate s f bad (if (setAt s slot).isSome then some stNoResource else none) false fun s =>
      let g := nextGen s 3 slot
      (putSet (takeGen s 3 slot) slot { gen := g, dir := d, l := l, sLog2 := sl, carrier := p32 c 24, bank := none, data := [] },
        mkHandle 3 g slot)

/-- The staged bank that a load of a set goes to: the one that holds it or that another load of it goes to, or the first of the two with enough
free columns (R123; which of two with room it is, the spec does not say: log 53). -/
def stagedFor (s : State) (slot : Nat) (w : WeightSet) : Option Nat :=
  match w.bank, s.beam.loads.find? (fun y => y.2.1 = slot) with
  | some b, _ => some b
  | none, some y => some y.2.2
  | none, none => (List.range 2).find? fun b => decide (stagedCols s w.dir b + colsOf w ≤ 512)

/-- WS_LOAD (19h): checks 1 to 10; the source data is read before the completion (R98, R123-R125). -/
def execWsLoad (t : Nat) (c : Cmd) (s : State) : Out :=
  runCmd t 0x19 c s [] fun s f =>
    let slot := handleIdx c.handle
    match setAt s slot with
    | none => s
    | some w =>
      let bad := decide (p64 c 24 % 4 ≠ 0) || regionBad (p8 c 16) (p64 c 24) (bytesOf w)
      let bank := stagedFor s slot w
      let res := if !isLib slot && bank.isNone then some stNoResource
        else if inActive s slot || inShadow s slot || s.beam.fills.any (fun x => x.slot = slot) then some stBusy else none
      let down := regionDown s (p8 c 16) (p64 c 24) (bytesOf w)
        || (isLib slot && regionDown s 2 (libAddr s slot) (bytesOf w))
      match lateChecks s f bad [] res down with
      | some st => reject s f st
      | none =>
        let s := setStage s f.id .running
        let s := if isLib slot then s
          else { s with beam := { s.beam with loads := s.beam.loads ++ [(f.id, slot, bank.getD 0)] } }
        if p8 c 16 = 0 then readSource s f (p64 c 24) (bytesOf w) else s

/-- The load of a flight no longer holds room in a staged bank. -/
def dropLoad (s : State) (id : Nat) : State :=
  { s with beam := { s.beam with loads := s.beam.loads.filter (fun x => x.1 != id) } }

/-- The loads of a set that is destroyed hold no room any more. -/
def dropLoads (s : State) (slot : Nat) : State :=
  { s with beam := { s.beam with loads := s.beam.loads.filter (fun x => x.2.1 != slot) } }

/-- The source data of a WS_LOAD has arrived: an on-chip-only set is in its staged bank, a library set is copied to its slot; the
command completes (R98, R123, R124). `host` is what host memory answered. A set that was destroyed meanwhile ends it with BAD_HANDLE
(log 54); where its source or its library slot lies in DRAM and the port is untrained by then, it ends with MEM_DOWN (R124, R408). -/
def wsLoadArrived (s : State) (f : Flight) (host : List Byte) : State :=
  let slot := handleIdx f.cmd.handle
  match setAt s slot with
  | none => reject (dropLoad s f.id) f stBadHandle
  | some w =>
   if w.gen != handleGen f.cmd.handle then reject (dropLoad s f.id) f stBadHandle
   else if !dramTrained s && (p8 f.cmd 16 = 2 || isLib slot) then reject (dropLoad s f.id) f stMemDown
   else
    let addr := p64 f.cmd 24
    let data := if p8 f.cmd 16 = 0 then host.take (bytesOf w)
      else if p8 f.cmd 16 = 1 then memRead s.store addr (bytesOf w) else memRead s.dram addr (bytesOf w)
    let bank := (s.beam.loads.find? (fun x => x.1 = f.id)).map (·.2.2) <|> w.bank
    let s := dropLoad s f.id
    let s := if isLib slot then { s with dram := memWrite s.dram (libAddr s slot) data }
      else showCols (putSet s slot { w with bank := bank, data := data }) w.dir
    complete s f 0

/-- A WS_LOAD whose source read fails writes nothing (R98). -/
def wsLoadFailed (s : State) (f : Flight) (status : Nat) : State :=
  reject (dropLoad s f.id) f status

/-- Columns that a direction needs in the active bank when `cols` more are pending for carrier `i` (R122). -/
def columnNeed (s : State) (i d cols : Nat) : Nat :=
  ((List.range 8).map fun j =>
    let act := match activeOf s j d with | some x => x.cols | none => 0
    let pend := ((s.beam.fills.filter fun x => x.carrier = j && x.dir = d).map (·.cols)).foldl max 0
    max (max act pend) (if i = j then cols else 0)).sum

/-- Shadow columns reserved over any part of the window [a, n) in a direction (R122). -/
def shadowNeed (s : State) (d a n : Nat) : Nat :=
  ((s.beam.fills.filter fun x => x.dir = d && decide (fillStart x.slot x.tick < n) && decide (a < x.tick)).map (·.cols)).sum

/-- Two ticks of library sets are equal or 122,880 apart (R129). -/
def libApart (a b : Nat) : Bool := a = b || decide (a + 122880 ≤ b) || decide (b + 122880 ≤ a)

/-- The resource tests of a WS_ACTIVATE (R122, R128, R129). -/
def activateFits (s : State) (slot i d cols n : Nat) : Bool :=
  decide (columnNeed s i d cols ≤ 512) && decide (shadowNeed s d (fillStart slot n) n + cols ≤ 512)
    && (s.beam.fills.all fun x => x.carrier != i || x.dir != d || decide (n ≤ fillStart x.slot x.tick) || decide (x.tick ≤ fillStart slot n))
    && (!isLib slot
        || ((s.beam.fills.all fun x => !isLib x.slot || x.dir != d || libApart x.tick n)
            && s.beam.libTicks.all fun y => y.1 != d || libApart y.2 n))

/-- A rate change of the DRAM port runs, and the prefetch window of an activation at `n` would open before its latest end (R413,
R414). -/
def changeBars (s : State) (n : Nat) : Bool :=
  match s.memc.change with
  | some (start, _) => decide (n < s.time.tick + (start + 3933 - s.time.now) + 49152)
  | none => false

/-- WS_ACTIVATE (1Ah): accepted with the fill of the shadow bank that its tick fixes (R122, R126-R129, R414). -/
def execWsActivate (t : Nat) (c : Cmd) (s : State) : Out :=
  runCmd t 0x1A c s [] fun s f =>
    let slot := handleIdx c.handle
    match setAt s slot with
    | none => s
    | some w =>
      let i := handleIdx w.carrier
      let keys := [(0x1A, i, w.dir)]
      let res := if activateFits s slot i w.dir (colsOf w) c.actTick && !(isLib slot && changeBars s c.actTick) then none
        else some stNoResource
      match lateChecks s f (!isLib slot && w.bank.isNone) keys res false with
      | some st => reject s f st
      | none =>
        let fill : Fill :=
          { id := f.id, slot := slot, carrier := i, dir := w.dir, cols := colsOf w, tick := c.actTick, started := false,
            done := false, failed := false, down := false, data := [] }
        accept { s with beam := { s.beam with fills := s.beam.fills ++ [fill] } } f keys []

/-- WS_DESTROY (1Bh): BUSY while the set is in the active or shadow bank; otherwise its slot and staged columns are freed
(R105). -/
def execWsDestroy (t : Nat) (c : Cmd) (s : State) : Out :=
  runCmd t 0x1B c s [] fun s f =>
    let slot := handleIdx c.handle
    immediate s f false (if inActive s slot || inShadow s slot then some stBusy else none) false fun s =>
      (showAllCols (cancelNaming (dropLoads { s with beam := { s.beam with sets := assocDel s.beam.sets slot } } slot) c.handle), 0)

/-- The first fill of a carrier and direction that satisfies a test, changed. -/
def modFill (s : State) (i d : Nat) (p : Fill → Bool) (g : Fill → Fill) : State :=
  match s.beam.fills.find? (fun x => x.carrier = i && x.dir = d && p x) with
  | none => s
  | some x => { s with beam := { s.beam with fills := s.beam.fills.map fun y => if y.id = x.id then g y else y } }

/-- PREFETCH_START: at T - 49,152 the fetch of a library set starts; an untrained port fails it (R127, R130). -/
def execPrefetchStart (t carrier dir : Nat) (s : State) : Out :=
  let s := advance t s
  let down := !dramTrained s
  .next (showCols (modFill s carrier dir (fun x => isLib x.slot && !x.started && decide (x.tick ≤ s.time.tick + 49152))
    fun x => { x with started := true, down := down }) dir)

/-- A library fetch that may complete now: started, not failed, inside its window (R127, R130). -/
def fetchOpen (s : State) (x : Fill) : Bool :=
  isLib x.slot && x.started && !x.done && !x.failed && !x.down && decide (s.time.tick + 4096 ≤ x.tick)

/-- PREFETCH_COMPLETE: the fetch completes inside its window with what the library slot holds then (R124, R127; at which tick of the window
each byte is read, the spec does not say: log 53). -/
def execPrefetchComplete (t carrier dir : Nat) (s : State) : Out :=
  let s := advance t s
  match s.beam.fills.find? (fun x => x.carrier = carrier && x.dir = dir && fetchOpen s x) with
  | none => .next s
  | some x =>
    if !dramTrained s then .next s
    else
      .next (throughPort true (fun s =>
        let data := memRead s.dram (libAddr s x.slot) (256 * x.cols)
        wrapAdd (modFill s carrier dir (fun y => y.id = x.id) fun y => { y with done := true, data := data }) F.BEAM_PREFETCH_DONE 1) s)

/-- DRAM_PREFETCH_LATE: at T - 4,096 a fetch that has not completed has failed (R130). -/
def execDramPrefetchLate (t carrier dir : Nat) (s : State) : Out :=
  let s := advance t s
  let open' := fun (x : Fill) => isLib x.slot && !x.done && !x.failed && decide (x.tick ≤ s.time.tick + 4096)
  match s.beam.fills.find? (fun x => x.carrier = carrier && x.dir = dir && open' x) with
  | none => .next s
  | some x =>
    let g := match setAt s x.slot with | some w => w.gen | none => 0
    let down := !dramTrained s
    let s := modFill s carrier dir (fun y => y.id = x.id) fun y => { y with failed := true, down := y.down || down }
    .next (post (satAdd s F.BEAM_PREFETCH_LATE 1) evDramPrefetchLate (evData [(16, 4, mkHandle 3 g x.slot)]))

/-- STAGED_COPY_START: at T - 4,096 the copy of an on-chip-only set into the shadow bank starts; it completes before T (R123,
R127). -/
def execStagedCopyStart (t carrier dir : Nat) (s : State) : Out :=
  let s := advance t s
  let due := fun (x : Fill) => !isLib x.slot && !x.started && decide (x.tick ≤ s.time.tick + 4096)
  match s.beam.fills.find? (fun x => x.carrier = carrier && x.dir = dir && due x) with
  | none => .next s
  | some x =>
    let data := match setAt s x.slot with | some w => w.data | none => []
    .next (showCols (modFill s carrier dir (fun y => y.id = x.id) fun y => { y with started := true, done := true, data := data }) dir)

/-- A weight-set activation reaches its tick: a failed library fetch ends it with MEM_DOWN or FETCH_TIMEOUT and keeps the active
set; otherwise the set is active, its layers map from slice block B on, and the old set's columns stay until B + 7SK (R129-R132,
R134). -/
def actWsActivate (s : State) (p : Pending) : State × Nat :=
  match s.beam.fills.find? (fun x => x.id = p.id) with
  | none => (s, stCancelled)
  | some x =>
    let s := if isLib x.slot then { s with beam := { s.beam with libTicks := s.beam.libTicks ++ [(x.dir, p.tick)] } } else s
    if isLib x.slot && !x.done then (s, if x.down then stMemDown else stFetchTimeout)
    else match carrierAt s x.carrier, setAt s x.slot with
      | some _, some w =>
        let s := countUnmapped s p.tick
        let old := activeOf s x.carrier x.dir
        let data := if x.done then x.data else w.data
        let new : ActiveSet :=
          { carrier := x.carrier, dir := x.dir, slot := x.slot, cols := x.cols, layers := w.l,
            mapped := old.bind fun y => mappedAt s y p.tick, mapAt := some p.tick, data := data }
        let s := { s with beam := { s.beam with
          active := s.beam.active.filter (fun y => y.carrier != x.carrier || y.dir != x.dir) ++ [new]
          fills := s.beam.fills.filter (fun y => y.id != x.id)
          leaving := match old with
            | some o => s.beam.leaving ++ [{ carrier := x.carrier, dir := x.dir, slot := o.slot, cols := o.cols, after := p.tick }]
            | none => s.beam.leaving } }
        (showCols (setN s (A.BEAM_ACTIVE_WS x.carrier x.dir) (mkHandle 3 w.gen x.slot)) x.dir, stOK)
      | _, _ => (s, stCancelled)

/-- WEIGHT_SET_SWAP: from slice block B on the new set applies (R131). -/
def execWeightSetSwap (t carrier dir : Nat) (s : State) : Out :=
  let s := advance t s
  let s := countUnmapped s s.time.tick
  .next { s with beam := { s.beam with active := s.beam.active.map fun x =>
    if x.carrier = carrier && x.dir = dir && (match mapBlock s x with | some b => decide (b ≤ s.time.tick) | none => false)
    then { x with mapped := some x.layers, mapAt := none } else x } }

/-- B + 7SK of an old set, as the settings of its carrier stand (R131). -/
def freeTick (s : State) (x : Leaving) : Nat := (swapBlock s x.carrier x.after).1 + 7 * (swapBlock s x.carrier x.after).2

/-- OLD_SET_FREED: at B + 7SK the old set's columns in the active bank are freed (R131). -/
def execOldSetFreed (t carrier dir : Nat) (s : State) : Out :=
  let s := advance t s
  .next (showCols { s with beam := { s.beam with leaving := s.beam.leaving.filter fun x =>
    !(x.carrier = carrier && x.dir = dir && decide (freeTick s x ≤ s.time.tick)) } } dir)

/-- A carrier's active set in a direction is released, with the columns of an old set that is still leaving (R132; log 53). -/
def releaseActive (s : State) (i d : Nat) : State :=
  let s := countUnmapped s s.time.tick
  showCols (setN { s with beam := { s.beam with
    active := s.beam.active.filter (fun x => x.carrier != i || x.dir != d)
    leaving := s.beam.leaving.filter (fun x => x.carrier != i || x.dir != d) } } (A.BEAM_ACTIVE_WS i d) 0) d

/-- What an applied SYNC does to the weights: fills are abandoned, swaps end at the origin, active and staged sets stay (R131,
R133). -/
def beamOnSync (s : State) : State :=
  showAllCols { s with beam := { s.beam with
    fills := []
    leaving := []
    unmappedFrom := s.time.origin
    active := s.beam.active.map fun x => match x.mapAt with
      | some _ => { x with mapped := some x.layers, mapAt := none }
      | none => x } }

end Sys2Proof.Machine
end

