-- ==== Sys2Proof/Machine/Tx.lean ====
section
/-!
DEFINITION. The transmit path's commands and events: crest factor settings, path enables, the tests of a downlink packet, the
decision of a slot, DL_LATE at frame boundaries and echo records (spec/05_transmit_path.md R152-R158, R174, R177-R181, R510;
spec/03_commands.md R109).
-/
namespace Sys2Proof.Machine

/-- CFR_SET (22h): ENABLE and PAPR of every path of the mask (R174). -/
def applyCfrSet (s : State) (c : Cmd) : State :=
  (bitsSet (p64 c 16) 64).foldl (fun s n =>
    setF (setF s (F.TXP_CFR_ENABLE n) (p8 c 24)) (F.TXP_CFR_PAPR n) (p16 c 26)) s

def execCfrSet (t : Nat) (c : Cmd) (s : State) : Out :=
  runCmd t 0x22 c s [] fun s f =>
    schedulable s f (!maskWithin (p64 c 16) (nPaths s) || decide (1 < p8 c 24) || decide (p16 c 26 < 65) || decide (95 < p16 c 26))
      ((bitsSet (p64 c 16) 64).map fun n => (0x22, n, 0)) none false fun s => applyCfrSet s c

/-- TXP(n).CTRL written: with EN at 0 the path drives DAC code 0 and its stages 5-12 are held cleared (R177). -/
def writeTxCtrl (s : State) (path data : Nat) : State :=
  let was := getF s (F.TXP_CTRL_EN path)
  let s := setF s (F.TXP_CTRL_EN path) (bitsOf data 0 1)
  if was = bitsOf data 0 1 then s else emit s (.txEnable path (bitAt data 0))

/-- TXP_CTRL_WRITE: a write of TXP(n).CTRL; registers of absent paths ignore it (R7, R177). -/
def execTxpCtrlWrite (t path data : Nat) (s : State) : Out :=
  byWrite t s fun s => if pathPresent s path then writeTxCtrl s path data else s

/-! ## Packets (R152-R155, R510) -/

/-- The settings, with their packet origin, under which a packet of first-sample tick `n` is tested: those of the changes accepted whose first
new-rate sample lies at or before it, else those in force, in which a change has put its own from its first new-rate sample on (R510). -/
def settingsFor (s : State) (i : Nat) (x : Carrier) (n : Nat) : Carrier :=
  let y := carrierAhead s i x
  { y with was := y.was.filter fun z => decide (s.time.tick < z.2.1) }.atTick n

/-- A packet slot's tests in order: 0 accepted, 1 misaligned, 2 early, 3 late, 4 duplicate (R155). -/
def packetTest (s : State) (c : Carrier) (x : Stream) (n a : Nat) : Nat :=
  let d := dDl c 0
  if ((n : Int) - (c.grid : Int)) % ((1024 * c.k : Nat) : Int) ≠ 0 then 1
  else if gridUp s c.k (a + d) + (bufferCap c.k - 1) * c.k < n + 1023 * c.k then 2
  else if n < a + d + 1024 then 3
  else if (slotAt x c n).written then 4
  else 0

/-- A slot of a stream changed. -/
def modSlot (s : State) (i n : Nat) (c : Carrier) (f : Slot → Slot) : State :=
  modStream s i fun x => putSlot x (f (slotAt x c n))

/-- DL_PACKET_ARRIVAL: the first packet that awaits the tests of R155 is dropped and counted at the first test it fails, or is
written whole; MARGIN_MIN records the least margin in units of 64 ticks. -/
def execDlPacketArrival (t : Nat) (s : State) : Out :=
  let s := advance t s
  match s.arrivals with
  | [] => .next s
  | p :: l =>
    let s := { s with arrivals := l }
    match streamAt s p.stream with
    | none => .next s
    | some x =>
      match carrierAt s x.carrier with
      | none => .next s
      | some c0 =>
        let c := settingsFor s x.carrier c0 p.first
        .next <|
          match packetTest s c x p.first p.arrival with
          | 1 => satAdd s (F.TXP_DLB_MISC_MISALIGNED p.stream) 1
          | 2 => modSlot (satAdd s (F.TXP_DLB_DROP_EARLY p.stream) 1) p.stream p.first c fun y => { y with dropped := true }
          | 3 => modSlot (satAdd s (F.TXP_DLB_ERR_LATE p.stream) 1) p.stream p.first c fun y => { y with late := true }
          | 4 => satAdd s (F.TXP_DLB_DROP_DUPLICATE p.stream) 1
          | _ =>
            let margin := (p.first - dDl c 0 - 1024 - p.arrival) / 64
            let s := modSlot s p.stream p.first c fun y => { y with written := true, data := p.data }
            let s := modStream s p.stream fun x =>
              { x with firstAccepted := some (x.firstAccepted.getD p.first) }
            setF s (F.TXP_DLB_MISC_MARGIN_MIN p.stream) (min (getF s (F.TXP_DLB_MISC_MARGIN_MIN p.stream)) margin)

/-! ## Slots (R156, R157, R109) -/

/-- Block j of a slot lies wholly inside DL segments (R179). -/
def blockInDl (s : State) (y : Slot) (j : Nat) : Bool := (List.range 16).all fun i => inDl s (y.first + (16 * j + i) * y.k)

/-- The tick at which the last sample of a slot is read out (R156). -/
def slotReadOut (c : Carrier) (n : Nat) : Nat := n + 1023 * c.k - dDl c 0

/-- The last sample of a slot at `n` under the settings `c` would be read out at or after the restart that ends their grid: its samples are
skipped (R163). -/
def skippedSlot (z c : Carrier) (n : Nat) : Bool :=
  match gridEnd z c.grid with | some g => decide (g ≤ slotReadOut c n + 160) | none => false

/-- SLOT_DECIDED: at the read-out of its last sample the slot of stream `stream` at first-sample tick `first` is written, late or
missing, when it has a required block and does not lie before the stream's first accepted packet (R157). -/
def execSlotDecided (t stream first : Nat) (s : State) : Out :=
  let s := advance t s
  match streamAt s stream with
  | none => .next s
  | some x =>
    match carrierAt s x.carrier with
    | none => .next s
    | some z =>
      let c := (carrierAhead s x.carrier z).atTick first
      let y := slotAt x c first
      if x.dir != 0 || x.orphan.isSome || y.decided.isSome || skippedSlot (carrierAhead s x.carrier z) c first || decide (first < c.grid) || (first - c.grid) % (1024 * c.k) != 0
          || decide (s.time.tick < slotReadOut c first) then .next s
      else
        let req := blockMask (blockRequired s c first)
        let counted := match x.firstAccepted with | some a => decide (a ≤ first) | none => false
        let res := if req = 0 then 3 else if y.written then 0 else if !counted then 3 else if y.late then 1 else 2
        let s := modSlot s stream first c fun y => { y with decided := some res, required := req }
        let s := if res = 2 then satAdd s (F.TXP_DLB_ERR_MISSING stream) 1 else s
        .next <|
          if res = 1 || res = 2 then
            modStream s stream fun x =>
              { x with badSlots := x.badSlots + 1, firstBad := if x.badSlots = 0 then (first - c.grid) / (1024 * c.k) % 2 ^ 16 else x.firstBad }
          else s

/-- FRAME_BOUNDARY: at a frame boundary DL_LATE is posted for each stream with slots decided late or missing in the frame that
ends (R109). -/
def execFrameBoundary (t : Nat) (s : State) : Out :=
  let s := advance t s
  if s.time.tick % frameTicks ≠ 0 then .next s
  else
    .next <| s.streams.foldl (fun s x =>
      if x.2.badSlots = 0 then s
      else
        let s := post s evDlLate (evData [(16, 4, mkHandle 2 x.2.gen x.1), (20, 4, x.2.badSlots), (24, 2, x.2.firstBad)])
        modStream s x.1 fun x => { x with badSlots := 0, firstBad := 0 }) s

/-! ## The DL echo (R179-R181) -/

/-- A span of ticks meets one of the listed spans. -/
def meetsSpan (l : List (Nat × Nat)) (a b : Nat) : Bool := l.any fun x => decide (x.1 ≤ b) && decide (a < x.2)

/-- Block j of a slot meets a spoilt span. -/
def blockSpoilt (l : List (Nat × Nat)) (y : Slot) (j : Nat) : Bool := meetsSpan l (y.first + 16 * j * y.k) (y.first + (16 * j + 15) * y.k)

/-- The echo record of a slot: its pips and its causes, bit 0 late, 1 missing, 2 dropped, 3 change, 4 gate (R179-R181, R332). -/
def echoRecord (s : State) (c : Carrier) (y : Slot) : EchoRecord :=
  let change := blockMask (blockSpoilt c.dlSpans y)
  let gate := if c.dir = 0 then blockMask (fun j => !blockInDl s y j) else 0
  let lost := if y.written then 0 else 2 ^ 64 - 1
  { due := s.time.now
    first := y.first
    pips := change ||| gate ||| lost
    cause := (if y.decided = some 1 then 1 else 0) + (if y.decided = some 2 then 2 else 0) + (if y.dropped then 4 else 0)
      + (if change ≠ 0 then 8 else 0) + (if gate ≠ 0 then 16 else 0) }

/-- The record of a slot is due: it is decided and has a required block, and its last sample has passed the DAC output of every path (R181). -/
def echoDue (s : State) (y : Slot) : Bool :=
  !y.echoed && y.decided.isSome && y.required != 0 && decide (y.first + 1023 * y.k + y.k * (delayMax s 0 / 64) ≤ s.time.tick)

/-- ECHO_RECORD: once a decided slot with a required block has passed the DAC output of every path, its record falls due (R181); in IDLE none is
to be sent (R442). -/
def execEchoRecord (t stream first : Nat) (s : State) : Out :=
  let s := advance t s
  match streamAt s stream with
  | none => .next s
  | some x =>
    match carrierAt s x.carrier, x.slots.find? (fun y => y.first = first && echoDue s y) with
    | some c, some y =>
      if x.orphan.isSome then .next s
      else
        .next <| modStream s stream fun x => { putSlot x { y with echoed := true } with
          echoes := if isActive s then x.echoes ++ [echoRecord s c y] else x.echoes }
    | _, _ => .next s

end Sys2Proof.Machine
end

