-- ==== Sys2Proof/Machine/Streams.lean ====
section
/-!
DEFINITION. Streams: creation and destruction with their leases, orphans, the uplink packets with their pips, and what a port sends
(spec/10_bxl_protocol.md R319, R322, R326-R331; spec/06_receive_path.md R188, R210, R211; spec/09_serial_lanes.md R301).
-/
namespace Sys2Proof.Machine

/-- Bit j of a 32-bit word of four set or cleared (BXL.LEASE_ACK, BXL.ORPHAN). -/
def setBitOf (s : State) (f : Nat → Fld) (j : Nat) (b : Bool) : State :=
  setF s (f (j / 32)) (putBits (getF s (f (j / 32))) (j % 32) 1 (if b then 1 else 0))

/-! ## Creation and destruction (R326, R331, R345) -/

/-- The first packet slot of a carrier that starts at or after tick `n` (R152, R188). -/
def slotFrom (c : Carrier) (n : Nat) : Nat := c.grid + ceilDiv (n - c.grid) (1024 * c.k) * (1024 * c.k)

/-- The lowest free stream slot of a direction: 0-63 downlink, 64-127 uplink (R86, R87). -/
def freeStream (s : State) (d : Nat) : Option Nat := (List.range 64).map (64 * d + ·) |>.find? fun i => (assocGet s.streams i).isNone

/-- STREAM_CREATE (14h). -/
def execStreamCreate (t : Nat) (c : Cmd) (s : State) : Out :=
  let h := p32 c 20
  runCmd t 0x14 c s (if isMember s then [] else [(6, h)]) fun s f =>
    let member := isMember s
    let d := p8 c 16
    let layer := p8 c 17
    let fmt := p8 c 18
    let i := handleIdx c.handle
    match carrierAt s i with
    | none => s
    | some x =>
      let p := partnerAt s (handleIdx h)
      let known := match p with | some p => bitAt p.formats fmt && !(p.ver = 1 && fmt = 2) | none => true
      let bad := decide (1 < d) || decide (63 < layer) || decide (2 < fmt) || !carries x d || (isMember s && h != 0)
        || (!isMember s && !known) || s.streams.any (fun y => y.2.carrier = i && y.2.dir = d && y.2.layer = layer)
      let k := smallestK s i x
      let excess := !budgetsHold s d ((k, fmt) :: directionLoad s d i k)
      let lost := !isMember s && match p with | some p => p.lost | none => false
      match freeStream s d with
      | none => immediate s f bad (some stNoResource) false fun s => (s, 0)
      | some j =>
        immediate s f bad (if excess then some stNoResource else if lost then some stBusy else none) false fun s =>
          let g := nextGen s 2 j
          let y : Stream :=
            { gen := g, carrier := i, dir := d, layer := layer, format := fmt, partner := h, acked := false, grant := (x.k, x.grid, 0),
              orphan := none, orphanEnd := none, newest := none, slots := [], firstAccepted := none, badSlots := 0, firstBad := 0,
              echoes := [], ulNext := slotFrom x s.time.tick, ulOld := [], ulSeq := 0, newOrigin := false }
          let s := putStream (takeGen (countUnmapped s s.time.tick) 2 j) j y
          let s := setBitOf (setBitOf s (fun w => F.BXL_LEASE_ACK_ACK w) j false) (fun w => F.BXL_ORPHAN_ORPHAN w) j false
          (sendGrant (if member then s else showStreams s (handleIdx h)) j, mkHandle 2 g j)

/-- A partner's slot is freed (R329, R330). -/
def freePartner (s : State) (i : Nat) : State :=
  let s := { s with partners := assocDel s.partners i }
  let s := setN (setN (setN s (A.BXL_PARTNER i) 0) (A.BXL_PARTNER_1 i) 0) (A.BXL_PARTNER_2 i) 0
  setN (setN (setN s (A.BXL_PARTNER_3 i) 0) (A.BXL_PARTNER_4 i) 0) (A.BXL_PARTNER_5 i) 0

/-- A LOST partner without streams leaves its slot (R329). -/
def settlePartner (s : State) (i : Nat) : State :=
  match partnerAt s i with
  | some p => if p.lost && (partnerStreams s i).isEmpty then freePartner s i else showStreams s i
  | none => s

/-- A stream is gone: the active set of its carrier and direction goes with the last stream (R105, R133). -/
def removeStream (s : State) (j : Nat) : State :=
  match streamAt s j with
  | none => s
  | some x =>
    let h := mkHandle 2 x.gen j
    let s := countUnmapped s s.time.tick
    let s := cancelNaming { s with streams := assocDel s.streams j } h
    let s := setBitOf (setBitOf s (fun w => F.BXL_LEASE_ACK_ACK w) j false) (fun w => F.BXL_ORPHAN_ORPHAN w) j false
    let s := if (streamsOf s x.carrier x.dir).isEmpty then releaseActive s x.carrier x.dir else s
    settlePartner s (handleIdx x.partner)

/-- ORPHAN_DESTROYED (R329). -/
def postOrphanEnd (s : State) (j cause : Nat) : State :=
  match streamAt s j with
  | some x => post s evOrphanDestroyed (evData [(16, 4, mkHandle 2 x.gen j), (20, 1, cause)])
  | none => s

/-! ## Loss of a partner (R327-R330) -/

/-- Every stream of a partner becomes an orphan at elapsed time `n`. -/
def orphanStreams (s : State) (i n : Nat) : State :=
  let ms := getF s F.BXL_ORPHAN_TIMEOUT_MS
  ((partnerStreams s i).filter fun y => y.2.orphan.isNone).foldl (fun s y =>
    setBitOf (modStream s y.1 fun x => { x with
      orphan := some n
      orphanEnd := if ms = 0 then none else some (n + ticksPerMs * ms)
      echoes := [] }) (fun w => F.BXL_ORPHAN_ORPHAN w) y.1 true) s

/-- A JOINED partner is lost at elapsed time `l`, or before that at the end of its keepalive limit: its streams become orphans, PARTNER_LOST gives
their number (R327). -/
def losePartner (s : State) (i l : Nat) : State :=
  match partnerAt s i with
  | none => s
  | some p =>
    if p.lost then s
    else
      let n := (partnerStreams s i).length
      let h := mkHandle 6 p.gen i
      let l := min l p.lossAt
      let s := orphanStreams (setF (modPartner s i fun p => { p with lost := true }) (F.BXL_PARTNER_4_STATE i) 2) i l
      settlePartner (postAt s evPartnerLost (s.time.tick - (s.time.now - l)) (evData [(16, 4, h), (20, 1, n)])) i

/-- PARTNER_LOST: the keepalive limit of a partner has run out (R327). -/
def execPartnerLost (t partner : Nat) (s : State) : Out :=
  let s := advance t s
  .next <|
    match partnerAt s partner with
    | some p => if p.lossAt ≤ s.time.now then losePartner s partner p.lossAt else s
    | none => s

/-- ORPHAN_TIMEOUT: an orphan's lifetime has run out (R329). -/
def execOrphanTimeout (t stream : Nat) (s : State) : Out :=
  let s := advance t s
  .next <|
    match streamAt s stream with
    | some x => match x.orphanEnd with
      | some n => if n ≤ s.time.now then removeStream (postOrphanEnd s stream 1) stream else s
      | none => s
    | none => s

/-- PARTNER_DESTROY (68h): BYE to a JOINED partner, its streams become orphans without PARTNER_LOST, the slot is freed (R330). -/
def execPartnerDestroy (t : Nat) (c : Cmd) (s : State) : Out :=
  runCmd t 0x68 c s [] fun s f =>
    immediate s f false none false fun s =>
      let i := handleIdx c.handle
      match partnerAt s i with
      | none => (s, 0)
      | some p =>
        let s := if p.lost then s else orphanStreams (sendMessage s i 0x09 (leBytes 8 p.ident)) i s.time.now
        (cancelNaming (freePartner s i) c.handle, 0)

/-! ## Uplink slots and pips (R188, R206, R210, R211, R144) -/

/-- Some sample of an uplink slot is to be sent: FDD, or one lies in a UL segment (R188). -/
def slotSent (s : State) (c : Carrier) (n : Nat) : Bool := c.dir != 0 || (List.range 1024).any fun i => inUl s (n + i * c.k)

/-- The UL segment [U_s, U_e) that a tick lies in, cut where the bank in force starts, stops or is swapped (R210). -/
def ulSegment (s : State) (q : Nat) : Option (Nat × Nat) :=
  match bankAt s q with
  | none => none
  | some b => match segmentAt (stateAt s q) b q with
    | none => none
    | some g =>
      let o := q % period (stateAt s q) b
      let cuts := s.time.tddLog.map (·.1) ++ (s.acts.filter (fun p => p.cmd.opcode = 0x2D)).map (·.tick)
      if g.kind != 2 then none
      else some ((cuts.filter (· ≤ q)).foldl max (q + g.start - o), (cuts.filter (q < ·)).foldl min (q + g.stop - o))

/-- Ticks by which a span widens on the layers at each end (R144). -/
def widening (c : Carrier) : Nat := if c.sLog2 = 0 then 0 else 8 * slices c * c.k

/-- Spans of layer samples that restarts, those still to come among them, have sent or will send as zeros (R206). -/
def zeroSpans (s : State) (i : Nat) : List (Nat × Nat) :=
  match carrierAt s i with
  | none => []
  | some c => c.ulZero ++ (carrierAhead s i c).ulRestart.map fun y => y.2

/-- The layer sample with reference pin tick `q` is pipped (R206, R210, R211). -/
def samplePipped (s : State) (i : Nat) (c : Carrier) (q : Nat) : Bool :=
  let w := widening c
  let m := delayMax s 1 / 64 * c.k
  (c.ulSpans.any fun x => decide (x.1 ≤ q + w) && decide (q < x.2 + m + w))
  || ((zeroSpans s i).any fun x => decide (x.1 ≤ q) && decide (q < x.2))
  || (c.dir = 0 && match ulSegment s q with
      | none => true
      | some (a, b) => decide (q < a + 49 * c.k + m + w) || decide (b ≤ q + bNco c * c.k + w))
  || ((List.range (nPaths s)).any fun p => match (rxAcq p) with | some a => decide (a ≤ q + w) | none => false)
where
  /-- First sample of the open span of a DC acquisition on path p (R210). -/
  rxAcq (p : Nat) : Option Nat := (s.rx.getD p default).acqFrom.map fun a => gridUp s c.k a - bIn c * c.k

/-- The origin of the grid that has followed that of the settings `c`, under which a slot of the stream lies. -/
def oldGrid (s : State) (x : Stream) (c : Carrier) : Option Nat := (carrierAt s x.carrier).bind fun z => gridEnd z c.grid

/-- PIP of an uplink slot from this chip's own spans; what would lie past the end of an old grid is pipped; a stream that is unmapped has no
pips (R112, R206, R211). -/
def ulPips (s : State) (x : Stream) (c : Carrier) (n : Nat) : Nat :=
  blockMask fun j => (List.range 16).any fun u =>
    let q := n + (16 * j + u) * c.k
    (samplePipped s x.carrier c q && !unmappedSample s x c q) || match oldGrid s x c with | some g => decide (g ≤ q) | none => false

/-- The entry of the older grid that a slot at `n` belongs to. -/
def ulEntry (x : Stream) (n : Nat) : Option (Nat × Nat × Bool) := x.ulOld.find? fun y => decide (n < y.2.1)

/-- The carrier with the settings under which the uplink slot at `n` is to be formed, if that slot of the stream is still to come: after a rate
or response change the slots that began on the old grid go on (R188, R206). -/
def ulCarrier (s : State) (x : Stream) (n : Nat) : Option Carrier :=
  (carrierAt s x.carrier).bind fun z =>
    let c := z.atTick n
    let next := match ulEntry x n with | some y => y.1 | none => x.ulNext
    if decide (next ≤ n) && decide (c.grid ≤ n) && (n - c.grid) % (1024 * c.k) == 0 then some c else none

/-- NEWORIGIN of the packet of the slot at `n`: it is the first since its grid began (R322). -/
def originFlag (x : Stream) (n : Nat) : Bool := match ulEntry x n with | some y => y.2.2 | none => x.newOrigin

/-- Older grids once the slot at `n` has been formed and the next one of its grid begins at `m`. -/
def formOld (n m : Nat) : List (Nat × Nat × Bool) → List (Nat × Nat × Bool)
  | [] => []
  | y :: l => if n < y.2.1 then (if m < y.2.1 then (m, y.2.1, false) :: l else l) else y :: formOld n m l

/-- The stream once its slot at `n` under the settings `c` has been formed; slots of older grids that are still to come stay (R322). -/
def ulFormed (x : Stream) (c : Carrier) (n : Nat) : Stream :=
  if (ulEntry x n).isSome then { x with ulOld := formOld n (n + 1024 * c.k) x.ulOld }
  else { x with ulNext := n + 1024 * c.k, newOrigin := false }

/-! ## Sending (R301, R322, R351) -/

/-- The packet that a port sends next: CTRL and TIME in queue order, then data by queue tick and stream INDEX. -/
def nextQueued (l : List Queued) : Option Queued :=
  (l.find? (·.ctrl)) <|> l.foldl (fun m x => match m with
    | none => some x
    | some y => if x.since < y.since || (x.since = y.since && decide (x.index < y.index)) then some x else some y) none

/-- PACKET_SEND: the port starts the next packet; a TIME packet carries this tick; the wait of a CASC_SUM that this chip originates is
recorded (R333, R351). -/
def execPacketSend (t port : Nat) (s : State) : Out :=
  let s := advance t s
  .next <|
    if !portUp s port then s
    else match nextQueued (Sys2Proof.Machine.port s port).queue with
      | none => s
      | some x =>
        let n := s.time.now
        if !mayStart s port x.pkt || x.since + 32768 < n || (match x.q with | some q => decide (q + ulAllow s < n) | none => false) then s
        else
          let s := takeCapacity (modPort s port fun p => { p with queue := p.queue.erase x }) port x.pkt
          let p := if x.pkt.type = 4 then { x.pkt with payload := leBytes 8 s.time.tick ++ x.pkt.payload.drop 8 } else x.pkt
          let s := match x.q with
            | some q => setF s F.CAS_WAIT_MAX_WAIT (max (getF s F.CAS_WAIT_MAX_WAIT) (min 65535 (n - q)))
            | none => s
          sendBytes s port (packetBytes p x.stomp)

/-- PACKET_OVERRUN: a packet that has not started within 32,768 ticks of its queueing is discarded and counted (R301). -/
def execPacketOverrun (t port : Nat) (s : State) : Out :=
  let s := advance t s
  .next <|
    match (Sys2Proof.Machine.port s port).queue.find? fun x => decide (x.since + 32768 < s.time.now) with
    | none => s
    | some x => satAdd (modPort s port fun p => { p with queue := p.queue.erase x }) (F.LN_PORT_STAT_OVERRUN port) 1

end Sys2Proof.Machine
end

