-- ==== Sys2Proof/Machine/Bxl.lean ====
section
/-!
DEFINITION. The Billux link protocol as it receives: the checks of a packet, the messages of partners, keepalive and time, echo
messages, and the fault injectors (spec/10_bxl_protocol.md R312-R337; spec/11_cascade.md R340, R346, R347; spec/09_serial_lanes.md
R306-R308).
-/
namespace Sys2Proof.Machine

/-! ## Receive checks (R320) -/

/-- A cascade port of this role takes only TIME (R338). -/
def onlyTime (s : State) (q : Nat) : Bool := q != 0 && (if q = 1 then !isMember s else !(isLantern s || isMember s))

/-- The TYPE may arrive on the port (R313, R338). -/
def typeAllowed (s : State) (q type : Nat) : Bool :=
  if onlyTime s q then type == 4
  else if q = 2 then type == 3 || type == 4 || type == 5
  else type == 1 || type == 3 || type == 4

/-- The slot of the partner that a CTRL or TIME packet names, in any state (R335). -/
def namedPartner (s : State) (p : Packet) : Option Nat :=
  (s.partners.find? fun y => if p.ver = 1 then y.1 = p.handle else mkHandle 6 y.2.gen y.1 = p.handle).map (·.1)

/-- The downlink stream that a DATA_DL packet names (R320, R335, R346). -/
def namedStream (s : State) (q : Nat) (p : Packet) : Option (Nat × Stream) :=
  s.streams.find? fun y => y.2.dir = 0 &&
    (if q = 0 then (if p.ver = 1 then y.1 = p.handle else mkHandle 2 y.2.gen y.1 = p.handle)
     else y.2.carrier = bitsOf p.handle 8 3 && !bitAt p.handle 7 && y.2.layer = bitsOf p.handle 0 6)

/-- MSG of a CTRL payload, its body length field and its body. -/
def msgOf (p : Packet) : Nat := leNat (p.payload.take 1)
def bodyLen (p : Packet) : Nat := leNat ((p.payload.drop 2).take 2)
def body (p : Packet) (i n : Nat) : Nat := leNat ((p.payload.drop (4 + i)).take n)
def isHello (p : Packet) : Bool := p.type = 3 && msgOf p = 0x01

/-- VER is the one negotiated with the named partner, or for HELLO and an unknown name 1 or 2; cascade ports use 2 (R320, R334). -/
def versionGood (s : State) (q : Nat) (p : Packet) : Bool :=
  if q != 0 then p.ver = 2
  else
    let i := if p.type = 1 then (namedStream s q p).bind fun y => (s.partners.find? fun z => mkHandle 6 z.2.gen z.1 = y.2.partner).map (·.1)
      else if isHello p then none else namedPartner s p
    match i.bind (partnerAt s) with
    | some y => p.ver = y.ver
    | none => p.ver = 1 || p.ver = 2

/-- Body lengths of the messages that may arrive on a port (R323, R340). -/
def messageLength (q msg : Nat) : Option Nat :=
  if q = 0 then match msg with
    | 0x01 => some 16 | 0x04 => some 12 | 0x06 => some 4 | 0x09 => some 8 | _ => none
  else match msg with
    | 0x10 => if q = 1 then some 12 else none
    | 0x11 => if q = 2 then some 12 else none
    | _ => none

/-- The payload is a known message of the right length, or a TIME payload of the right length (R313, R323). -/
def payloadGood (q : Nat) (p : Packet) : Bool :=
  if p.type = 4 then p.payload.length == if q = 0 then 8 else 32
  else match messageLength q (msgOf p) with
    | some n => bodyLen p == n && p.payload.length == 4 + n + (4 - n % 4) % 4
    | none => false

/-- H of R321 after SEQ `x`, and whether the packet passes. -/
def reorderTest (h : Option Nat) (x : Nat) : Option Nat × Bool :=
  match h with
  | none => (some x, true)
  | some h =>
    let d := (x + 2 ^ 16 - h) % 2 ^ 16
    if 1 ≤ d && d ≤ 32767 then (some x, true) else (some h, decide ((h + 2 ^ 16 - x) % 2 ^ 16 ≤ 8))

/-- A packet dropped by check 6 or 7 leaves its mark on the slot it would have filled (R181). -/
def markDropped (s : State) (j : Nat) (x : Stream) (n : Nat) : State :=
  match carrierAt s x.carrier with
  | none => s
  | some c0 =>
    let c := settingsFor s x.carrier c0 n
    if decide (c.grid ≤ n) && (n - c.grid) % (1024 * c.k) = 0 then modSlot s j n c fun y => { y with dropped := true } else s

/-- The lantern's forwarding of a DATA_DL packet that passed every check (R347). -/
def forwardDl (s : State) (p : Packet) (j : Nat) (x : Stream) (n : Nat) : State :=
  if isLantern s then
    let key := 2 ^ 8 * x.carrier + x.layer
    enqueue s 2 { pkt := { p with ver := 2, handle := key, tick := n, format := x.format }, since := s.time.now, ctrl := false,
                  index := j, q := none, stomp := false }
  else s

/-- Checks 4 to 7 of a DATA_DL packet, and what follows when it passes (R320, R321, R347). -/
def receiveDl (s : State) (q : Nat) (p : Packet) : State :=
  match namedStream s q p with
  | none => satAdd s (F.BXL_RX_2_BAD_HANDLE q) 1
  | some (j, x) =>
    if x.orphan.isSome then satAdd s (F.BXL_RX_3_ORPHAN q) 1
    else
      let n := extendTick (if p.ver = 1 then 32 else 40) p.tick s.time.tick
      let fmt := if isMember s then p.format else x.format
      let v := leNat p.payload
      if (p.ver != 1 && p.format != fmt) || decide (2 < fmt) || p.payload.length != formatBytes fmt || !exponentsGood fmt v then
        markDropped (satAdd s (F.BXL_RX_2_FORMAT_ERR q) 1) j x n
      else
        let r := reorderTest x.newest p.seq
        let s := modStream s j fun x => { x with newest := r.1 }
        if !r.2 then markDropped (satAdd s (F.BXL_RX_3_SEQ_OLD q) 1) j x n
        else
          let s := wrapAdd s (F.BXL_RX_4_GOOD q) 1
          let s := { s with arrivals := s.arrivals ++
            [{ stream := j, first := n, arrival := s.time.tick, data := (List.range 1024).map (sampleAt fmt v) }] }
          if q = 0 then forwardDl s p j x n else s

/-- Checks 4 and 6 of a CTRL or TIME packet; one that passes awaits its effect (R320, R323, R330, R340); a CTRL packet is
copied to its mirror (R389). -/
def receiveCtrl (s : State) (q : Nat) (p : Packet) : State :=
  let unknown := q = 0 && !isHello p && match (namedPartner s p).bind (partnerAt s) with | some y => y.lost || decide (y.lossAt ≤ s.time.now) | none => true
  if unknown then
    let s := satAdd (satAdd s (F.BXL_RX_2_BAD_HANDLE q) 1) F.BXL_PARTNER_STAT_RESET_SENT 1
    enqueueCtrl s 0 (ctrlPacket p.ver 3 p.handle 0 (messagePayload 0x0A (leBytes 4 p.handle)))
  else if !payloadGood q p || (q != 0 && p.type = 3 && p.handle != 0) then satAdd s (F.BXL_RX_2_FORMAT_ERR q) 1
  else
    let s := wrapAdd s (F.BXL_RX_4_GOOD q) 1
    let s := if p.type = 3 then mirrorCtrl s q p.payload (msgOf p) else s
    { s with inbox := s.inbox ++ [{ port := q, tick := s.time.tick, pkt := p }] }

/-- A CASC_SUM on the child port: its samples wait to be passed on or combined (R351-R354). A bad trailer counts in CRC_ERR, or in CRC_INJ after a
receive-side injected corruption, a stomped one in STOMPED (R320, R353). -/
def receiveSum (s : State) (q : Nat) (b : List Byte) (corrupted : Bool) : State :=
  let p := parsePacket b
  let good := crcGood b
  let s := if good then wrapAdd s (F.BXL_RX_4_GOOD q) 1
    else if corrupted then satAdd s (F.BXL_RX_1_CRC_INJ q) 1
    else if crcStomped b then satAdd s F.CAS_STAT2_STOMPED 1
    else satAdd s (F.BXL_RX_CRC_ERR q) 1
  let x : CascSum :=
    { key := p.handle % 2 ^ 28, slot := extendTick 40 p.tick s.time.tick, seq := p.seq, origin := p.handle / 2 ^ 28, reduced := bitAt p.flags 0, pip := p.pip,
      good := good, tick := s.time.tick, data := decodeSamples 3 p.payload }
  if childInChain s then modCasc s fun y => { y with sums := y.sums ++ [x] } else s

/-- Checks 2 to 7 of framed bytes; `corrupted` says that a receive-side injector has changed them (R320, R337). -/
def receiveFramed (s : State) (q : Nat) (b : List Byte) (corrupted : Bool) : State :=
  let p := parsePacket b
  if q = 2 && !onlyTime s q && p.type = 5 && p.ver = 2 && p.payload.length = 5120 then receiveSum s q b corrupted
  else if !crcGood b then
    if corrupted then satAdd s (F.BXL_RX_1_CRC_INJ q) 1 else satAdd s (F.BXL_RX_CRC_ERR q) 1
  else if !typeAllowed s q p.type || !versionGood s q p then satAdd s (F.BXL_RX_1_BAD_TYPE q) 1
  else if p.type = 1 then
    let s :=
      if q = 1 && isIndexed s then
        enqueue s 2 { pkt := p, since := s.time.now, ctrl := false, index := 0, q := none, stomp := false }
      else s
    receiveDl s q p
  else if p.type = 5 then satAdd s (F.BXL_RX_2_FORMAT_ERR q) 1
  else receiveCtrl s q p

/-- A whole packet goes through the receive-side injectors to the checks (R320, R336). -/
def receivePacket (s : State) (q : Nat) (b : List Byte) : State :=
  let r := injectPacket s q 1 b
  r.2.foldl (fun s x => receiveFramed s q x.1 x.2) r.1

/-- A control block of a type the device uses, with its reserved bytes 0 (R309, R311). -/
def knownControl (b : Block) : Bool :=
  b == startBlock || b == idleBlock || (b.bytes.getD 0 0 == 0x2D && decide ((b.bytes.getD 1 0).toNat < 16))

/-- One block of the stream as received (R309, R312): a START opens a packet; a control block inside one ends it as a framing error; a data
block belongs to the packet in course, which its LENGTH ends, and outside one is discarded; an unknown control block and a LENGTH beyond
that of its TYPE are framing errors. -/
def receiveBlock (s : State) (q : Nat) (b : Block) : State :=
  let open' := fun (s : State) (o : Option (List Byte)) => modPort s q fun p => { p with opened := o }
  let bad := satAdd s (F.BXL_RX_FRAMING q) 1
  match b.control, (Sys2Proof.Machine.port s q).opened with
  | true, o => open' (if o.isSome || !knownControl b then bad else s) (if b == startBlock then some [] else none)
  | false, none => bad
  | false, some l =>
    let l := l ++ b.bytes
    if l.length < packetSize (lengthOf l) then open' s (some l)
    else if framed l then receivePacket (open' s none) q l
    else open' bad none

/-- Ticks from the delivery of the block after a marker to that of the block `r` block times later (R284, R296). -/
def rowTicks (s : State) (q r : Nat) : Nat := ceilDiv ((if flag s (F.LN_PORT_CTRL_PAM4 q) then 33 else 66) * r) 32

/-- A lane gives the blocks that it carries: its receiver runs and has block lock (R285, R287, R304, R307). -/
def laneGives (s : State) (q l : Nat) : Bool := laneReceives s q l && isLocked s q l

/-- What stands at block `k` of a stream: the block, or nothing where its lane gives none or an invalid header, its own or an injected one, has
it left out (R308; log 61). `last` is the number of the last block of the run. -/
def blockOf (s : State) (q : Nat) (set : List Nat) (last k : Nat) (x : BitVec 2 × List Byte) : Option Block :=
  let lane := set.getD (k % set.length) 16
  let back := last / set.length - k / set.length
  let header := if headerHit s q lane 1 (-1 - (back : Int)) then 0 else x.1
  if !laneGives s q lane then none
  else (if header = 2 then some true else if header = 1 then some false else Config.badHeader s.time.now k).map fun c => { control := c, bytes := x.2 }

/-- The blocks that the lanes of a port deliver now, the first of them number `first` since the marker of its round: each lane gives the
block before its run and then its run. The last block is delivered 6 ticks before now, counted from its round (R296, R298, R310, R315). -/
def delivered (s : State) (q first : Nat) (lanes : List (List LineBlock)) : Option (List Block) :=
  (port s q).runs.findSome? fun run =>
    let set := bitsSet run.2 16
    let l := gather (lanes.map (·.length)).sum set first ((lanes.take 16).map fromLines)
    let last := first + l.length - 1
    if l.isEmpty || decide (16383 * set.length ≤ last) || s.time.now != run.1 + rowTicks s q (last / set.length) + 6 then none
    else some ((l.zipIdx.filterMap fun x => blockOf s q set last (first + x.2) x.1))

/-- Blocks whose headers come invalid count as natural errors of the lanes that give them, also on a port that is DOWN (R288). -/
def countHeaders (s : State) (q : Nat) (lanes : List (List LineBlock)) : State :=
  (List.range 16).foldl (fun s l =>
    if laneGives s q l then
      satAdd s (F.LANE_SH_ERR_NAT q l) (((lanes.getD l []).drop 1).countP fun b => b.header == 0 || b.header == 3)
    else s) s

/-- The elapsed time at which row `r` of blocks since a marker passed the CDR of a lane: it follows the lane's last marker, or the one before
that (R284, R286). -/
def cdrTime (s : State) (q l r : Nat) : Nat :=
  let a := (lane s q l).markerAt + rowTicks s q (r + 1)
  if a ≤ s.time.now then a else a - markerTicks s q

/-- The lanes of a far-end loop send on what they receive. -/
def loopLanes (s : State) (q first : Nat) (lanes : List (List LineBlock)) : State :=
  let w := max 1 (popCount 16 (((port s q).runs.head?.map (·.2)).getD 0))
  (List.range 16).foldl (fun s l => loopBack s q l (cdrTime s q l (first / w)) ((lanes.getD l []).drop 1)) s

/-- PACKET_RECEIVE: a run of blocks as the lanes of a port carry them, at the arrival tick of the packet that they end (R303, R309, R310,
R312, R315, R320). A port that is DOWN delivers nothing (R295); a lane in a near-end loop receives nothing that it has not sent. -/
def execPacketReceive (t port first : Nat) (lanes : List (List LineBlock)) (s : State) : Out :=
  let s := settleHeaders (advance t s) port
  let lanes := lanes.zipIdx.map fun x => if canReceive s port x.2 x.1 then x.1 else []
  let s := countHeaders (loopLanes s port first lanes) port lanes
  .next <|
    if !portUp s port then s
    else match delivered s port first lanes with
      | none => s
      | some l => l.foldl (fun s b => receiveBlock s port b) s

/-! ## Fault injectors (R306-R308, R336, R337) -/

/-- A packet held by a reorder injector goes on now, past the slots behind it; one to be sent by a port that is DOWN is discarded and counted
(R295, R336, R337). -/
def releaseHeld (s : State) (q j : Nat) : State :=
  match injAt s q j with
  | none => s
  | some x => match x.held with
    | none => s
    | some h =>
      let s := countInjected (setInj s q j (some { x with held := none })) q j 1
      let side := x.arg2 / 2 ^ 31
      let r := injectFrom (limitInj s q j) q side (j + 1) (h.bytes, h.corrupted)
      r.2.foldl (fun s y =>
        if side != 0 then receiveFramed s q y.1 y.2
        else if portUp s q then sendPacket s q y.1
        else satAdd s (F.LN_PORT_STAT_OVERRUN q) 1) r.1

/-- REORDER_HOLD_EXPIRY: the packet that a held one waits for has not come within 32,768 ticks (R336). -/
def execReorderHoldExpiry (t port slot : Nat) (s : State) : Out :=
  let s := advance t s
  .next <|
    match (injAt s port slot).bind (·.held) with
    | some h => if h.deadline ≤ s.time.now then releaseHeld s port slot else s
    | none => s

/-- A slot is cleared: what it holds goes on, a lane-down ends (R306, R337). -/
def clearInj (s : State) (q j : Nat) : State :=
  match injAt s q j with
  | none => s
  | some x => if x.kind ≤ 4 then stopInj (releaseHeld s q j) q j else stopLaneInj s q j

/-- The fields of an FI_SET are those of its KIND (R306-R308, R336); bits 30:0 of ARG2 of KIND 5 are ignored (log 62). -/
def fiGood (kind lane arg1 arg2 pattern : Nat) : Bool :=
  if kind ≤ 4 then
    lane == 0xFF && bitsOf arg2 28 3 == 0 && decide (bitsOf arg2 24 4 ≤ 5) &&
      (match kind with
       | 0 => arg1 != 0 && pattern == 0
       | 1 => pattern == 0
       | 2 => arg1 == 0 && pattern != 0
       | 3 => bitsOf arg1 17 14 == 0 && pattern != 0
       | _ => decide (1 ≤ arg1) && decide (arg1 ≤ 8) && pattern != 0)
  else if kind = 5 then decide (lane ≤ 15) && pattern == 0
  else decide (lane ≤ 15) && decide (64 ≤ arg1)

/-- FI_SET (58h). -/
def execFiSet (t : Nat) (c : Cmd) (s : State) : Out :=
  runCmd t 0x58 c s [] fun s f =>
    let q := p8 c 16
    let l := p8 c 17
    let kind := p8 c 18
    let j := p8 c 19
    immediate s f (decide (2 < q) || decide (6 < kind) || decide (7 < j) || !fiGood kind l (p32 c 20) (p32 c 24) (p64 c 32)) none false
      fun s =>
        let s := clearInj (settleHeaders s q) q j
        let x : Injector :=
          { kind := kind, lane := l, arg1 := p32 c 20, arg2 := p32 c 24, pattern := p64 c 32, start := s.time.now, seen := 0, events := 0,
            held := none, units := 0, upTo := s.time.now }
        let s := setInj s q j (some x)
        let s := setF (setF (setFlag s (F.BXL_FI_1_ACTIVE q j) true) (F.BXL_FI_1_LANE q j) l) (F.BXL_FI_1_KIND q j) kind
        (if kind = 5 then beginLaneDown s q j l (x.arg2 / 2 ^ 31) else s, 0)

/-- FI_CLEAR (59h). -/
def execFiClear (t : Nat) (c : Cmd) (s : State) : Out :=
  runCmd t 0x59 c s [] fun s f =>
    let q := p8 c 16
    let j := p8 c 19
    immediate s f (decide (2 < q) || (decide (7 < j) && j != 0xFF)) none false fun s =>
      ((if j = 0xFF then List.range 8 else [j]).foldl (fun s j => clearInj s q j) s, 0)

/-! ## Messages (R323-R327, R333) -/

/-- The first packet that awaits its effect, if it satisfies a test, and the state without it. -/
def takeInbox (s : State) (p : Inbox → Bool) : Option (Inbox × State) :=
  match s.inbox with
  | [] => none
  | m :: l => if p m then some (m, { s with inbox := l }) else none

/-- The keepalive limit in ticks (R327). -/
def keepaliveTicks (s : State) : Nat := ticksPerMs * max 2 (getF s F.BXL_CTRL_KA_LIMIT)

/-- Elapsed time of the tick of a packet's arrival. -/
def arrivedAt (s : State) (a : Nat) : Nat := s.time.now - (s.time.tick - a)

/-- The partner is renewed by a packet that arrived at `a`, before its loss fell due (R327). -/
def renew (s : State) (i a : Nat) : State :=
  match partnerAt s i with
  | none => s
  | some p =>
    let r := arrivedAt s a
    if p.lost || p.lossAt ≤ r then s
    else
      setN (modPartner s i fun p => { p with lossAt := r + keepaliveTicks s }) (A.BXL_PARTNER_5 i) (a % 2 ^ 32)

/-- Highest version offered (R334). -/
def verMax (s : State) : Nat := if getF s F.BXL_CTRL_VER_MAX = 1 then 1 else 2

/-- WELCOME to a partner, in the framing of its HELLO (R323, R334). -/
def sendWelcome (s : State) (i framing : Nat) : State :=
  match partnerAt s i with
  | none => s
  | some p =>
    let b := leBytes 8 p.ident ++ leBytes 4 p.session ++ leBytes 4 (mkHandle 6 p.gen i)
      ++ [BitVec.ofNat 8 p.ver, BitVec.ofNat 8 (ownIndex s), BitVec.ofNat 8 (getF s F.BXL_CTRL_KA_LIMIT), 0]
      ++ leBytes 8 Config.deviceId
    modPartner (enqueueCtrl s 0 (ctrlPacket framing 3 0 p.seq (messagePayload 0x02 b))) i fun p => { p with seq := (p.seq + 1) % 2 ^ 16 }

/-- A HELLO that no JOINED partner's IDENT matches: a new partner and WELCOME, or REFUSE with the first failing cause (R324, R334). -/
def greet (s : State) (m : Inbox) : State :=
  let p := m.pkt
  let ident := body p 0 8
  let v := min (body p 13 1) (verMax s)
  let refuse := fun (cause : Nat) =>
    satAdd (enqueueCtrl s 0 (ctrlPacket p.ver 3 0 0
      (messagePayload 0x03 (leBytes 8 ident ++ leBytes 4 (body p 8 4) ++ [BitVec.ofNat 8 cause, 0, 0, 0]))))
      F.BXL_PARTNER_STAT_REFUSED 1
  if !flag s F.BXL_CTRL_ACCEPT then refuse 3
  else if v < max (body p 12 1) 1 then refuse 2
  else match lowestFree s.partners 32 with
    | none => refuse 1
    | some i =>
      let g := nextGen s 6 i
      let h := mkHandle 6 g i
      let n := s.time.now
      let y : Partner :=
        { gen := g, ident := ident, session := body p 8 4, verMin := body p 12 1, verMax := body p 13 1, formats := body p 14 1, ver := v,
          lost := false, lossAt := arrivedAt s m.tick + keepaliveTicks s, welcome := n, seq := 0, timePayload := 0, timeArrival := 0 }
      let s := { takeGen s 6 i with partners := assocPut s.partners i y }
      let s := setN (setN (setN s (A.BXL_PARTNER i) h) (A.BXL_PARTNER_2 i) (ident % 2 ^ 32)) (A.BXL_PARTNER_3 i) (ident / 2 ^ 32)
      let s := setF (setF s (F.BXL_PARTNER_1_VER i) v) (F.BXL_PARTNER_1_FORMATS i) (body p 14 1)
      let s := setN (setF s (F.BXL_PARTNER_4_STATE i) 1) (A.BXL_PARTNER_5 i) (m.tick % 2 ^ 32)
      post (sendWelcome s i p.ver) evPartnerHello (evData [(16, 4, h), (20, 1, v), (24, 8, ident)])

/-- HELLO (R324, R325): IDENT 0 is dropped and counted; a JOINED partner of that IDENT gets WELCOME again for the same SESSION and is
lost for another. -/
def execHello (t : Nat) (s : State) : Out :=
  let s := advance t s
  .next <|
    match takeInbox s fun m => m.port = 0 && isHello m.pkt with
    | none => s
    | some (m, s) =>
      let ident := body m.pkt 0 8
      if ident = 0 then satAdd s (F.BXL_RX_2_FORMAT_ERR 0) 1
      else match (joined s).find? fun y => y.2.ident = ident with
        | none => greet s m
        | some (i, y) => if y.session = body m.pkt 8 4 then sendWelcome s i m.pkt.ver else greet (losePartner s i (arrivedAt s m.tick)) m

/-- KEEPALIVE_RECEIVE: a KEEPALIVE renews its partner (R327). -/
def execKeepaliveReceive (t : Nat) (s : State) : Out :=
  let s := advance t s
  .next <|
    match takeInbox s fun m => m.port = 0 && m.pkt.type = 3 && msgOf m.pkt = 0x04 with
    | none => s
    | some (m, s) => match namedPartner s m.pkt with
      | some i => renew s i m.tick
      | none => s

/-- LEASE_ACK: the lease of a stream of this partner is acknowledged (R326); the packet renews the partner. -/
def execLeaseAck (t : Nat) (s : State) : Out :=
  let s := advance t s
  .next <|
    match takeInbox s fun m => m.port = 0 && m.pkt.type = 3 && msgOf m.pkt = 0x06 with
    | none => s
    | some (m, s) => match namedPartner s m.pkt with
      | none => s
      | some i =>
        let s := renew s i m.tick
        let h := body m.pkt 0 4
        match streamAt s (handleIdx h) with
        | some x =>
          if handleLive s 2 h && x.partner = partnerHandle s i then
            setBitOf (modStream s (handleIdx h) fun x => { x with acked := true }) (fun w => F.BXL_LEASE_ACK_ACK w) (handleIdx h) true
          else s
        | none => s

/-- BYE: the partner is lost at once (R327). -/
def execBye (t : Nat) (s : State) : Out :=
  let s := advance t s
  .next <|
    match takeInbox s fun m => m.port = 0 && m.pkt.type = 3 && msgOf m.pkt = 0x09 with
    | none => s
    | some (m, s) => match namedPartner s m.pkt with
      | some i => losePartner s i (arrivedAt s m.tick)
      | none => s

/-- PARTNER_TIME_RECEIVE: payload and arrival tick are recorded, the partner is renewed (R333). -/
def execPartnerTimeReceive (t : Nat) (s : State) : Out :=
  let s := advance t s
  .next <|
    match takeInbox s fun m => m.port = 0 && m.pkt.type = 4 with
    | none => s
    | some (m, s) => match namedPartner s m.pkt with
      | some i => renew (modPartner s i fun p => { p with timePayload := leNat (m.pkt.payload.take 8), timeArrival := m.tick }) i m.tick
      | none => s

/-- KEEPALIVE: at each multiple of 983,040 ticks, and while TICK_VALID is 0 every 983,040 ticks from the WELCOME, KEEPALIVE and the grants
that are not yet acknowledged go to each JOINED partner (R326, R327). -/
def execKeepalive (t : Nat) (s : State) : Out :=
  let s := advance t s
  .next <| ((joined s).filter fun y =>
      if tickValid s then s.time.tick % ticksPerMs == 0
      else decide (y.2.welcome < s.time.now) && (s.time.now - y.2.welcome) % ticksPerMs == 0).foldl (fun s y =>
    let l := partnerStreams s y.1
    let s := sendMessage s y.1 0x04 (leBytes 8 y.2.ident ++ leBytes 4 l.length)
    ((l.filter fun x => !x.2.acked).map (·.1)).foldl sendGrant s) s

/-- TIME_SEND: while TICK_VALID is 1 a TIME packet goes to each JOINED partner and out of both cascade ports at every multiple of 983,040
ticks; its first 8 bytes are filled as it leaves (R333, R361). -/
def execTimeSend (t : Nat) (s : State) : Out :=
  let s := advance t s
  .next <|
    if !tickValid s || s.time.tick % ticksPerMs != 0 then s
    else
      let s := (joined s).foldl (fun s y =>
        sendPartner s y.1 4 (leBytes 8 0 ++ leBytes 8 s.time.origin ++ leBytes 8 y.2.timePayload ++ leBytes 8 y.2.timeArrival)) s
      [1, 2].foldl (fun s q =>
        let x := s.casc.times.getD q (0, 0)
        let n := s.casc.seqs.getD q 0
        modCasc (enqueueCtrl s q (ctrlPacket 2 4 0 n (leBytes 8 0 ++ leBytes 8 s.time.origin ++ leBytes 8 x.1 ++ leBytes 8 x.2)))
          fun y => { y with seqs := y.seqs.set q ((n + 1) % 2 ^ 16) }) s

/-! ## Echo messages (R332) -/

/-- An echo record of a stream (R332). -/
def echoBytes (h : Nat) (e : EchoRecord) : List Byte :=
  leBytes 4 h ++ leBytes 8 e.first ++ leBytes 8 e.pips ++ leBytes 1 e.cause ++ [0, 0, 0]

/-- Records in the order of their due ticks, then of stream INDEX. -/
def insertRecord (x : Nat × Nat × EchoRecord) : List (Nat × Nat × EchoRecord) → List (Nat × Nat × EchoRecord)
  | [] => [x]
  | y :: l => if x.2.2.due < y.2.2.due then x :: y :: l else y :: insertRecord x l

/-- ECHO messages of up to 32 records each. -/
def sendEchoes : Nat → State → Nat → List (List Byte) → State
  | 0, s, _, _ => s
  | _ + 1, s, _, [] => s
  | fuel + 1, s, i, l =>
    sendEchoes fuel (sendMessage s i 0x08 ([BitVec.ofNat 8 (min 32 l.length), 0, 0, 0] ++ (l.take 32).flatten)) i (l.drop 32)

/-- ECHO: at each multiple of 16,384 ticks after the SYNC origin the records that have fallen due go to the JOINED partners (R332); none
is sent in IDLE, and those that wait there are not sent later (R442). -/
def execEcho (t : Nat) (s : State) : Out :=
  let s := advance t s
  .next <|
    if (s.time.tick - s.time.origin) % 16384 != 0 then s
    else
      let s := if !isActive s then s else (joined s).foldl (fun s y =>
        let l := (partnerStreams s y.1).flatMap fun x => x.2.echoes.map fun e => (x.1, mkHandle 2 x.2.gen x.1, e)
        let l := l.foldl (fun m x => insertRecord x m) []
        sendEchoes l.length s y.1 (l.map fun x => echoBytes x.2.1 x.2.2)) s
      { s with streams := s.streams.map fun x => (x.1, { x.2 with echoes := [] }) }

end Sys2Proof.Machine
end

