-- ==== Sys2Proof/Machine/Casc.lean ====
section
/-!
DEFINITION. The cascade: chain discovery and reports, partial sums as they are originated, passed and combined, and the time offset to the
parent (spec/11_cascade.md R338-R361, R367).
-/
namespace Sys2Proof.Machine

/-! ## Discovery and the chain (R341-R343, R367) -/

def commonFeature (s : State) : Nat := getF s F.CAS_FEATURE_COMMON

/-- The first frame boundary at least 983,040 ticks from now (R341). -/
def assignTick (s : State) : Nat := frameTicks * ceilDiv (s.time.tick + 983040) frameTicks

/-- CASC_DISCOVER (50h): BAD_PARAM on a member, RESULT 1 at once on a single or test chip, NO_TIME on a lantern without time; else E is
set and offered (R341). -/
def execCascDiscover (t : Nat) (c : Cmd) (s : State) : Out :=
  runCmd t 0x50 c s [] fun s f =>
    if isMember s then reject s f stBadParam
    else if !isLantern s then complete s f 1
    else if !tickValid s then reject s f stNoTime
    else
      let e := assignTick s
      let s := sendAssign s 1 (cascDepth s) (commonFeature s) e
      modCasc (setStage s f.id .running) fun x => { x with
        next := assocPut x.next e (some 0, none)
        discover := x.discover ++ [{ id := f.id, start := s.time.now, e := e, last := none }] }

/-- The lantern's COMMON: the least of its own level and those reported (R367). -/
def refreshCommon (s : State) : State :=
  setF s F.CAS_FEATURE_COMMON (leastFeature s)

/-- MEMBERS of the lantern follow LAST; CHAIN_CHANGED when `post'` says so or the count changes (R342). -/
def showMembers (s : State) (changed : Bool) : State :=
  let was := getF s F.CAS_STATUS_MEMBERS
  let now := s.casc.beyond.getD 0 + 1
  let s := showChain (setF s F.CAS_STATUS_MEMBERS now)
  if changed || was != now then post s evChainChanged (evData [(16, 1, was), (17, 1, now), (18, 1, commonFeature s)]) else s

/-- CASC_ASSIGN at a member (R341, R342): before E it takes the index if DEPTH allows, relays and reports; after E an indexed member of that
E relays it; COMMON follows. -/
def execCascAssign (t : Nat) (s : State) : Out :=
  let s := advance t s
  .next <|
    match takeInbox s fun m => m.port = 1 && m.pkt.type = 3 && msgOf m.pkt = 0x10 with
    | none => s
    | some (m, s) =>
      let index := body m.pkt 0 1
      let depth := body m.pkt 1 1
      let common := body m.pkt 2 1
      let e := body m.pkt 4 8
      let s := setF s F.CAS_FEATURE_COMMON common
      if m.tick < e then
        if index ≤ depth then
          let far := match assocGet s.casc.next e with | some (i, far) => if i = some index then far else none | none => none
          let s := modCasc s fun x => { x with next := assocPut x.next e (some index, far) }
          sendReport (sendAssign s (index + 1) depth common e) e
        else modCasc s fun x => { x with next := assocPut x.next e (none, none) }
      else if isIndexed s && e = chainE s then sendAssign s (index + 1) depth common e
      else s

/-- CASC_REPORT from the child port: LAST, the least level and BROKEN beyond this chip follow; the lantern updates COMMON and posts
CHAIN_CHANGED, a member whose view changes reports inward (R341-R343, R367). -/
def execCascReport (t : Nat) (s : State) : Out :=
  let s := advance t s
  .next <|
    match takeInbox s fun m => m.port = 2 && m.pkt.type = 3 && msgOf m.pkt = 0x11 with
    | none => s
    | some (m, s) =>
      let last := body m.pkt 0 1
      let feat := body m.pkt 1 1
      let broken := bitAt (body m.pkt 2 1) 0
      let e := body m.pkt 4 8
      let old := s.casc
      let holds := decide (ownIndex s < last)
      let s := modCasc s fun x => { x with
        minFeat := some feat
        broken := broken
        next := x.next.map fun y => if y.1 = e && decide (y.2.1.getD 0 < last) then (y.1, y.2.1, some last) else y
        beyond := if e = chainE s then (if holds && !x.cut then some last else none) else x.beyond
        discover := x.discover.map fun d => if d.e = e && (d.last.map (·.1)) != some last then { d with last := some (last, s.time.now) } else d }
      if isLantern s then
        let was := commonFeature s
        let s := refreshCommon s
        showMembers s (commonFeature s != was || old.beyond != s.casc.beyond)
      else
        let s := showChain s
        if old.beyond != s.casc.beyond || old.next != s.casc.next || old.minFeat != some feat || old.broken != broken then
          if e = chainE s || (assocGet s.casc.next e).isSome then sendReport s e else sendReports s
        else s

/-- CASC_ASSIGN_PERIODIC: every 983,040 ticks the lantern sends CASC_ASSIGN with the E in force and a member sends CASC_REPORT (R342). -/
def execCascAssignPeriodic (t : Nat) (s : State) : Out :=
  let s := advance t s
  .next <|
    if s.time.now < s.casc.lastSent + 983040 then s
    else
      let s := modCasc s fun x => { x with lastSent := s.time.now }
      if isLantern s then (if chainE s = 0 then s else sendAssign s 1 (cascDepth s) (commonFeature s) (chainE s))
      else if isMember s then sendReports s
      else s

/-- CHAIN_E_REACHED: at the first E that waits its assignment takes effect (R342). -/
def execChainEReached (t : Nat) (s : State) : Out :=
  let s := advance t s
  .next <|
    match s.casc.next with
    | [] => s
    | (e, i, far) :: later =>
      if s.time.tick < e then s
      else
        let s := set64 s A.CAS_CHAIN_E A.CAS_CHAIN_E_1 e
        let s := modCasc s fun x => { x with next := later, cut := !portUp s 2, beyond := far }
        if isLantern s then showMembers (refreshCommon s) false
        else showChain (setF (setFlag s F.CAS_STATUS_INDEXED i.isSome) F.CAS_STATUS_INDEX (i.getD 0))

/-- CASC_DISCOVER_DONE: LAST has been stable for 98,304 ticks, or 983,040 ticks have passed (R341). -/
def execCascDiscoverDone (t : Nat) (s : State) : Out :=
  let s := advance t s
  .next <|
    match s.casc.discover.find? fun d => decide (d.start + 983040 ≤ s.time.now)
        || (match d.last with | some (_, n) => decide (n + 98304 ≤ s.time.now) | none => false) with
    | none => s
    | some d =>
      let s := modCasc s fun x => { x with discover := x.discover.erase d }
      match flightOf s d.id with
      | some f => complete s f ((d.last.map (·.1)).getD 0 + 1)
      | none => s

/-! ## Partial sums (R349-R358) -/

/-- The cascade key of an uplink stream (R346). -/
def ulKey (x : Stream) : Nat := 2 ^ 8 * x.carrier + 2 ^ 7 + x.layer

/-- The uplink stream of a key on this chip. -/
def keyStream (s : State) (key : Nat) : Option (Nat × Stream) :=
  s.streams.find? fun y => y.2.dir = 1 && bitAt key 7 && y.2.carrier = bitsOf key 8 3 && y.2.layer = bitsOf key 0 6

/-- Samples added modulo 2^20 (R351, R354). -/
def addSamples (a b : List (Int × Int)) : List (Int × Int) :=
  (List.range 1024).map fun i =>
    (wrapBits 20 ((a.getD i (0, 0)).1 + (b.getD i (0, 0)).1), wrapBits 20 ((a.getD i (0, 0)).2 + (b.getD i (0, 0)).2))

/-- A CASC_SUM packet (R350). -/
def sumPacket (key origin slot seq pip : Nat) (reduced : Bool) (data : List (Int × Int)) : Packet :=
  { ver := 2, type := 5, flags := if reduced then 1 else 0, handle := 2 ^ 28 * origin + key, tick := slot, format := 3, seq := seq, pip := pip,
    payload := encodeSamples 3 data }

/-- CASC_SUM_LATE: a sum that has not started by q + UL_ALLOW is discarded and counted (R351). -/
def execCascSumLate (t : Nat) (s : State) : Out :=
  let s := advance t s
  .next <|
    match (port s 1).queue.find? fun x => match x.q with | some q => decide (q + ulAllow s < s.time.now) | none => false with
    | none => s
    | some x => satAdd (modPort s 1 fun p => { p with queue := p.queue.erase x }) F.CAS_STAT_LATE 1

/-- Blocks of a slot that hold any of its first `n` samples. -/
def leadingBlocks (n : Nat) : Nat := 2 ^ min 64 (ceilDiv n 16) - 1

/-! ## Time offset to the parent (R361) -/

/-- CASCADE_TIME_RECEIVE: a TIME packet on a cascade port is recorded; from one on its parent port a member computes the offset; what FIXED is at the far end of the hop no packet shows (R361; log 32). -/
def execCascadeTimeReceive (t : Nat) (s : State) : Out :=
  let s := advance t s
  .next <|
    match takeInbox s fun m => m.port != 0 && m.pkt.type = 4 with
    | none => s
    | some (m, s) =>
      let n := fun i => ((leNat ((m.pkt.payload.drop i).take 8) : Nat) : Int)
      let s := modCasc s fun x => { x with times := x.times.set m.port (leNat (m.pkt.payload.take 8), m.tick) }
      if isMember s && m.port = 1 then
        let d := (((m.tick : Nat) : Int) - n 0 - (n 24 - n 16)) / 2
        setFlag (setN s A.CAS_SYNC_OFFSET (unsigned 32 d)) F.CAS_STATUS_OFFSET_VALID 
          (!flag s (F.LN_PORT_CTRL_FIXED 1) && !Config.parentFixed s.time.now)
      else s

end Sys2Proof.Machine
end

