-- ==== Sys2Proof/Machine/HostRings.lean ====
section
/-!
DEFINITION. The rings at work: polls and KICK, PI and CI reads, entry fetches, the writing of completions and events, moderation,
enabling and disabling, the function level resets and the vectors' masks (spec/02_host_rings.md R61-R75, R80-R82).
-/
namespace Sys2Proof.Machine

/-! ## Command rings -/

def cmdRing (s : State) (r : Nat) : CmdRing := s.host.cmdRings.getD r default

def modCmdRing (s : State) (r : Nat) (f : CmdRing → CmdRing) : State :=
  { s with host := { s.host with cmdRings := listMod s.host.cmdRings r f } }

def cmdEnabled (s : State) (r : Nat) : Bool := decide (r < 16) && flag s (F.HOST_CMDR_CTRL_ENABLE r)
def cmdSize (s : State) (r : Nat) : Nat := 2 ^ getF s (F.HOST_CMDR_CTRL_LOG2_SIZE r)
def cmdBase (s : State) (r : Nat) : Nat := get64 s (A.HOST_CMDR_BASE r) (A.HOST_CMDR_BASE_1 r)
def cmdDb (s : State) (r : Nat) : Nat := get64 s (A.HOST_CMDR_DB r) (A.HOST_CMDR_DB_1 r)

/-- Entries per turn of the round robin; WEIGHT 0 acts as 1 (R75). -/
def cmdWeight (s : State) (r : Nat) : Nat := max 1 (getF s (F.HOST_CMDR_CTRL_WEIGHT r))

/-- Entries being fetched, not counting those that will be discarded. -/
def fetching (s : State) : Nat :=
  (s.host.cmdRings.map fun r => ((r.fetches.filter (fun f => !f.discard)).map (·.count)).sum).sum

/-- Entries of a ring that a poll has shown and no request has taken. -/
def availOf (s : State) (r : Nat) : Nat := ((cmdRing s r).piSeen + 2 ^ 32 - (cmdRing s r).pos) % 2 ^ 32

/-- Entries that the ring's next request may take: 16, the max read request size, the end of the ring and the 4 KiB boundary bound
it (R72); one request of a ring is outstanding at a time (notes/assumptions/10.md). -/
def requestRoom (s : State) (r : Nat) : Nat :=
  let ring := cmdRing s r
  if !cmdEnabled s r || ring.stopped || ring.held || ring.fetches.any (fun f => !f.discard) then 0
  else
    let slot := ring.pos % cmdSize s r
    let addr := cmdBase s r + 64 * slot
    min (min (availOf s r) 16) (min (max 1 (s.host.mrrs / 64)) (min (cmdSize s r - slot) (max 1 ((4096 - addr % 4096) / 64))))

/-- Turns of the weighted round robin over the rings' rooms: (next ring, entries yielded by each ring) (R75). -/
def takeTurns (weight : Nat → Nat) : Nat → Nat → Nat → List Nat → List Nat → Nat × List Nat
  | 0, rr, _, _, share => (rr, share)
  | n + 1, rr, budget, room, share =>
    if budget = 0 || room.all (· == 0) then (rr, share)
    else
      let k := min (weight rr) (min budget (room.getD rr 0))
      takeTurns weight n ((rr + 1) % 16) (budget - k) (room.modify rr (· - k)) (share.modify rr (· + k))

/-- A fetch request of `k` entries is issued for a ring. -/
def issueFetch (s : State) (r k : Nat) : State :=
  if k = 0 || !ringTagFree s then s
  else
    let pos := (cmdRing s r).pos
    let s := emit s (.hostRead (cmdBase s r + 64 * (pos % cmdSize s r)) (64 * k))
    modCmdRing s r fun g =>
      { g with pos := (g.pos + k) % 2 ^ 32, fetches := g.fetches ++ [{ index := pos, count := k, discard := false, at' := s.time.now }] }

/-- The rings whose reading a limit of R81 holds back wait for the next poll. -/
def holdRings (s : State) : State :=
  let full := decide (576 ≤ s.host.flight.length + fetching s)
  (List.range 16).foldl (fun s r =>
    if cmdEnabled s r && decide (0 < availOf s r) && (full || decide (0 < backlogOf s (cqOf s r))) then
      modCmdRing s r fun g => { g with held := true } else s) s

/-- What the first `n` rings with room, from ring `rr` on, may take: the others wait for a tag (R62). -/
def tagRoom (rr n : Nat) (room : List Nat) : List Nat :=
  let order := (List.range 16).map fun i => (rr + i) % 16
  let served := (order.filter fun r => room.getD r 0 != 0).take n
  (List.range 16).map fun r => if served.contains r then room.getD r 0 else 0

/-- Fetch requests for new entries: at most 64 commands are read ahead of execution and at most 576 are in flight (R72, R75,
R81). -/
def issueFetches (s : State) : State :=
  let s := holdRings s
  let ahead := (s.host.flight.filter (fun f => f.stage == .waiting)).length + fetching s
  let budget := min (64 - ahead) (576 - (s.host.flight.length + fetching s))
  let room := tagRoom s.host.rr (ringTags s - ringReads s) ((List.range 16).map (requestRoom s))
  let t := takeTurns (cmdWeight s) 1100 s.host.rr budget room (List.replicate 16 0)
  let s := { s with host := { s.host with rr := t.1 } }
  (List.range 16).foldl (fun s r => issueFetch s r (t.2.getD r 0)) s

/-- A command ring halts: CAUSE 2 INDEX_ERROR, 3 FETCH_TIMEOUT, 4 FETCH_ABORT (R73). -/
def haltRing (s : State) (r cause : Nat) : State :=
  let s := setF (setFlag s (F.HOST_CMDR_STATUS_HALTED r) true) (F.HOST_CMDR_STATUS_CAUSE r) cause
  postRingError (modCmdRing s r fun g => { g with stopped := true }) 0 r cause

/-- The poll interval in ticks: CK_CTL periods of two ticks, bounded to 123-491,520 (R71). -/
def pollTicks (s : State) : Nat := 2 * max 123 (min 491520 (getF s F.HOST_POLL_INTERVAL_PERIODS))

/-- A PI read that a poll asks for is issued when a tag is free. -/
def issuePi (s : State) (r : Nat) : State :=
  if (cmdRing s r).piWant && cmdEnabled s r && ringTagFree s then
    emit (modCmdRing s r fun g => { g with piOut := true, piStale := false, piWant := false, piAt := s.time.now }) (.hostRead (cmdDb s r) 4)
  else s

/-- Reads that wait for a tag are issued while there is one: the PI reads of a poll, CI reads, entry fetches (R62; log 10). -/
def issueReads (s : State) : State :=
  let s := (List.range 16).foldl issuePi s
  let s := (List.range 16).foldl (fun s r => issueCi s 1 r) s
  let s := (List.range 4).foldl (fun s r => issueCi s 2 r) s
  issueFetches s

/-- One poll: a PI read for each enabled command ring that has not halted (log 62) and has none outstanding, and a CI read for each full
ring with something to write whose CI is not being read (R71, R74, R82); reading held back under R81 may resume. -/
def poll (s : State) : State :=
  let s := { s with host := { s.host with lastPoll := s.time.now, kick := false } }
  let s := (List.range 16).foldl (fun s r =>
    modCmdRing s r fun g => { g with held := false, piWant := cmdEnabled s r && !g.stopped && !g.piOut }) s
  let s := (List.range 16).foldl (fun s r => modOutRing s 1 r fun o => { o with ciWant := needsCi s 1 r && !o.ciOut, ciFailed := false }) s
  let s := (List.range 4).foldl (fun s r => modOutRing s 2 r fun o => { o with ciWant := needsCi s 2 r && !o.ciOut, ciFailed := false }) s
  issueReads s

/-- A poll runs until it has issued its PI reads (R71). -/
def pollRuns (s : State) : Bool := (List.range 16).any fun r => (cmdRing s r).piWant && cmdEnabled s r

/-- RING_POLL: a poll whose interval has passed, or that a KICK has asked for, runs once no other does, also while the root PLL is off
(R71; log 57). -/
def execRingPoll (t : Nat) (s : State) : Out :=
  let s := advance t s
  .next <|
    if s.power.phase == .run && !pollRuns s && (s.host.kick || decide (s.host.lastPoll + pollTicks s ≤ s.time.now)) then poll s else s

/-- KICK: one poll is asked for at once; several KICKs before it ask for one; the write does not count in CFG_WRITES (R71, R89, R444). -/
def execKick (t : Nat) (s : State) : Out :=
  let s := advance t s
  .next (if asleep s then blockWrite s false else if s.power.phase == .run then { s with host := { s.host with kick := true } } else s)

/-- PI_READ_COMPLETE: PI is compared with CI; too far ahead halts the ring, new entries are requested (R72, R73). What a read brings that was
issued before the ring was disabled is discarded. -/
def execPiReadComplete (t ring pi : Nat) (s : State) : Out :=
  let s := advance t s
  .next <|
    if !(cmdRing s ring).piOut then s
    else if (cmdRing s ring).piStale || !cmdEnabled s ring then issueReads (modCmdRing s ring fun g => { g with piOut := false })
    else
      let s := modCmdRing s ring fun g => { g with piOut := false }
      let pi := pi % 2 ^ 32
      if cmdSize s ring < (pi + 2 ^ 32 - (cmdRing s ring).ci) % 2 ^ 32 then issueReads (haltRing s ring 2)
      else issueReads (modCmdRing s ring fun g => { g with piSeen := pi })

/-- The command that the 64 bytes of an entry spell (R76). -/
def decodeEntry (ring : Nat) (l : List Byte) : Cmd :=
  let w := leNat (l.take 64)
  { ring := ring, opcode := bitsOf w 0 8, flags := bitsOf w 8 8, tag := bitsOf w 16 16, handle := bitsOf w 32 32, actTick := bitsOf w 64 64
    params := BitVec.ofNat 384 (bitsOf w 128 384) }

/-- The entries that a fetch of `n` entries brings. -/
def decodeEntries (ring : Nat) : Nat → List Byte → List Cmd
  | 0, _ => []
  | n + 1, l => decodeEntry ring l :: decodeEntries ring n (l.drop 64)

/-- Entries read become commands in flight, with the arrival tick of the whole request (R44, R81). -/
def takeEntries (s : State) (l : List Cmd) : State :=
  l.foldl (fun s c =>
    { s with host := { s.host with
        flight := s.host.flight ++ [{ id := s.host.nextId, cmd := c, arrival := s.time.tick, tickOk := tickValid s, stage := .waiting,
                                      source := (0, 0), readAt := none, reads := 0, rest := (0, 0), got := [] }]
        nextId := s.host.nextId + 1 } }) s

/-- ENTRY_FETCH_COMPLETE: the entries of an outstanding request arrive as bytes; the device writes CI. Entries of a ring disabled
meanwhile are discarded, with no CI written (R70, R72, R76); those of a ring that halted meanwhile are taken (log 62). -/
def execEntryFetchComplete (t ring index : Nat) (entries : List Byte) (s : State) : Out :=
  let s := advance t s
  match (cmdRing s ring).fetches.find? (fun f => f.index = index && 64 * f.count = entries.length) with
  | none => .next s
  | some f =>
    let s := modCmdRing s ring fun g => { g with fetches := g.fetches.erase f }
    .next <|
      if f.discard then issueReads s
      else
        let s := takeEntries s (decodeEntries ring f.count entries)
        let ci := (index + f.count) % 2 ^ 32
        let s := setF (modCmdRing s ring fun g => { g with ci := ci }) (F.HOST_CMDR_STATUS_CI_LO ring) ci
        issueReads (hostWrite s (cmdDb s ring + 64) 4 ci)

/-- The events that wait for a ring are written while they fit; the room that this leaves in the queue serves every EVENTS_LOST that is
due, the ring's own first (R82). -/
def drainQueue (s : State) (ring : Nat) : State := placeAllLost (placeLost (drainEvents s.host.evq.length s ring) ring)

/-- CI_READ_COMPLETE: the copy of CI of a completion (1) or event (2) ring is renewed and waiting entries are written while they
fit (R74, R81, R82). -/
def execCiReadComplete (t kind ring ci : Nat) (s : State) : Out :=
  let s := advance t s
  .next <|
    if !(outRing s kind ring).ciOut then s
    else if (outRing s kind ring).ciStale || !outEnabled s kind ring then issueReads (modOutRing s kind ring fun o => { o with ciOut := false })
    else
      let s := modOutRing s kind ring fun o => { o with ciOut := false, ci := ci % 2 ^ 32 }
      issueReads (if kind = 1 then drainBacklog s.host.backlog.length s ring else drainQueue s ring)

/-- COMPLETION_BACKLOG_DRAIN: a completion ring with room gets the completions that wait for it, in order (R81). -/
def execCompletionBacklogDrain (t ring : Nat) (s : State) : Out :=
  let s := advance t s
  .next (if outEnabled s 1 ring then drainBacklog s.host.backlog.length s ring else s)

/-- EVENT_QUEUE_DRAIN: an event ring with room gets the events that wait for it, in order, and then EVENTS_LOST if it is due
(R82). -/
def execEventQueueDrain (t ring : Nat) (s : State) : Out :=
  let s := advance t s
  .next (if outEnabled s 2 ring then drainQueue s ring else s)

/-- COMPLETION_WRITE: the first completion that is due for a completion ring is delivered (R81, R85). -/
def execCompletionWrite (t cq : Nat) (s : State) : Out :=
  let s := advance t s
  match s.host.due.find? (fun c => c.cq = cq) with
  | none => .next s
  | some c => .next (deliverCpl { s with host := { s.host with due := s.host.due.erase c } } c)

/-- MSIX_MODERATION_EXPIRY: MOD_DELAY has passed since the first entry without a message; the vector is sent (R65). What becomes of a message
still due when its ring is disabled, and of entries already waiting when IRQ_EN is set, the spec does not say (log 52). -/
def execMsixModerationExpiry (t kind ring : Nat) (s : State) : Out :=
  let s := advance t s
  let o := outRing s kind ring
  .next <|
    if outEnabled s kind ring && outIrqEn s kind ring && decide (0 < o.unsignalled)
        && decide (o.firstAt + outModDelay s kind ring ≤ s.time.now) then
      sendMsix (modOutRing s kind ring fun o => { o with unsignalled := 0 }) (outVector s kind ring)
    else s

/-- The mask bit of a vector written; a message that its pending bit holds is sent when nothing bars it any more (R64). -/
def setMask (s : State) (vec : Nat) (on : Bool) : State :=
  releaseMsix { s with host := { s.host with msixMask := putBits s.host.msixMask vec 1 (if on then 1 else 0) } } vec

/-- MSIX_UNMASK: the vector's mask bit clears, and a message held in its pending bit is sent (R64). -/
def execMsixUnmask (t vec : Nat) (s : State) : Out :=
  let s := advance t s
  .next (if vec < 32 then setMask s vec false else s)

/-- MSI-X Enable and Function Mask written: messages that they held back are sent (R64; log 8). -/
def writeMsixControl (s : State) (on func : Bool) : State :=
  (List.range 32).foldl releaseMsix { s with host := { s.host with msixOn := on, msixFunc := func } }

/-- A word of W4: the MSI-X table of 16-byte entries (address, data, vector control), the pending-bit array at 1000h (R57). -/
def msixWord (s : State) (a : Nat) : Nat :=
  let x := s.host.msixTable.getD (a / 16) (0, 0)
  if a < 0x200 then
    match a / 4 % 4 with
    | 0 => x.1 % 2 ^ 32
    | 1 => x.1 / 2 ^ 32
    | 2 => x.2
    | _ => if bitAt s.host.msixMask (a / 16) then 1 else 0
  else if a = 0x1000 then s.host.msixPend
  else 0

/-- A write of a word of W4; the two low address bits and the pending-bit array are read-only (R57; log 8). -/
def storeMsix (s : State) (a data : Nat) : State :=
  let put := fun f => { s with host := { s.host with msixTable := listMod s.host.msixTable (a / 16) f } }
  if a < 0x200 then
    match a / 4 % 4 with
    | 0 => put fun x => (putBits x.1 0 32 (data % 2 ^ 32 / 4 * 4), x.2)
    | 1 => put fun x => (putBits x.1 32 32 data, x.2)
    | 2 => put fun x => (x.1, data % 2 ^ 32)
    | _ => setMask s (a / 16) (bitAt data 0)
  else s

/-! ## Enabling and disabling (R68-R70) -/

/-- A completion or event ring is disabled: what waits for it is counted in HOST.LOST and discarded (R70). -/
def disableOut (s : State) (kind r : Nat) : State :=
  if kind = 1 then
    let l := s.host.backlog.filter (fun c => c.cq = r)
    let s := { s with host := { s.host with backlog := s.host.backlog.filter (fun c => c.cq != r) } }
    showBacklog (l.foldl loseCpl s) r
  else
    let n := (s.host.evq.filter (fun e => e.ring = r)).length
    placeAllLost (satAdd { s with host := { s.host with evq := s.host.evq.filter (fun e => e.ring != r) } } F.HOST_LOST_EVENTS n)

/-- The device side of a command ring that has been disabled or reset: what its outstanding reads bring will be discarded; they keep their
tags until then (R62, R70; log 62 for the PI read). -/
def CmdRing.drop (g : CmdRing) : CmdRing :=
  { g with piStale := true, piWant := false, fetches := g.fetches.map fun f => { f with discard := true } }

/-- The device side of an output ring as it starts: a CI read that is outstanding keeps its tag, and what it brings is discarded; the time of
its last RING_ERROR stays (R74). -/
def OutRing.renew (o : OutRing) : OutRing :=
  { (default : OutRing) with ciOut := o.ciOut, ciStale := true, ciAt := o.ciAt, errAt := o.errAt }

/-- A command ring is disabled: its outstanding reads will be discarded (R70). -/
def disableCmd (s : State) (r : Nat) : State := modCmdRing s r CmdRing.drop

/-- CTRL of a command ring written (R68, R69). -/
def writeCmdCtrl (s : State) (r data : Nat) : State :=
  let was := flag s (F.HOST_CMDR_CTRL_ENABLE r)
  let s := setF (setFlag s (F.HOST_CMDR_STATUS_HALTED r) false) (F.HOST_CMDR_STATUS_CAUSE r) 0
  let s := setF (setF s (F.HOST_CMDR_CTRL_CQ r) (bitsOf data 16 4)) (F.HOST_CMDR_CTRL_WEIGHT r) (bitsOf data 8 5)
  let s := if was then s else setF s (F.HOST_CMDR_CTRL_LOG2_SIZE r) (bitsOf data 24 4)
  if was then
    if bitAt data 31 then s else disableCmd (setFlag s (F.HOST_CMDR_CTRL_ENABLE r) false) r
  else if bitAt data 31 then
    let n := bitsOf data 24 4
    if decide (n < 4) || decide (12 < n) || !outEnabled s 1 (bitsOf data 16 4) then
      setF (setFlag s (F.HOST_CMDR_STATUS_HALTED r) true) (F.HOST_CMDR_STATUS_CAUSE r) 1
    else
      let s := setF (setFlag s (F.HOST_CMDR_CTRL_ENABLE r) true) (F.HOST_CMDR_STATUS_CI_LO r) 0
      let s := modCmdRing s r fun g => { g with piSeen := 0, ci := 0, pos := 0, piWant := false, stopped := false, held := false }
      hostWrite s (cmdDb s r + 64) 4 0
  else s

/-- CTRL of a completion ring written (R68, R69). -/
def writeCqCtrl (s : State) (r data : Nat) : State :=
  let was := flag s (F.HOST_CQR_CTRL_ENABLE r)
  let s := setF (setFlag s (F.HOST_CQR_STATUS_HALTED r) false) (F.HOST_CQR_STATUS_CAUSE r) 0
  let s := setF (setF (setF s (F.HOST_CQR_CTRL_VECTOR r) (bitsOf data 16 5)) (F.HOST_CQR_CTRL_IRQ_EN r) (bitsOf data 15 1))
    (F.HOST_CQR_CTRL_MOD_COUNT r) (bitsOf data 0 8)
  let s := if was then s else setF s (F.HOST_CQR_CTRL_LOG2_SIZE r) (bitsOf data 24 5)
  if was then
    if bitAt data 31 then s else disableOut (setFlag s (F.HOST_CQR_CTRL_ENABLE r) false) 1 r
  else if bitAt data 31 then
    let n := bitsOf data 24 5
    if decide (n < 4) || decide (16 < n) then setF (setFlag s (F.HOST_CQR_STATUS_HALTED r) true) (F.HOST_CQR_STATUS_CAUSE r) 1
    else
      let s := setFlag s (F.HOST_CQR_CTRL_ENABLE r) true
      hostWrite (modOutRing s 1 r OutRing.renew) (outDb s 1 r + 64) 4 0
  else s

/-- CTRL of an event ring written (R68, R69). -/
def writeEvCtrl (s : State) (r data : Nat) : State :=
  let was := flag s (F.HOST_EVR_CTRL_ENABLE r)
  let s := setF (setFlag s (F.HOST_EVR_STATUS_HALTED r) false) (F.HOST_EVR_STATUS_CAUSE r) 0
  let s := setF (setF (setF s (F.HOST_EVR_CTRL_VECTOR r) (bitsOf data 16 5)) (F.HOST_EVR_CTRL_IRQ_EN r) (bitsOf data 15 1))
    (F.HOST_EVR_CTRL_MOD_COUNT r) (bitsOf data 0 8)
  let s := if was then s else setF s (F.HOST_EVR_CTRL_LOG2_SIZE r) (bitsOf data 24 5)
  if was then
    if bitAt data 31 then s else disableOut (setFlag s (F.HOST_EVR_CTRL_ENABLE r) false) 2 r
  else if bitAt data 31 then
    let n := bitsOf data 24 5
    if decide (n < 4) || decide (16 < n) then setF (setFlag s (F.HOST_EVR_STATUS_HALTED r) true) (F.HOST_EVR_STATUS_CAUSE r) 1
    else
      let s := setFlag s (F.HOST_EVR_CTRL_ENABLE r) true
      hostWrite (modOutRing s 2 r OutRing.renew) (outDb s 2 r + 64) 4 0
  else s

/-- RING_CTRL_WRITE: CTRL of a command (0), completion (1) or event (2) ring is written (R68-R70). -/
def execRingCtrlWrite (t kind ring data : Nat) (s : State) : Out :=
  byWrite t s fun s =>
    if kind = 0 && decide (ring < 16) then writeCmdCtrl s ring data
    else if kind = 1 && decide (ring < 16) then writeCqCtrl s ring data
    else if kind = 2 && decide (ring < 4) then writeEvCtrl s ring data
    else s

/-! ## Resets of the functions (R61) -/

/-- The HOST block at reset, with HOST.CFG_WRITES kept (R61, R89). -/
def resetHostRegs (s : State) : State :=
  { s with regs := s.regs.filter fun r =>
      r.1 < 0x20000 || 0x30000 ≤ r.1 || r.1 == A.HOST_CFG_WRITES.addr || r.1 == A.HOST_CFG_WRITES_1.addr }

/-- PF0 is reset: HOST registers, rings, backlog, event queue, MSI-X table and its configuration space; commands whose final completions are
discarded leave flight; objects and every other block keep running (R61). -/
def resetPf0 (s : State) : State :=
  let gone := (s.host.backlog.filter (·.final)).map (·.id)
  let s := resetHostRegs s
  { s with host := HostSt.resetCfg { s.host with
    cmdRings := s.host.cmdRings.map fun g =>
      { CmdRing.drop g with piSeen := 0, ci := 0, pos := 0, stopped := false, held := false }
    cplRings := s.host.cplRings.map OutRing.renew
    evRings := s.host.evRings.map OutRing.renew
    flight := s.host.flight.filter fun f => !gone.contains f.id
    backlog := []
    evq := []
    kick := false
    lastPoll := s.time.now } }

/-- The configuration space of PF1 is reset: of it the block holds PowerState (R61; log 8). -/
def resetPf1 (s : State) : State := { s with host := { s.host with dstate := (s.host.dstate.1, 0) } }

/-- PD2 is ready: outside sleep, and in a cold start or a wake from DEEP once step 11 has passed; before, a request to configuration space is answered with
Configuration Request Retry Status (R455; log 8). -/
def pd2Ready (s : State) : Bool := !asleep s || (s.power.deep && bitAt s.power.passed 11)

/-- A write of configuration space: answered with a retry status until PD2 is ready (R455). -/
def writeConfig (s : State) (k : State → State) : State := if pd2Ready s then k s else emit s .configRetry

/-- PCIe is up and its configuration space answers: the host can reach the device (R444, R455). -/
def pcieUp (s : State) : Bool := s.power.link || !asleep s

/-- FUNCTION_LEVEL_RESET of PF0, which a write of its configuration space makes (R61, R501). -/
def execFunctionLevelReset (t : Nat) (s : State) : Out :=
  let s := advance t s
  .next (if pcieUp s then writeConfig s resetPf0 else s)

/-- PF1_FUNCTION_LEVEL_RESET: only PF1's configuration space is reset (R61, R501). -/
def execPf1FunctionLevelReset (t : Nat) (s : State) : Out :=
  let s := advance t s
  .next (if pcieUp s then writeConfig s resetPf1 else s)

/-- A read issued at elapsed time `n` has no completion within the limit, or completed with UR or CA (R63). -/
def readFailed (s : State) (abort : Bool) (n : Nat) : Bool := abort || decide (n + cplTimeout s ≤ s.time.now)

/-- A read that times out sets Completion Timeout, bit 14, in AER's Uncorrectable Error Status; unless masked, it is reported with a message
of its severity where Device Control enables that (R56; log 8). -/
def noteTimeout (s : State) (abort : Bool) : State :=
  if abort then s
  else
    let fatal := bitAt s.host.aerSeverity 14
    let s := { s with host := { s.host with aer := s.host.aer ||| 2 ^ 14 } }
    if !bitAt s.host.aerMask 14 && bitAt s.host.reporting (if fatal then 2 else 1) then emit s (.errorMessage fatal) else s

/-- A ring read that times out or completes with UR or CA (cause 3 or 4): a poll or fetch read halts its ring, a CI read leaves
the copy as it was and posts RING_ERROR at most once in 983,040 ticks (R63, R73, R74); a ring halted already takes the new cause (log 62). -/
def ringReadFault (s : State) (u : ReadUser) (abort : Bool) : State :=
  let cause := if abort then 4 else 3
  match u with
  | .pi r =>
    if (cmdRing s r).piOut && readFailed s abort (cmdRing s r).piAt then
      let v := modCmdRing (noteTimeout s abort) r fun g => { g with piOut := false }
      issueReads (if (cmdRing s r).piStale || !cmdEnabled s r then v else haltRing v r cause)
    else s
  | .fetch r i =>
    match (cmdRing s r).fetches.find? (fun f => f.index = i) with
    | none => s
    | some f =>
      if !readFailed s abort f.at' then s
      else
        let s := modCmdRing (noteTimeout s abort) r fun g => { g with fetches := g.fetches.erase f }
        issueReads (if f.discard then s else haltRing s r cause)
  | .ci k r =>
    if (outRing s k r).ciOut && readFailed s abort (outRing s k r).ciAt then
      let stale := (outRing s k r).ciStale || !outEnabled s k r
      let s := noteTimeout s abort
      let again := match (outRing s k r).errAt with
        | none => true
        | some e => decide (e + ticksPerMs ≤ s.time.now)
      let s := modOutRing s k r fun o => { o with ciOut := false, ciFailed := !stale }
      issueReads (if again && !stale then postRingError (modOutRing s k r fun o => { o with errAt := some s.time.now }) k r cause else s)
    else s
  | _ => s

end Sys2Proof.Machine
end

