-- ==== Sys2Proof/Machine/Dma.lean ====
section
/-!
DEFINITION. DMA channel programs at work: the commands of a channel, the fetch of its lines, one meaning for each instruction, bursts,
peripheral requests, faults and the step budget (spec/12_dma_programs.md R369-R395).
-/
namespace Sys2Proof.Machine

/-! ## Peripherals (R389-R391) -/

/-- A peripheral exists: a capture job with DEST store, a monitor unit's FIFO, a control mirror. -/
def periphExists (s : State) (i : Nat) : Bool :=
  if i < 32 then match assocGet s.caps i with | some j => j.dest = 1 | none => false
  else decide (i < 0x24) || (decide (0x28 ≤ i) && decide (i < 0x2B))

/-- Records that a capture job has written so far: those of the capture in course follow its samples (log 35). -/
def recordsOf (s : State) (i : Nat) (j : CapJob) : Nat :=
  match s.captures.find? (fun x => x.handle = mkHandle 4 j.gen i && x.first.isSome) with
  | some x => outBy s x (x.first.getD 0) s.time.tick
  | none => j.written

/-- Bytes of a unit of a peripheral. -/
def periphUnit (i : Nat) : Nat := if i < 0x24 then 8 else 4

/-- Level of a peripheral in bytes. -/
def periphLevel (s : State) (i : Nat) : Nat :=
  if i < 32 then match assocGet s.caps i with
    | some j => if j.dest = 1 then 8 * (recordsOf s i j - j.taken) else 0
    | none => 0
  else if i < 0x24 then (s.periph.results.getD (i - 0x20) []).length
  else (s.periph.mirrors.getD (i - 0x28) []).length

/-- The source of a peripheral has ended: only a capture job's ends (R391). -/
def sourceEnded (s : State) (i : Nat) : Bool :=
  decide (i < 32) && match assocGet s.caps i with | some j => j.ended | none => true

/-- The request of a peripheral is asserted (R391). -/
def periphRequest (s : State) (i : Nat) : Bool :=
  decide (periphUnit i * max 1 (getF s (F.DMA_PERIPH_1_WM i)) ≤ periphLevel s i)
    || (sourceEnded s i && decide (0 < periphLevel s i))

/-- A peripheral is bound to a channel other than `c` (R390). -/
def boundElsewhere (s : State) (i c : Nat) : Bool := flag s (F.DMA_PERIPH_HELD i) && getF s (F.DMA_PERIPH_CHANNEL i) != c

def bindPeriph (s : State) (i c : Nat) : State := setF (setFlag s (F.DMA_PERIPH_HELD i) true) (F.DMA_PERIPH_CHANNEL i) c

/-- IDs of the table "Peripherals". -/
def periphIds : List Nat := List.range 0x24 ++ [0x28, 0x29, 0x2A]

/-- The bindings of a channel end: it is destroyed or its program counter is written (R390). -/
def unbindAll (s : State) (c : Nat) : State :=
  periphIds.foldl (fun s i =>
    if flag s (F.DMA_PERIPH_HELD i) && getF s (F.DMA_PERIPH_CHANNEL i) == c then
      setF (setFlag s (F.DMA_PERIPH_HELD i) false) (F.DMA_PERIPH_CHANNEL i) 0 else s) s

/-- What a channel that names peripheral `i` in a MOVE or WAIT meets: a status with which it halts, or the binding (R389, R390). -/
def nameplate (s : State) (i c : Nat) : Option Nat × State :=
  if !periphExists s i then (some stBadParam, s)
  else if boundElsewhere s i c then (some stBusy, s)
  else (none, bindPeriph s i c)

/-- The records that an operand brings for the capture in course of a job are written behind those already there; only whole records
of samples taken by now are (R231, R389). -/
def bringRecords (s : State) (i : Nat) (data : List Byte) : State :=
  match assocGet s.caps i with
  | none => s
  | some j =>
    if data.length % 8 = 0 && decide (j.written + data.length / 8 ≤ recordsOf s i j) && j.dest = 1 then
      { s with
        store := memWrite s.store (524288 * j.bank + 8 * j.written) data
        caps := assocPut s.caps i { j with written := j.written + data.length / 8 } }
    else s

/-- `n` bytes taken from a peripheral, whole units at a time; what it cannot supply is zeros, counted in UNDERRUN (R391, log 35). -/
def takeBytes (s : State) (i c n : Nat) : State × List Byte :=
  let (got, s) :=
    if i < 32 then match assocGet s.caps i with
      | some j =>
        let m := min n (8 * (j.written - j.taken))
        (memRead s.store (524288 * j.bank + 8 * j.taken) m,
          { s with caps := assocPut s.caps i { j with taken := j.taken + ceilDiv m 8 } })
      | none => ([], s)
    else if i < 0x24 then
      let l := s.periph.results.getD (i - 0x20) []
      (l.take n, showFifo { s with periph := { s.periph with
        results := s.periph.results.set (i - 0x20) (l.drop (8 * ceilDiv n 8)) } } (i - 0x20))
    else
      let l := s.periph.mirrors.getD (i - 0x28) []
      (l.take n, { s with periph := { s.periph with mirrors := s.periph.mirrors.set (i - 0x28) (l.drop (4 * ceilDiv n 4)) } })
  let short := n - got.length
  (satAdd s (F.DMA_CH_STAT_UNDERRUN c) short, got ++ List.replicate short 0)

/-! ## Accesses that fault (R375, R393) -/

/-- Spaces that the access in course of a channel reaches: its fetch, or the source and destination of its data instruction. -/
def spacesInUse (s : State) (c : Nat) : List Nat :=
  if (chAt s c).line.isNone then [(chPc s c).1]
  else if (chAt s c).busy then match instrAtPc s c with
    | some i => ((sourceOf s c i).map (·.1)).toList ++ ((destOf s c i).map (·.1)).toList
    | none => []
  else []

/-- The fault that the access in course of a running channel meets: host memory without Bus Master Enable, an untrained DRAM. -/
def accessFault (s : State) (c : Nat) : Option Nat :=
  if chState s c != chRunning then none
  else if (spacesInUse s c).contains 0 && !s.host.busMaster then some stDmaFetchAbort
  else if (spacesInUse s c).contains 2 && !dramTrained s then some stMemDown
  else none

/-! ## Fetching (R384) -/

/-- The program counter names a place from which an instruction can be fetched: aligned, and inside its space (R370, R375). -/
def pcFault (s : State) (c : Nat) : Option Nat :=
  let (space, addr) := chPc s c
  if addr % 16 ≠ 0 || regionBad space addr 16 then some stBadParam
  else if regionDown s space addr 16 then some stMemDown
  else if space = 0 && !s.host.busMaster then some stDmaFetchAbort
  else none

/-- Another channel waits for its turn. -/
def othersWant (s : State) (c : Nat) : Bool := s.dmas.any fun x => x.1 != c && x.2.want

/-- A channel joins the channels that wait for their turn (R386). -/
def waitTurn (s : State) (c : Nat) : State := modCh s c fun x => { x with want := true }

/-- The channel has taken its turn: the round goes on behind it (R386). -/
def tookTurn (s : State) (c : Nat) : State := { s with host := { s.host with dmaTurn := c } }

/-- The channel's turn to fetch the line of its program counter: from host memory with one request, if a tag of R62 is free. -/
def fetchTurn (s : State) (c : Nat) : State :=
  if (chPc s c).1 ≠ 0 then tookTurn (modCh s c fun x => { x with reading := true, want := false }) c
  else if sharedFree s 1 then
    tookTurn (emit (modCh s c fun x => { x with reading := true, want := false, reads := 1, readAt := s.time.now })
      (.hostRead ((chPc s c).2 / 64 * 64) 64)) c
  else waitTurn s c

/-- The channel needs the instruction at its program counter: it holds it, or fetches its line in its turn; a word that spells none, and a
place that cannot be fetched, halt it. -/
def seek (s : State) (c : Nat) : State :=
  match wordAtPc s c with
  | some w => if (decodeDma w).isNone then faultDma s c stBadParam else s
  | none =>
    let s := modCh s c fun x => { x with line := none }
    match pcFault s c with
    | some st => faultDma s c st
    | none => if othersWant s c then waitTurn s c else fetchTurn s c

/-- The channel goes on at an address; `again` drops the line, as a jump, a LINK and the end of a WAIT do (R384). Past the end of its
space it halts with BAD_PARAM. -/
def goTo (s : State) (c space addr : Nat) (again : Bool) : State :=
  let s := setDone (setPc s c space addr) c 0
  let s := modCh s c fun x => { x with busy := false, line := if again then none else x.line }
  if decide (2 ^ 48 ≤ addr) then faultDma s c stBadParam else seek s c

/-- The instruction after the one at the program counter. -/
def goOn (s : State) (c : Nat) (again : Bool) : State := goTo s c (chPc s c).1 ((chPc s c).2 + 16) again

/-- The channel starts or resumes at its program counter, with the step count cleared (R371). -/
def startDma (s : State) (c : Nat) : State :=
  let s := setN (setChState s c chRunning) (A.DMA_CH_STEPS c) 0
  seek (modCh s c fun x => { x with busy := false, line := none, burst := none, reading := false, want := false, reads := 0 }) c

/-! ## Commands (R370-R373) -/

/-- DMA_CREATE (60h). -/
def execDmaCreate (t : Nat) (c : Cmd) (s : State) : Out :=
  runCmd t 0x60 c s [] fun s f =>
    let space := p8 c 16
    let addr := p64 c 24
    let n := p8 c 18
    let bad := decide (2 < space) || decide (1 < p8 c 17) || decide (8 < n) || decide (addr % 16 ≠ 0) || regionBad space addr 16
      || (space = 2 && decide (s.dramSize ≤ addr))
    let second := p8 c 17 = 1 && s.dmas.any fun x => flag s (F.DMA_CH_STATE_SUPERVISORY x.1)
    match lowestFree s.dmas 64, (if n = 0 then some 0 else findRun s n) with
    | some i, some b =>
      immediate s f bad (if second then some stNoResource else none) false fun s =>
        let g := nextGen s 5 i
        let h := mkHandle 5 g i
        let x : DmaCh :=
          { gen := g, loops := [], entry := (space, addr), line := none, reading := false, busy := false, burst := none, kept := [],
            first := none, stop := none, want := false, reads := 0, readAt := 0 }
        let s := ownBanks { takeGen s 5 i with dmas := assocPut s.dmas i x } (bankRun b n) h
        let s := setF (setChState s i chIdle) (F.DMA_CH_STATE_SUPERVISORY i) (p8 c 17)
        let s := setN (setPc (setN s (A.DMA_CH_HANDLE i) h) i space addr) (A.DMA_CH_BUDGET i) (p32 c 20)
        (setF (setF s (F.DMA_CH_BANKS_COUNT i) n) (F.DMA_CH_BANKS_FIRST i) (if n = 0 then 0 else b), h)
    | _, _ => immediate s f bad (some stNoResource) false fun s => (s, 0)

/-- DMA_START (61h): BUSY on a channel that runs (R371). -/
def execDmaStart (t : Nat) (c : Cmd) (s : State) : Out :=
  runCmd t 0x61 c s [] fun s f =>
    let i := handleIdx c.handle
    schedulable s f false [(0x61, c.handle, 0)] (if chBusy s i then some stBusy else none) false fun s => startDma s i

/-- A scheduled DMA_START at its tick, at which the channel is not checked again: one that is RUNNING, WAITING or PARKED by then goes on
(R97, R371; log 34). -/
def actDmaStart (s : State) (h : Nat) : State × Nat :=
  (if chBusy s (handleIdx h) then s else startDma s (handleIdx h), stOK)

/-- An entry into SLEEP or DEEP is requested (R372, R445). -/
def entryRequested (s : State) : Bool := decide (2 ≤ getF s F.PWR_MODE_TARGET)

/-- The register words of a channel's context return to reset. -/
def clearContext (s : State) (c : Nat) : State :=
  { s with regs := s.regs.filter fun r => r.1 < 0x30000 + 0x100 * c || 0x30000 + 0x100 * (c + 1) ≤ r.1 }

/-- DMA_DESTROY (63h): BUSY while the channel runs (R105, R373, R390). -/
def execDmaDestroy (t : Nat) (c : Cmd) (s : State) : Out :=
  runCmd t 0x63 c s [] fun s f =>
    let i := handleIdx c.handle
    immediate s f false (if chBusy s i then some stBusy else none) false fun s =>
      let s := cancelNaming (unbindAll s i) c.handle
      (releaseBanks (clearContext { s with dmas := assocDel s.dmas i } i) c.handle, 0)

/-- The program counter of an IDLE or HALTED channel written: its progress, loop stack and bindings go, the cursors stay (R373,
R390). -/
def writePc (s : State) (c word data : Nat) : State :=
  if chState s c = chIdle || chState s c = chHalted then
    let s := if word = 0 then setN s (A.DMA_CH_PC c) (data % 2 ^ 32)
      else setN s (A.DMA_CH_PC_1 c) (bitsOf data 0 18)
    unbindAll (modCh (setDone s c 0) c fun x => { x with loops := [] }) c
  else s

/-- DMA_PC_WRITE: a write of a program counter word (0 lower, 1 upper). -/
def execDmaPcWrite (t channel word data : Nat) (s : State) : Out :=
  byWrite t s fun s => if channel < 64 then writePc s channel word data else s

/-! ## Instructions -/

/-- The channel is about to start the instruction at its program counter (R384). -/
def poised (s : State) (c : Nat) : Bool :=
  chState s c = chRunning && !(chAt s c).busy && (chAt s c).burst.isNone && !(chAt s c).reading && (chAt s c).stop.isNone

/-- The budget is spent: only a WAIT or SIGNAL may start (R392). -/
def spent (s : State) (c : Nat) : Bool := decide (budgetOf s c ≤ getN s (A.DMA_CH_STEPS c))

/-- An instruction starts and counts (R392). -/
def countStep (s : State) (c : Nat) : State :=
  setN s (A.DMA_CH_STEPS c) (min (getN s (A.DMA_CH_STEPS c) + 1) (2 ^ 32 - 1))

/-- The end of a completed WAIT or SIGNAL clears the count (R392). -/
def clearSteps (s : State) (c : Nat) : State := setN s (A.DMA_CH_STEPS c) 0

/-! ### Bursts (R385, R386) -/

/-- Bytes of the running instruction read so far. -/
def progress (s : State) (c : Nat) : Nat := chDone s c + (chAt s c).kept.length

/-- Length of the next burst of a region at address `a` with `left` bytes to go: to the next multiple of 512 (R386, log 33). -/
def burstLength (a left : Nat) : Nat := min left (512 - a % 512)

/-- The mismatch and cursors of a data instruction that has moved all its bytes (R377, R380). -/
def finishData (s : State) (c : Nat) (i : DmaInstr) : State :=
  let src := sourceOf s c i
  let dst := destOf s c i
  let s := flushKept s c
  let s := match src with
    | some (3, a) => setScur s c 3 a
    | some (sp, a) => setScur s c sp (a + dataLength i)
    | none => s
  let s := match dst with
    | some (sp, a) => setDcur s c sp (a + dataLength i)
    | none => s
  match i with
  | .cmp _ _ _ halt _ _ _ _ _ _ =>
    let miss := (chAt s c).first
    let s := modCh s c fun x => { x with first := none }
    let s := match miss with
      | some o => setN (raiseFlag (setFlag s (F.DMA_CH_CMP_MISMATCH c) true) (F.DMA_CH_CMP_ANY c)) (A.DMA_CH_CMP_1 c) o
      | none => setN (setFlag s (F.DMA_CH_CMP_MISMATCH c) false) (A.DMA_CH_CMP_1 c) (2 ^ 32 - 1)
    if halt && miss.isSome then haltDma (setDone s c 0) c stOK true else goOn s c false
  | _ => goOn s c false

/-- Read requests for the next `n` bytes of a region in host memory from which `done` bytes have been taken: while they start in the head,
one request ends with it (R385). -/
def burstReads (s : State) (x : Nat × Nat) (done n : Nat) : List Output :=
  if x.1 = 0 then readRequests s (n + 1) (x.2 + done) n (decide (x.2 % 64 ≠ 0) && decide ((x.2 + done) / 64 = x.2 / 64)) else []

/-- The length of the next burst from peripheral `p` with `left` bytes to go (R391). -/
def periphBurst (s : State) (p left : Nat) : Nat := min (min (periphLevel s p / periphUnit p * periphUnit p) left) 512

/-- The turn of a MOVE from peripheral `p` with `left` bytes to go: a burst, its length fixed now, if the request is asserted; else the channel
goes on waiting for the request (R386, R391). -/
def periphTurn (s : State) (c p left : Nat) : State :=
  if periphRequest s p && decide (0 < periphBurst s p left) then
    tookTurn (modCh s c fun x => { x with burst := some (periphBurst s p left), want := false }) c
  else modCh s c fun x => { x with want := false }

/-- The channel's turn in a data instruction with bytes left: the next burst is issued once the tags of R62 carry its reads, or a
peripheral is waited for. -/
def takeTurn (s : State) (c : Nat) (i : DmaInstr) : State :=
  let left := dataLength i - progress s c
  match accessFault s c with
    | some st => faultDma s c st
    | none =>
      let at' := fun (x : Nat × Nat) => x.2 + progress s c
      match sourceOf s c i, destOf s c i with
      | some (3, p), _ =>
        if !periphExists s p || (sourceEnded s p && periphLevel s p = 0) then haltDma s c stCancelled true else periphTurn s c p left
      | some src, dst =>
        let n := burstLength (at' src) left
        let reads := burstReads s src (progress s c) n ++ match i, dst with
          | .cmp .., some d => burstReads s d (progress s c) n
          | _, _ => []
        if reads.isEmpty || sharedFree s reads.length then
          tookTurn (modCh (reads.foldl emit s) c fun x =>
            { x with burst := some n, want := false, reads := reads.length, readAt := s.time.now }) c
        else waitTurn s c
      | none, some dst => tookTurn (modCh s c fun x => { x with burst := some (burstLength (at' dst) left), want := false }) c
      | none, none => s

/-- A data instruction goes on: it ends with its last byte, or takes the channel's turn for the next burst, behind the channels that wait
for theirs (R386). -/
def nextBurst (s : State) (c : Nat) (i : DmaInstr) : State :=
  if dataLength i ≤ progress s c then finishData s c i
  else if othersWant s c then waitTurn s c
  else takeTurn s c i

/-- A channel waits for its turn. -/
def awaitsTurn (s : State) (c : Nat) : Bool := (chAt s c).want && chState s c = chRunning

/-- A channel that waits takes its turn, if the tags it needs are free (R386). -/
def retryTurn (s : State) (c : Nat) : State :=
  if awaitsTurn s c then
    let s' := modCh s c fun x => { x with want := false }
    if (chAt s c).line.isNone then (match pcFault s' c with | some st => faultDma s' c st | none => fetchTurn s' c)
    else match instrAtPc s c with
      | some i => if (chAt s c).busy && (chAt s c).burst.isNone then takeTurn s' c i else s'
      | none => s'
  else s

/-- The channels of a list take their turns in order, up to the first whose turn finds too few tags: no channel behind it goes before it
(R386; log 33). -/
def serveTurns : List Nat → State → State
  | [], s => s
  | c :: l, s => if awaitsTurn (retryTurn s c) c then retryTurn s c else serveTurns l (retryTurn s c)

/-- Tags have come free: source reads and the channels that wait for some take their turns, round robin from the channel behind the one that
took the last turn (R62, R386; log 10). -/
def pumpShared (s : State) : State := serveTurns ((List.range 64).map fun i => (s.host.dmaTurn + 1 + i) % 64) (issueSources s)

/-- DMA_STOP (62h): a burst or fetch in progress is waited for (R372). -/
def execDmaStop (t : Nat) (c : Cmd) (s : State) : Out :=
  runCmd t 0x62 c s [] fun s f =>
    let i := handleIdx c.handle
    let res := if chState s i = chParked && entryRequested s then some stBusy else none
    match lateChecks s f false [] res false with
    | some st => reject s f st
    | none =>
      if chState s i = chRunning && ((chAt s i).burst.isSome || (chAt s i).reading) then
        modCh (setStage s f.id .running) i fun x => { x with stop := some (x.stop.getD [] ++ [f.id]) }
      else complete (if chBusy s i then pumpShared (haltDma s i stCancelled true) else s) f 0

/-- INSTRUCTION_FETCH_COMPLETE: the line of the program counter arrives, from host memory as the operand, and the instruction there is
decoded; a stopped channel halts (R372, R374, R384). -/
def execInstructionFetchComplete (t channel : Nat) (data : List Byte) (s : State) : Out :=
  let s := advance t s
  let x := chAt s channel
  let (space, addr) := chPc s channel
  if chState s channel != chRunning || x.line.isSome || !x.reading || (space == 0 && data.length != 64)
      || (accessFault s channel).isSome then .next s
  else
    let base := addr / 64 * 64
    .next (throughPort (space == 2) (fun s =>
      let bytes := if space = 0 then data else memRead (if space = 1 then s.store else s.dram) base 64
      let s := modCh s channel fun x => { x with line := some (space, base, bytes), reading := false, reads := 0 }
      pumpShared (if x.stop.isSome then haltDma s channel stCancelled true else seek s channel)) s)

/-- Two regions of one space overlap (R378). -/
def overlaps (a b : Nat × Nat) (n : Nat) : Bool := a.1 = b.1 && decide (a.2 < b.2 + n) && decide (b.2 < a.2 + n)

/-- What a data instruction meets before its first access: BAD_PARAM for a space that it may not name, a region past its space or an
overlap, MEM_DOWN for DRAM that is not there (R375, R376, R378). -/
def regionFault (s : State) (c : Nat) (i : DmaInstr) : Option Nat :=
  let n := dataLength i
  let src := sourceOf s c i
  let dst := destOf s c i
  let periph := match src with | some (3, _) => true | _ => false
  let isMove := match i with | .move .. => true | _ => false
  let mem := (if periph then [] else src.toList) ++ dst.toList
  let clash := match src, dst with | some a, some b => isMove && overlaps a b n | _, _ => false
  if (periph && !isMove) || mem.any (fun x => regionBad x.1 x.2 n) || clash then some stBadParam
  else if mem.any fun x => regionDown s x.1 x.2 n then some stMemDown
  else none

/-- A data instruction starts or resumes (R376, R389, R390, R394). -/
def beginData (s : State) (c : Nat) (i : DmaInstr) : State :=
  let s := modCh (countStep s c) c fun x => { x with busy := true, first := if chDone s c = 0 then none else x.first }
  match regionFault s c i with
  | some st => faultDma s c st
  | none => match sourceOf s c i with
    | some (3, p) => match nameplate s p c with
      | (some st, s) => faultDma s c st
      | (none, s) => nextBurst s c i
    | _ => nextBurst s c i

/-- MOVE: the copy starts with its first burst (R376-R378). -/
def execMove (t channel : Nat) (s : State) : Out :=
  let s := advance t s
  .next <| match poised s channel && !spent s channel, instrAtPc s channel with
    | true, some (.move a b c d e f g) => beginData s channel (.move a b c d e f g)
    | _, _ => s

/-- FILL: the pattern write starts with its first burst (R376, R379). -/
def execFill (t channel : Nat) (s : State) : Out :=
  let s := advance t s
  .next <| match poised s channel && !spent s channel, instrAtPc s channel with
    | true, some (.fill a b c d e) => beginData s channel (.fill a b c d e)
    | _, _ => s

/-- CMP: the comparison starts with its first burst (R376, R380). -/
def execCmp (t channel : Nat) (s : State) : Out :=
  let s := advance t s
  .next <| match poised s channel && !spent s channel, instrAtPc s channel with
    | true, some (.cmp a b c d e f g h i j) => beginData s channel (.cmp a b c d e f g h i j)
    | _, _ => s

/-- `n` pattern bytes from address `a` on: byte A holds pattern byte A mod 4 (R379). -/
def patternBytes (pattern : Nat) : Nat → Nat → List Byte
  | _, 0 => []
  | a, n + 1 => BitVec.ofNat 8 (bitsOf pattern (8 * (a % 4)) 8) :: patternBytes pattern (a + 1) n

/-- `n` bytes of a memory space; host memory answers with the operand. -/
def spaceBytes (s : State) (x : Nat × Nat) (n : Nat) (host : List Byte) : List Byte :=
  match x.1 with
  | 0 => host
  | 1 => memRead s.store x.2 n
  | _ => memRead s.dram x.2 n

/-- Bytes that the running instruction writes next: host memory takes them up to the last multiple of 512 and the funnel keeps the
rest; the store and the DRAM take them at once (R385, R394). -/
def writeNext (s : State) (c : Nat) (dst : Nat × Nat) (bytes : List Byte) : State :=
  let a := dst.2 + chDone s c
  match dst.1 with
  | 0 =>
    let all := (chAt s c).kept ++ bytes
    let n := 512 * ((a + all.length) / 512) - a
    let s := hostBytes s a (all.take n)
    setDone (modCh s c fun x => { x with kept := all.drop n }) c (chDone s c + n)
  | 1 => setDone { s with store := memWrite s.store a bytes } c (chDone s c + bytes.length)
  | _ => setDone { s with dram := memWrite s.dram a bytes } c (chDone s c + bytes.length)

/-- Index of the first place where two byte lists differ. -/
def firstDiffer : List Byte → List Byte → Nat → Option Nat
  | a :: l, b :: m, i => if a = b then firstDiffer l m (i + 1) else some i
  | _, _, _ => none

/-- The bytes of a burst: a MOVE writes what it read, a FILL its pattern, a CMP compares (R378-R380). -/
def runBurst (s : State) (c : Nat) (i : DmaInstr) (n : Nat) (src dst : List Byte) : State :=
  match i with
  | .move .. => match sourceOf s c i, destOf s c i with
    | some (3, p), some d => let r := takeBytes (bringRecords s p src) p c n; writeNext r.1 c d r.2
    | some x, some d => writeNext s c d (spaceBytes s (x.1, x.2 + progress s c) n src)
    | _, _ => s
  | .fill _ _ _ pattern _ => match destOf s c i with
    | some d => writeNext s c d (patternBytes pattern (d.2 + progress s c) n)
    | none => s
  | .cmp _ _ _ _ _ _ _ _ _ pattern => match sourceOf s c i with
    | some x =>
      let a := x.2 + chDone s c
      let l := spaceBytes s (x.1, a) n src
      let m := match destOf s c i with
        | some d => spaceBytes s (d.1, d.2 + chDone s c) n dst
        | none => patternBytes pattern a n
      let miss := firstDiffer l m (chDone s c)
      setDone (modCh s c fun y => { y with first := y.first.or miss }) c (chDone s c + n)
    | none => s
  | _ => s

/-- The bytes that host memory or a capture brings for a burst are there. -/
def bytesReady (s : State) (c : Nat) (i : DmaInstr) (n : Nat) (src dst : List Byte) : Bool :=
  (match sourceOf s c i with
    | some (0, _) => src.length = n
    | some (3, p) => match assocGet (bringRecords s p src).caps p with
      | some j => decide (32 ≤ p) || decide (min n (periphLevel s p) ≤ 8 * (j.written - j.taken))
      | none => true
    | _ => true)
  && match i, destOf s c i with
    | .cmp .., some (0, _) => dst.length = n
    | _, _ => true

/-- PERIPHERAL_BURST: the request of the peripheral that a MOVE waits for is asserted; its burst starts in the channel's turn, its length fixed
at the level in whole units, the bytes of LENGTH that remain, and 512 bytes (R386, R391). -/
def execPeripheralBurst (t channel : Nat) (s : State) : Out :=
  let s := advance t s
  .next <| match instrAtPc s channel, waitsOn s channel with
    | some (.move _ _ _ _ len _ _), some p =>
      if chState s channel == chRunning && periphRequest s p && (chAt s channel).stop.isNone && (accessFault s channel).isNone then
        if othersWant s channel then waitTurn s channel else periphTurn s channel p (len - progress s channel)
      else s
    | _, _ => s

/-! ### LOOP, LINK, HALT (R381-R383) -/

/-- The loop stack from the entry of the LOOP at this address down, if it has one (R381.1). -/
def unwind (l : List (Nat × Nat × Nat)) (space addr : Nat) : Option (List (Nat × Nat × Nat)) :=
  match l.dropWhile (fun e => !(e.1 = space && e.2.1 = addr)) with
  | [] => none
  | e :: r => some (e :: r)

/-- The jump of a LOOP with the loop stack that it leaves; a target below address 0 is past its space (R375, R381; log 34). -/
def loopJump (s : State) (c back : Nat) (l : List (Nat × Nat × Nat)) : State :=
  let (space, addr) := chPc s c
  let s := modCh s c fun x => { x with loops := l }
  if addr < 16 * back then faultDma s c stBadParam else goTo s c space (addr - 16 * back) true

/-- LOOP: repeats the instructions from OFFSET on, COUNT times in all, through the loop stack of four entries (R381). -/
def runLoop (s : State) (c count back : Nat) : State :=
  let (space, addr) := chPc s c
  let s := countStep s c
  match unwind (chAt s c).loops space addr with
  | some ((_, _, k) :: rest) =>
    if 0 < k then loopJump s c back ((space, addr, k - 1) :: rest) else goOn (modCh s c fun x => { x with loops := rest }) c false
  | _ =>
    if count = 1 then goOn s c false
    else if 4 ≤ (chAt s c).loops.length then faultDma s c stBadParam
    else loopJump s c back ((space, addr, count - 2) :: (chAt s c).loops)

/-- LOOP. -/
def execLoop (t channel : Nat) (s : State) : Out :=
  let s := advance t s
  .next <| match poised s channel && !spent s channel, instrAtPc s channel with
    | true, some (.loop n b) => runLoop s channel n b
    | _, _ => s

/-- LINK: fetching continues at ADDR in SPACE; the loop stack stays (R382). -/
def execLink (t channel : Nat) (s : State) : Out :=
  let s := advance t s
  .next <| match poised s channel && !spent s channel, instrAtPc s channel with
    | true, some (.link space addr) => goTo (countStep s channel) channel space addr true
    | _, _ => s

/-- HALT: HALTED with status OK behind the HALT; DMA_HALT is posted unless QUIET is 1 (R383). -/
def execHalt (t channel : Nat) (s : State) : Out :=
  let s := advance t s
  .next <| match poised s channel && !spent s channel, instrAtPc s channel with
    | true, some (.halt q) =>
      let (space, addr) := chPc s channel
      haltDma (setDone (setPc (countStep s channel) channel space (addr + 16)) channel 0) channel stOK (!q)
    | _, _ => s

/-! ### WAIT, SIGNAL and event bits (R387, R388) -/

/-- Event bit `b`. -/
def evtBit (s : State) (b : Nat) : Bool := bitAt (getN s (A.DMA_EVT (b / 32))) (b % 32)

/-- Event bit `b` set or cleared. -/
def setEvt (s : State) (b : Nat) (on : Bool) : State :=
  let f : Fld := ⟨A.DMA_EVT (b / 32), b % 32, 1⟩
  if on then raiseFlag s f else setFlag s f false

/-- A WAIT ends and the program continues with the next instruction, fetched anew (R384, R392). -/
def endWait (s : State) (c : Nat) : State := goOn (clearSteps (setChState s c chRunning) c) c true

/-- A channel waits on event bit `b`, with the CLR of its WAIT. -/
def waitsBit (s : State) (c b : Nat) : Option Bool :=
  match instrAtPc s c with
  | some (.wait 0 clr n _ _) => if chState s c = chWaiting && n = b then some clr else none
  | _ => none

/-- Event bit `b` is 1 and no entry into SLEEP or DEEP has begun, under which WAITING channels stay waiting (R446): every WAIT on it without CLR ends, and of those with CLR the one of the lowest slot, which clears it
(R387). -/
def settleBit (s : State) (b : Nat) : State :=
  if !evtBit s b || s.power.phase != .run then s
  else
    let plain := (s.dmas.map (·.1)).filter fun c => waitsBit s c b == some false
    let first := (s.dmas.map (·.1)).find? fun c => waitsBit s c b == some true
    let s := plain.foldl endWait s
    match first with
    | some c => endWait (setEvt s b false) c
    | none => s

/-- WAIT: the channel waits, a peripheral bound to it; KIND 3 parks the supervisory channel (R387, R389, R390, R395). -/
def runWait (s : State) (c kind periph : Nat) : State :=
  let s := countStep s c
  match kind with
  | 2 => match nameplate s periph c with
    | (some st, s) => faultDma s c st
    | (none, s) => setChState s c chWaiting
  | 3 => if flag s (F.DMA_CH_STATE_SUPERVISORY c) then setChState s c chParked else faultDma s c stBadParam
  | _ => setChState s c chWaiting

/-- WAIT: the budget does not bar it (R392). -/
def execWait (t channel : Nat) (s : State) : Out :=
  let s := advance t s
  .next <| match poised s channel, instrAtPc s channel with
    | true, some (.wait kind _ _ periph _) => runWait s channel kind periph
    | _, _ => s

/-- WAIT_END: a wait whose condition holds ends; under an entry into SLEEP or DEEP it stays (R387, R446). -/
def execWaitEnd (t channel : Nat) (s : State) : Out :=
  let s := advance t s
  .next <| match chState s channel == chWaiting && s.power.phase == .run, instrAtPc s channel with
    | true, some (.wait kind _ bit periph tick) =>
      match kind with
      | 0 => settleBit s bit
      | 1 => if tickValid s && decide (tick ≤ s.time.tick) then endWait s channel else s
      | _ => if periphRequest s periph then endWait s channel else s
    | _, _ => s

/-- SIGNAL: sets an event bit, sends a message, or writes 32 bits to host memory, after the channel's earlier writes (R388, R393). -/
def runSignal (s : State) (c kind bit vector value addr : Nat) : State :=
  let s := countStep s c
  match kind with
  | 0 => goOn (clearSteps (setEvt s bit true) c) c false
  | 1 => goOn (clearSteps (sendMsix s vector) c) c false
  | _ => if s.host.busMaster then goOn (clearSteps (hostWrite s addr 4 value) c) c false else faultDma s c stDmaFetchAbort

/-- SIGNAL: the budget does not bar it (R392). -/
def execSignal (t channel : Nat) (s : State) : Out :=
  let s := advance t s
  .next <| match poised s channel, instrAtPc s channel with
    | true, some (.signal kind bit vector value addr) => runSignal s channel kind bit vector value addr
    | _, _ => s

/-- Event bits set by the host, ending the waits on them (R387). -/
def writeEvtSet (s : State) (w data : Nat) : State :=
  (bitsSet data 32).foldl (fun s i => settleBit (setEvt s (32 * w + i) true) (32 * w + i)) s

/-- EVT_SET_WRITE. -/
def execEvtSetWrite (t w data : Nat) (s : State) : Out :=
  byWrite t s fun s => if w < 2 then writeEvtSet s w data else s

/-! ### Step budget and faults (R392-R394) -/

/-- STEP_BUDGET: STEPS has reached the budget and the next instruction is neither WAIT nor SIGNAL; the channel halts at it. -/
def execStepBudget (t channel : Nat) (s : State) : Out :=
  let s := advance t s
  .next <| match poised s channel && spent s channel, instrAtPc s channel with
    | true, some (.wait ..) => s
    | true, some (.signal ..) => s
    | true, some _ => faultDma s channel stStepBudget
    | _, _ => s

/-- DMA_FAULT: the access in course of a channel can no longer be made: host memory without Bus Master Enable, or a DRAM that has
become untrained (R375, R393, R394). -/
def execDmaFault (t channel : Nat) (s : State) : Out :=
  let s := advance t s
  .next <| match accessFault s channel with
    | some st => pumpShared (faultDma s channel st)
    | none => s

/-- A host read of a channel gets no completion, or UR or CA (R63, R393). -/
def dmaReadFault (s : State) (c : Nat) (abort : Bool) : State :=
  if chState s c = chRunning && ((chAt s c).reading || (chAt s c).burst.isSome) && decide (0 < (chAt s c).reads)
      && readFailed s abort (chAt s c).readAt then
    pumpShared (faultDma (modCh (noteTimeout s abort) c fun x => { x with reads := x.reads - 1 }) c (if abort then stDmaFetchAbort else stDmaFetchTimeout))
  else s

end Sys2Proof.Machine
end

