-- ==== Sys2Proof/Machine/Dram.lean ====
section
/-!
DEFINITION. The DRAM port at work: training, periodic retraining, entry into self-refresh, requests and the change of rate
(spec/13_dram.md R396-R416).
-/
namespace Sys2Proof.Machine

/-! ## Free spans (R406) -/

/-- Openings of the prefetch windows of accepted library activations, with their ends. -/
def windows (s : State) : List (Nat × Nat) :=
  (s.beam.fills.filter fun x => isLib x.slot).map fun x => (x.tick - 49152, x.tick - 4096)

/-- No prefetch window is open or opens within `n` ticks. -/
def spanFree (s : State) (n : Nat) : Bool :=
  (windows s).all fun w => decide (w.2 ≤ s.time.tick) || decide (s.time.tick + n < w.1)

/-! ## Training (R415, R416) -/

/-- Timeout of a training step. -/
def stepTimeout (k : Nat) : Nat :=
  match k with
  | 1 => 1966080 | 2 => 98304 | 3 => 98304 | 4 => 491520 | 5 => 491520 | 6 => 491520 | 7 => 491520 | _ => 1966080

/-- Training starts with step 1 at RATE 0, unless the port is trained, trains, or has no power. -/
def startTraining (s : State) : State :=
  if dramTrained s || s.memc.step.isSome || !domainOn s 3 then s
  else
    let now := s.time.now
    askRate (setF (setFlag (modMemc s fun m => { m with step := some (1, now) }) F.MEMC_STATUS_TRAINING true) F.MEMC_STATUS_RATE_NOW 0)

/-- MEMC.CTRL written. -/
def writeMemcCtrl (s : State) (data : Nat) : State :=
  let s := setF (setF (setF s F.MEMC_CTRL_RETAIN_DEEP (bitsOf data 8 1)) F.MEMC_CTRL_RATE (bitsOf data 4 1))
    F.MEMC_CTRL_SR_EN (bitsOf data 1 1)
  let s := askRate s
  if bitAt data 0 then startTraining s else s

/-- TRAIN: a write of MEMC.CTRL with TRAIN at 1 (R415). -/
def execTrain (t data : Nat) (s : State) : Out := byWrite t s fun s => writeMemcCtrl s data

/-- RATE_WRITE: a write of MEMC.CTRL (R413). -/
def execRateWrite (t data : Nat) (s : State) : Out :=
  byWrite t s fun s => writeMemcCtrl s data

/-- Every step has succeeded: the port is trained, and the retraining period starts (R405, R415). -/
def trained (s : State) : State :=
  let now := s.time.now
  let s := setFlag (setFlag s F.MEMC_STATUS_TRAINING false) F.MEMC_STATUS_TRAINED true
  let s := modMemc s fun m => { m with step := none, due := some (now + 49152000), idleSince := now }
  askRate (setF s F.MEMC_STATUS_RETRAIN_FAILS 0)

/-- TRAINING_STEP_END: the step in course succeeds, fails its check on a channel, or has exceeded its timeout; step 2 finds the size
(code 1-3) (R415). -/
def execTrainingStepEnd (t : Nat) (good : Bool) (channel size : Nat) (s : State) : Out :=
  let s := advance t s
  let now := s.time.now
  match s.memc.step with
  | none => .next s
  | some (k, start) =>
    let ok := good && decide (now ≤ start + stepTimeout k) && (k != 2 || (decide (1 ≤ size) && decide (size ≤ 3)))
    .next <|
      if !ok then
        trainFail (setFlag (modMemc s fun m => { m with step := none }) F.MEMC_STATUS_TRAINING false) (channel % 2) k
      else
        let s := if k = 2 then { setF s F.MEMC_CFG_SIZE size with dramSize := 2 ^ (30 + size) } else s
        if k = 8 then trained s else modMemc s fun m => { m with step := some (k + 1, now) }

/-! ## Retraining (R405-R408) -/

/-- RETRAINING_DUE: every 49,152,000 ticks a retraining falls due; in self-refresh or during a rate change it waits (R405, R413). -/
def execRetrainingDue (t : Nat) (s : State) : Out :=
  let s := settleDram (advance t s)
  match s.memc.due with
  | none => .next s
  | some d =>
    .next <|
      if s.time.now < d then s
      else
        let s := modMemc s fun m => { m with due := some (d + 49152000) }
        if s.memc.gather.isSome || s.memc.ready || s.memc.pause.isSome then s
        else if flag s F.MEMC_STATUS_SR || s.memc.change.isSome then modMemc s fun m => { m with owed := true }
        else startGather s

/-- GATHERING_END: 16,384 ticks after its start the gathering ends and the pause waits for a free span (R405). -/
def execGatheringEnd (t : Nat) (s : State) : Out :=
  let s := settleDram (advance t s)
  .next <| match s.memc.gather with
    | some g =>
      if g + 16384 ≤ s.time.now then
        setFlag (modMemc s fun m => { m with gather := none, ready := true }) F.MEMC_STATUS_GATHER false
      else s
    | none => s

/-- PAUSE_START: at the start of a free span, with the memory awake, the pause begins (R405-R407). -/
def execPauseStart (t : Nat) (s : State) : Out :=
  let s := settleDram (advance t s)
  let now := s.time.now
  .next <|
    if s.memc.ready && spanFree s 2048 && s.memc.change.isNone && !asleepDram s then
      setFlag (modMemc s fun m => { m with ready := false, pause := some now }) F.MEMC_STATUS_PAUSE true
    else s

/-- PAUSE_END: the pause ends, with the drift in range or out of it on a channel (R405, R408). -/
def execPauseEnd (t : Nat) (fail0 fail1 : Bool) (s : State) : Out :=
  let s := advance t s
  .next <| match s.memc.pause with
    | some p => if s.time.now ≤ p + 1180 then endPause s fail0 fail1 else settleDram s
    | none => settleDram s

/-! ## Self-refresh (R409-R411) -/

/-- The idle time of MEMC.IDLE_SR in ticks; 983.04 ticks are 1 µs (R409). -/
def idleTicks (s : State) : Nat := ceilDiv (98304 * max 1 (min 10000 (getF s F.MEMC_IDLE_SR_US))) 100

/-- Ticks in which the write queue drains with no read pending, at the floor of R401: 64 bytes in 11 ticks (R403; log 36). -/
def drainTicks (s : State) : Nat := 11 * s.memc.queue.length

/-- The port has been idle for the idle time, counted from the time at which the write queue was empty (R403): no request, no gathering, pause or change, no window open then or about to open. -/
def portIdle (s : State) : Bool :=
  let n := idleTicks s
  decide (s.memc.idleSince + drainTicks s + n ≤ s.time.now) && s.memc.waiting.isEmpty && s.memc.gather.isNone && !s.memc.ready && s.memc.pause.isNone
    && s.memc.change.isNone && spanFree s 2048
    && ((windows s).all fun w => decide (w.2 + n ≤ s.time.tick) || decide (s.time.tick < w.1))
    && s.beam.libTicks.all fun x => decide (s.time.tick < x.2) || decide (x.2 + n ≤ s.time.tick + 4096)

/-- The port is idle in the sense of R409 for step E3 of an entry into SLEEP or DEEP (R446). -/
def portQuiet (s : State) : Bool :=
  decide (s.memc.idleSince + drainTicks s ≤ s.time.now) && s.memc.waiting.isEmpty && s.memc.gather.isNone && !s.memc.ready
    && s.memc.pause.isNone && s.memc.change.isNone && spanFree s 2048

/-- The write queue has drained, and every row is closed (R403, R409, R446). -/
def closeRows (s : State) : State :=
  modMemc (writeBack s s.memc.queue) fun m => { m with banks := m.banks.map fun b => { b with held := false } }

/-- Entry into self-refresh begins (R409). -/
def beginSr (s : State) : State := modMemc (closeRows s) fun m => { m with entry := some s.time.now }

/-- SELF_REFRESH_ENTRY: the idle port begins the entry (R409). -/
def execSelfRefreshEntry (t : Nat) (s : State) : Out :=
  let s := settleDram (advance t s)
  .next <|
    if dramTrained s && !asleepDram s && ((flag s F.MEMC_CTRL_SR_EN && portIdle s) || (s.power.phase == .store && portQuiet s)) then beginSr s
    else s

/-- SELF_REFRESH_COMMIT: 48 ticks after entry began the memory is in self-refresh (R409). -/
def execSelfRefreshCommit (t : Nat) (s : State) : Out :=
  let s := settleDram (advance t s)
  .next <| match s.memc.entry with
    | some e => if e + 48 ≤ s.time.now then setFlag s F.MEMC_STATUS_SR true else s
    | none => s

/-- DRAM_REQUEST: while no read waited or the write queue held 48 entries, `drained` entries of the write queue have been written to the memory; then a request for `len`
bytes of one 64-byte word reaches the port, cancels an entry into self-refresh or starts the exit, and is served at once or waits (R402,
R403, R405, R409, R410, R413). Its data stand in the memory as the row that issued it says (log 36). -/
def execDramRequest (t source : Nat) (write : Bool) (addr len drained : Nat) (s : State) : Out :=
  let s := advance t s
  .next <|
    if asleep s || !dramTrained s || decide (5 < source) || decide (len < 1) || decide (64 < addr % 64 + len) || decide (s.dramSize < addr + len) then s
    else
      let s := settleDram s
      let s := if !portServes s then s else if !(s.memc.waiting.any fun x => !x.write) || decide (48 ≤ s.memc.queue.length) then writeBack s (s.memc.queue.take drained) else s
      serveWaiting (modMemc (disturbSr s) fun m => { m with
        waiting := m.waiting ++ [{ source := source, write := write, addr := addr, len := len }] })

/-- SELF_REFRESH_EXIT_END: the exit completes and what waited is served; a retraining that fell due meanwhile starts its gathering (R405, R410). -/
def execSelfRefreshExitEnd (t : Nat) (s : State) : Out :=
  let s := advance t s
  .next (if s.memc.exit.isSome then leaveSr s else s)

/-! ## Data-rate change (R413, R414) -/

/-- RATE_CHANGE_START: no gathering or pause is in course, and a free span of at least 4,096 ticks begins. -/
def execRateChangeStart (t : Nat) (s : State) : Out :=
  let s := settleDram (advance t s)
  let now := s.time.now
  let rate := getF s F.MEMC_CTRL_RATE
  .next <|
    if flag s F.MEMC_STATUS_RATE_PENDING && dramTrained s && !asleep s && s.memc.change.isNone && s.memc.gather.isNone && !s.memc.ready
        && s.memc.pause.isNone && spanFree s (4095 + 2048) then
      modMemc s fun m => { m with change := some (now, rate) }
    else s

/-- RATE_CHANGE_END: the change is complete; a retraining that fell due meanwhile starts, in self-refresh at its exit (R405, R413). -/
def execRateChangeEnd (t : Nat) (s : State) : Out := .next (endChange (advance t s))

end Sys2Proof.Machine
end

