-- ==== Sys2Proof/Machine/Hkm.lean ====
section
/-!
DEFINITION. The housekeeping block: bias DACs with their husk, strobes and slew limiters, and the monitor units with their windows,
scans, urgent conversions and results (spec/14_bias_and_monitor.md R417-R435).
-/
namespace Sys2Proof.Machine

/-! ## DACs -/

def dacAt (s : State) (d : Nat) : DacSt := s.hkm.dacs.getD d default
def modHkm (s : State) (f : HkmSt → HkmSt) : State := { s with hkm := f s.hkm }
def modDac (s : State) (d : Nat) (f : DacSt → DacSt) : State := modHkm s fun h => { h with dacs := h.dacs.modify d f }

/-- The DACs of strobe group p (R418). -/
def groupDacs (p : Nat) : List Nat := (List.range 8).map (fun i => 8 * p + i) ++ [64 + 2 * p, 65 + 2 * p]

/-- The present groups of a mask. -/
def groupsOf (s : State) (mask : Nat) : List Nat := bitsSet mask (nPods s)

/-- STEP and INTERVAL of a pending set; 0 acts as 1. -/
def pendingStep (s : State) (d : Nat) : Nat := max 1 (getF s (F.HKM_DAC_SET_STEP d))
def pendingInterval (s : State) (d : Nat) : Nat := max 1 (getF s (F.HKM_DAC_SET_INTERVAL d))

/-- OUT of a DAC set, with SLEWING. -/
def setOut (s : State) (d v : Nat) : State :=
  let s := setF s (F.HKM_DAC_STAT_OUT d) v
  setFlag s (F.HKM_DAC_STAT_SLEWING d) (getF s (F.HKM_DAC_STAT_TARGET d) != v)

/-- OUT moved towards the target by min(STEP, distance) (R423). -/
def stepTo (out target step : Nat) : Nat :=
  if out < target then min target (out + step) else max target (out - step)

/-- The limiter of a DAC moves at elapsed time `e`; its next step follows INTERVAL x 32 ticks later (R423). -/
def slew (s : State) (d e : Nat) : State :=
  let x := dacAt s d
  let target := getF s (F.HKM_DAC_STAT_TARGET d)
  let out := stepTo (getF s (F.HKM_DAC_STAT_OUT d)) target x.step
  modDac (setOut s d out) d fun x => { x with next := if out = target then none else some (e + 32 * x.interval) }

/-- A strobe of one DAC at edge `e`: the pending set becomes the target set and the limiter starts; equal sets change nothing (R421,
R423). -/
def strobeDac (s : State) (e d : Nat) : State :=
  let x := dacAt s d
  let code := getF s (F.HKM_DAC_SET_CODE d)
  if code = getF s (F.HKM_DAC_STAT_TARGET d) && pendingStep s d = x.step && pendingInterval s d = x.interval then s
  else
    let step := pendingStep s d
    let interval := pendingInterval s d
    slew (modDac (setF s (F.HKM_DAC_STAT_TARGET d) code) d fun x => { x with step := step, interval := interval }) d e

/-- A strobe of the groups of a mask at edge `e`. -/
def strobe (s : State) (e mask : Nat) : State := ((groupsOf s mask).flatMap groupDacs).foldl (fun s d => strobeDac s e d) s

/-- The husk of a group, on its pins' status and its DACs. -/
def setHusk (s : State) (p : Nat) (on : Bool) : State :=
  let s := setF s F.HKM_HUSK_STATUS_HUSK (putBits (getF s F.HKM_HUSK_STATUS_HUSK) p 1 (if on then 1 else 0))
  (groupDacs p).foldl (fun s d => setFlag s (F.HKM_DAC_STAT_HUSK d) on) s

/-- The groups of a mask enter husk at once; a release that waits for its edge is void. -/
def enterHusk (s : State) (mask : Nat) : State :=
  let s := (groupsOf s mask).foldl (fun s p => setHusk s p true) s
  modHkm s fun h => { h with todo := h.todo.map fun x => match x.2 with
    | .release m => (x.1, .release (m &&& (0xFF - mask % 256)))
    | _ => x }

/-- The codes of every DAC become 0 (R419). -/
def zeroCodes (s : State) : State :=
  let s := modHkm s fun h => { h with todo := [], dacs := h.dacs.map fun x => { x with next := none } }
  ((List.range 80).filter (dacPresent s)).foldl (fun s d =>
    setOut (setF (setF s (F.HKM_DAC_SET_CODE d) 0) (F.HKM_DAC_STAT_TARGET d) 0) d 0) s

/-- PD18 loses power, or RESET_N goes low: every DAC in husk with its codes 0 (R419). -/
def huskAll (s : State) : State := zeroCodes (enterHusk s 0xFF)

/-- One job at its edge: a set before a strobe of the same edge (R422). -/
def runHkJob (s : State) (e : Nat) : HkJob → State
  | .set d w => setN s (A.HKM_DAC_SET d) w
  | .strobe m => strobe s e m
  | .release m => (groupsOf s m).foldl (fun s p => setHusk s p false) s

/-- Order of jobs: by edge, sets first. -/
def hkKey (x : Nat × HkJob) : Nat := 2 * x.1 + match x.2 with | .set _ _ => 0 | _ => 1

/-- Every job whose CK_HK edge lies before elapsed time `n` runs, in order. -/
def settleHkTo (s : State) (n : Nat) : State :=
  let due := sortBy hkKey (s.hkm.todo.filter fun x => x.1 < n)
  let s := modHkm s fun h => { h with todo := h.todo.filter fun x => !decide (x.1 < n) }
  due.foldl (fun s x => runHkJob s x.1 x.2) s

/-- Every job whose CK_HK edge has come runs. -/
def settleHk (s : State) : State := settleHkTo s (s.time.now + 1)

/-- PD18 is on and ready: the units of the block work (R436). -/
def hkmOn (s : State) : Bool := domainOn s 18

/-- A job for an edge at elapsed time `e`. -/
def hkAt (s : State) (e : Nat) (j : HkJob) : State := settleHk (modHkm s fun h => { h with todo := h.todo ++ [(e, j)] })

/-- The word of a pending set. -/
def setWord (code step interval : Nat) : Nat := code + 2 ^ 12 * interval + 2 ^ 24 * step

/-- BIAS_SET (40h): an immediate one writes the pending set now, ahead of a strobe of this very edge (R421, R422). -/
def execBiasSet (t : Nat) (c : Cmd) (s : State) : Out :=
  runCmd t 0x40 c s [] fun s f =>
    let s := settleHkTo s s.time.now
    let d := p8 c 16
    let bad := !dacPresent s d || decide (4095 < p16 c 18) || decide (p8 c 20 < 1) || decide (p16 c 22 < 1) || decide (4095 < p16 c 22)
    schedulable s f bad [(0x40, d, 0)] none false fun s => setN s (A.HKM_DAC_SET d) (setWord (p16 c 18) (p8 c 20) (p16 c 22))

/-- A scheduled BIAS_SET at its tick: it writes at the first CK_HK edge at or after T, ahead of a strobe that waits for that edge (R421,
R422). -/
def actBiasSet (s : State) (c : Cmd) : State := hkAt s (hkNow s) (.set (p8 c 16) (setWord (p16 c 18) (p8 c 20) (p16 c 22)))

/-- BIAS_STROBE (41h) (R422). -/
def execBiasStrobe (t : Nat) (c : Cmd) (s : State) : Out :=
  runCmd t 0x41 c s [] fun s f =>
    let m := p8 c 16
    schedulable s f (!maskWithin m (nPods s)) ((bitsSet m 8).map fun p => (0x41, p, 0)) none false id

/-- A BIAS_STROBE at its tick: the strobe comes at the first CK_HK edge at or after T (R422). -/
def actBiasStrobe (s : State) (c : Cmd) : State := if hkmOn s then hkAt (settleHk s) (hkNow s) (.strobe (p8 c 16)) else s

/-- HKM.STROBE written: the strobe comes at the first CK_HK edge after the write (R422). -/
def writeStrobe (s : State) (data : Nat) : State := if hkmOn s then hkAt (settleHk s) (hkNext s) (.strobe (data % 256)) else s

/-- STROBE. -/
def execStrobe (t data : Nat) (s : State) : Out := byWrite t s fun s => writeStrobe s data

/-- LDB_IN_EDGE: at the CK_HK edge at which a high level on LDB_IN is first seen, the groups of HKM.LDB.MASK are strobed and the edge is
counted (R422). -/
def execLdbInEdge (t : Nat) (s : State) : Out :=
  let s := advance t s
  .next (if hkmOn s then hkAt (satAdd (settleHk s) F.HKM_LDB_EDGES 1) (hkNow s) (.strobe (getF s F.HKM_LDB_MASK)) else s)

/-- HKM.HUSK_SET written (R419). -/
def writeHuskSet (s : State) (data : Nat) : State :=
  let s := enterHusk (settleHk s) (data % 256)
  if groupsOf s (data % 256) = [] then s else raiseFlag s F.HKM_HUSK_CAUSE_CMD

/-- HUSK_SET. -/
def execHuskSet (t data : Nat) (s : State) : Out := byWrite t s fun s => writeHuskSet s data

/-- HKM.HUSK_RELEASE written: while the power-good detector is low or PD18 is off it has no effect, else the groups leave husk at the first CK_HK edge
after it (R420). -/
def writeHuskRelease (s : State) (data : Nat) : State :=
  let s := settleHk s
  if s.time.now < s.hkm.anaLow || !hkmOn s then s else hkAt s (hkNext s) (.release (data % 256))

/-- HUSK_RELEASE. -/
def execHuskRelease (t data : Nat) (s : State) : Out := byWrite t s fun s => writeHuskRelease s data

/-- ANA_POWER_GOOD_FALL: the VDD_ANA detector falls and stays low for `dip` periods of CK_DP; every DAC enters husk and keeps its codes
(R419). -/
def execAnaPowerGoodFall (t dip : Nat) (s : State) : Out :=
  let s := settleHk (advance t s)
  let now := s.time.now
  .next (raiseFlag (enterHusk (modHkm s fun h => { h with anaLow := now + dip }) 0xFF) F.HKM_HUSK_CAUSE_ANA_PG)

/-- SLEW_STEP: the limiter of a DAC whose next step is due takes it (R423). -/
def execSlewStep (t dac : Nat) (s : State) : Out :=
  let s := settleHk (advance t s)
  .next <| match (dacAt s dac).next with
    | some e => if e ≤ s.time.now then slew s dac e else s
    | none => s

/-! ## Monitor units -/

def monUnit (s : State) (k : Nat) : MonUnit := s.hkm.units.getD k default

/-- A unit changed, with what SCAN and STAT show of its queue. -/
def modMon (s : State) (k : Nat) (f : MonUnit → MonUnit) : State :=
  let s := modHkm s fun h => { h with units := h.units.modify k f }
  let n := (monUnit s k).queue.length
  setF (setFlag s (F.MON_SCAN_URGENT k) (n != 0)) (F.MON_STAT_QUEUED k) n

/-- Input i of unit k exists: the current senses of absent paths do not (R7, R425). -/
def inputPresent (s : State) (k i : Nat) : Bool := decide (i < 24) && (decide (16 ≤ i) || pathPresent s (16 * k + i))

/-- The tick of an elapsed time. -/
def tickOf (s : State) (e : Nat) : Nat := s.time.tick + e - s.time.now

/-- Window length of a code at elapsed time `e`, and whether it is the fallback of code 0 (R427). -/
def windowOf (s : State) (code e : Nat) : Nat × Bool :=
  match code with
  | 0 => match bankAt s (tickOf s e) with
    | some b => (period (stateAt s (tickOf s e)) b, false)
    | none => (983040, true)
  | 1 => (983040, false)
  | 2 => (245760, false)
  | _ => (61440, false)

/-- A conversion of a unit starts at elapsed time `e` with the window of a code; the length of a window of code 0 that starts at a coming edge
stands once that edge has come. -/
def startConv (s : State) (k code e : Nat) : State :=
  let w := windowOf s code e
  modMon s k fun u => { u with running := true, code := code, start := e, fixed := decide (e ≤ s.time.now), w := w.1, alt := w.2, count := 0 }

/-- The window code of urgent conversions of a unit as it stands at elapsed time `e` (R427, R432). -/
def urgentWin (s : State) (k e : Nat) : Nat := getF (stateAt s (tickOf s e)) (F.MON_CFG_URGENT_WIN k)

/-- The conversions whose start has come have the window code and length of that tick (R427, R432). -/
def settleWindows (s : State) : State :=
  (List.range 4).foldl (fun s k =>
    let u := monUnit s k
    if u.running && !u.fixed && decide (u.start ≤ s.time.now) then
      let code := if u.queue.isEmpty then u.code else urgentWin s k u.start
      let w := windowOf s code u.start
      modMon s k fun u => { u with code := code, fixed := true, w := w.1, alt := w.2 }
    else s) s

/-- The next input of a mask after `i`, cyclically. -/
def nextInput (mask i : Nat) : Nat :=
  let l := bitsSet mask 24
  ((l.find? fun j => i < j).or l.head?).getD 0

/-- What a unit does from `e` on with nothing urgent: a MON_SCAN that waits takes effect, else the scan restarts the input it stands at,
else the unit is idle (R428, R432). -/
def resumeScan (s : State) (k e : Nat) : State :=
  let s := match (monUnit s k).next with
    | some (code, il, mask) =>
      let s := setF (setF (setF s (F.MON_SCAN_WINDOW k) code) (F.MON_SCAN_INTERLEAVE k) il) (F.MON_SCAN_MASK k) mask
      modMon (setFlag s (F.MON_SCAN_RUN k) (mask != 0)) k fun u => { u with next := none, scan := nextInput mask 24 }
    | none => s
  if flag s (F.MON_SCAN_RUN k) then startConv s k (getF s (F.MON_SCAN_WINDOW k)) e
  else modMon s k fun u => { u with running := false }

/-- MON_SCAN (42h): while PD18 is on, the scan starts at the first CK_HK edge after execution, or when the urgent queue empties (R428, R430, R432). -/
def execMonScan (t : Nat) (c : Cmd) (s : State) : Out :=
  runCmd t 0x42 c s [] fun s f =>
    let k := p8 c 16
    let mask := p32 c 20 % 2 ^ 24
    let bad := decide (3 < k) || decide (3 < p8 c 17) || decide (1 < p8 c 18) || !(bitsSet mask 24).all (inputPresent s k)
      || (p8 c 18 == 1 && (bitsSet mask 24).length != 1)
    immediate s f bad none false fun s =>
      if !hkmOn s then (s, 0)
      else
      let s := modMon s k fun u => { u with next := some (p8 c 17, p8 c 18, mask) }
      (if (monUnit s k).queue.isEmpty then resumeScan s k (hkNext s) else s, 0)

/-- Order of the urgent queue: by edge, then by input (R431). -/
def urgentKey (x : Nat × Nat × Bool) : Nat := 32 * x.1 + x.2.1

/-- An urgent request reaches a unit at elapsed time `e`, while PD18 is on: it joins a conversion of the same input, or the queue; an empty queue starts it
at once and abandons the scan conversion (R431, R432). -/
def urgent (s : State) (k input e : Nat) (host : Bool) : State :=
  let q := (monUnit s k).queue
  if !hkmOn s then s
  else if q.any (fun x => x.2.1 = input) then
    modMon s k fun u => { u with queue := u.queue.map fun x => if x.2.1 = input then (x.1, input, x.2.2 || host) else x }
  else
    let s := modMon s k fun u => { u with queue := insertBy urgentKey (e, input, host) u.queue }
    if q.isEmpty then startConv s k (urgentWin s k e) e else s

/-- MON_URGENT (43h) (R431). -/
def execMonUrgent (t : Nat) (c : Cmd) (s : State) : Out :=
  runCmd t 0x43 c s [] fun s f =>
    let k := p8 c 16
    let i := p8 c 17
    schedulable s f (decide (3 < k) || !inputPresent s k i) [(0x43, k, 0)] none false fun s => urgent s k i (hkNext s) true

/-- A scheduled MON_URGENT at its tick: the request reaches the unit at the first CK_HK edge at or after T (R431). -/
def actMonUrgent (s : State) (c : Cmd) : State := urgent s (p8 c 16) (p8 c 17) (hkNow s) true

/-- The tick is the start of a segment of the pattern bank in force. -/
def segmentStart (s : State) (n : Nat) : Bool :=
  match bankAt s n with
  | none => false
  | some b => match segmentAt s b n with
    | some g => g.start == n % period s b
    | none => false

/-- FIRMWARE_URGENT_REQUEST: the adaptation firmware asks at the start of a segment (R431). -/
def execFirmwareUrgentRequest (t unit input : Nat) (s : State) : Out :=
  let s := advance t s
  .next <|
    if fwRunning s && decide (unit < 4) && inputPresent s unit input && segmentStart s s.time.tick then
      urgent s unit input (hkNow s) false
    else s

/-- A bank swap changed the period of the pattern within (a, n), by the periods as they stood at the swap (R427). -/
def periodChanged (s : State) (a n : Nat) : Bool :=
  s.time.tddLog.any fun x => decide (a < x.1) && decide (x.1 < n) && x.2 != 0 &&
    match bankAt s (x.1 - 1) with
    | some b => period (stateAt s (x.1 - 1)) b != period (stateAt s x.1) (x.2 - 1)
    | none => false

/-- MONITOR_WINDOW_END: the window of the conversion in course ends; its result is due, and the next urgent input, the next input of the
scan or the next half window follows without a gap (R429, R430, R432). -/
def execMonitorWindowEnd (t unit : Nat) (s : State) : Out :=
  let s := settleWindows (advance t s)
  let u := monUnit s unit
  let isUrgent := !u.queue.isEmpty
  let il := !isUrgent && flag s (F.MON_SCAN_INTERLEAVE unit)
  let stop := if il then u.start + u.w + (u.count + 1) * (u.w / 2) else u.start + u.w
  if !u.running || !s.time.counting || decide (s.time.now < stop) then .next s
  else
    let tick := tickOf s stop
    let alt := u.alt || periodChanged s (tickOf s u.start) tick
    let head := u.queue.head?
    let due : MonDue :=
      { stop := stop, tick := tick, input := match head with | some x => x.2.1 | none => u.scan, urgent := isUrgent
        host := match head with | some x => x.2.2 | none => false
        alt := alt
        part := if !il || u.count = 0 then 0 else if u.count % 2 = 1 then 1 else 2 }
    let s := modMon s unit fun u => { u with due := u.due ++ [due] }
    .next <|
      if isUrgent then
        let s := modMon s unit fun u => { u with queue := u.queue.tail }
        if u.queue.tail.isEmpty then resumeScan s unit stop else startConv s unit (urgentWin s unit stop) stop
      else if il then modMon s unit fun u => { u with count := u.count + 1, alt := alt }
      else resumeScan (modMon s unit fun u => { u with scan := nextInput (getF s (F.MON_SCAN_MASK unit)) u.scan }) unit stop

/-- A record of R433. -/
def monRecord (d : MonDue) (code : Nat) (ovr : Bool) : Nat :=
  let bit := fun (b : Bool) => if b then 1 else 0
  code % 2 ^ 20 + 2 ^ 20 * bit ovr + 2 ^ 21 * bit d.urgent + 2 ^ 22 * bit (d.urgent && !d.host) + 2 ^ 23 * bit d.alt
    + 2 ^ 24 * (d.input % 32) + 2 ^ 31 + 2 ^ 32 * (d.tick % 2 ^ 32)

/-- A record enters the FIFO of 512, or is discarded and counted. -/
def pushRecord (s : State) (k rec : Nat) : State :=
  let fifo := s.periph.results.getD k []
  if fifo.length < 4096 then
    showFifo { s with periph := { s.periph with results := s.periph.results.set k (fifo ++ leBytes 8 rec) } } k
  else satAdd s (F.MON_STAT_FIFO_DROP k) 1

/-- OVR of a result: the sticky bit, and MON_OVR at most once per input in 983,040 ticks (R434). -/
def noteOvr (s : State) (k : Nat) (d : MonDue) : State :=
  let now := s.time.now
  let s := raiseFlag s ⟨A.MON_OVR k, d.input, 1⟩
  match assocGet (monUnit s k).ovrAt d.input with
  | some a => if now < a + ticksPerMs then s
    else post (modMon s k fun u => { u with ovrAt := assocPut u.ovrAt d.input now }) evMonOvr (evData [(16, 1, k), (17, 1, d.input)])
  | none => post (modMon s k fun u => { u with ovrAt := assocPut u.ovrAt d.input now }) evMonOvr (evData [(16, 1, k), (17, 1, d.input)])

/-- The mean of two codes, rounded half away from zero (R429). -/
def meanCode (a b : Int) : Int := if 0 ≤ a + b then (a + b + 1) / 2 else -((1 - (a + b)) / 2)

/-- The code of a converter, clamped to 20 bits (R426). -/
def clampCode (x : Int) : Int := clampInt (-524288) 524287 x

/-- The latest codes of converters A and B at a result: those of the windows that have ended for it, and the kept one of the converter whose
window runs on (R429, R430). -/
def latestCodes (part : Nat) (old code : Int × Int) : Int × Int :=
  (if part = 2 then old.1 else clampCode code.1, if part = 1 then old.2 else clampCode code.2)

/-- MONITOR_RESULT: 64 ticks after its window, a result enters the FIFO and its register: the mean of the latest codes of converters A and B;
`code` holds the codes that the averages over their windows give, and `ovr` says whether an instant overloaded a converter, which a
temperature never does (R426, R429, R430, R433, R434). -/
def execMonitorResult (t unit : Nat) (code : Int × Int) (ovr : Bool) (s : State) : Out :=
  let s := advance t s
  match (monUnit s unit).due with
  | [] => .next s
  | d :: rest =>
    if s.time.now < d.stop + 64 then .next s
    else
      let ovr := ovr && d.input != 16 && d.input != 17
      let l := latestCodes d.part (monUnit s unit).codes code
      let v := unsigned 20 (meanCode l.1 l.2)
      let s := modMon s unit fun u => { u with due := rest, codes := l }
      let s := pushRecord s unit (monRecord d v ovr)
      let s := setFlag (setFlag s (F.MON_RESULT_VALID unit d.input) true) (F.MON_RESULT_OVR unit d.input) ovr
      let s := setF (setFlag s (F.MON_RESULT_URGENT unit d.input) d.urgent) (F.MON_RESULT_RESULT unit d.input) v
      let s := if ovr then noteOvr s unit d else s
      let s := if d.host then postAt s evMonUrgentDone d.tick
          (evData [(16, 1, unit), (17, 1, d.input), (20, 4, unsigned 32 (signed 20 v)), (24, 1, if ovr then 1 else 0)])
        else s
      let s := if unit = 3 && d.input = 17 then loTemperature s v else s
      .next (markStale s)

/-- The monitor units lose power: they are stopped, with nothing queued or due (R437). -/
def stopMonitors (s : State) : State :=
  (List.range 4).foldl (fun s k =>
    showFifo { setFlag (modMon s k fun u => { u with next := none, running := false, queue := [], due := [] }) (F.MON_SCAN_RUN k) false with
      periph := { s.periph with results := s.periph.results.set k [] } } k) s

/-- BROWN_OUT: PD18 loses power: every DAC in husk with its codes 0, the cause recorded, the monitor units stopped (R419, R437). -/
def losePd18 (s : State) : State := raiseFlag (stopMonitors (huskAll (settleHk s))) F.HKM_HUSK_CAUSE_BROWNOUT

/-- BROWN_OUT. -/
def execBrownOut (t : Nat) (s : State) : Out := .next (losePd18 (advance t s))

/-! ## SYNC (R424, R435) -/

/-- An applied SYNC: what an edge before it was to do has been done, slews take their next step at the origin, and every conversion starts anew there. -/
def hkmOnSync (s : State) : State :=
  let now := s.time.now
  let s := settleHk s
  let s := modHkm s fun h =>
    { h with
      todo := h.todo.map fun x => (now, x.2)
      dacs := h.dacs.map fun x => { x with next := x.next.map fun _ => now } }
  (List.range 4).foldl (fun s k =>
    let u := monUnit s k
    if !u.running then s
    else startConv s k (if u.queue.isEmpty then getF s (F.MON_SCAN_WINDOW k) else urgentWin s k now) now) s

end Sys2Proof.Machine
end

