-- ==== Sys2Proof/Machine/Rx.lean ====
section
/-!
DEFINITION. The receive path's commands and events: gain steps, DC offset loops and their resets, path enables, the request and the
application of adaptive swaps of the receive kinds (spec/06_receive_path.md R185, R189-R198, R210, R212).
-/
namespace Sys2Proof.Machine

def rxPath (s : State) (n : Nat) : RxPath := s.rx.getD n default
def modRx (s : State) (n : Nat) (f : RxPath → RxPath) : State := { s with rx := listMod s.rx n f }

/-- The digital receive chain of path n runs: EN is 1, the device is in ACTIVE and the datapath half is on, whatever the pod (R182, R185,
R436, R442). -/
def rxRuns (s : State) (n : Nat) : Bool := flag s (F.RXP_CTRL_EN n) && isActive s && domainOn s (4 + halfOf (podOf n))

/-- W of R194; WIN 6 and 7 act as 5. -/
def dcWindow (s : State) (n : Nat) : Nat := 2 ^ (15 + min 5 (getF s (F.RXP_DC_CTRL_WIN n)))

/-- FREEZE of a path: 0 PATTERN, 1 NEVER, 2 ALWAYS. -/
def dcFreeze (s : State) (n : Nat) : Nat := min 2 (getF s (F.RXP_DC_CTRL_FREEZE n))

/-- A tick of [a, b) is frozen (the table of R194). -/
def frozenIn (s : State) (n a b : Nat) : Bool :=
  if dcFreeze s n = 2 then decide (a < b) else if dcFreeze s n = 1 then false else leavesKind s 2 a b

/-- C and F of a component (0 I, 1 Q). -/
def dcCoarse (s : State) (n j : Nat) : Int :=
  signed 7 (if j = 0 then getF s (F.RXP_DC_STAT_COARSE_I n) else getF s (F.RXP_DC_STAT_COARSE_Q n))
def dcFine (s : State) (n j : Nat) : Int :=
  signed 13 (if j = 0 then getF s (F.RXP_DC_FINE_FINE_I n) else getF s (F.RXP_DC_FINE_FINE_Q n))

/-- C and F of both components set. -/
def setDc (s : State) (n : Nat) (ci cq fi fq : Int) : State :=
  let s := setF (setF s (F.RXP_DC_STAT_COARSE_I n) (unsigned 7 ci)) (F.RXP_DC_STAT_COARSE_Q n) (unsigned 7 cq)
  setF (setF s (F.RXP_DC_FINE_FINE_I n) (unsigned 13 fi)) (F.RXP_DC_FINE_FINE_Q n) (unsigned 13 fq)

/-- A change of gain, coarse code or EN at tick `n` spoils the window around it (R194). -/
def spoilWindow (s : State) (path n : Nat) : State := modRx s path fun x => { x with spoilt := n :: x.spoilt }

/-! ## Acquisition (R196, R210) -/

/-- The span of an acquisition that began at W0, up to the settling after tick `n`, on every uplink carrier. -/
def closeAcq (s : State) (path n : Nat) : State :=
  match (rxPath s path).acqFrom with
  | none => s
  | some w =>
    let s := modRx s path fun x => { x with acqFrom := none }
    s.carriers.foldl (fun s y =>
      if carriesUl y.2 then
        addUlSpan s y.1 (gridUp s y.2.k w - bIn y.2 * y.2.k) (gridUp s y.2.k n + (49 + ceilDiv 64 y.2.k) * y.2.k)
      else s) s

/-- A DC-loop reset: C and F clear at the next window start W0, and the next four measured windows run in acquisition (R196); a window that
runs is neither measured nor counted, a swap that is pending stays (log 58). While EN is 0 the path is in no layer, and no span opens
(R185, R210; log 14). -/
def resetDc (s : State) (path : Nat) : State :=
  let w := edgeAtOrAfter s (dcWindow s path) s.time.tick
  modRx s path fun x => { x with
    resetAt := some w, acqLeft := 4, windowFrom := w, acqEnd := none
    acqFrom := if flag s (F.RXP_CTRL_EN path) then some (x.acqFrom.getD w) else none }

/-- DC_RESET: at W0 the reset sets C and F to 0 (R196). -/
def execDcReset (t path : Nat) (s : State) : Out :=
  let s := advance t s
  match (rxPath s path).resetAt with
  | none => .next s
  | some w =>
    .next (if w ≤ s.time.tick then modRx (setDc s path 0 0 0 0) path fun x => { x with resetAt := none } else s)

/-- ACQ of RXP(n).DC_STAT: 1 from the reset on, before W0 too, until the fourth acquisition swap (R196; log 58). -/
def acqShown (s : State) (path : Nat) : Bool :=
  decide (0 < (rxPath s path).acqLeft) || match (rxPath s path).acqEnd with
    | some e => decide (s.time.tick < e)
    | none => false

/-! ## Windows (R194, R195) -/

/-- What a component becomes after a window with residual `e`: (C, F, coarse step taken). -/
def dcComponent (acq : Bool) (c f e : Int) : Int × Int × Bool :=
  let f' := f + e
  let big := decide (2048 < f') || decide (f' < -2048)
  if acq then
    if big then
      let d := (f' + 1024) / 2048
      (clampInt (-64) 63 (c + d), clampInt (-4095) 4095 (f' - 2048 * d), true)
    else (c, f', false)
  else if big then
    let g : Int := if 0 < f' then 1 else -1
    (clampInt (-64) 63 (c + g), clampInt (-4095) 4095 (f' - 2048 * g), true)
  else (c, f + clampInt (-64) 64 e, false)

/-- The 252 bytes of a DC offset block (R198). -/
def dcBlock (ci cq fi fq : Int) : List Byte :=
  leBytes 1 (unsigned 8 ci) ++ leBytes 1 (unsigned 8 cq) ++ leBytes 2 (unsigned 16 fi) ++ leBytes 2 (unsigned 16 fq)
    ++ List.replicate 246 0

/-- A measured window that ends now with these sums of stage-3 outputs: its swap is requested unless both residuals are 0 or no
firmware runs; the fourth acquisition window ends the acquisition at its swap tick (R195, R196, R462). -/
def measureDc (s : State) (path w : Nat) (sumI sumQ : Int) : State :=
  let e := s.time.tick
  let x := rxPath s path
  let acq := decide (0 < x.acqLeft)
  let ei := (sumI + w) / (2 * w)
  let eq := (sumQ + w) / (2 * w)
  let ri := dcComponent acq (dcCoarse s path 0) (dcFine s path 0) ei
  let rq := dcComponent acq (dcCoarse s path 1) (dcFine s path 1) eq
  let r := if (ei = 0 && eq = 0) || !fwRunning s then (s, false)
    else requestSwap s path 1 0 (e + 32768) (ri.2.2 || rq.2.2) (dcBlock ri.1 rq.1 ri.2.1 rq.2.1)
  let s := modRx r.1 path fun x => { x with windowFrom := if r.2 then e + 32768 else e, acqLeft := x.acqLeft - 1, spoilt := [] }
  if x.acqLeft = 1 then closeAcq (modRx s path fun x => { x with acqEnd := some (e + 32768) }) path (e + 32768) else s

/-! ## Register writes -/

/-- RXP(n).CTRL written; clearing EN ends the span of an acquisition in course (R185, R194, R196, R210; log 14). -/
def writeRxCtrl (s : State) (path data : Nat) : State :=
  let was := flag s (F.RXP_CTRL_EN path)
  let s := setF s (F.RXP_CTRL_EN path) (bitsOf data 0 1)
  if was && !bitAt data 0 then
    let a := edgeAtOrAfter s (dcWindow s path) (rxPath s path).windowFrom
    let s := if a < s.time.tick && s.time.tick < a + dcWindow s path then satAdd s (F.RXP_DC_STAT_DISCARDED path) 1 else s
    closeAcq (modRx s path fun x => { x with spoilt := [] }) path s.time.tick
  else if !was && bitAt data 0 then resetDc (spoilWindow s path s.time.tick) path
  else s

/-- RXP_CTRL_WRITE: a write of RXP(n).CTRL; registers of absent paths ignore it (R7, R185). -/
def execRxpCtrlWrite (t path data : Nat) (s : State) : Out :=
  byWrite t s fun s => if pathPresent s path then writeRxCtrl s path data else s

/-- RXP(n).DC_CTRL written: a running window that already holds a frozen tick stays one to discard; after a change of WIN the next
window starts on the new grid (R194, R196). -/
def writeDcCtrl (s : State) (path data : Nat) : State :=
  let w := dcWindow s path
  let a := edgeAtOrAfter s w (rxPath s path).windowFrom
  let froze := decide (a < s.time.tick) && frozenIn s path a s.time.tick
  let s := setF (setF s (F.RXP_DC_CTRL_WIN path) (bitsOf data 4 3)) (F.RXP_DC_CTRL_FREEZE path) (bitsOf data 0 2)
  let s := if froze then spoilWindow s path s.time.tick else s
  let s := if dcWindow s path = w then s else modRx s path fun x => { x with windowFrom := max x.windowFrom s.time.tick }
  if bitAt data 8 then resetDc s path else s

/-! ## Gain steps (R189-R191) -/

/-- The new gain is in force from tick `n`; the gain control of the analogue stage has switched 6 ticks before (R189, R194, R210). -/
def applyGain (s : State) (path gain n : Nat) : State :=
  let s := if getF s (F.RXP_GAIN_GAIN path) = gain then s
    else emit (spoilWindow s path n) (.rxGain path gain (elapsedAt s n - 6))
  spoilByGain (setF s (F.RXP_GAIN_GAIN path) gain) n

/-- RX_GAIN (21h): BUSY while AUTO is 1 (R189, R191). -/
def execRxGain (t : Nat) (c : Cmd) (s : State) : Out :=
  runCmd t 0x21 c s [] fun s f =>
    schedulable s f (!pathPresent s (p8 c 16) || decide (30 < p8 c 17)) [(0x21, p8 c 16, 0)]
      (if flag s (F.RXP_GAIN_AUTO (p8 c 16)) then some stBusy else none) false id

/-- A gain-control step may lie at tick `n`: PERIOD has passed since the last one, and on a PATTERN path of a running bank it is
the first tick of a turnaround span into a UL segment (R191). -/
def gainTickGood (s : State) (path n : Nat) : Bool :=
  (match (rxPath s path).lastStep with
    | none => true
    | some m => decide (m + 1024 * getF s (F.RXP_AGC_PERIOD path) ≤ n))
  && (dcFreeze s path != 0 || (bankAt s n).isNone || ulAfterDl s (n + 1024))

/-- The firmware has chosen a gain and a swap tick for a path with AUTO at 1: the swap is requested (R191, R462). -/
def requestGain (s : State) (path gain tick : Nat) : State :=
  if !pathPresent s path || !flag s (F.RXP_GAIN_AUTO path) || !fwRunning s || decide (30 < gain)
      || !gainTickGood s path tick then s
  else
    let r := requestSwap s path 2 0 tick false (BitVec.ofNat 8 gain :: List.replicate 251 0)
    if r.2 then modRx r.1 path fun x => { x with lastStep := some tick } else r.1

/-- GAIN_CONTROL_STEP: a step of gain control (R191). -/
def execGainControlStep (t path gain tick : Nat) (s : State) : Out := .next (requestGain (advance t s) path gain tick)

/-! ## DC_LOAD (R198) -/

def execDcLoad (t : Nat) (c : Cmd) (s : State) : Out :=
  runCmd t 0x23 c s [] fun s f =>
    let out := fun (lo hi v : Int) => decide (v < lo) || decide (hi < v)
    let bad := !pathPresent s (p8 c 16) || out (-64) 63 (signed 8 (p8 c 17)) || out (-64) 63 (signed 8 (p8 c 18))
      || out (-4095) 4095 (signed 16 (p16 c 20)) || out (-4095) 4095 (signed 16 (p16 c 22))
    schedulable s f bad [(0x23, p8 c 16, 0)] (if dcFreeze s (p8 c 16) = 2 then none else some stBusy) false id

/-- C and F of a path set at tick `n`; a change of C, or a coarse step, is pipped and spoils the window (R194, R198, R210). -/
def applyDc (s : State) (path n : Nat) (ci cq fi fq : Int) (coarse : Bool) : State :=
  let moved := decide (ci ≠ dcCoarse s path 0) || decide (cq ≠ dcCoarse s path 1)
  let s := setDc s path ci cq fi fq
  let s := if moved then spoilWindow s path n else s
  if moved || coarse then spoilByGain s n else s

/-- A DC_LOAD reaches its tick. -/
def actDcLoad (s : State) (p : Pending) : State :=
  applyDc s (p8 p.cmd 16) p.tick (signed 8 (p8 p.cmd 17)) (signed 8 (p8 p.cmd 18)) (signed 16 (p16 p.cmd 20)) (signed 16 (p16 p.cmd 22))
    false

/-! ## Adaptive swaps of the receive kinds -/

/-- A DC offset or RX gain swap takes effect at its swap tick; while EN is 0 or FREEZE is ALWAYS the DC loops do not swap (R185, R189, R194,
R195, R198). -/
def applyRxSwap (s : State) (x : AdaptSwap) : State :=
  if x.kind = 1 then
    if !flag s (F.RXP_CTRL_EN x.path) || dcFreeze s x.path = 2 then s
    else applyDc s x.path x.tick (signed 8 (leNat (x.block.take 1))) (signed 8 (leNat ((x.block.drop 1).take 1)))
      (signed 16 (leNat ((x.block.drop 2).take 2))) (signed 16 (leNat ((x.block.drop 4).take 2))) x.coarse
  else applyGain s x.path (leNat (x.block.take 1)) x.tick

end Sys2Proof.Machine
end

