-- ==== Sys2Proof/Machine/Time.lean ====
section
/-!
DEFINITION. Clocks and device time: the PLL switches and their locks, SYNC events up to their load, SYNC_OUT
(spec/01_clocks_and_time.md R26-R37, R506-R508).
-/
namespace Sys2Proof.Machine

/-- The root PLL stops: the counter holds, TICK_VALID and ROOT_LOCK clear, captures that await their load are lost
(R29, R503, R506; log 51), the pattern table stops; the lane PLL and everything that does not count ticks goes on (log 57). -/
def stopRoot (s : State) : State :=
  let s := settleAllPmc s
  let s := setFlag (setFlag s F.TIME_CLK_STATUS_ROOT_LOCK false) F.TIME_CLK_STATUS_TICK_VALID false
  patternChanged { s with time := { s.time with counting := false, syncs := [] } }

/-- The root PLL is started: time is invalid until the next applied SYNC (R31). -/
def startRoot (s : State) : State := stopRoot s

/-- TIME.CLK_CTRL written: a change of ROOT_EN starts or stops the root PLL, a fall of LANE_EN stops the lane PLL (R28, R29, R31,
R506). -/
def writeClkCtrl (s : State) (data : Nat) : State :=
  let wasRoot := flag s F.TIME_CLK_CTRL_ROOT_EN
  let wasLane := flag s F.TIME_CLK_CTRL_LANE_EN
  let s := setF (setF s F.TIME_CLK_CTRL_ROOT_EN (bitsOf data 0 1)) F.TIME_CLK_CTRL_LANE_EN (bitsOf data 1 1)
  let s := if wasRoot && !bitAt data 0 then stopRoot s else if !wasRoot && bitAt data 0 then startRoot s else s
  if wasLane && !bitAt data 1 then lanePllOff s else s

/-- ROOT_EN_WRITE: a write of CLK_CTRL that changes ROOT_EN; it counts as a configuration write (R89, R506). -/
def execRootEnWrite (t data : Nat) (s : State) : Out := byWrite t s fun s => writeClkCtrl s data

/-- LANE_EN_WRITE: a write of CLK_CTRL that changes LANE_EN (R28, R29). -/
def execLaneEnWrite (t data : Nat) (s : State) : Out :=
  byWrite t s fun s => writeClkCtrl s data

/-- The counter starts anew at tick 0, from which REFCLK and the dividers rise until the first applied SYNC (R26, R506); carriers, streams
and DC windows start anew there as at an origin; what else holds a tick of the old count keeps it (log 57). -/
def restartCounter (s : State) : State :=
  let s := closeEra (countUnmapped (settleAllPmc s) s.time.tick)
  { s with
    beam := { s.beam with unmappedFrom := 0 }
    time := { s.time with tick := 0, counting := true, origin := 0, tddLog := [] }
    carriers := s.carriers.map fun x => (x.1, syncCarrier s 0 x.2)
    streams := s.streams.map fun x => (x.1, { x.2 with
      slots := [], firstAccepted := none, ulOld := [], ulNext := if x.2.dir = 1 then 0 else x.2.ulNext
      newOrigin := x.2.dir = 1 })
    arrivals := []
    casc := { s.casc with sums := [], combined := [], lost := [] }
    rx := s.rx.map fun x => { x with
      windowFrom := 0, resetAt := x.resetAt.map fun _ => 0, acqFrom := x.acqFrom.map fun _ => 0, spoilt := [], lastStep := none
      acqEnd := none } }

/-- ROOT_PLL_LOCK: the counter is set to 0 and counts from here (R26, R506). -/
def execRootPllLock (t : Nat) (s : State) : Out :=
  let s := advance t s
  .next <|
    if flag s F.TIME_CLK_CTRL_ROOT_EN && !s.time.counting && !asleep s then
      restartCounter (setFlag s F.TIME_CLK_STATUS_ROOT_LOCK true)
    else s

/-- CLOCK_UNLOCK: a PLL (0 root, 1 lane) that was locked loses lock; nothing else changes (R29). -/
def execClockUnlock (t pll : Nat) (s : State) : Out :=
  let s := advance t s
  let f := if pll = 0 then F.TIME_CLK_STATUS_ROOT_LOCK else F.TIME_CLK_STATUS_LANE_LOCK
  .next <|
    if decide (pll ≤ 1) && flag s f then
      post (raiseFlag (setFlag s f false) F.TIME_CLK_STATUS_UNLOCK_STICKY) evClockUnlock (evData [(16, 1, pll)])
    else s

/-- PLL_RELOCK: the PLL is locked again, with no event and no other change (R29). -/
def execPllRelock (t pll : Nat) (s : State) : Out :=
  let s := advance t s
  .next <|
    if pll = 0 && s.time.counting && flag s F.TIME_CLK_CTRL_ROOT_EN then setFlag s F.TIME_CLK_STATUS_ROOT_LOCK true
    else if pll = 1 && s.time.laneUp && flag s F.TIME_CLK_CTRL_LANE_EN then setFlag s F.TIME_CLK_STATUS_LANE_LOCK true
    else s

/-- TIME.SYNC_CTRL written: COMP, OUT_MODE and MODE are stored, and a 1 in ARM sets ARMED (R507). -/
def writeSyncCtrl (s : State) (data : Nat) : State :=
  let s := setF (setF (setF s F.TIME_SYNC_CTRL_COMP (bitsOf data 8 6)) F.TIME_SYNC_CTRL_OUT_MODE (bitsOf data 4 2))
    F.TIME_SYNC_CTRL_MODE (bitsOf data 0 2)
  if bitAt data 2 then setFlag s F.TIME_SYNC_CTRL_ARMED true else s

/-- SYNC_ARM: a write of SYNC_CTRL with ARM at 1 (R507). -/
def execSyncArm (t data : Nat) (s : State) : Out := byWrite t s fun s => writeSyncCtrl s data

/-- A REFCLK edge coincides with this tick (R26). -/
def onRefclk (s : State) : Bool := edgeAtOrAfter s 4 s.time.tick == s.time.tick

/-- What the mode in force does with a captured SYNC event: APPLY with ARMED awaits the load 256 - 4 COMP ticks later, CHECK awaits
the comparison at the same tick, the others do nothing (R32, R35, R507). -/
def captureSync (s : State) : State :=
  let m := getF s F.TIME_SYNC_CTRL_MODE
  let cap : SyncCapture :=
    { check := m == 2, value := get64 s A.TIME_SYNC_VALUE A.TIME_SYNC_VALUE_1,
      loadAt := s.time.now + (256 - 4 * getF s F.TIME_SYNC_CTRL_COMP) }
  if m = 1 && flag s F.TIME_SYNC_CTRL_ARMED then
    let s := setFlag s F.TIME_SYNC_CTRL_ARMED false
    { s with time := { s.time with syncs := s.time.syncs ++ [cap] } }
  else if m = 2 then { s with time := { s.time with syncs := s.time.syncs ++ [cap] } }
  else s

/-- SYNC_EVENT: a rising SYNC_IN level captured at a REFCLK edge while the root PLL runs; in repeat mode SYNC_OUT is high from
REFCLK edge E + 2 for 4 periods (R37, R506, R507; log 51 for an edge before the lock and for a pulse that has been started). -/
def execSyncEvent (t : Nat) (s : State) : Out :=
  let s := advance t s
  .next <|
    if s.time.counting && onRefclk s then
      let s := captureSync s
      if getF s F.TIME_SYNC_CTRL_OUT_MODE = 1 then emit s (.syncOut (s.time.now + 8) (s.time.now + 24)) else s
    else s

/-- The first capture of a kind whose load time has come. -/
def dueSync (s : State) (check : Bool) : Option SyncCapture :=
  s.time.syncs.find? (fun c => c.check == check && decide (c.loadAt ≤ s.time.now))

/-- A capture is done with. -/
def dropSync (s : State) (c : SyncCapture) : State := { s with time := { s.time with syncs := s.time.syncs.erase c } }

/-- SYNC_CHECK: the value a load would have given is compared with the counter at the load tick (R35, R507). -/
def execSyncCheck (t : Nat) (s : State) : Out :=
  let s := advance t s
  match dueSync s true with
  | none => .next s
  | some c =>
    let s := dropSync s c
    let diff : Int := (c.value : Int) - ((s.time.tick : Int) - ((s.time.now - c.loadAt : Nat) : Int))
    .next <|
      if diff = 0 then wrapAdd s F.TIME_SYNC_COUNT_CHECKED 1
      else post s evSyncMismatch (evData [(16, 8, unsigned 64 diff)])

/-- SYNC_OUT_SCHEDULED: the counter equals SYNC_OUT_TICK while OUT_MODE is 10b; SYNC_OUT is driven for 4 REFCLK periods from the
first REFCLK edge at or after it, and the register is cleared to all ones, which never matches (R37, R508; log 51). -/
def execSyncOutScheduled (t : Nat) (s : State) : Out :=
  let s := advance t s
  .next <|
    if s.time.counting && getF s F.TIME_SYNC_CTRL_OUT_MODE == 2
        && s.time.tick == get64 s A.TIME_SYNC_OUT_TICK A.TIME_SYNC_OUT_TICK_1 && decide (s.time.tick < 2 ^ 64 - 1) then
      let e := s.time.now + (edgeAtOrAfter s 4 s.time.tick - s.time.tick)
      set64 (emit s (.syncOut e (e + 16))) A.TIME_SYNC_OUT_TICK A.TIME_SYNC_OUT_TICK_1 (2 ^ 64 - 1)
    else s

end Sys2Proof.Machine
end

