-- ==== Sys2Proof/Machine/Keccak.lean ====
section
/-!
DEFINITION. SHA3-512 (FIPS 202), with which the device measures images and forms its configuration digest, and the SHAKE functions of
ML-DSA
(spec/02_host_rings.md R90; spec/16_firmware_trust.md R457; notes/assumptions/39.md).
-/
namespace Sys2Proof.Machine

/-- The 24 round constants of Keccak-f[1600]. -/
def keccakRounds : List (BitVec 64) :=
  [0x0000000000000001#64, 0x0000000000008082#64, 0x800000000000808A#64, 0x8000000080008000#64, 0x000000000000808B#64,
   0x0000000080000001#64, 0x8000000080008081#64, 0x8000000000008009#64, 0x000000000000008A#64, 0x0000000000000088#64,
   0x0000000080008009#64, 0x000000008000000A#64, 0x000000008000808B#64, 0x800000000000008B#64, 0x8000000000008089#64,
   0x8000000000008003#64, 0x8000000000008002#64, 0x8000000000000080#64, 0x000000000000800A#64, 0x800000008000000A#64,
   0x8000000080008081#64, 0x8000000000008080#64, 0x0000000080000001#64, 0x8000000080008008#64]

/-- The rotations of lane x + 5y. -/
def keccakRotations : List Nat :=
  [0, 1, 62, 28, 27, 36, 44, 6, 55, 20, 3, 10, 43, 25, 39, 41, 45, 15, 21, 8, 18, 2, 61, 56, 14]

/-- One round on 25 lanes, lane x + 5y. -/
def keccakRound (a : List (BitVec 64)) (rc : BitVec 64) : List (BitVec 64) :=
  let at' := fun (l : List (BitVec 64)) i => l.getD i 0
  let c := (List.range 5).map fun x => at' a x ^^^ at' a (x + 5) ^^^ at' a (x + 10) ^^^ at' a (x + 15) ^^^ at' a (x + 20)
  let d := (List.range 5).map fun x => at' c ((x + 4) % 5) ^^^ (at' c ((x + 1) % 5)).rotateLeft 1
  let e := (List.range 25).map fun i => at' a i ^^^ at' d (i % 5)
  let b := (List.range 25).map fun i =>
    let x := i % 5
    let y := i / 5
    let j := (x + 3 * y) % 5 + 5 * x
    (at' e j).rotateLeft (keccakRotations.getD j 0)
  (List.range 25).map fun i =>
    let x := i % 5
    let y := i / 5
    let v := at' b i ^^^ (~~~ at' b ((x + 1) % 5 + 5 * y) &&& at' b ((x + 2) % 5 + 5 * y))
    if i = 0 then v ^^^ rc else v

/-- Keccak-f[1600]. -/
def keccakF (a : List (BitVec 64)) : List (BitVec 64) := keccakRounds.foldl keccakRound a

/-- A block of `r` bytes absorbed. -/
def absorb (r : Nat) (a : List (BitVec 64)) (block : List Byte) : List (BitVec 64) :=
  keccakF ((List.range 25).map fun i =>
    if i < r / 8 then a.getD i 0 ^^^ BitVec.ofNat 64 (leNat ((block.drop (8 * i)).take 8)) else a.getD i 0)

/-- `n` blocks of `r` bytes absorbed. -/
def absorbAll (r : Nat) : Nat → List (BitVec 64) → List Byte → List (BitVec 64)
  | 0, a, _ => a
  | n + 1, a, l => absorbAll r n (absorb r a (l.take r)) (l.drop r)

/-- A message with the padding of a sponge of rate `r` bytes to whole blocks; `suffix` holds the domain bits and the first bit of the
padding. -/
def spongePad (r suffix : Nat) (m : List Byte) : List Byte :=
  let n := r - m.length % r
  if n = 1 then m ++ [BitVec.ofNat 8 (suffix + 0x80)] else m ++ [BitVec.ofNat 8 suffix] ++ List.replicate (n - 2) 0 ++ [0x80#8]

/-- The first `r` bytes of the state. -/
def squeeze (r : Nat) (a : List (BitVec 64)) : List Byte := (a.take (r / 8)).flatMap fun v => leBytes 8 v.toNat

/-- `n` blocks of `r` bytes squeezed. -/
def squeezeAll (r : Nat) : Nat → List (BitVec 64) → List Byte
  | 0, _ => []
  | n + 1, a => squeeze r a ++ squeezeAll r n (keccakF a)

/-- The sponge of rate `r`: `n` bytes for a message. -/
def sponge (r suffix : Nat) (m : List Byte) (n : Nat) : List Byte :=
  let p := spongePad r suffix m
  (squeezeAll r ((n + r - 1) / r) (absorbAll r (p.length / r) (List.replicate 25 0) p)).take n

/-- SHA3-512. -/
def sha3 (m : List Byte) : List Byte := sponge 72 0x06 m 64

/-- SHAKE128 and SHAKE256: `n` bytes for a message. -/
def shake128 (m : List Byte) (n : Nat) : List Byte := sponge 168 0x1F m n
def shake256 (m : List Byte) (n : Nat) : List Byte := sponge 136 0x1F m n

end Sys2Proof.Machine
end

