-- ==== Sys2Proof/Machine/MlDsa.lean ====
section
/-!
DEFINITION. Verification of a pure ML-DSA-87 signature with an empty context, as FIPS 204 defines it (spec/16_firmware_trust.md R457, R458;
notes/assumptions/39.md).
-/
namespace Sys2Proof.Machine.MlDsa

/-! ## Parameters of ML-DSA-87 -/

/-- The modulus q. -/
def q : Nat := 8380417

/-- Rows and columns of the matrix A. -/
def rows : Nat := 8
def cols : Nat := 7

/-- Bits dropped from t, nonzero coefficients of the challenge, range of y, low-order range, bound of the products, ones of the hint. -/
def dropped : Nat := 13
def tau : Nat := 60
def gamma1 : Nat := 524288
def gamma2 : Nat := 261888
def beta : Nat := 120
def omega : Nat := 75

/-- A polynomial: its 256 coefficients modulo q, or its 256 values in the transform domain. -/
abbrev Poly := List Nat

/-! ## Fields of the key and the signature -/

/-- The `n` values of `w` bits each that a byte string holds, lowest bits first. -/
def unpack (w n : Nat) (b : List Byte) : List Nat :=
  let v := leNat b
  (List.range n).map fun i => v / 2 ^ (w * i) % 2 ^ w

/-- The `n` pieces of `k` bytes of a byte string. -/
def pieces (k n : Nat) (b : List Byte) : List (List Byte) := (List.range n).map fun i => (b.drop (k * i)).take k

/-- The vector t1 of a public key. -/
def keyVector (key : List Byte) : List Poly := (pieces 320 rows (key.drop 32)).map (unpack 10 256)

/-- The response z of a signature, each coefficient as γ1 minus its 20 bits. -/
def response (sig : List Byte) : List (List Int) :=
  (pieces 640 cols (sig.drop 64)).map fun b => (unpack 20 256 b).map fun x => (gamma1 : Int) - x

/-- A list of Nat rises strictly. -/
def rising : List Nat → Bool
  | a :: b :: l => decide (a < b) && rising (b :: l)
  | _ => true

/-- The hint of a signature: for each row the places of its ones, none where the encoding is malformed. -/
def hint (sig : List Byte) : Option (List (List Nat)) :=
  let y := ((sig.drop (64 + 640 * cols)).take (omega + rows)).map (·.toNat)
  let stop := fun (i : Nat) => if i = 0 then 0 else y.getD (omega + i - 1) 0
  let row := fun (i : Nat) => ((y.take (stop (i + 1))).drop (stop i))
  if (List.range rows).all (fun i => decide (stop i ≤ stop (i + 1)) && decide (stop (i + 1) ≤ omega) && rising (row i))
      && ((y.take omega).drop (stop rows)).all (· == 0)
  then some ((List.range rows).map row) else none

/-! ## The transform -/

/-- x to the power `n` modulo q, `k` bounding the bits of `n`. -/
def powMod : Nat → Nat → Nat → Nat
  | 0, _, _ => 1
  | k + 1, x, n => let h := powMod k (x * x % q) (n / 2); if n % 2 = 1 then x * h % q else h

/-- The eight bits of a number reversed. -/
def reversed (x : Nat) : Nat := ((List.range 8).map fun i => if x / 2 ^ i % 2 = 1 then 2 ^ (7 - i) else 0).sum

/-- The root of unity at which value `i` of the transform is taken: an odd power of 1753, whose order is 512. -/
def rootAt (i : Nat) : Nat := powMod 10 1753 ((reversed (128 + i / 2) + if i % 2 = 1 then 256 else 0) % 512)

/-- The value of a polynomial at a point modulo q. -/
def evalAt (x : Nat) (p : Poly) : Nat := p.foldr (fun a y => (a + x * y) % q) 0

/-- The transform: the values at the 256 roots. -/
def transform (p : Poly) : Poly := (List.range 256).map fun i => evalAt (rootAt i) p

/-- The inverse transform: coefficient `j` is the mean of the values times the root to the power -j. -/
def inverse (p : Poly) : Poly :=
  let r := (List.range 256).map fun i => (rootAt i, p.getD i 0)
  (List.range 256).map fun j =>
    8347681 * (r.foldl (fun s x => (s + x.2 * powMod 10 x.1 (512 - j)) % q) 0) % q

/-- Values multiplied, added and subtracted one by one. -/
def mulValues (a b : Poly) : Poly := List.zipWith (fun x y => x * y % q) a b
def addValues (a b : Poly) : Poly := List.zipWith (fun x y => (x + y) % q) a b
def subValues (a b : Poly) : Poly := List.zipWith (fun x y => (x + q - y) % q) a b

/-! ## Sampling -/

/-- The values below q among triples of bytes, the top bit of each ignored. -/
def triples : List Byte → List Nat
  | a :: b :: c :: l =>
    let z := a.toNat + 256 * b.toNat + 65536 * (c.toNat % 128)
    if z < q then z :: triples l else triples l
  | _ => []

/-- Entry (r, s) of the matrix A in the transform domain: 336 triples are drawn, of which FIPS 204 needs no more than 298 but with a
probability below 2^-256. -/
def matrixEntry (rho : List Byte) (r s : Nat) : Poly :=
  (triples (shake128 (rho ++ [BitVec.ofNat 8 s, BitVec.ofNat 8 r]) 1008)).take 256

/-- One step of the challenge: the next byte not above `i` names the place whose coefficient moves to place `i` and becomes 1 or -1; the
bytes that remain follow. -/
def challengeStep (i sign : Nat) : List Byte → Poly → Poly × List Byte
  | [], c => (c, [])
  | b :: l, c =>
    if i < b.toNat then challengeStep i sign l c
    else ((c.set i (c.getD b.toNat 0)).set b.toNat (if sign = 1 then q - 1 else 1), l)

/-- The challenge polynomial of a seed: 60 coefficients of 1 or -1. -/
def challenge (seed : List Byte) : Poly :=
  let l := shake256 seed 272
  let signs := leNat (l.take 8)
  ((List.range tau).foldl (fun (x : Poly × List Byte) k =>
    challengeStep (256 - tau + k) (signs / 2 ^ k % 2) x.2 x.1) (List.replicate 256 0, l.drop 8)).1

/-! ## Verification -/

/-- High part of a value with its low part, the low part in (-γ2, γ2], the value q - 1 going to 0. -/
def decompose (r : Nat) : Nat × Int :=
  let m := r % (2 * gamma2)
  let low : Int := if gamma2 < m then (m : Int) - 2 * gamma2 else m
  if (r : Int) - low = q - 1 then (0, low - 1) else (((r : Int) - low).toNat / (2 * gamma2), low)

/-- The high part that a hint bit corrects. -/
def useHint (h : Bool) (r : Nat) : Nat :=
  let x := decompose r
  if !h then x.1 else if 0 < x.2 then (x.1 + 1) % 16 else (x.1 + 15) % 16

/-- The values of 4 bits of a row as bytes. -/
def packRow (l : List Nat) : List Byte := (List.range 128).map fun i => BitVec.ofNat 8 (l.getD (2 * i) 0 + 16 * l.getD (2 * i + 1) 0)

/-- Row `r` of A z - c t1 2^13, back in coefficients; `z`, `c` and `t` are transformed. -/
def rowOf (rho : List Byte) (z : List Poly) (c t : Poly) (r : Nat) : Poly :=
  let az := ((List.range cols).map fun s => mulValues (matrixEntry rho r s) (z.getD s [])).foldl addValues (List.replicate 256 0)
  inverse (subValues az (mulValues c t))

/-- The signature of a message verifies under a public key: the response is short, the hint well formed, and the challenge is that of the
commitment which they give. -/
def verify (key message sig : List Byte) : Bool :=
  let seed := sig.take 64
  let z := response sig
  let rho := key.take 32
  let mu := shake256 (shake256 key 64 ++ [0, 0] ++ message) 64
  match hint sig with
  | none => false
  | some h =>
    if key.length != 2592 || sig.length != 4627 || z.any (fun p => p.any fun x => decide (gamma1 - beta ≤ x.natAbs)) then false
    else
      let c := transform (challenge seed)
      let zs := z.map fun p => transform (p.map fun x => (x % (q : Int)).toNat)
      let ts := (keyVector key).map fun p => transform (p.map fun x => x * 2 ^ dropped % q)
      let w := (List.range rows).map fun r =>
        let l := h.getD r []
        ((rowOf rho zs c (ts.getD r []) r).zipIdx).map fun x => useHint (l.contains x.2) x.1
      shake256 (mu ++ w.flatMap packRow) 64 == seed

end Sys2Proof.Machine.MlDsa
end

