-- ==== Sys2Proof/Machine/Trust.lean ====
section
/-!
DEFINITION. Firmware images: their format, verification under the fused policy, boot, staged update with its fallback, and fuse programming
(spec/16_firmware_trust.md R456-R468).
-/
namespace Sys2Proof.Machine

def modTrust (s : State) (f : TrustSt → TrustSt) : State := { s with trust := f s.trust }

/-! ## The image (R456, R457) -/

/-- The little-endian field of `n` bytes at byte `i` of an image. -/
def imageField (b : List Byte) (i n : Nat) : Nat := leNat ((b.drop i).take n)

/-- Bytes `i` to `j - 1` of an image are 0. -/
def imageZero (b : List Byte) (i j : Nat) : Bool := ((b.drop i).take (j - i)).all (· = 0)

def imageTotal (b : List Byte) : Nat := imageField b 4 4
def imageSigned (b : List Byte) : Nat := imageField b 8 4
def imageNsig (b : List Byte) : Nat := imageField b 18 1

/-- The sections of an image as (offset, length): AP0-AP3, SHARED. -/
def imageSections (b : List Byte) : List (Nat × Nat) := (List.range 5).map fun k => (imageField b (20 + 8 * k) 4, imageField b (24 + 8 * k) 4)

/-- Two sections overlap. -/
def sectionsMeet (x y : Nat × Nat) : Bool := decide (x.1 < y.1 + y.2) && decide (y.1 < x.1 + x.2)

/-- No section of a list overlaps a later one. -/
def sectionsApart : List (Nat × Nat) → Bool
  | [] => true
  | x :: l => l.all (fun y => !sectionsMeet x y) && sectionsApart l

/-- The header of an image is malformed (R456); a section of length 0 overlaps none (log 40). -/
def headerMalformed (b : List Byte) : Bool :=
  let l := imageSections b
  imageField b 0 4 != 0x49465A49 || !imageZero b 19 20 || !imageZero b 60 256
    || decide (4194304 < imageTotal b) || imageTotal b != imageSigned b + 7232 * imageNsig b
    || (l.any fun x => x.1 % 16 != 0 || decide (imageSigned b < x.1 + x.2)) || !sectionsApart (l.filter fun x => x.2 != 0)
    || ((imageSections b).take 4).any (fun x => decide (524288 < x.2))

/-- The signature blocks of an image: slot, public key, signature, its reserved bytes are 0 (R457). -/
def imageBlocks (b : List Byte) : List (Nat × List Byte × List Byte × Bool) :=
  (List.range (imageNsig b)).map fun j =>
    let x := (b.drop (imageSigned b + 7232 * j)).take 7232
    (imageField x 0 1, (x.drop 4).take 2592, (x.drop 2596).take 4627, imageZero x 1 4 && imageZero x 7223 7232)

/-- An image is malformed: its header, a reserved byte of a block, or two blocks for one slot (R456). -/
def imageMalformed (b : List Byte) : Bool :=
  headerMalformed b || (imageBlocks b).any (fun x => !x.2.2.2)
    || !decide ((imageBlocks b).map (·.1)).Nodup

/-- The measurement of an image: SHA3-512 of its signed part (R457). -/
def measurement (b : List Byte) : List Byte := sha3 (b.take (imageSigned b))

/-! ## Fuses (R463, R464) -/

/-- The fuses as they stand. -/
def fusesNow (s : State) : Fuses := { customer := s.trust.customer, policy := s.trust.policy, epochs := s.trust.epochs }

/-- The fused epoch: the bits set in the epoch field (R463). -/
def fusedEpoch (s : State) : Nat := (bitsSet s.trust.epochs 64).length

/-- The customer slot is programmed. -/
def customerProgrammed (s : State) : Bool := s.trust.customer != 0

/-- The key hash of a slot (1 vendor, 2 customer); none for a blank slot. -/
def keyHash (f : Fuses) (slot : Nat) : Option (List Byte) :=
  if slot = 1 then some Config.vendorKeyHash else if slot = 2 && f.customer != 0 then some (leBytes 64 f.customer) else none

/-! ## Verification (R458) -/

/-- The block of a slot is there; its key has the fused hash; its signature verifies: the first of these that fails as REASON 3, 4 or 5. -/
def blockFault (f : Fuses) (b : List Byte) (slot : Nat) : Option Nat :=
  match (imageBlocks b).find? (fun x => x.1 = slot) with
  | none => some 3
  | some (_, key, sig, _) =>
    match keyHash f slot with
    | none => some 4
    | some h =>
      if sha3 key != h then some 4 else if !MlDsa.verify key (measurement b) sig then some 5 else none

/-- The cause for which the image of bytes `b` is rejected under fuses, if it is: malformed, epoch, policy (R458). -/
def imageFault (f : Fuses) (b : List Byte) : Option Nat :=
  let vendor := blockFault f b 1
  let customer := blockFault f b 2
  if imageMalformed b then some 1
  else if imageField b 17 1 < (bitsSet f.epochs 64).length then some 2
  else match f.policy with
    | 0 => vendor
    | 1 => if vendor.isNone || customer.isNone then none else if vendor = some 3 then customer else vendor
    | _ => vendor.or customer

/-- Bytes of an image in store; none if it runs past the store. -/
def storedImage (s : State) (first total : Nat) : Option (List Byte) :=
  if 524288 * first + total ≤ storeSize then some (memRead s.store (524288 * first) total) else none

/-- The version fields and measurement of an accepted image. -/
def imageOf (first : Nat) (b : List Byte) : FwImage :=
  { first := first, total := imageTotal b, major := imageField b 12 1, minor := imageField b 13 1, patch := imageField b 14 2,
    feature := imageField b 16 1, epoch := imageField b 17 1, digest := measurement b }

/-- Store banks of an image. -/
def imageBanks (first total : Nat) : List Nat := bankRun first (ceilDiv total 524288)

/-- Each AP section goes into its AP's local memory (R459, R466). -/
def loadSections (s : State) (b : List Byte) : State :=
  modTrust s fun x => { x with apMem := ((imageSections b).take 4).map fun y => (b.drop y.1).take y.2 }

/-! ## The running firmware -/

/-- A 64-byte digest in 16 register words. -/
def putDigest (s : State) (r : Nat → Reg) (d : List Byte) : State :=
  (List.range 16).foldl (fun s i => setN s (r i) (leNat ((d.drop (4 * i)).take 4))) s

/-- FW_RUN and its copy in GLB.STATUS; the counters count up to here (R461, R471). -/
def setFwRun (s : State) (on : Bool) : State :=
  setFlag (setFlag (settleAllPmc s) F.TRUST_BOOT_FW_RUN on) F.GLB_STATUS_FW_RUN on

/-- Firmware of an image runs: FW_VERSION, FW_DIGEST and CAS.FEATURE.OWN follow; without an image they are 0 (R461, R462, R466, R367). -/
def runImage (s : State) (x : Option FwImage) : State :=
  let s := setFwRun (modTrust s fun y => { y with run := x }) x.isSome
  let v := x.getD default
  let s := setF (setF s F.TRUST_FW_VERSION_MAJOR v.major) F.TRUST_FW_VERSION_MINOR v.minor
  let s := setF (setF s F.TRUST_FW_VERSION_FEATURE v.feature) F.TRUST_FW_VERSION_EPOCH v.epoch
  setF (putDigest s (fun i => A.TRUST_FW_DIGEST i) v.digest) F.CAS_FEATURE_OWN v.feature

/-- The APs stop: DPD captures in progress are discarded with their slots lost, solves end, sampling ends (R466, R477). -/
def stopAps (s : State) : State :=
  let s := (List.range (nOrx s)).foldl dropVisit (setFwRun s false)
  stopSampling { s with dpd := { s.dpd with solves := [] } }

/-- A job joins those of the Keccak engine (R458). -/
def queueKeccak (s : State) (j : KeccakJob) : State := modTrust s fun x => { x with jobs := x.jobs ++ [j] }

/-- The cause of the last rejection shows in TRUST.BOOT.REASON (R461). -/
def rejectBoot (s : State) (reason : Nat) : State := setF s F.TRUST_BOOT_REASON reason

/-! ## Boot (R455, R459-R461) -/

def bootSel (s : State) : Nat := getF s F.GLB_STRAPS_BOOT_SEL
def setBoot (s : State) (p : BootPhase) (phase : Nat) : State := setF (modTrust s fun x => { x with boot := p }) F.GLB_STATUS_PHASE phase

/-- The boot ROM waits for the host without limit (R459). -/
def waitForHost (s : State) : State := setF (setBoot s .waitHost 2) F.TRUST_BOOT_STATE_STATE 1

/-- A read of the QSPI port: quad-output fast read with a 3-byte address and 8 dummy clocks (R460). -/
def qspiRead (s : State) (addr len : Nat) : State := emit s (.qspi 0x6B (addr % 2 ^ 24) 8 len)

/-- Where copy `k` of an image lies in the QSPI NOR (R459). -/
def copyAt (k : Nat) : Nat := 0x400000 * k

/-- The load of copy `k` starts with the read of its header (R459, R460). -/
def loadCopy (s : State) (k : Nat) : State := qspiRead (setBoot s (.load k) 2) (copyAt k) 256

/-- After a copy that was not accepted: the second copy, PF0 for BOOT_SEL 10b, or no image (R459). -/
def nextSource (s : State) (copy : Option Nat) : State :=
  match copy with
  | some 0 => loadCopy s 1
  | some _ => if bootSel s = 2 then waitForHost s else setBoot s .none 4
  | none => setBoot s .none 4

/-- The boot ROM starts: the source that BOOT_SEL selects (R455, R459). -/
def startBoot (s : State) : State :=
  let s := setF s F.TRUST_BOOT_STATE_STATE 0
  match bootSel s with
  | 1 => waitForHost s
  | 3 => setBoot s .none 4
  | _ => loadCopy s 0

/-- An image of TOTAL bytes is to be verified where R459 places it; its banks go to the system. -/
def verifyBoot (s : State) (copy : Option Nat) (total : Nat) : State :=
  let first := 32 - ceilDiv total 524288
  let s := ownBanks s (imageBanks first total) 1
  queueKeccak (setBoot (modTrust s fun x => { x with bootImage := (first, total) }) (.verify copy) 3) (.boot (fusesNow s))

/-- The rest of an image whose header of 256 bytes is well formed has been read in one command (R460). -/
def readRest (s : State) (k total : Nat) : State := qspiRead s (copyAt k + 256) (total - 256)

/-- IMAGE_LOAD_DONE: the QSPI read of a copy has failed, was abandoned at a malformed header, or has brought the whole image, which goes to
the highest store banks (R459, R460). -/
def execImageLoadDone (t : Nat) (data : List Byte) (failed : Bool) (s : State) : Out :=
  let s := advance t s
  match s.trust.boot with
  | .load k =>
    let b := data
    .next <|
      if failed then nextSource (rejectBoot s 6) (some k)
      else if decide (256 ≤ b.length) && headerMalformed b then nextSource (rejectBoot s 1) (some k)
      else if decide (256 ≤ b.length) && b.length == imageTotal b then
        let first := 32 - ceilDiv b.length 524288
        verifyBoot (readRest { s with store := memWrite s.store (524288 * first) b } k b.length) (some k) b.length
      else s
  | _ => .next s

/-- HOST_LEN written: while the boot ROM waits for the host, verification of that many bytes starts (R459). -/
def writeHostLen (s : State) (data : Nat) : State :=
  let n := bitsOf data 0 23
  let s := setF s F.TRUST_BOOT_HOST_LEN n
  if s.trust.boot = .waitHost then setF (verifyBoot s none (min n 4194304)) F.TRUST_BOOT_STATE_STATE 0 else s

/-- HOST_LEN: a write of TRUST.BOOT. -/
def execHostLen (t data : Nat) (s : State) : Out := byWrite t s fun s => writeHostLen s data

/-- The verification of a boot image ends, under the fuses that stood when it started (R464). -/
def bootVerified (s : State) (f : Fuses) (copy : Option Nat) : State :=
  let (first, total) := s.trust.bootImage
  match storedImage s first total with
  | none => nextSource (rejectBoot s 1) copy
  | some b =>
    match if imageTotal b != total || decide (total < 256) then some 1 else imageFault f b with
    | some r => nextSource (rejectBoot s r) copy
    | none => setBoot (loadSections (modTrust s fun x => { x with bootNew := some (imageOf first b) }) b) .starting 4

/-- READY: the APs have started on an accepted image, or none was accepted: boot is complete (R455, R461, R462). An activation that runs meanwhile
replaces that image (R466; log 40). -/
def execReady (t : Nat) (s : State) : Out :=
  let s := advance t s
  let finish := fun (s : State) (x : Option FwImage) =>
    let s := runImage s x
    let s := setFlag (setBoot (modTrust s fun y => { y with bootNew := none, old := if y.since.isSome then x else y.old }) .done 5) F.GLB_STATUS_READY true
    setF s F.TRUST_BOOT_STATE_STATE 2
  .next <| match s.trust.boot with
    | .starting => finish s s.trust.bootNew
    | .none => finish s none
    | _ => s

/-! ## Staged update (R465-R468) -/

/-- A verification of the staged image or an activation runs. -/
def stageBusy (s : State) : Bool := flag s F.TRUST_STAGE_STAT_BUSY

/-- TRUST.STAGE written: the status is NONE (R465). -/
def writeStage (s : State) (data : Nat) : State :=
  let s := setF (setF s F.TRUST_STAGE_FIRST (bitsOf data 27 5)) F.TRUST_STAGE_TOTAL (bitsOf data 0 23)
  setF (setF s F.TRUST_STAGE_STAT_STATE 0) F.TRUST_STAGE_STAT_REASON 0

/-- STAGE_WRITE. -/
def execStageWrite (t data : Nat) (s : State) : Out := byWrite t s fun s => writeStage s data

/-- VERIFY written: verification starts unless one or an activation runs (R465, log 40). -/
def startVerify (s : State) : State :=
  if stageBusy s then s
  else queueKeccak (setFlag s F.TRUST_STAGE_STAT_BUSY true) (.stage (fusesNow s) (getF s F.TRUST_STAGE_FIRST) (getF s F.TRUST_STAGE_TOTAL))

/-- The verification of a boot image runs or waits for the Keccak engine. -/
def bootVerifies (s : State) : Bool := match s.trust.boot with | .verify _ => true | _ => false

/-- ACTIVATE written: while the staged image is ACCEPTED and no verification or activation runs, the APs stop and the banks are measured again
(R466). -/
def startActivate (s : State) : State :=
  if stageBusy s || bootVerifies s || getF s F.TRUST_STAGE_STAT_STATE != 1 then s
  else
    let now := s.time.now
    let s := stopAps (setFlag s F.TRUST_STAGE_STAT_BUSY true)
    queueKeccak (modTrust s fun x => { x with old := x.run, since := some now })
      (.activate (getF s F.TRUST_STAGE_FIRST) (getF s F.TRUST_STAGE_TOTAL))

/-- TRUST.STAGE_CTRL written. -/
def writeStageCtrl (s : State) (data : Nat) : State :=
  let s := if bitAt data 0 then startVerify s else s
  if bitAt data 1 then startActivate s else s

/-- VERIFY: a write of STAGE_CTRL. -/
def execVerify (t data : Nat) (s : State) : Out := byWrite t s fun s => writeStageCtrl s data

/-- ACTIVATE: a write of STAGE_CTRL. -/
def execActivate (t data : Nat) (s : State) : Out :=
  byWrite t s fun s => writeStageCtrl s data

/-- STAGE_STAT becomes REJECTED with a reason, which TRUST.BOOT.REASON shows too (R461, R465). -/
def rejectStage (s : State) (reason : Nat) : State :=
  setFlag (setF (setF (rejectBoot s reason) F.TRUST_STAGE_STAT_STATE 2) F.TRUST_STAGE_STAT_REASON reason) F.TRUST_STAGE_STAT_BUSY false

/-- The verification of the staged image ends: its measurement is recorded, and it is ACCEPTED or REJECTED (R465). -/
def stageVerified (s : State) (f : Fuses) (first total : Nat) : State :=
  match storedImage s first total with
  | none => rejectStage s 1
  | some b =>
    let s := putDigest s (fun i => A.TRUST_STAGE_DIGEST i) (measurement b)
    match if imageTotal b != total || decide (b.length < 256) then some 1 else imageFault f b with
    | some r => rejectStage s r
    | none => setFlag (setF (setF s F.TRUST_STAGE_STAT_STATE 1) F.TRUST_STAGE_STAT_REASON 0) F.TRUST_STAGE_STAT_BUSY false

/-- The bytes of STAGE_DIGEST. -/
def stageDigest (s : State) : List Byte := (List.range 16).flatMap fun i => leBytes 4 (getN s (A.TRUST_STAGE_DIGEST i))

/-- The old image runs again, from its banks (R466, R467). -/
def restartOld (s : State) (reason : Nat) : State :=
  let s := match s.trust.old with
    | some x => match storedImage s x.first x.total with | some b => loadSections s b | none => s
    | none => s
  let s := rejectStage (setFwRun s s.trust.old.isSome) reason
  modTrust s fun x => { x with
    old := none, new := none, since := none
    jobs := x.jobs.filter fun j => match j with | .activate .. => false | _ => true }

/-- The second measurement of an activation ends: a difference restarts the old image with REASON 7, else the sections of the new one are
loaded and its APs start and count (R466 steps 2-4, R471). -/
def activateMeasured (s : State) (first total : Nat) : State :=
  match storedImage s first total with
  | none => restartOld s 7
  | some b =>
    if measurement b != stageDigest s then restartOld s 7
    else setFwRun (loadSections (modTrust s fun x => { x with new := some (imageOf first b) }) b) true

/-- VERIFICATION_DONE: the Keccak engine ends the verification or measurement that is its first job (R458, R465, R466). -/
def execVerificationDone (t : Nat) (s : State) : Out :=
  let s := advance t s
  let pop := modTrust s fun x => { x with jobs := x.jobs.tail }
  .next <| match s.trust.jobs with
    | .boot f :: _ => match s.trust.boot with
      | .verify copy => bootVerified pop f copy
      | _ => pop
    | .stage f first total :: _ => stageVerified pop f first total
    | .activate first total :: _ => activateMeasured pop first total
    | _ => s

/-- FW_ACTIVATED: the new firmware reports itself started: the old banks pass to nobody and the new image runs (R466 step 5). -/
def execFwActivated (t : Nat) (s : State) : Out :=
  let s := advance t s
  match s.trust.since, s.trust.new with
  | some n, some x =>
    if n + 196608000 < s.time.now then .next s
    else
      let s := match s.trust.old with
        | some o => { s with owners := (imageBanks o.first o.total).foldl (fun l b => l.set b 0) s.owners }
        | none => s
      let s := setFlag (runImage s (some x)) F.TRUST_STAGE_STAT_BUSY false
      let s := modTrust s fun y => { y with old := none, new := none, since := none }
      .next (post s evFwActivated (evData [(16, 4, x.epoch), (20, 8, leNat (x.digest.take 8))]))
  | _, _ => .next s

/-- FIRMWARE_START_TIMEOUT: 196,608,000 ticks after the write no new firmware has reported itself started: the old image runs again (R467,
R477). -/
def execFirmwareStartTimeout (t : Nat) (s : State) : Out :=
  let s := advance t s
  .next <| match s.trust.since with
    | some n => if n + 196608000 ≤ s.time.now then stopSampling (restartOld s 8) else s
    | none => s

/-! ## Fuse programming (R464) -/

/-- The customer key hash in TRUST.FUSE_DATA. -/
def fuseData (s : State) : Nat := leNat ((List.range 16).flatMap fun i => leBytes 4 (getN s (A.TRUST_FUSE_DATA i)))

/-- The epoch field with its lowest clear bits set until `n` bits are set (R463; log 40). -/
def raiseEpoch (epochs n : Nat) : Nat :=
  (List.range 64).foldl (fun e i => if bitAt e i || decide (n ≤ (bitsSet e 64).length) then e else e + 2 ^ i) epochs

/-- The fuse bits that an operation programs, unless it is refused. -/
def fuseTarget (s : State) (op arg : Nat) : Option Nat :=
  match op with
  | 1 => if customerProgrammed s || fuseData s = 0 then none else some (fuseData s)
  | 2 =>
    let p := arg % 4
    if s.trust.policy &&& p ≠ s.trust.policy || (p != 0 && !customerProgrammed s) then none else some p
  | 3 => match s.trust.run with
    | some x => if arg ≤ fusedEpoch s || x.epoch < arg || !fwRunning s then none else some (raiseEpoch s.trust.epochs arg)
    | none => none
  | _ => none

/-- TRUST.FUSE_PROG written: OP and ARG are stored; GO starts programming, or is refused with RESULT 2 (R464). -/
def writeFuseProg (s : State) (data : Nat) : State :=
  let s := setF (setF s F.TRUST_FUSE_PROG_OP (bitsOf data 8 2)) F.TRUST_FUSE_PROG_ARG (bitsOf data 0 7)
  if !bitAt data 31 then s
  else match if s.trust.fuse.isSome then none else fuseTarget s (bitsOf data 8 2) (bitsOf data 0 7) with
    | none => setF s F.TRUST_FUSE_PROG_RESULT 2
    | some v => setFlag (modTrust s fun x => { x with fuse := some (bitsOf data 8 2, v) }) F.TRUST_FUSE_PROG_BUSY true

/-- GO: a write of FUSE_PROG. -/
def execGo (t data : Nat) (s : State) : Out := byWrite t s fun s => writeFuseProg s data

/-- The field that an operation programs, as it stands. -/
def fuseField (x : TrustSt) (op : Nat) : Nat := if op = 1 then x.customer else if op = 2 then x.policy else x.epochs

/-- FUSE_PROGRAMMING_DONE: the bits of `took` have taken; every bit is read back, those that were set before among them (R464). Fuse bits are
only ever set (R463). -/
def execFuseProgrammingDone (t took : Nat) (s : State) : Out :=
  let s := advance t s
  .next <| match s.trust.fuse with
    | none => s
    | some (op, v) =>
      let set := v &&& took
      let was := fuseField s.trust op
      let s := modTrust s fun x => { x with
        fuse := none
        customer := if op = 1 then x.customer ||| set else x.customer
        policy := if op = 2 then x.policy ||| set else x.policy
        epochs := if op = 3 then x.epochs ||| set else x.epochs }
      setF (setFlag s F.TRUST_FUSE_PROG_BUSY false) F.TRUST_FUSE_PROG_RESULT (if was ||| set = was ||| v then 0 else 3)

end Sys2Proof.Machine
end

