-- ==== Sys2Proof/Machine/Power.lean ====
section
/-!
DEFINITION. Power domains, entry into SLEEP and DEEP with its commit point, the wake sequence and its failures, resets and the start of boot
(spec/15_power_and_boot.md R436-R455; spec/19_register_map.md R501; spec/18_pins_and_electrical.md R482).
-/
namespace Sys2Proof.Machine

/-! ## What a domain does to its units (R437) -/

/-- The samples of a slot that starts before tick `n`, up to `n`. -/
def clipSlot (n : Nat) (y : Slot) : Slot := { y with data := y.data.take (ceilDiv (n - y.first) (max 1 y.k)) }

/-- A carrier restarts as at an applied SYNC at tick `n`, its packet grid kept (R152): its buffered samples from `n` on are discarded, its
stages and its NCOs start anew, and its samples are pipped over the spans of an applied SYNC (R163, R165, R179, R206, R210, R437, R442;
log 41). -/
def restartCarrier (s : State) (i n : Nat) : State :=
  match carrierAt s i with
  | none => s
  | some c =>
    let g := gridUp s c.k n
    let m := delayMax s 1 / 64
    let s := modStreamsOf (restartDl s i c n) i fun x => { x with slots := x.slots.map (clipSlot n) }
    let s := modCarrier s i fun x => { x with dlFrom := n, ulFrom := g, phaseAt := (n, 0), was := [] }
    let s := if carriesDl c then addDlSpan s i g (g + (ceilDiv (dDl c 0) c.k + 120) * c.k) else s
    if carriesUl c then
      addUlSpan (modCarrier s i fun x => { x with ulRestart := x.ulRestart ++ [(g + 40, g + 40 - dUl c 0 - c.k * m, g)] }) i g (g + (56 + m) * c.k)
    else s

/-- Every carrier restarts at tick `n`. -/
def restartCarriers (s : State) (n : Nat) : State := (s.carriers.map (·.1)).foldl (fun s i => restartCarrier s i n) s

/-- The bit of a domain in PWR.DOMAIN.ON. -/
def setDomain (s : State) (d : Nat) (on : Bool) : State :=
  setF s F.PWR_DOMAIN_ON (putBits (getF s F.PWR_DOMAIN_ON) d 1 (if on then 1 else 0))

/-- The ORx are idle; their captures stop with CANCELLED (R436, R437; log 60). -/
def orxIdle (s : State) : State :=
  (List.range 4).foldl (fun s k => setF (dropVisit s k) (F.ORX_STAT_USER k) 0)
    { s with captures := s.captures.map fun x =>
        if x.source = 0 && x.stop.isNone then { x with stop := some (s.time.tick, stCancelled) } else x }

/-- DC loops of a pod's paths are reset (R196). -/
def resetPodDc (s : State) (p : Nat) : State := (List.range 8).foldl (fun s j => resetDc s (8 * p + j)) s

/-- Domain d loses power: its registers stay, the state of its units goes (R437). -/
def domainOff (s : State) (d : Nat) : State :=
  let s := setDomain (settleInjectors s) d false
  if d = 3 then dramLost s
  else if 6 ≤ d && d ≤ 13 then resetPod s (d - 6)
  else if d = 14 then loDomain s false
  else if d = 15 then abortOrxRuns (orxIdle s)
  else if d = 16 || d = 17 then laneDomainChanged s d
  else if d = 18 then losePd18 s
  else s

/-- Domain d is ready: its units start as R437 says; `cells` is what a memory that was not kept holds once
PD3 has power again (R412). -/
def domainReady (s : State) (d : Nat) (cells : List Host.Cell) : State :=
  let s := setDomain (settleInjectors s) d true
  if d = 3 then modPower { s with dram := if s.power.memHeld then s.dram else memCells s.dram cells } fun p => { p with memHeld := false }
  else if d = 4 || d = 5 then restartCarriers s s.time.tick
  else if 6 ≤ d && d ≤ 13 then resetPodDc (resetPod s (d - 6)) (d - 6)
  else if d = 14 then loDomain s true
  else if d = 15 then orxIdle s
  else if d = 16 || d = 17 then laneDomainChanged s d
  else if d = 18 then stopMonitors (huskAll s)
  else s

/-! ## PWR_DOMAIN (R438) -/

/-- Turn-on time of a domain in ticks (R436). -/
def turnOn (d : Nat) : Nat :=
  if d = 3 then 98304 else if d = 14 || d = 16 || d = 17 then 24576 else if d = 4 || d = 5 || d = 18 then 4096 else 49152

/-- DOMAIN_STATE, with the domains now on. -/
def postDomainState (s : State) : State := post s evDomainState (evData [(16, 3, getF s F.PWR_DOMAIN_ON)])

/-- The domains of a PWR_DOMAIN switch: those off close their switches in ascending order, one every 1,024 ticks; those on are isolated at
once and unpowered 1,024 ticks later; an earlier job loses the domains that this one takes. -/
def applyPwrDomain (s : State) (c : Cmd) : State :=
  let on := p8 c 20 = 1
  let mask := (bitsSet (bitsOf (p32 c 16) 0 24) 24)
  let busy := fun (b : Bool) (d : Nat) => s.power.jobs.any fun j => j.on == b && j.left.any fun x => x.1 = d
  let l := mask.filter fun d =>
    if on then (!domainOn s d || busy false d) && !busy true d else (domainOn s d || busy true d) && !busy false d
  let now := s.time.now
  let left := if on then l.mapIdx fun j d => (d, now + 1024 * j + turnOn d) else l.map fun d => (d, now + 1024)
  let s := modPower s fun p => { p with jobs := p.jobs.map fun j => { j with left := j.left.filter fun x => !l.contains x.1 } }
  let s := if on then s else l.foldl domainOff s
  let done := s.power.jobs.any fun j => j.left.isEmpty
  let s := modPower s fun p => { p with jobs := p.jobs.filter fun j => !j.left.isEmpty }
  let s := if done then postDomainState s else s
  if left.isEmpty then postDomainState s else modPower s fun p => { p with jobs := p.jobs ++ [{ on := on, left := left }] }

/-- PWR_DOMAIN (48h). -/
def execPwrDomain (t : Nat) (c : Cmd) (s : State) : Out :=
  runCmd t 0x48 c s [] fun s f =>
    let m := bitsOf (p32 c 16) 0 24
    let bad := decide (1 < p8 c 20) || (s.part == .iza6448 && bitsOf m 12 2 != 0)
    schedulable s f bad ((bitsSet m 19).map fun d => (0x48, d, 0)) none false fun s => applyPwrDomain s c

/-- The first job that has a domain whose time has come. -/
def dueJob (s : State) (d : Nat) : Option DomainJob :=
  s.power.jobs.find? fun j => j.left.any fun x => x.1 = d && decide (x.2 ≤ s.time.now)

/-- DOMAIN_READY: a domain has finished turning on or off; DOMAIN_STATE follows the last of its command (R438). -/
def execDomainReady (t domain : Nat) (cells : List Host.Cell) (s : State) : Out :=
  let s := advance t s
  .next <| match dueJob s domain with
    | none => s
    | some j =>
      let s := if j.on then domainReady s domain cells else s
      let rest := j.left.filter fun x => x.1 != domain
      let s := modPower s fun p => { p with
        jobs := if rest.isEmpty then p.jobs.erase j else p.jobs.map fun x => if x = j then { j with left := rest } else x }
      if rest.isEmpty then postDomainState s else s

/-! ## PWR.MODE (R442, R445) -/

/-- The supervisory channel that is PARKED, if there is one. -/
def parkedChannel (s : State) : Option Nat :=
  (s.dmas.map (·.1)).find? fun c => flag s (F.DMA_CH_STATE_SUPERVISORY c) && chState s c = chParked

/-- An entry has begun and has not reached its commit point. -/
def entering (s : State) : Bool := s.power.phase == .drain || s.power.phase == .store

/-- The entry ends where it stands, its effects so far kept. -/
def stopEntry (s : State) : State := setFlag (modPower s fun p => { p with phase := .run, source := none }) F.PWR_MODE_ENTRY false

/-- PWR.MODE written. ACTIVE and IDLE withdraw a request, cancel an entry and are in force from the next tick; SLEEP and DEEP request
entry. -/
def writeMode (s : State) (data : Nat) : State :=
  let target := bitsOf data 0 2
  let state := getF s F.PWR_MODE_STATE
  if target < 2 then
    let s := setF (if entering s then stopEntry s else s) F.PWR_MODE_TARGET target
    let s := setF s F.PWR_MODE_STATE target
    if state = 1 && target = 0 then restartCarriers s (s.time.tick + 1) else if state = 0 && target = 1 then abortOrxRuns (orxIdle s) else s
  else
    let s := if getF s F.PWR_MODE_TARGET < 2 then modPower s fun p => { p with back := state } else s
    setF s F.PWR_MODE_TARGET target

/-- MODE_WRITE_ACTIVE_IDLE: a write of PWR.MODE with ACTIVE or IDLE (R442). -/
def execModeWriteActiveIdle (t data : Nat) (s : State) : Out := byWrite t s fun s => writeMode s data

/-- MODE_WRITE_SLEEP_DEEP: a write of PWR.MODE with SLEEP or DEEP (R445). -/
def execModeWriteSleepDeep (t data : Nat) (s : State) : Out :=
  byWrite t s fun s => writeMode s data

/-! ## Entry (R445, R446) -/

/-- A RUNNING channel halts with CANCELLED: at once, or once its burst or fetch in progress is complete (R372, R446). -/
def stopChannel (s : State) (c : Nat) : State :=
  if (chAt s c).burst.isSome || (chAt s c).reading then modCh s c fun x => { x with stop := some (x.stop.getD []) }
  else haltDma s c stCancelled true

/-- The RUNNING channels other than the supervisory one. -/
def runningChannels (s : State) : List Nat :=
  (s.dmas.map (·.1)).filter fun c => chState s c = chRunning && !flag s (F.DMA_CH_STATE_SUPERVISORY c)

/-- Every pending activation completes with CANCELLED (R446). -/
def cancelActs (s : State) : State := s.acts.foldl (fun s p => endAct s p stCancelled s.time.tick) s

/-- Step E2: activations are cancelled, running channels halt, partners are told and lost; what is due goes out (R446). -/
def drainForEntry (s : State) : State :=
  let s := cancelActs s
  let s := pumpShared ((runningChannels s).foldl stopChannel s)
  (joined s).foldl (fun s x => losePartner (sendMessage s x.1 0x09 (leBytes 8 x.2.ident)) x.1 s.time.now) s

/-- ENTRY_BEGIN: the request stands, the supervisory channel is PARKED and no activation of firmware runs: entry begins at P (R445, R446,
R468). -/
def execEntryBegin (t : Nat) (s : State) : Out :=
  let s := advance t s
  .next <|
    if s.power.phase == .run && entryRequested s && (parkedChannel s).isSome && s.trust.since.isNone then
      let now := s.time.now
      let retain := flag s F.MEMC_CTRL_RETAIN_DEEP
      let s := modPower s fun p => { p with
        phase := .drain, entryAt := now, retain := retain,
        source := if p.wakeLow then some (1, now) else p.source.filter fun x => x.2 = now }
      drainForEntry (setFlag s F.PWR_MODE_ENTRY true)
    else s

/-- Every channel that was to halt has halted, and nothing waits to be written to host memory. -/
def drained (s : State) : Bool :=
  (runningChannels s).isEmpty && s.host.due.isEmpty && s.host.backlog.isEmpty && s.host.evq.isEmpty

/-- Entries still held at the end of E2 are discarded and counted (R446). -/
def discardHeld (s : State) : State :=
  let s := (s.host.due ++ s.host.backlog).foldl loseCpl s
  let s := satAdd { s with host := { s.host with due := [], backlog := [] } } F.HOST_LOST_EVENTS s.host.evq.length
  (List.range 16).foldl showBacklog { s with host := { s.host with evq := [] } }

/-- ENTRY_DRAIN_END: E2 ends when every channel has halted and every write has been issued, or at P + 983,040, at which what still runs halts;
an activation accepted meanwhile is cancelled too (R446). -/
def execEntryDrainEnd (t : Nat) (s : State) : Out :=
  let s := advance t s
  let s := if s.power.phase == .drain then cancelActs s else s
  .next <|
    if s.power.phase == .drain && (drained s || decide (s.power.entryAt + 983040 ≤ s.time.now)) then
      modPower (discardHeld ((runningChannels s).foldl (fun s c => haltDma s c stCancelled true) s)) fun p => { p with phase := .store }
    else s

/-- Step E3 has ended: the memory is in self-refresh, or idle where it is not to be kept (R446). -/
def memorySafe (s : State) : Bool :=
  !dramTrained s || (flag s F.MEMC_STATUS_SR && s.memc.exit.isNone && s.memc.waiting.isEmpty) || (getF s F.PWR_MODE_TARGET = 3 && !s.power.retain && portQuiet s)

/-- The weight memory is lost: no active set, staged banks empty; a WS_LOAD that is still being read fills its bank after the wake (R123,
R126). -/
def loseWeights (s : State) : State :=
  let s := s.beam.active.foldl (fun s x => releaseActive s x.carrier x.dir) s
  showAllCols { s with beam := { s.beam with
    active := [], fills := [], leaving := [], sets := s.beam.sets.map fun x => (x.1, { x.2 with bank := none }) } }

/-- What is under way inside the units of PD3-PD18 and the clock unit goes (R437, R441, R446). -/
def loseUnits (s : State) : State :=
  let s := (List.range 8).foldl resetPod (orxIdle s)
  let s := losePd18 (loDomain s false)
  let s := lanePllOff (stopRoot (laneDomainChanged (laneDomainChanged s 16) 17))
  let s := loseWeights ((s.cals.map (·.1)).foldl endRun s)
  { s with
    captures := [], swaps := [], arrivals := [], inbox := []
    streams := s.streams.map fun x => (x.1, { x.2 with slots := [], echoes := [], ulOld := [] })
    carriers := s.carriers.map fun x => (x.1, { x.2 with ulSpans := [], dlSpans := [], ulZero := [], ulRestart := [], dlDue := [] })
    casc := { s.casc with sums := [], combined := [], lost := [] } }

/-- COMMIT_POINT: step E3 ends at C; behind it the entry can no longer be cancelled. The domains are isolated; what is under way inside them
goes with step E4. An activation accepted in step E3 is cancelled, and a memory that is not to be kept closes every row (R446). -/
def execCommitPoint (t : Nat) (s : State) : Out :=
  let s := advance t s
  .next <|
    if s.power.phase == .store && s.power.source.isNone && !s.power.wakeLow && memorySafe s then
      let now := s.time.now
      let deep := getF s F.PWR_MODE_TARGET = 3
      let on := getF s F.PWR_DOMAIN_ON
      let s := settleInjectors (settleAllPmc (cancelActs s))
      let s := if dramTrained s && !flag s F.MEMC_STATUS_SR then closeRows s else s
      modPower (setF (setF s F.PWR_MODE_STATE (if deep then 3 else 2)) F.PWR_DOMAIN_ON (if deep then 1 else 3)) fun p => { p with
        phase := .settle, deep := deep, cold := false, commitAt := now, domains := on, blocked := 0, timer := true }
    else s

/-- A wake event in the tick of C, behind COMMIT_POINT: the entry stands at the end of step E3 again, to be cancelled (R447). -/
def undoCommit (s : State) : State :=
  modPower (setF (setF s F.PWR_MODE_STATE s.power.back) F.PWR_DOMAIN_ON s.power.domains) fun p => { p with phase := .store, timer := false }

/-- ENTRY_CANCEL: a wake event from P up to C: the request is cleared, the supervisory WAIT ends with WAKE_PENDING, polling resumes
(R447). -/
def execEntryCancel (t : Nat) (s : State) : Out :=
  let s := advance t s
  .next <|
    if entering s && (s.power.source.isSome || s.power.wakeLow) then
      let s := satAdd (setF (stopEntry s) F.PWR_MODE_TARGET s.power.back) F.PWR_STAT_CANCELLED 1
      match parkedChannel s with
      | none => s
      | some c => endWait (setF s (F.DMA_CH_STATE_WAIT_STATUS c) stWakePending) c
    else s

/-! ## Rails and the wake sequence (R440, R450, R451) -/

/-- The rails of SLEEP or DEEP (R440). -/
def railsKept (s : State) (deep : Bool) : Nat :=
  if deep then (if getN s A.PWR_WICK_RETAIN != 0 then 2 else 0) + (if s.power.retain then 64 else 0) else 0x4F

/-- Every rail that the state does not keep is driven low, and its step has not passed any more; in DEEP steps 9 and 10 have not. -/
def settleRails (s : State) (deep : Bool) : State :=
  let keep := railsKept s deep
  let s := (List.range 8).foldl (fun s r => if bitAt keep r then s else driveRail s r false) s
  modPower s fun p => { p with
    passed := ((List.range 12).filter fun n => bitAt p.passed n && (if n ≤ 8 then bitAt keep (railOf n) else !deep && n != 11)).foldl
      (fun m n => m + 2 ^ n) 0 }

/-- A wake step is run by the column in force and has not passed already. -/
def stepNeeded (s : State) (n : Nat) : Bool :=
  (s.power.deep || [6, 7, 8, 11, 12].contains n) && !bitAt s.power.passed n && (n != 8 || flag s F.PWR_WICK_CFG_RAIL7_EN)

/-- A wake step starts: its rail is enabled; one that waits for nothing goes to its delay. -/
def startStepAt (s : State) (n : Nat) (again : Bool) : State :=
  let now := s.time.now
  let s := if n ≤ 8 then driveRail s (railOf n) true else s
  let stage := if n = 12 || (n = 8 && !flag s F.PWR_WICK_CFG_RAIL7_PG) then 1 else 0
  modPower s fun p => { p with seq := { step := n, stage := stage, since := now, again := again } }

/-- The first step from `n` on that is to run starts; step 12 always is. -/
def stepsFrom (s : State) (n : Nat) : State :=
  startStepAt s (((List.range 13).find? fun m => decide (n ≤ m) && stepNeeded s m).getD 12) false

/-- Delay and timeout of a step in wick periods. -/
def stepDelay (deep : Bool) (n : Nat) : Nat := if n ≤ 8 then 2 else if n ≤ 11 then 1 else if deep then 0 else 16
def stepLimit (n : Nat) : Nat := if n ≤ 8 then 164 else if n = 9 then 33 else if n = 10 then 328 else 66

/-- The step in course is in stage `stage`, and `w` wick periods, each as short as R495 lets it be, have passed since. -/
def stepDue (s : State) (stage w : Nat) : Bool :=
  s.power.phase == .wake && s.power.seq.stage == stage && decide (s.power.seq.since + wickMin * w ≤ s.time.now)

/-- The root PLL has locked at its step: the counter counts from 0, and device time is not valid (R31, R506). -/
def lockRoot (s : State) : State :=
  restartCounter (setFlag (setFlag s F.TIME_CLK_STATUS_ROOT_LOCK true) F.TIME_CLK_STATUS_TICK_VALID false)

/-- WAKE_STEP_CONDITION: the power good, clock or lock that a step waits for arrives, and its delay begins (R450). -/
def execWakeStepCondition (t : Nat) (s : State) : Out :=
  let s := advance t s
  .next <|
    if stepDue s 0 0 then
      let n := s.power.seq.step
      let now := s.time.now
      let s := if n ≤ 8 then setF s F.PWR_WICK_RAILS_PG (putBits (getF s F.PWR_WICK_RAILS_PG) (railOf n) 1 1) else s
      let s := if n = 11 then lockRoot s else s
      modPower s fun p => { p with seq := { p.seq with stage := 1, since := now } }
    else s

/-- WAKE_STEP_DELAY_END: the step has passed and the next one starts; after step 10 the PCIe link comes up (R450, R451). -/
def execWakeStepDelayEnd (t : Nat) (s : State) : Out :=
  let s := advance t s
  .next <|
    let n := s.power.seq.step
    if stepDue s 1 (stepDelay s.power.deep n) && decide (n < 12) then
      stepsFrom (modPower s fun p => { p with passed := putBits p.passed n 1 1, link := p.link || n = 10 }) (n + 1)
    else s

/-- A step is undone: its rail goes low, or its switch opens, or its oscillator stops. -/
def undoStep (s : State) (n : Nat) : State := if n ≤ 8 then driveRail s (railOf n) false else s

/-- The device settles in SLEEP or DEEP; in DEEP the registers are lost, and the wick holds the pins of a memory that is to be kept (R412). -/
def settleLow (s : State) (deep : Bool) : State :=
  let s := settleRails (if deep then loseAll s else s) deep
  let s := setF s F.PWR_DOMAIN_ON (if deep then 1 else 3)
  modPower s fun p => { p with phase := .low, link := p.link && !deep, memHeld := deep && p.retain }

/-- ALERT_N is asserted while WAKE_FAIL is 1 (R451). -/
def alertN (s : State) : Bool := flag s F.PWR_WICK_FAIL_WAKE_FAIL

/-- The pin follows what has been done to WAKE_FAIL since `before`. -/
def driveAlert (before s : State) : State := if alertN before = alertN s then s else emit s (.alertN (alertN s))

/-- The fallback after a step whose retry has timed out: DEEP for a rail, SLEEP for an oscillator; the failure is recorded (R451). -/
def fallBack (s : State) (n : Nat) : State :=
  let deep := decide (n ≤ 9)
  let s := modPower s fun p => { p with deep := p.deep || deep, cold := p.cold && p.deep, source := none }
  let s := setF (setF (raiseFlag s F.PWR_WICK_FAIL_WAKE_FAIL) F.PWR_WICK_FAIL_STEP n) F.PWR_WICK_FAIL_FALLBACK (if deep then 3 else 2)
  settleLow (emit (satAdd s F.PWR_WICK_FAIL_COUNT 1) (.alertN true)) deep

/-- WAKE_STEP_TIMEOUT: the step is undone; after its retry the device falls back (R451). -/
def execWakeStepTimeout (t : Nat) (s : State) : Out :=
  let s := advance t s
  .next <|
    let n := s.power.seq.step
    if stepDue s 0 (stepLimit n) && decide (n < 12) then
      let now := s.time.now
      let s := undoStep s n
      if s.power.seq.again then fallBack s n
      else modPower s fun p => { p with seq := { p.seq with stage := 2, since := now } }
    else s

/-- WAKE_STEP_RETRY: 33 wick periods later the step runs once more (R451). -/
def execWakeStepRetry (t : Nat) (s : State) : Out :=
  let s := advance t s
  .next (if stepDue s 2 33 then startStepAt s s.power.seq.step true else s)

/-! ## Wake events (R447-R449) -/

/-- Wick periods from C to a wake: as many as the ticks in between make at some period that R495 allows; those of the timer where it is the
source (R449; log 42). -/
def sleepPeriods (s : State) (source : Nat) : Nat :=
  let n := s.time.now - s.power.commitAt
  let lo := n / wickMax
  if source = 3 then getN s A.PWR_WICK_WAKE_TIMER else lo + Config.wickPeriods n % (n / wickMin + 1 - lo)

/-- The wake sequence starts: LAST_WAKE, REPLAYED and the time from C are recorded (R448, R449). -/
def startWake (s : State) (source : Nat) (replayed : Bool) : State :=
  let s := setFlag (setF s F.PWR_WICK_CAUSE_LAST_WAKE source) F.PWR_WICK_CAUSE_REPLAYED replayed
  let s := set64 s A.PWR_WICK_SLEEP_TIME A.PWR_WICK_SLEEP_TIME_1 (sleepPeriods s source % 2 ^ 48)
  let now := s.time.now
  stepsFrom (modPower s fun p => { p with phase := .wake, source := if replayed then some (source, now) else none }) 1

/-- A wake event: up to and including C it is kept for the cancellation; after C it is latched until the state is reached; in SLEEP or DEEP it starts the
wake sequence; during one it shows in LAST_WAKE only (R447, R448). -/
def wakeEvent (s : State) (source : Nat) : State :=
  let now := s.time.now
  match s.power.phase with
  | .run | .drain | .store => modPower s fun p => { p with source := some (source, now) }
  | .settle =>
    if now ≤ s.power.commitAt then modPower (undoCommit s) fun p => { p with source := some (source, now) }
    else modPower s fun p => { p with source := some (p.source.getD (source, now)) }
  | .low => startWake s source false
  | .wake => setF s F.PWR_WICK_CAUSE_LAST_WAKE source
  | .held => s

/-- Step E4: what is under way inside the units goes, and the commit point counts (R446). -/
def finishEntry (s : State) : State :=
  modPower (loseUnits (wrapAdd s F.PWR_STAT_ENTRIES 1)) fun p => { p with
    jobs := [], passed := putBits p.passed 11 1 0, link := !p.deep }

/-- ENTRY_COMPLETE: step E4 is complete; a wake latched after C starts the wake sequence at once (R446, R448). -/
def execEntryComplete (t : Nat) (s : State) : Out :=
  let s := advance t s
  .next <|
    if s.power.phase == .settle then
      let src := s.power.source
      let s := setFlag (settleLow (finishEntry s) s.power.deep) F.PWR_MODE_ENTRY false
      match src with
      | some (n, _) => startWake s n true
      | none => s
    else s

/-- WAKE_N: the pin falls, which is a wake event, or rises (R449). -/
def execWakeN (t : Nat) (low : Bool) (s : State) : Out :=
  let s := advance t s
  .next <|
    let was := s.power.wakeLow
    let s := modPower s fun p => { p with wakeLow := low }
    if low && !was then wakeEvent s 1 else s

/-- PWR.WICK_WAKE_REQ written with WAKE at 1: it reaches the wick while PCIe is up, and counts under R89 while the device does not sleep. -/
def writeWakeReq (s : State) (data : Nat) : State := if bitAt data 0 then wakeEvent s 2 else s

/-- A host write of the wick page at time `t`: served while PCIe is up, in SLEEP too (R444); in sleep its count in CFG_WRITES follows with that of
the blocked writes (R89). -/
def byWickWrite (t : Nat) (s : State) (k : State → State) : Out :=
  let s := advance t s
  .next (if asleep s then (if s.power.link then k (modPower s fun p => { p with blocked := p.blocked + 1 }) else s) else k (countCfg s 1))

/-- WICK_WAKE_REQ. -/
def execWickWakeReq (t data : Nat) (s : State) : Out := byWickWrite t s fun s => writeWakeReq s data

/-- WICK_TIMER_EXPIRY: PERIODS wick periods after C (R449). -/
def execWickTimerExpiry (t : Nat) (s : State) : Out :=
  let s := advance t s
  let n := getN s A.PWR_WICK_WAKE_TIMER
  .next <|
    if s.power.timer && n != 0 && decide (s.power.commitAt + wickMin * n ≤ s.time.now) then
      wakeEvent (modPower s fun p => { p with timer := false }) 3
    else s

/-! ## The end of the wake sequence (R452, R453, R455) -/

/-- The user rail follows RAIL7_EN in ACTIVE and IDLE, though it was written behind step 8 (R440). -/
def driveUserRail (s : State) : State :=
  let on := flag s F.PWR_WICK_CFG_RAIL7_EN
  if bitAt (getF s F.PWR_WICK_RAILS_EN) 7 = on then s else driveRail s 7 on

/-- Restore after SLEEP: the state before the request, the domains as they were, the unchosen store banks with contents that nothing
states (R443), the blocked writes in CFG_WRITES (R444). -/
def restoreSleep (s : State) (cells : List Host.Cell) : State :=
  let keep := getN s A.PWR_WICK_RETAIN
  let back := s.power.back
  let replayed := s.power.source
  let s := settleInjectors (settleAllPmc s)
  let s := countCfg { s with store := memCells s.store (cells.filter fun x => decide (x.1 < storeSize) && !bitAt keep (x.1 / 524288)) }
    s.power.blocked
  let s := setF (setF (setF s F.PWR_DOMAIN_ON s.power.domains) F.PWR_MODE_STATE back) F.PWR_MODE_TARGET back
  let now := s.time.now
  let s := if flag s F.MEMC_STATUS_SR then leaveSr s else modMemc s fun m => { m with exit := none, idleSince := now }
  let s := modPower s fun p => { p with phase := .run, source := none, blocked := 0, timer := false }
  let s := ((List.range 8).filter fun p => domainOn s (6 + p)).foldl resetPodDc (loDomain s (domainOn s 14))
  let s := restartCarriers (laneDomainChanged (laneDomainChanged s 16) 17) s.time.tick
  let s := match parkedChannel s with
    | none => s
    | some c => endWait (setF s (F.DMA_CH_STATE_WAIT_STATUS c) stOK) c
  let s := driveUserRail s
  postDomainState (match replayed with
    | some (n, _) => post s evWakeReplayed (evData [(16, 1, n)])
    | none => s)

/-- Boot: the straps are sampled, the store banks that are not retained are cleared, the boot ROM starts (R454, R455). -/
def startCold (s : State) (straps : Nat) (cells : List Host.Cell) : State :=
  let keep := if s.power.cold then 0 else getN s A.PWR_WICK_RETAIN
  let s := { s with
    store := s.store.filter fun x => bitAt keep (x.1 / 524288)
    dram := if s.power.retain && !s.power.cold then s.dram else memCells s.dram cells }
  let s := setF (setF s F.GLB_STRAPS_BOOT_SEL (bitsOf straps 2 2)) F.GLB_STRAPS_CASC_ROLE (bitsOf straps 0 2)
  let s := setF (setF s F.CAS_STATUS_ROLE (bitsOf straps 0 2)) F.CAS_STATUS_MEMBERS (if straps % 4 = 2 then 0 else 1)
  let s := if s.power.cold then s else setF s F.PWR_WICK_CAUSE_RESET_CAUSE 3
  let s := driveUserRail (setF s F.PWR_DOMAIN_ON 0x40007)
  startBoot (modPower s fun p => { p with phase := .run, source := none, back := 0, jobs := [], blocked := 0, timer := false })

/-- WAKE_SEQUENCE_END: step 12. `straps` is BOOT_SEL in bits [3:2] and CASC_ROLE in bits [1:0]; `store` and `dram` are the contents, which
nothing states, of store banks that were not kept through SLEEP and of a memory that was not kept (R443, R412). -/
def execWakeSequenceEnd (t straps : Nat) (store dram : List Host.Cell) (s : State) : Out :=
  let s := advance t s
  .next <|
    if stepDue s 1 (stepDelay s.power.deep 12) && s.power.seq.step == 12 then
      if s.power.deep then startCold s straps dram else restoreSleep s store
    else s

/-! ## Resets (R454, R482, R501) -/

/-- A cold start begins with step 1. -/
def coldStart (s : State) : State :=
  let s := modPower s fun p => { p with phase := .wake, deep := true, cold := true, resetLow := false, chipEnd := none }
  stepsFrom s 1

/-- POWER_ON_RESET: everything is reset, the wick page too, and a cold start begins, or waits for the release of RESET_N while that is low
(R440, R454). -/
def execPowerOnReset (t : Nat) (s : State) : Out :=
  let s := advance t s
  let x := { holdReset s 0 with regs := [] }
  .next (driveAlert s (if s.power.resetLow then x else coldStart x))

/-- RESET_N_LOW: everything but the wick page is reset, and every EN_RAIL is low (R454). -/
def execResetNLow (t : Nat) (s : State) : Out :=
  let s := holdReset (advance t s) 1
  .next (modPower s fun p => { p with resetLow := true, chipEnd := none })

/-- RESET_N_RELEASE: a cold start (R454). -/
def execResetNRelease (t : Nat) (s : State) : Out :=
  let s := advance t s
  .next (if s.power.resetLow then coldStart s else s)

/-- A chip reset is to start at the next wick period boundary (R501); one that is due already stays. -/
def chipReset (s : State) : State :=
  let n := s.time.now
  modPower s fun p => { p with chipAt := some (p.chipAt.getD (n + 1 + Config.wickBoundary n % wickMax)) }

/-- CHIP: a write of GLB.RESET with CHIP at 1 (R501). -/
def execChip (t data : Nat) (s : State) : Out := byWrite t s fun s => if bitAt data 0 then chipReset s else s

/-- CHIP_RESET_END: after 33 wick periods a cold start runs (R501). -/
def execChipResetEnd (t : Nat) (s : State) : Out :=
  let s := advance t s
  .next <| match s.power.chipEnd with
    | some n => if n ≤ s.time.now && s.power.phase == .held && !s.power.resetLow then coldStart s else s
    | none => s

/-- PERST_N: the PCIe endpoint and its PHY are reset and nothing else: MSI-X table, configuration fields of both functions, link (R482;
notes/assumptions/8.md). -/
def execPerstN (t : Nat) (s : State) : Out :=
  let s := advance t s
  .next { s with host := HostSt.resetLink s.host }

end Sys2Proof.Machine
end

