-- ==== Sys2Proof/Machine/Activation.lean ====
section
/-!
DEFINITION. What reaches its tick: pending activations (spec/01_clocks_and_time.md R45, R46, R48) and adaptive swaps (R53).
-/
namespace Sys2Proof.Machine

/-- Rank of an activation: by tick; those of one tick by opcode and by what they set, so that the order in which they arrived does not show
(R46). A CARRIER_SET precedes a gain step (R212), LO_TUNE an LO_CAL, DPD_POLICY a DPD_COEF_LOAD, a set the strobe of the same tick (R422;
log 43). -/
def actRank (p : Pending) : Nat :=
  let k := p.keys.headD (0, 0, 0)
  2 ^ 56 * p.tick + 2 ^ 48 * p.cmd.opcode + 2 ^ 16 * k.2.1 + k.2.2

/-- The earliest pending activation whose tick has come; FESB_WRITE ends with its frame (R273). -/
def dueAct (s : State) : Option Pending :=
  (sortBy actRank (s.acts.filter fun p => p.cmd.opcode != 0x2C && decide (p.tick ≤ s.time.tick))).head?

/-- The effect of an activation at its tick, and the status with which it ends (R48, R79, R97). -/
def activate (s : State) (p : Pending) : State × Nat :=
  let c := p.cmd
  match c.opcode with
  | 0x11 => (applyCarrierSet s c p.id p.tick, stOK)
  | 0x1A => actWsActivate s p
  | 0x20 => (applyCorr s (p8 c 16) (p8 c 17) (p16 c 18) (p16 c 20) (p16 c 22) p.tick, stOK)
  | 0x21 => (applyGain s (p8 c 16) (p8 c 17) p.tick, stOK)
  | 0x22 => (applyCfrSet s c, stOK)
  | 0x23 => (actDcLoad s p, stOK)
  | 0x28 => (actLoTune s c, stOK)
  | 0x29 => (applyLoCal s c, stOK)
  | 0x2A => (actPodState s c, stOK)
  | 0x2D => actSwapBank s p
  | 0x31 => actCalStart s p
  | 0x35 => (startCapture s c.handle p.tick, stOK)
  | 0x38 => (applyPolicy s c, stOK)
  | 0x39 => actCoefLoad s p
  | 0x40 => (actBiasSet s c, stOK)
  | 0x41 => (actBiasStrobe s c, stOK)
  | 0x43 => (actMonUrgent s c, stOK)
  | 0x48 => (applyPwrDomain s c, stOK)
  | 0x49 => (applyLaneState s c, stOK)
  | 0x61 => actDmaStart s c.handle
  | _ => (s, stOK)

/-- The fields that software may write and an activation sets (R135, R174, R238, R421). -/
def fieldsOf (s : State) (c : Cmd) : List Fld :=
  match c.opcode with
  | 0x20 =>
    let n := p8 c 16
    let d := p8 c 17
    [F.BEAM_CORR_TAPER n d, F.BEAM_CORR_PHASE n d, F.BEAM_CORR_1_DELAY n d]
  | 0x22 => (bitsSet (p64 c 16) 64).flatMap fun n => [F.TXP_CFR_ENABLE n, F.TXP_CFR_PAPR n]
  | 0x38 =>
    let paths := bitsSet (p64 c 32) 64
    (paths.flatMap fun n => [F.DPD_PATH_POLICY_MODE n, F.DPD_PATH_POLICY_MAX_RATE n, F.DPD_PATH_POLICY_THERM n, F.DPD_PATH_TARGET_ACLR n,
        F.DPD_PATH_TARGET_EVM n])
      ++ ((List.range (nOrx s)).filter fun k => paths.any fun n => n / 16 == k).map fun k => F.DPD_ORX_SHARE_SHARE k
  | 0x40 => if onHk s then [⟨A.HKM_DAC_SET (p8 c 16), 0, 32⟩] else []
  | _ => []

/-- SCHEDULED_ACTIVATION: the earliest pending activation reaches its tick, acts and completes with that tick (R45, R48, R78); a register write of its
very tick lands before it (R500). While an entry is in course, in sleep and in a wake sequence none acts: an entry cancels what is pending
(R446). -/
def execScheduledActivation (t : Nat) (s : State) : Out :=
  let s := advance t s
  .next <| match (if s.power.phase == .run then dueAct s else none) with
    | none => s
    | some p =>
      let r := activate s p
      let held := if p.tick = s.time.tick then fieldsOf s p.cmd else []
      endAct (held.foldl holdBits r.1) p r.2 p.tick

/-! ## Adaptive swaps -/

/-- ADAPTIVE_SWAP: the first swap whose tick has come takes effect (R53, R222, R189, R195). -/
def execAdaptiveSwap (t : Nat) (s : State) : Out :=
  let s := advance t s
  .next <| match (sortBy (fun x => x.tick) (s.swaps.filter fun x => x.tick ≤ s.time.tick)).head? with
    | none => s
    | some x =>
      let s := { s with swaps := s.swaps.erase x }
      if x.kind = 0 then applyDpdSwap s x else applyRxSwap s x

end Sys2Proof.Machine
end

