-- ==== Sys2Proof/Machine/Basic.lean ====
section
/-!
DEFINITION. NOP, FENCE, CANCEL and the store bank commands (spec/03_commands.md R91, R96, R103; spec/02_host_rings.md R83).
-/
namespace Sys2Proof.Machine

/-- NOP (00h): completes with OK. An entry whose opcode is outside the table of R91 fails check 1 of R98 in the same way as any
other command, so it is completed here with BAD_PARAM. -/
def execNop (t : Nat) (c : Cmd) (s : State) : Out :=
  let s := advance t s
  if c.opcode != 0x00 && (opcodeRow c.opcode).isSome then .next s
  else match turn s c with
    | none => .next s
    | some f =>
      match earlyChecks s c [] with
      | some st => .next (reject s f st)
      | none => .next (complete s f 0)

/-- FENCE (01h): its turn comes once every earlier command of the rings in its mask has settled (R83.7). -/
def execFence (t : Nat) (c : Cmd) (s : State) : Out :=
  runCmd t 0x01 c s [] fun s f => immediate s f false none false fun s => (s, 0)

/-- The activations that a CANCEL names: arrived on its ring, with its tag and tick (R96). -/
def cancelled (s : State) (c : Cmd) : List Pending :=
  s.acts.filter fun p => p.cmd.ring == p8 c 16 && p.cmd.tag == p16 c 18 && p.tick == p64 c 24

/-- CANCEL (02h): removes every activation it names, or none when one of them is too near (R47, R96). -/
def execCancel (t : Nat) (c : Cmd) (s : State) : Out :=
  runCmd t 0x02 c s [] fun s f =>
    let l := cancelled s c
    let res := if l.isEmpty then some stNotFound
      else if l.any (fun p => p.tick < f.arrival + leadOf p.cmd) then some stLate else none
    immediate s f (decide (15 < p8 c 16)) res false fun s =>
      (l.foldl (fun s p => endAct s p stCancelled s.time.tick) s, l.length)

/-- A bank of the mask is owned by a handle (R103). -/
def maskOwned (s : State) (mask : Nat) : Bool := (bitsSet mask 32).any fun b => 1 < bankOwner s b

/-- STORE_CLAIM (05h): the banks of the mask go to the system (R103). -/
def execStoreClaim (t : Nat) (c : Cmd) (s : State) : Out :=
  runCmd t 0x05 c s [] fun s f =>
    immediate s f false (if maskOwned s (p32 c 16) then some stBusy else none) false fun s =>
      (ownBanks s (bitsSet (p32 c 16) 32) 1, 0)

/-- STORE_RELEASE (06h): the system's banks of the mask go to nobody (R103). -/
def execStoreRelease (t : Nat) (c : Cmd) (s : State) : Out :=
  runCmd t 0x06 c s [] fun s f =>
    immediate s f false (if maskOwned s (p32 c 16) then some stBusy else none) false fun s =>
      (ownBanks s (bitsSet (p32 c 16) 32) 0, 0)

end Sys2Proof.Machine
end

