-- ==== Sys2Proof/Machine/Regs.lean ====
section
/-!
DEFINITION. Window W0 as addresses: which register row a word address belongs to, whether its unit is present, what the word holds, and
which of its bits software may use how (spec/19_register_map.md R498-R500; spec/00_scope.md R7).
-/
namespace Sys2Proof.Machine

/-- The indices at which a row with these (stride, count) dimensions lies at an offset. -/
def indicesOf : List (Nat × Nat) → Nat → Option (List Nat)
  | [], off => if off = 0 then some [] else none
  | (st, n) :: l, off =>
    (List.range n).findSome? fun i => if st * i ≤ off then (indicesOf l (off - st * i)).map (i :: ·) else none

/-- The row of a word address, with its indices. -/
def rowOf (a : Nat) : Option (RegRow × List Nat) :=
  (rowsAt a).findSome? fun r => if r.base ≤ a then (indicesOf r.dims (a - r.base)).map fun l => (r, l) else none

/-- The unit of a register is present on the part (R7). -/
def unitPresent (s : State) (r : RegRow) (l : List Nat) : Bool :=
  match r.kind with
  | .always => true
  | .path => pathPresent s (l.headD 0)
  | .pod => podPresent s (l.headD 0)
  | .orx => orxPresent s (l.headD 0)
  | .dac => dacPresent s (l.headD 0)

/-- The word that a register holds. -/
def rawWord (s : State) (a : Nat) (r : RegRow) (l : List Nat) : Nat :=
  getN s ⟨a, r.reset + r.resetStep * l.headD 0⟩

/-- The bits of a row's fields of one access kind. -/
def accessMask (r : RegRow) (k : Access) : Nat :=
  (r.fields.filter fun f => f.access == k).foldl (fun m f => m ||| ((2 ^ f.width - 1) <<< f.lo)) 0

end Sys2Proof.Machine
end

