-- ==== Sys2Proof/Machine/Digest.lean ====
section
/-!
DEFINITION. The configuration digest and the attestation report, and the jobs of the Keccak engine that form them
(spec/02_host_rings.md R89, R90; spec/03_commands.md R106; spec/16_firmware_trust.md R458, R470).
-/
namespace Sys2Proof.Machine

/-- The value of every RW field outside the HOST block, word by word in ascending address order (R90); a register without any gives
no word (log 62). -/
def cfgWords (s : State) : List Byte :=
  (List.range 0x8C000).flatMap fun i =>
    let a := 4 * i
    if 0x20000 ≤ a && a < 0x30000 then []
    else match rowOf a with
      | none => []
      | some (r, l) =>
        let m := accessMask r .rw
        if m = 0 then [] else leBytes 4 (if unitPresent s r l then rawWord s a r l &&& m else 0)

/-- The record of a live object: its handle and bytes 16-63 from (byte, length, value) (R106). -/
def objectRecord (h : Nat) (l : List (Nat × Nat × Nat)) : List Byte := leBytes 4 h ++ leBytes 48 (evData l)

/-- The records of every live object, by TYPE and INDEX (R90, R106). -/
def cfgObjects (s : State) : List Byte :=
  (s.carriers.flatMap fun (i, x) => objectRecord (mkHandle 1 x.gen i)
    [(16, 1, x.dir), (17, 1, x.sLog2), (18, 2, x.k), (20, 1, x.resp), (21, 1, x.cicN + 16 * (x.cicM - 1)), (24, 4, x.nco)])
  ++ (s.streams.flatMap fun (i, x) => objectRecord (mkHandle 2 x.gen i)
    [(16, 1, x.dir), (17, 1, x.layer), (18, 1, x.format), (20, 4, x.partner)])
  ++ (s.beam.sets.flatMap fun (i, x) => objectRecord (mkHandle 3 x.gen i)
    [(16, 2, i), (18, 1, x.dir), (19, 1, x.l), (20, 1, x.sLog2), (24, 4, x.carrier)])
  ++ (s.caps.flatMap fun (i, x) => objectRecord (mkHandle 4 x.gen i)
    [(16, 1, x.source), (17, 1, x.index), (18, 1, x.dest), (20, 4, x.length), (24, 8, x.addr), (32, 4, x.stream)])
  ++ (s.dmas.flatMap fun (i, x) => objectRecord (mkHandle 5 x.gen i)
    [(16, 1, x.entry.1), (17, 1, getF s (F.DMA_CH_STATE_SUPERVISORY i)), (18, 1, getF s (F.DMA_CH_BANKS_COUNT i)),
     (20, 4, getN s (A.DMA_CH_BUDGET i)), (24, 8, x.entry.2)])
  ++ (s.partners.flatMap fun (i, x) => objectRecord (mkHandle 6 x.gen i)
    [(16, 8, x.ident), (24, 4, x.session), (28, 1, x.verMin), (29, 1, x.verMax), (30, 1, x.formats)])
  ++ s.cals.flatMap fun (i, x) => objectRecord (mkHandle 7 x.gen i)
    [(16, 1, x.kind), (17, 1, x.prio), (18, 2, x.grantWait), (20, 1, x.banks), (24, 8, x.txMask), (32, 8, x.rxMask)]

/-- The configuration digest, with every change that has fallen due (R90). -/
def cfgDigest (s : State) : List Byte := let s := settleHk (settleAllPmc s); sha3 (cfgWords s ++ cfgObjects s)

/-- The job of a command reaches the Keccak engine. -/
def startJob (s : State) (f : Flight) (j : KeccakJob) : State := queueKeccak (setStage s f.id .running) j

/-- CFG_DIGEST (03h): the digest of the configuration in force now goes to ADDR (R90, R458). -/
def execCfgDigest (t : Nat) (c : Cmd) (s : State) : Out :=
  runCmd t 0x03 c s [] fun s f =>
    match lateChecks s f (decide (p64 c 16 % 64 ≠ 0) || regionBad 0 (p64 c 16) 64) [] none false with
    | some st => reject s f st
    | none => startJob s f (.digest f.id (cfgDigest s))

/-- ATTEST (04h): the digest and HOST.CFG_WRITES are those of now (R470). -/
def execAttest (t : Nat) (c : Cmd) (s : State) : Out :=
  runCmd t 0x04 c s [] fun s f =>
    match lateChecks s f (decide (p64 c 16 % 64 ≠ 0) || regionBad 0 (p64 c 16) 8192) [] none false with
    | some st => reject s f st
    | none => startJob s f (.attest f.id (cfgDigest s) (get64 s A.HOST_CFG_WRITES A.HOST_CFG_WRITES_1))

/-- A list cut or filled up with zeros to `n` bytes. -/
def toLength (n : Nat) (l : List Byte) : List Byte := l.take n ++ List.replicate (n - l.length) 0

/-- Bytes 0-383 of the attestation report (R470). -/
def reportHead (s : State) (cfg : List Byte) (writes : Nat) (nonce : List Byte) : List Byte :=
  let run := fwRunning s
  let x := (if run then s.trust.run else none).getD default
  let staged := getF s F.TRUST_STAGE_STAT_STATE = 1
  leBytes 2 1 ++ leBytes 2 5075 ++ leBytes 4 Config.romVersion ++ leBytes 8 Config.deviceId
    ++ leBytes 4 (x.major + 2 ^ 8 * x.minor + 2 ^ 16 * (x.patch % 256) + 2 ^ 24 * x.feature)
    ++ leBytes 1 s.trust.policy ++ leBytes 1 (fusedEpoch s) ++ leBytes 1 x.epoch
    ++ leBytes 1 ((if customerProgrammed s then 1 else 0) + (if run then 2 else 0) + if staged then 4 else 0)
    ++ leBytes 8 writes ++ toLength 64 x.digest ++ (if staged then stageDigest s else List.replicate 64 0)
    ++ toLength 64 Config.vendorKeyHash ++ leBytes 64 s.trust.customer ++ cfg ++ nonce

/-- The attestation report: its head, the digest of it, and the identity key's signature of that (R470). -/
def report (s : State) (cfg : List Byte) (writes : Nat) (nonce : List Byte) : List Byte :=
  let head := reportHead s cfg writes nonce
  head ++ sha3 head ++ toLength 4627 (Config.mlDsaSign (sha3 head))

/-- KECCAK_JOB_DONE: the CFG_DIGEST or ATTEST that is the engine's first job ends: its digest or report is written and the command
completes (R90, R458, R470). -/
def execKeccakJobDone (t : Nat) (s : State) : Out :=
  let s := advance t s
  let pop := modTrust s fun x => { x with jobs := x.jobs.tail }
  .next <| match s.trust.jobs with
    | .digest id cfg :: _ => match flightOf s id with
      | some f => complete (hostWrite pop (p64 f.cmd 16) 64 (leNat cfg)) f 0
      | none => pop
    | .attest id cfg writes :: _ => match flightOf s id with
      | some f => complete (hostWrite pop (p64 f.cmd 16) 5075
          (leNat (report s cfg writes (leBytes 32 (bitsOf f.cmd.params.toNat 64 256))))) f 5075
      | none => pop
    | _ => s

end Sys2Proof.Machine
end

