-- ==== Sys2Proof/Machine/Nco.lean ====
section
/-!
DEFINITION. The NCO table and the cancellation pulse of crest factor reduction (spec/05_transmit_path.md R165, R173).
-/
namespace Sys2Proof.Machine

/-- π with 40 decimal digits, scaled by 2^128. -/
def piScaled : Int := 31415926535897932384626433832795028841972 * 2 ^ 128 / 10 ^ 40

/-- Terms of the power series of cosine (from `k` = 0) or sine (from `k` = 1) of `x`, scaled by 2^128. -/
def trigSeries (x : Int) : Nat → Nat → Int → Int
  | 0, _, _ => 0
  | n + 1, k, term => term + trigSeries x n (k + 2) (-(term * x / 2 ^ 128 * x / 2 ^ 128 / (((k + 1) * (k + 2) : Nat) : Int)))

/-- The cosine table over its quarter, 0 to 2^18: 131,071 times the cosine, rounded down or up as the ROM has it; 131,071 at phase 0, 0 at
the end (R165; log 44). -/
def quarterCos (i : Nat) : Int :=
  if i = 0 then 131071
  else if 2 ^ 18 ≤ i then 0
  else 131071 * trigSeries (piScaled * (i : Int) / 2 ^ 19) 30 0 (2 ^ 128) / 2 ^ 128 + if Config.quarterWave i then 1 else 0

/-- Cosine and sine of a 32-bit phase: bits [31:12] address the quarter-wave table (R165). -/
def ncoValue (phase : Nat) : Int × Int :=
  let r := bitsOf phase 12 18
  let c := quarterCos r
  let d := quarterCos (2 ^ 18 - r)
  match bitsOf phase 30 2 with
  | 0 => (c, d)
  | 1 => (-d, c)
  | 2 => (-c, -d)
  | _ => (d, -c)

/-- ⌊log2 n⌋ for the kernel index. -/
def kernelOf (k : Nat) : Nat := min (Nat.log2 k) 4

/-- P(m) of R173, the sum over the carriers that carry downlink. -/
def pulseSum (s : State) (m : Nat) : Int × Int :=
  (s.carriers.filter fun x => carriesDl x.2).foldl (fun a x =>
    let k := (Config.cfrKernel (kernelOf x.2.k) m).toInt
    let v := ncoValue (unsigned 32 ((m : Int) * signed 32 x.2.nco / 2))
    (a.1 + k * v.1, a.2 + k * v.2)) (0, 0)

/-- p(m) for m = 0-63 (R173); 0, the reset value of CFR_PULSE, while no carrier carries downlink. -/
def cfrPulse (s : State) (m : Nat) : Int × Int :=
  let p0 := (pulseSum s 0).1
  if !s.carriers.any (fun x => carriesDl x.2) then (0, 0)
  else if p0 = 0 then ((Config.cfrNoPulse m).1.toInt, (Config.cfrNoPulse m).2.toInt)
  else
    let p := pulseSum s m
    (((2 ^ 14 : Nat) * p.1 + p0 / 2) / p0, ((2 ^ 14 : Nat) * p.2 + p0 / 2) / p0)

/-- The word of TXP.CFR_PULSE(m). -/
def pulseWord (s : State) (m : Nat) : Nat := unsigned 16 (cfrPulse s m).1 + 2 ^ 16 * unsigned 16 (cfrPulse s m).2

end Sys2Proof.Machine
end

