-- ==== Sys2Proof/Machine/Datapath.lean ====
section
/-!
DEFINITION. The arithmetic of a sample on its way through the block: beam engine and correction (spec/04_beam_engine.md R117-R143), rate
stages, NCOs, carrier sum, halfbands, crest factor reduction, DAC (spec/05_transmit_path.md R159-R176), ADC, DC cancellation, I/Q
correction, gain compensation (spec/06_receive_path.md R190-R205), pre-distortion and observation (spec/07_predistortion.md R213-R231).
A sample is a pair of integers, I first. How the stages follow one another, and on which samples they act, Machine/Signal.lean says.
-/
namespace Sys2Proof.Machine

/-- A complex sample: I, then Q. -/
abbrev Sample := Int × Int

/-! ## Complex arithmetic and rounding (R139) -/

def addS (x y : Sample) : Sample := (x.1 + y.1, x.2 + y.2)
def mulS (x y : Sample) : Sample := (x.1 * y.1 - x.2 * y.2, x.1 * y.2 + x.2 * y.1)
def scaleS (k : Int) (x : Sample) : Sample := (k * x.1, k * x.2)
def conjS (x : Sample) : Sample := (x.1, -x.2)
def sumS (l : List Sample) : Sample := l.foldl addS (0, 0)
def roundS (n : Nat) (x : Sample) : Sample := (roundBits n x.1, roundBits n x.2)
def wrapS (b : Nat) (x : Sample) : Sample := (wrapBits b x.1, wrapBits b x.2)

/-- A sample saturated to `b` bits, and whether either part saturated: it counts once (R146, R182). -/
def satS (b : Nat) (x : Sample) : Sample × Bool :=
  let y := (saturate b x.1, saturate b x.2)
  (y, y != x)

/-- I² + Q². -/
def powerS (x : Sample) : Nat := (x.1 * x.1 + x.2 * x.2).toNat

/-- The greatest number below 2^b that satisfies a downward closed condition, bit by bit from the top. -/
def greatest (p : Nat → Bool) : Nat → Nat → Nat
  | 0, a => a
  | b + 1, a => greatest p b (if p (a + 2 ^ b) then a + 2 ^ b else a)

/-- ⌊√x⌋ for x below 2^48 (R172, R214). -/
def rootOf (x : Nat) : Nat := greatest (fun n => n * n ≤ x) 24 0

/-- ⌊√(I² + Q²)⌋. -/
def magnitude (x : Sample) : Nat := rootOf (powerS x)

/-- Cosine and sine of PHASE × 2π / 65,536, scaled by 2^128: the quadrant exactly, the rest by 30 terms of the series. -/
def unitVector (phase : Nat) : Sample :=
  let r : Int := ((phase % 16384 : Nat) : Int)
  let x := piScaled * 2 * r / 65536
  let c := if r = 0 then 2 ^ 128 else trigSeries x 30 0 (2 ^ 128)
  let d := if r = 0 then 0 else trigSeries x 30 1 x
  match phase / 16384 % 4 with
  | 0 => (c, d)
  | 1 => (-d, c)
  | 2 => (-c, -d)
  | _ => (d, -c)

/-! ## Beam engine (R117-R119, R140-R143) -/

/-- The weight of slice s, layer l of L and path n in the bytes of a set (R117, R118). -/
def weightAt (data : List Byte) (layers s l n : Nat) : Sample :=
  let v := leNat ((data.drop (4 * (64 * (layers * s + l) + n))).take 4)
  (signed 16 v, signed 16 (v / 2 ^ 16))

/-- Coefficient of the filterbank at tap i of slice s, scaled by 2^128: the prototype of S, one for both directions, turned to the slice
centre (s + 1/2 - S/2) r/S, against it in analysis (R114); it turns from tap 0 of each block on (log 46). -/
def sliceTap (side sLog2 s i : Nat) : Sample :=
  let n := (2 ^ sLog2 : Nat)
  let turn := ((2 * s + 1 : Nat) - (n : Nat) : Int) * (i : Int) * (32768 / n : Nat)
  let v := unitVector (unsigned 16 turn)
  scaleS (Config.prototype sLog2 i) (if side = 0 then conjS v else v)

/-- Slice s of a block from its 8S input samples, the first of the block first; with S = 1 the carrier itself (R114, R116, R141). -/
def analyse (sLog2 s : Nat) (x : List Sample) : Sample × Bool :=
  if sLog2 = 0 then (x.headD (0, 0), false)
  else satS 18 (roundS (Config.filterbankBits + 128) (sumS ((List.range (8 * 2 ^ sLog2)).map fun i =>
    mulS (sliceTap 0 sLog2 s i) (x.getD i (0, 0)))))

/-- The exact sum of output sample i of a block over the slice samples of eight blocks, the latest block first (R116). -/
def synthesisSum (sLog2 i : Nat) (x : List (List Sample)) : Sample :=
  sumS ((List.range 8).map fun b => sumS ((List.range (2 ^ sLog2)).map fun s =>
    mulS (sliceTap 1 sLog2 s (2 ^ sLog2 * b + i)) ((x.getD b []).getD s (0, 0))))

/-- An output sample of the downlink synthesis (R114, R140). -/
def synthesise (sLog2 i : Nat) (x : List (List Sample)) : Sample × Bool :=
  if sLog2 = 0 then ((x.headD []).headD (0, 0), false)
  else satS 18 (roundS (Config.filterbankBits + 128) (synthesisSum sLog2 i x))

/-- The 40-bit accumulator over products of weights and samples (R140, R141). -/
def beamSum (l : List (Sample × Sample)) : Sample := wrapS 40 (sumS (l.map fun x => mulS x.1 x.2))

/-- Slice s of path n on the downlink, from the slice samples of the layers (R119, R140). -/
def beamDown (data : List Byte) (layers s n : Nat) (x : List Sample) : Sample × Bool :=
  satS 18 (roundS 15 (beamSum ((List.range layers).map fun l => (weightAt data layers s l n, x.getD l (0, 0)))))

/-- Slice s of layer l on the uplink, from the slice samples of the 64 paths: it wraps (R119, R141, R142). -/
def beamUp (data : List Byte) (layers s l : Nat) (x : List Sample) : Sample :=
  wrapS 20 (roundS 15 (beamSum ((List.range 64).map fun n => (weightAt data layers s l n, x.getD n (0, 0)))))

/-- Cascade sum, modulo 2^20 (R141). -/
def cascadeAdd (x y : Sample) : Sample := wrapS 20 (addS x y)

/-- A layer sample in the 16-bit form of a stream: the synthesis computed exactly, rounded by 4 bits, saturated once (R141, R143). -/
def layerOut (sLog2 i : Nat) (x : List (List Sample)) : Sample :=
  (satS 16 (if sLog2 = 0 then roundS 4 ((x.headD []).headD (0, 0))
    else roundS (Config.filterbankBits + 132) (synthesisSum sLog2 i x))).1

/-! ## Correction stage (R136, R137) -/

/-- The gain g of a correction stage: TAPER 0 stands for 1, each part rounded with 2^18 for 1.0 (R136). -/
def corrGain (taper phase : Nat) : Sample :=
  let a : Nat := if taper = 0 then 65536 else taper
  let v := unitVector phase
  ((4 * a * v.1 + 2 ^ 127) / 2 ^ 128, (4 * a * v.2 + 2 ^ 127) / 2 ^ 128)

/-- The correction multiply (R136, R140). -/
def corrMul (taper phase : Nat) (x : Sample) : Sample × Bool := satS 18 (roundS 18 (mulS x (corrGain taper phase)))

/-! ## Filters held in ROM -/

/-- Samples on either side of the centre of a halfband: 63 taps for HB1 (0), HBD (2) and the ORx (3), 31 for HB2 (1) (R169, R200, R229). -/
def halfbandReach (which : Nat) : Nat := if which = 1 then 15 else 31

/-- A tap of a halfband at a signed distance from its centre: one half at the centre, zero at the other even distances, the same on both
sides. -/
def halfbandTap (which : Nat) (d : Int) : Int :=
  if d = 0 then (2 ^ Config.halfbandBits : Nat) else if d.natAbs % 2 = 0 then 0 else Config.halfbandTap which d.natAbs

/-- A halfband around sample `n` of `x`; `up` in an interpolator, whose gain is 2 (R169, R200, R229). -/
def halfband (which : Nat) (up : Bool) (x : Int → Sample) (n : Int) : Sample × Bool :=
  let r := halfbandReach which
  satS 18 (roundS (Config.halfbandBits + if up then 0 else 1) (sumS ((List.range (2 * r + 1)).map fun i =>
    scaleS (halfbandTap which ((i : Int) - (r : Int))) (x (n - ((i : Int) - (r : Int)))))))

/-- The fractional delay: eight taps, four samples on either side of the wanted point; phase 0 takes the sample itself (R137; log 46). -/
def fractionalDelay (phase : Nat) (x : Int → Sample) (n : Int) : Sample × Bool :=
  if phase = 0 then (x n, false)
  else satS 18 (roundS Config.delayBits (sumS ((List.range 8).map fun (k : Nat) => scaleS (Config.delayTap phase k) (x (n + 3 - (k : Int))))))

/-! ## Rate stages (R160, R161, R204, R205) -/

/-- A second-order section: b0, b1, b2, a1, a2, each v / 2^22 (R204). -/
structure Section where
  b0 : Int
  b1 : Int
  b2 : Int
  a1 : Int
  a2 : Int
deriving DecidableEq, Repr

/-- The state of a section: x(t-1), x(t-2), y(t-1), y(t-2). -/
structure SectionState where
  x1 : Sample
  x2 : Sample
  y1 : Sample
  y2 : Sample
deriving DecidableEq, Repr, Inhabited

/-- A section of the response ROM (R209). -/
def romSection (id set k : Nat) : Section :=
  let v := fun m => (Config.responseRom id set k m).toInt
  { b0 := v 0, b1 := v 1, b2 := v 2, a1 := v 3, a2 := v 4 }

/-- One sample through a section (R204). -/
def sectionStep (c : Section) (z : SectionState) (x : Sample) : SectionState × Bool :=
  let sum := sumS [scaleS c.b0 x, scaleS c.b1 z.x1, scaleS c.b2 z.x2, scaleS (-c.a1) z.y1, scaleS (-c.a2) z.y2]
  let r := satS 24 (roundS 22 sum)
  ({ x1 := x, x2 := z.x1, y1 := r.1, y2 := z.y1 }, r.2)

/-- A sample at the input of the first section, and one at the output of the last (R160, R204). -/
def sectionIn (k : Int) (x : Sample) : Sample := scaleS (64 * k) x
def sectionOut (y : Sample) : Sample × Bool := satS 18 (roundS 6 y)

/-- The I and Q words of an integrator or a comb, 84 bits each. -/
abbrev Word84 := Nat × Nat
def word84 (x : Sample) : Word84 := (unsigned 84 x.1, unsigned 84 x.2)
def both (f : Nat → Nat → Nat) (x y : Word84) : Word84 := (f x.1 y.1, f x.2 y.2)

/-- One component through an integrator or a comb: modulo 2^84 (R161, R205). -/
def integrate (acc x : Nat) : Nat := (acc + x) % 2 ^ 84
def comb (x old : Nat) : Nat := (x + 2 ^ 84 - old % 2 ^ 84) % 2 ^ 84

/-- G of a CIC: interpolating (R161) or decimating (R205). -/
def cicGain (interpolating : Bool) (k n m : Nat) : Nat := if interpolating then (k * m) ^ n / k else (k * m) ^ n

/-- The normalising factor f, from 65,537 to 131,072 (R161, R205). -/
def cicFactor (g : Nat) : Nat := (2 ^ (18 + Nat.log2 g) + g) / (2 * g)

/-- A word normalised: times f, rounded by s + 17 bits, saturated to 18 (R161, R205). -/
def cicOut (g : Nat) (v : Word84) : Sample × Bool :=
  satS 18 (roundS (Nat.log2 g + 17) (scaleS (cicFactor g) (signed 84 v.1, signed 84 v.2)))

/-! ## NCO, carrier sum, DAC (R165, R168, R176, R201) -/

/-- A sample turned by an NCO: up on the downlink (R165), down on the uplink and in an ORx (R201, R229). -/
def ncoUp (phase : Nat) (x : Sample) : Sample × Bool := satS 18 (roundS 17 (mulS x (ncoValue phase)))
def ncoDown (phase : Nat) (x : Sample) : Sample × Bool := satS 18 (roundS 17 (mulS x (conjS (ncoValue phase))))

/-- The sum of the carriers times DGAIN (R168). -/
def carrierSum (gain : Nat) (l : List Sample) : Sample × Bool := satS 18 (roundS 14 (scaleS gain (sumS l)))

/-- A DAC code (R176). -/
def dacCode (x : Sample) : Sample × Bool := satS 14 (roundS 4 x)

/-! ## Crest factor reduction (R170-R174) -/

/-- Th for PAPR and REF in 0.1 dB: 131,071 × 10^((PAPR - REF)/200) rounded, decided on integers (R170). -/
def cfrThreshold (papr ref : Nat) : Nat :=
  if papr < ref then greatest (fun n => (2 * n - 1) ^ 200 * 10 ^ (ref - papr) ≤ 262142 ^ 200) 17 0 else 131071

/-- Sample `i` of a window with its neighbours is a candidate: over the threshold, above the one before, not below the one after (R171). -/
def isPeak (th : Nat) (before x after : Sample) : Bool :=
  decide (th * th < powerS x) && decide (powerS before < powerS x) && decide (powerS after ≤ powerS x)

/-- The peaks taken in a window from its candidates, as (sample number, sample): up to four with the largest power, the earlier between equals (R171). -/
def choosePeaks (l : List (Int × Sample)) : List (Int × Sample) := (sortBy (fun x => 2 ^ 40 - powerS x.2) l).take 4

/-- α of a chosen peak (R172). -/
def peakScale (th : Nat) (x : Sample) : Sample :=
  let m := magnitude x
  roundS 18 (scaleS ((2 ^ 18 * (m - th) / m : Nat) : Int) x)

/-- The pulse at a signed distance, p(-m) the conjugate of p(m), zero beyond 63 (R172, R173). -/
def pulseAt (s : State) (d : Int) : Sample :=
  if d.natAbs ≤ 63 then (if d < 0 then conjS (cfrPulse s d.natAbs) else cfrPulse s d.natAbs) else (0, 0)

/-- A cancellation stage at sample `n`, with the chosen peaks around it (R172). -/
def cancelPeaks (s : State) (th : Nat) (n : Int) (peaks : List (Int × Sample)) (x : Sample) : Sample × Bool :=
  let cut := sumS (peaks.map fun p => roundS 14 (mulS (peakScale th p.2) (pulseAt s (n - p.1))))
  satS 18 (x.1 - cut.1, x.2 - cut.2)

/-- A quotient rounded toward zero. -/
def towardZero (a : Int) (b : Nat) : Int := if a < 0 then -((a.natAbs / b : Nat) : Int) else ((a.natAbs / b : Nat) : Int)

/-- The final clipper, and whether it clipped (R172). -/
def clipPeak (th : Nat) (y : Sample) : Sample × Bool :=
  if th * th < powerS y then ((towardZero (y.1 * th) (magnitude y), towardZero (y.2 * th) (magnitude y)), true) else (y, false)

/-! ## Receive front end (R190, R192, R193, R199) -/

/-- A code marks an overload sample (R192). -/
def overload (x : Sample) : Bool := x.1 == -2048 || x.1 == 2047 || x.2 == -2048 || x.2 == 2047

/-- Stage 3: 64 x - F, saturated (R193). -/
def dcCancel (f x : Sample) : Sample × Bool := satS 18 (64 * x.1 - f.1, 64 * x.2 - f.2)

/-- The three coefficients w_0 to w_2 of a path (R199). -/
def iqTerms (w x : List Sample) : Sample := sumS (w.zipWith (fun a b => mulS a (conjS b)) x)

/-- Stage 4: the latest three samples, newest first (R199). -/
def iqCorrect (w x : List Sample) : Sample × Bool := satS 18 (roundS 18 (addS (scaleS (2 ^ 18) (x.headD (0, 0))) (iqTerms w x)))

/-- φ of stage 5 for REF - G in dB: 32,768 × 10^(d/20) rounded, decided on integers (R190); a REF of 31 is outside the table (log 63). -/
def gainFactor (d : Int) : Nat :=
  greatest (fun n => (2 * n - 1) ^ 20 * 10 ^ (-d).toNat ≤ 65536 ^ 20 * 10 ^ d.toNat) 20 0

/-- Stage 5 (R190). -/
def gainStage (d : Int) (x : Sample) : Sample × Bool := satS 18 (roundS 15 (scaleS (gainFactor d) x))

/-! ## Pre-distortion (R213-R217) -/

/-- Powers u^0, u^1, ..., of an envelope r as 20-bit values, the k-th first; and whether one saturated (R214). -/
def envelopePower (r : Nat) : Nat → Nat × Bool
  | 0 => (131072, false)
  | 1 => (r, false)
  | j + 2 =>
    let u := envelopePower r (j + 1)
    let v := (u.1 * r + 2 ^ 16) / 2 ^ 17
    (min v (2 ^ 20 - 1), u.2 || decide (2 ^ 20 ≤ v))

/-- A basis term: enabled, P, M, E (R213). -/
structure BasisTerm where
  en : Bool
  p : Nat
  m : Nat
  e : Nat
deriving DecidableEq, Repr

/-- φ of a term over the latest inputs, newest first; orders 10 to 15 are disabled (R213, R214). -/
def basisValue (k : BasisTerm) (x : List Sample) : Sample × Bool :=
  if k.en && k.p != 0 && decide (k.p ≤ 9) then
    let u := envelopePower (magnitude (x.getD k.e (0, 0))) (k.p - 1)
    let y := satS 18 (roundS 17 (scaleS u.1 (x.getD k.m (0, 0))))
    (y.1, y.2 || u.2)
  else ((0, 0), false)

/-- A coefficient field of a block: 18-bit real and imaginary parts (R217). -/
def coefAt (block : List Byte) (at' : Nat) : Sample :=
  let v := leNat ((block.drop at').take 5)
  (signed 18 v, signed 18 (v / 2 ^ 18))

/-- The pre-distortion stage for one output sample, and whether the sample counts as saturated (R214, R215). -/
def predistort (terms : List BasisTerm) (block : List Byte) (x : List Sample) : Sample × Bool :=
  if bitAt (block.getD 250 0).toNat 0 then (x.headD (0, 0), false)
  else
    let phi := terms.map fun k => basisValue k x
    let y := satS 18 (roundS 16 (sumS ((List.range terms.length).map fun k => mulS (coefAt block (5 * k)) (phi.getD k ((0, 0), false)).1)))
    let z := satS 18 (addS (addS y.1 (roundS 18 (mulS (coefAt block 240) (conjS y.1)))) (coefAt block 245))
    (z.1, phi.any (·.2) || y.2 || z.2)

/-! ## Observation and captures (R229, R231) -/

/-- Image and DC correction of an ORx (R229). -/
def orxCorrect (g dc x : Sample) : Sample × Bool :=
  let v := scaleS 64 x
  let y := addS v (roundS 16 (mulS g (conjS v)))
  satS 18 (y.1 - dc.1, y.2 - dc.2)

/-- Half of a capture record from an 18-bit sample, or from an ADC code (R231). -/
def recordHalf (x : Sample) : List Byte :=
  let y := (satS 16 (roundS 2 x)).1
  leBytes 2 (unsigned 16 y.1) ++ leBytes 2 (unsigned 16 y.2)
def leSample (x : Sample) : List Byte := leBytes 2 (unsigned 16 x.1) ++ leBytes 2 (unsigned 16 x.2)
def recordCode (x : Sample) : List Byte := leSample x

end Sys2Proof.Machine
end

