-- ==== Sys2Proof/Machine/Signal.lean ====
section
/-!
DEFINITION. The samples on their way through the block, as functions of their pin ticks and of what was in force there: the downlink chain
from the jitter buffers to the DAC codes (spec/05_transmit_path.md R146-R177), the uplink chain from the ADC codes to the layer samples
(spec/06_receive_path.md R182-R206), the beam engine between them (spec/04_beam_engine.md R111-R145), the observation receivers
(spec/07_predistortion.md R229), and how many of them raise a count in a tick. A stage whose state is cleared starts from zeros: no sample
that entered it before counts (notes/assumptions/46.md).
-/
namespace Sys2Proof.Machine

/-! ## What is in force at a tick (R48, R150) -/

/-- What the pending activations and swaps up to tick `n` will have made of the present: samples on their way to that pin tick meet it
already (R150, R151). -/
def ahead (s : State) (n : Nat) : State :=
  let s := (sortBy actRank (s.acts.filter fun p => p.tick ≤ n)).foldl (fun s p => (activate s p).1) s
  (sortBy (fun x => x.tick) (s.swaps.filter fun x => x.tick ≤ n)).foldl (fun s x => if x.kind = 0 then applyDpdSwap s x else applyRxSwap s x) s

/-- What is in force at pin tick `n`. -/
def inForce (s : State) (n : Nat) : State := if s.time.tick ≤ n then ahead s n else stateAt s n

/-- The tick of the count in course since which a condition has held up to tick `n`. -/
def holdsSince (s : State) (f : State → Bool) (n : Nat) : Option Nat :=
  if f (inForce s n) then
    some (((s.past.spans.filter fun x => decide (x.start ≤ n) && !f (asIn s x x.start)).map (·.stop)).foldl max s.time.origin)
  else none

/-- The digital transmit chain of path n runs from stage 5 on: EN is 1, the device is in ACTIVE and the datapath half is on, whatever the pod
(R177, R263, R436, R442). -/
def txRuns (s : State) (n : Nat) : Bool := flag s (F.TXP_CTRL_EN n) && isActive s && domainOn s (4 + halfOf (podOf n))

/-- Tick at which the stages of path n that run at tick `n` started from a cleared state (R162, R177, R185, R206). -/
def txSince (s : State) (path n : Nat) : Option Nat := holdsSince s (fun v => txRuns v path) n
def rxSince (s : State) (path n : Nat) : Option Nat := holdsSince s (fun v => rxRuns v path) n

/-- Pin tick of sample j of a carrier (R49, R115). -/
def pinTick (s : State) (c : Carrier) (j : Nat) : Nat := s.time.origin + j * c.k

/-- A saturation as a count. -/
def hit (b : Bool) : Nat := if b then 1 else 0

/-! ## Correction stage (R135-R138, R150) -/

/-- What is in force for the sample that path n has at the end of its correction FIFO as sample j: on the downlink at the pin tick of j, on the
uplink at the tick at which that sample was at the ADC pins, DELAY / 64 samples before (R48, R150, R187). -/
def correctionAt (s : State) (d n : Nat) (c : Carrier) (j : Nat) : State :=
  let v := inForce s (pinTick s c j)
  if d = 0 then v else inForce s (pinTick s c (j - corrDelay v n d / 64))

/-- Sample j at the end of the whole-sample FIFO of the correction stage of path n, from the carrier's samples `x`: multiplied by the gain in
force for it; nothing that left the FIFO before pin tick `low` counts. -/
def fifoOut (s : State) (d n : Nat) (c : Carrier) (low : Nat) (x : Nat → Sample) (j : Int) : Sample × Bool :=
  let p := pinTick s c j.toNat
  let v := correctionAt s d n c j.toNat
  let i := j - ((corrDelay v n d / 64 : Nat) : Int)
  if p < low || decide (i < 0) then ((0, 0), false)
  else corrMul (getF v (F.BEAM_CORR_TAPER n d)) (getF v (F.BEAM_CORR_PHASE n d)) (x i.toNat)

/-- Sample j behind the correction stage. -/
def corrected (s : State) (d n : Nat) (c : Carrier) (low : Nat) (x : Nat → Sample) (j : Nat) : Sample × Bool :=
  fractionalDelay (corrDelay (correctionAt s d n c j) n d % 64) (fun m => (fifoOut s d n c low x m).1) j

/-! ## Rate stage (R159-R164, R203-R206) -/

/-- The sections of a carrier's response (R209). -/
def sectionsOf (c : Carrier) : List Section :=
  (List.range 8).map (romSection c.resp (if c.k ≤ 8 then c.k - 1 else 3 * (c.cicM - 1) + (c.cicN - 3)))

/-- A sample through sections in a row, with the saturations it meets (R204). -/
def throughSections : List Section → List SectionState → Sample → List SectionState × Sample × Nat
  | [], _, x => ([], x, 0)
  | c :: l, z, x =>
    let r := sectionStep c (z.headD default) x
    let q := throughSections l z.tail r.1.y1
    (r.1 :: q.1, q.2.1, q.2.2 + hit r.2)

/-- The sections with the widening before and the rounding behind them; `gain` is K in a transmit chain with K ≤ 8, else 1 (R160, R204). -/
def sectionChain (c : Carrier) (gain : Nat) (z : List SectionState) (x : Sample) : List SectionState × Sample × Nat :=
  let r := throughSections (sectionsOf c) z (sectionIn gain x)
  let o := sectionOut r.2.1
  (r.1, o.1, r.2.2 + hit o.2)

/-- One word through combs of differential delay `m`, each with its last `m` inputs, and through integrators (R161, R205). -/
def throughCombs (m : Nat) : List (List Word84) → Word84 → List (List Word84) × Word84
  | [], x => ([], x)
  | d :: l, x =>
    let q := throughCombs m l (both comb x (d.getD (m - 1) (0, 0)))
    ((x :: d).take m :: q.1, q.2)
def throughIntegrators : List Word84 → Word84 → List Word84 × Word84
  | [], x => ([], x)
  | a :: l, x =>
    let y := both integrate a x
    let q := throughIntegrators l y
    (y :: q.1, q.2)

/-- The state of a rate stage. -/
structure RateState where
  sections : List SectionState
  combs : List (List Word84)
  ints : List Word84
deriving DecidableEq, Repr, Inhabited

/-- A cleared rate stage. -/
def RateState.clear (c : Carrier) : RateState :=
  { sections := [], combs := List.replicate c.cicN [], ints := List.replicate c.cicN (0, 0) }

/-- One tick of an interpolating rate stage, with the carrier sample that falls on it (R159-R161). -/
def upStep (c : Carrier) (z : RateState) (x : Option Sample) : RateState × Sample × Nat :=
  if c.k ≤ 8 then
    let r := sectionChain c c.k z.sections (x.getD (0, 0))
    ({ z with sections := r.1 }, r.2)
  else
    let r := match x with
      | none => (z, ((0, 0) : Word84), 0)
      | some x =>
        let r := sectionChain c 1 z.sections x
        let q := throughCombs c.cicM z.combs (word84 r.2.1)
        ({ z with sections := r.1, combs := q.1 }, q.2, r.2.2)
    let q := throughIntegrators z.ints r.2.1
    let o := cicOut (cicGain true c.k c.cicN c.cicM) q.2
    ({ r.1 with ints := q.1 }, o.1, r.2.2 + hit o.2)

/-- One tick of a decimating rate stage; `keep` where it gives a carrier sample (R203-R205). -/
def downStep (c : Carrier) (z : RateState) (keep : Bool) (x : Sample) : RateState × Sample × Nat :=
  if c.k ≤ 8 then
    let r := sectionChain c 1 z.sections x
    ({ z with sections := r.1 }, r.2)
  else
    let q := throughIntegrators z.ints (word84 x)
    let z := { z with ints := q.1 }
    if keep then
      let w := throughCombs c.cicM z.combs q.2
      let o := cicOut (cicGain false c.k c.cicN c.cicM) w.2
      let r := sectionChain c 1 z.sections o.1
      ({ z with sections := r.1, combs := w.1 }, r.2.1, r.2.2 + hit o.2)
    else (z, (0, 0), 0)

/-- What a rate stage gives at tick `n`, started from a cleared state at tick `a`. -/
def runRate (c : Carrier) (step : RateState → Nat → RateState × Sample × Nat) (a n : Nat) : Sample × Nat :=
  ((List.range (n + 1 - a)).foldl (fun r i => step r.1 (a + i)) (RateState.clear c, (0, 0), 0)).2

/-- Ticks from the middle of what a rate stage takes together for a sample to its newest input: D_rate less the 8 or 12 ticks that the stage
takes besides (R164, R208). -/
def rateReach (c : Carrier) : Nat := carrierRateDelay c - if c.k ≤ 8 then 8 else 12

/-! ## Downlink (R156, R112-R119, R131, R132, R140, R328) -/

/-- The partner of a stream had been lost by tick `n`, whenever that came to be known (R327, R328). -/
def lostBy (s : State) (j gen n : Nat) : Bool :=
  match streamAt s j with
  | some x => x.gen == gen && (match x.orphan with | some l => decide (l ≤ elapsedAt s n) | none => false)
  | none => false

/-- The sample of layer l and reference pin tick q as read out of its jitter buffer: zero where nothing was written, before the chain
restarted, without a stream, from the loss of its partner on, and in IDLE, where it is discarded (R442). -/
def layerIn (s : State) (i : Nat) (c : Carrier) (l q : Nat) : Sample :=
  if q < c.dlFrom + dDl c 0 || !isActive (inForce s (q - dDl c 0)) then (0, 0)
  else match (streamsOf (inForce s (q - dDl c 0)) i 0).find? fun x => x.2.layer = l with
    | none => (0, 0)
    | some x =>
      if x.2.orphan.isSome || lostBy s x.1 x.2.gen (q - dDl c 0) then (0, 0)
      else match x.2.slots.find? fun y => y.written && y.grid = c.grid && decide (y.first ≤ q) && decide (q < y.first + 1024 * c.k) with
        | some y => y.data.getD ((q - y.first) / c.k) (0, 0)
        | none => (0, 0)

/-- The set whose weights slice block b of a carrier takes (R131). -/
def setFor (s : State) (i d : Nat) (c : Carrier) (b : Nat) : Option ActiveSet := activeOf (inForce s (pinTick s c (b * slices c))) i d

/-- Slice k of block b of a layer on the downlink, and of path n behind the beam product. -/
def dlSlice (s : State) (i : Nat) (c : Carrier) (l b k : Nat) : Sample :=
  (analyse c.sLog2 k ((List.range (8 * slices c)).map fun m => layerIn s i c l (pinTick s c (b * slices c + m)))).1
def dlProduct (s : State) (i : Nat) (c : Carrier) (n b k : Nat) : Sample × Bool :=
  match setFor s i 0 c b with
  | none => ((0, 0), false)
  | some a => beamDown a.data a.layers k n ((List.range a.layers).map fun l => dlSlice s i c l b k)

/-- The slice samples of the eight blocks that sample j of a carrier takes, the latest first (R116). -/
def blocksFor (c : Carrier) (x : Nat → Nat → Sample) (j : Nat) : List (List Sample) :=
  (List.range 8).map fun m => if j / slices c < m then [] else (List.range (slices c)).map fun k => x (j / slices c - m) k

/-- Sample j of a carrier on path n behind slice synthesis. -/
def dlSynthesised (s : State) (i : Nat) (c : Carrier) (n j : Nat) : Sample × Bool :=
  synthesise c.sLog2 (j % slices c) (blocksFor c (fun b k => (dlProduct s i c n b k).1) j)

/-- Pin ticks between the point where a correction stage ends its FIFO and the DAC (R145, R149, R151). -/
def fifoToPin (c : Carrier) : Nat := 4 * c.k + carrierRateDelay c + 160

/-- The output of the rate stage of a carrier on path n at path pin tick p, with its saturations; the stages from 5 on started at `e`. -/
def dlRate (s : State) (i : Nat) (c : Carrier) (n e p : Nat) : Sample × Nat :=
  let x := fun t => (corrected s 0 n c (e + fifoToPin c) (fun j => (dlSynthesised s i c n j).1) ((t - s.time.origin) / c.k)).1
  runRate c (fun z t => upStep c z (if (t - s.time.origin) % c.k = 0 then some (x t) else none))
    (max c.dlFrom e + 160 + rateReach c) (p + rateReach c)

/-- A carrier behind its NCO and gate on path n at path pin tick p (R165-R167): the sample, and the NCO's saturation. -/
def dlCarrier (s : State) (i : Nat) (c : Carrier) (n e p : Nat) : Sample × Bool :=
  let y := ncoUp (ncoPhase c p) (dlRate s i c n e p).1
  (if c.dir = 0 && kindAt s p != some 1 then (0, 0) else y.1, y.2)

/-- Carriers that carry a direction, with the settings that hold at a pin tick (R48). -/
def carriersAt (s : State) (d p : Nat) : List (Nat × Carrier) :=
  ((inForce s p).carriers.filter fun x => carries x.2 d).map fun x => (x.1, x.2.atTick p)

/-- The carrier sum of path n (R168). What entered a stage before `e` does not count, here and below (R177). -/
def dlSum (s : State) (n e p : Nat) : Sample × Bool :=
  carrierSum (getF (inForce s p) (F.TXP_DGAIN_GAIN n)) ((carriersAt s 0 p).map fun x => (dlCarrier s x.1 x.2 n e p).1)

/-- Sample `u` of a stream of `r` samples a tick as an input that entered its stage `d` ticks before its pin tick. -/
def fed (e d r : Nat) (x : Nat → Sample) (u : Int) : Sample := if u < 0 || decide (u.toNat / r < e + d) then (0, 0) else x u.toNat

/-- HB1: samples 2p and 2p + 1 of tick p (R169). -/
def hb1 (s : State) (n e : Nat) (u : Int) : Sample × Bool :=
  halfband 0 true (fed e 156 2 fun m => if m % 2 = 0 then (dlSum s n e (m / 2)).1 else (0, 0)) u

/-! ## Crest factor reduction and pre-distortion (R170-R175, R213-R224) -/

def pathThreshold (v : State) (n : Nat) : Nat := cfrThreshold (getF v (F.TXP_CFR_PAPR n)) (getF v (F.TXP_CFR_REF n))

/-- The peaks that a stage takes in window `w` of 32 samples from the SYNC origin (R171). -/
def windowPeaks (s : State) (th : Nat) (x : Int → Sample) (w : Int) : List (Int × Sample) :=
  choosePeaks (((List.range 32).map fun (k : Nat) => 2 * (s.time.origin : Int) + 32 * w + (k : Int)).filterMap fun t =>
    if isPeak th (x (t - 1)) (x t) (x (t + 1)) then some (t, x t) else none)

/-- A cancellation stage at sample u, with the settings in force there (R171, R172, R174). -/
def cfrStage (s : State) (n : Nat) (x : Int → Sample) (u : Int) : Sample × Bool :=
  let v := inForce s (u / 2).toNat
  let th := pathThreshold v n
  let w := (u - 63 - 2 * (s.time.origin : Int)) / 32
  if flag v (F.TXP_CFR_ENABLE n) then
    cancelPeaks v th u (((List.range 5).map fun (k : Nat) => windowPeaks s th x (w + (k : Int))).flatten.filter
      fun q => decide ((u - q.1).natAbs ≤ 63)) (x u)
  else (x u, false)

def cfr1 (s : State) (n e : Nat) (u : Int) : Sample × Bool := cfrStage s n (fed e 140 2 fun m => (hb1 s n e m).1) u
def cfr2 (s : State) (n e : Nat) (u : Int) : Sample × Bool := cfrStage s n (fed e 140 2 fun m => (cfr1 s n e m).1) u

/-- The CFR output, and whether the clipper acted (R172). -/
def cfrOut (s : State) (n e : Nat) (u : Int) : Sample × Bool :=
  let v := inForce s (u / 2).toNat
  if flag v (F.TXP_CFR_ENABLE n) then clipPeak (pathThreshold v n) (cfr2 s n e u).1 else ((cfr2 s n e u).1, false)

/-- The basis terms of DPD.TERM (R213). -/
def basisTerms (v : State) : List BasisTerm :=
  (List.range 48).map fun k =>
    { en := flag v (F.DPD_TERM_EN k), p := getF v (F.DPD_TERM_P k), m := getF v (F.DPD_TERM_M k), e := getF v (F.DPD_TERM_E k) }

/-- The pre-distortion output of path n, by the live block of the bin in force at its pin tick (R214, R215, R220-R224). -/
def dpdOut (s : State) (n e : Nat) (u : Int) : Sample × Bool :=
  let v := inForce s (u / 2).toNat
  predistort (basisTerms v) (liveBlock v n (binOf v)) ((List.range 8).map fun (m : Nat) => fed e 44 2 (fun m => (cfrOut s n e m).1) (u - (m : Int)))

/-- HB2: samples 4p to 4p + 3 of tick p (R169). -/
def hb2 (s : State) (n e : Nat) (w : Int) : Sample × Bool :=
  halfband 1 true (fed e 20 4 fun m => if m % 2 = 0 then (dpdOut s n e ((m / 2 : Nat) : Int)).1 else (0, 0)) w

/-- The amplitude LEVEL x 0.5 dB below full scale, decided on integers but for its rounding (R363; notes/assumptions/46.md). -/
def candleAmplitude (level : Nat) : Nat :=
  (List.range 17).foldl (fun a i =>
    let b := a + 2 ^ (16 - i)
    if b ^ 40 * 10 ^ level ≤ 131071 ^ 40 then b else a) 0 + if Config.candleRounding level then 1 else 0

/-- The candle that path n adds to its HB2 output at sample w, four to a tick: zero phase at the first tick of its step (R362, R363). -/
def candle (s : State) (n : Nat) (w : Int) : Sample :=
  let v := inForce s (w / 4).toNat
  let p := w.toNat / 4
  match (calRuns v).find? fun x => isEmitting x && decide (x.2.2.emitAt ≤ p) &&
      (emitters x.2.1)[x.2.2.step + (p - x.2.2.emitAt) / stepTicks v]? == some n with
  | none => (0, 0)
  | some x =>
    let t := w.toNat - 4 * (x.2.2.emitAt + (p - x.2.2.emitAt) / stepTicks v * stepTicks v)
    let y := ncoValue (unsigned 32 (signed 16 (getF v F.CAS_CANDLE_OFFSET) * 2 ^ 14 * (t : Int)))
    roundS 17 (scaleS (candleAmplitude (getF v F.CAS_CANDLE_LEVEL)) y)

/-- What path n converts at sample w (R176, R363). -/
def dacIn (s : State) (n e : Nat) (w : Int) : Sample := addS (hb2 s n e w).1 (candle s n w)

/-- DAC code w of path n: 0 while the chain does not run and while the converters have no power (R176, R177, R436; log 60). -/
def dacOut (s : State) (n w : Nat) : Sample × Bool :=
  match (txSince s n (w / 4)).filter fun _ => domainOn (inForce s (w / 4)) (6 + podOf n) with
  | none => ((0, 0), false)
  | some e => dacCode (dacIn s n e w)

/-- The CFR and pre-distortion outputs of path n at sample u, zero while the chain does not run. -/
def txTap (s : State) (n : Nat) (f : State → Nat → Nat → Int → Sample × Bool) (u : Nat) : Sample :=
  match txSince s n (u / 2) with
  | none => (0, 0)
  | some e => (f s n e u).1

/-! ## Uplink (R182-R206) -/

/-- ADC code u of path n, samples 2p and 2p + 1 of tick p; zero while the path does not run and while its converters have no power (R185,
R192, R436; log 60). -/
def adcOut (s : State) (n u : Nat) : Sample :=
  let v := inForce s (u / 2)
  if rxRuns v n && domainOn v (6 + podOf n) then
    let x := Config.adcCode n (elapsedAt s (u / 2)) (u % 2) (getF v (F.RXP_GAIN_GAIN n)) (dcCoarse v n 0) (dcCoarse v n 1)
    (x.1.toInt, x.2.toInt)
  else (0, 0)

/-- Stages 3 to 5, from codes since tick `e` (R190, R193, R199). -/
def rxDc (s : State) (n e : Nat) (u : Int) : Sample × Bool :=
  if u < 0 || decide (u.toNat / 2 < e) then ((0, 0), false)
  else
    let v := inForce s (u.toNat / 2)
    dcCancel (dcFine v n 0, dcFine v n 1) (adcOut s n u.toNat)
def iqWeights (v : State) (n : Nat) : List Sample :=
  (List.range 3).map fun k => (signed 16 (getF v (F.RXP_IQC_RE n k)), signed 16 (getF v (F.RXP_IQC_IM n k)))
def rxIq (s : State) (n e : Nat) (u : Int) : Sample × Bool :=
  iqCorrect (iqWeights (inForce s (u / 2).toNat) n) ((List.range 3).map fun (k : Nat) => (rxDc s n e (u - (k : Int))).1)
def rxGained (s : State) (n e : Nat) (u : Int) : Sample × Bool :=
  let v := inForce s (u / 2).toNat
  gainStage ((getF v (F.RXP_GAIN_REF n) : Int) - (getF v (F.RXP_GAIN_GAIN n) : Int)) (rxIq s n e u).1

/-- HBD at tick p: the first sample of the tick (R200). -/
def hbd (s : State) (n e p : Nat) : Sample × Bool := halfband 2 false (fun u => (rxGained s n e u).1) ((2 * p : Nat) : Int)

/-- A carrier with the settings that hold at a pin tick. -/
def carrierIn (s : State) (i p : Nat) : Option Carrier := (carrierAt (inForce s p) i).map fun c => c.atTick p

/-- A carrier behind its NCO and gate on path n at pin tick p, with the word in force there (R201, R202). -/
def ulNco (s : State) (i : Nat) (c : Carrier) (n e p : Nat) : Sample × Bool :=
  let c := (carrierIn s i p).getD c
  let y := ncoDown (ncoPhase c p) (hbd s n e p).1
  (if c.dir = 0 && kindAt s p != some 2 then (0, 0) else y.1, y.2)

/-- What the decimating rate stage gives at the tick that takes in the sample of pin tick t: a carrier sample where it keeps one (R186,
R203). -/
def ulRate (s : State) (i : Nat) (c : Carrier) (n e t : Nat) : Sample × Nat :=
  let keep := fun t => decide (((t : Int) - (rateReach c : Int) - (s.time.origin : Int)) % (c.k : Int) = 0)
  runRate c (fun z t => downStep c z (keep t) (ulNco s i c n e t).1) (max c.ulFrom e) t

/-- Sample j of a carrier on path n behind the correction stage. -/
def ulCorrected (s : State) (i : Nat) (c : Carrier) (n e j : Nat) : Sample × Bool :=
  corrected s 1 n c 0 (fun j => (ulRate s i c n e (pinTick s c j + rateReach c)).1) j

/-- Slice k of block b of path n (R114, R141). -/
def ulSlice (s : State) (i : Nat) (c : Carrier) (n e b k : Nat) : Sample × Bool :=
  analyse c.sLog2 k ((List.range (8 * slices c)).map fun m => (ulCorrected s i c n e (b * slices c + m)).1)

/-- The tick at which the product of slice block b is formed (R186). -/
def productTick (s : State) (c : Carrier) (b : Nat) : Nat :=
  pinTick s c (b * slices c) + sliceDelay c * c.k + 40 + carrierRateDelay c + (4 + ceilDiv 64 c.k) * c.k

/-- This chip's contribution to slice k of block b of layer l: the sum over its paths, of which one that does not run gives zero (R112,
R119, R141, R185, R349). -/
def ulSum (s : State) (i : Nat) (c : Carrier) (l b k : Nat) : Sample :=
  match setFor s i 1 c b with
  | none => (0, 0)
  | some a =>
    if a.layers ≤ l then (0, 0)
    else beamUp a.data a.layers k l ((List.range (nPaths s)).map fun n => match rxSince s n (productTick s c b) with
      | none => (0, 0)
      | some e => (ulSlice s i c n e b k).1)

/-- A layer sample of reference pin tick q from sums of slices; those that a restart leaves incomplete are zero (R141, R143, R206). -/
def layerFrom (s : State) (i : Nat) (c : Carrier) (sum : Nat → Nat → Sample) (q : Nat) : Sample :=
  let j := (q - s.time.origin) / c.k
  if (zeroSpans s i).any fun x => decide (x.1 ≤ q) && decide (q < x.2) then (0, 0)
  else layerOut c.sLog2 (j % slices c) (blocksFor c sum j)

/-- The completed layer sample of a single chip. -/
def ulLayer (s : State) (i : Nat) (c : Carrier) (l q : Nat) : Sample := layerFrom s i c (ulSum s i c l) q

/-- The first slice block of the slot at `n`, and this chip's contribution to the slot: sample S b + k holds slice k of its block b (R349). -/
def slotBlock (s : State) (c : Carrier) (n : Nat) : Nat := ceilDiv (n - s.time.origin) (slices c * c.k)
def contribution (s : State) (i : Nat) (c : Carrier) (l n : Nat) : List Sample :=
  (List.range 1024).map fun m => ulSum s i c l (slotBlock s c n + m / slices c) (m % slices c)

/-- The samples of an uplink slot: past the end of an old grid there are none, and the slot is sent with zeros there (R206; log 63). -/
def slotSamples (s : State) (x : Stream) (c : Carrier) (n : Nat) (f : Nat → Sample) : List Sample :=
  (List.range 1024).map fun m =>
    let q := n + m * c.k
    match oldGrid s x c with
    | some g => if g ≤ q then (0, 0) else f q
    | none => f q

/-- A layer sample on a lantern: from the array sums of its slot and the one before, where those were combined, else from this chip's
contribution (R354). -/
def arrayLayer (s : State) (stream i : Nat) (c : Carrier) (l n q : Nat) : Sample :=
  let b0 := slotBlock s c n
  let at' := fun (first m : Nat) => (s.casc.combined.find? fun y => y.stream = stream && y.slot = first).map fun y => y.data.getD m (0, 0)
  layerFrom s i c (fun b k =>
    (if b0 ≤ b then at' n (slices c * (b - b0) + k) else at' (n - 1024 * c.k) (slices c * (b + 1024 / slices c - b0) + k)).getD (ulSum s i c l b k)) q

/-! ## Observation receivers (R229) -/

/-- Phase of the NCO of ORx k at its sample u of 4 a tick: zero at the SYNC origin, advancing by IF per sample. -/
def orxPhase (s : State) (k u : Nat) : Nat :=
  let part := fun (v : State) (a b : Nat) => getN v (A.ORX_IF k) * (min u (4 * b) - max (4 * s.time.origin) (4 * a))
  ((s.past.spans.map fun x => part (asIn s x x.start) x.start x.stop).sum + part s s.time.tick (u + 1)) % 2 ^ 32

/-- ADC code u of ORx k from the feedback input selected, with the attenuation that a host capture sets (R227, R234). -/
def orxAdc (s : State) (k u : Nat) : Sample :=
  let v := inForce s (u / 4)
  let attn := if getF v (F.ORX_STAT_USER k) = 2 then some (getF v (F.ORX_CTRL_ATTN k)) else none
  let x := Config.orxCode k (getF v (F.ORX_STAT_SEL k)) attn (elapsedAt s (u / 4)) (u % 4)
  (x.1.toInt, x.2.toInt)

/-- ORx k behind its NCO, and its output sample u of 2 a FB tick. -/
def orxNco (s : State) (k : Nat) (u : Int) : Sample :=
  if u < 4 * (s.time.origin : Int) then (0, 0)
  else
    let v := inForce s (u.toNat / 4)
    let g := (signed 16 (getF v (F.ORX_IRC_G_RE k)), signed 16 (getF v (F.ORX_IRC_G_IM k)))
    let dc := (signed 16 (getF v (F.ORX_IRC_1_DC_I k)), signed 16 (getF v (F.ORX_IRC_1_DC_Q k)))
    (ncoDown (orxPhase s k u.toNat) (orxCorrect g dc (orxAdc s k u.toNat)).1).1
def orxOut (s : State) (k u : Nat) : Sample := (halfband 3 false (orxNco s k) ((2 * u : Nat) : Int)).1

/-! ## Earlier counts of the tick counter -/

/-- The state at the end of an earlier count. -/
def inEra (s : State) (x : Era) : State :=
  let v := match x.spans with | y :: _ => asIn s y x.tick | [] => s
  { v with
    time := { s.time with now := x.stop, tick := x.tick, origin := x.origin, tddLog := x.tddLog }
    past := { spans := x.spans, eras := [] }
    swaps := [] }

/-- The counts, newest first, each as the state at its end. -/
def countsOf (s : State) : List State := s :: s.past.eras.map (inEra s)

/-- The first tick of a count. -/
def firstTick (s : State) : Nat := match s.past.spans.getLast? with | some x => x.start | none => s.time.tick

/-- `f` at a tick of the count in course, or, for a tick before it, at the tick of the earlier count that lay there in elapsed time. -/
def acrossCounts {α : Type} (s : State) (f : State → Nat → α) (n : Nat) : α :=
  if firstTick s ≤ n then f s n
  else match s.past.eras.find? fun x => decide (x.stop ≤ elapsedAt s n + x.tick) && decide (elapsedAt s n < x.stop) with
    | some x => f (inEra s x) (x.tick + elapsedAt s n - x.stop)
    | none => f s n

/-- A count summed over the ticks passed in [a, b) of elapsed time. -/
def countOver (s : State) (f : State → Nat → Nat) (a b : Nat) : Nat :=
  ((countsOf s).map fun v =>
    let lo := max (firstTick v) (v.time.tick + a - v.time.now)
    let hi := min v.time.tick (v.time.tick + b - v.time.now)
    ((List.range (hi - lo)).map fun i => f v (lo + i)).sum).sum

/-! ## Captures (R231-R233) -/

/-- Record m of a capture whose first sample is of tick `first`. -/
def captureRecord (s : State) (x : Capture) (first m : Nat) : List Byte :=
  let tick := x.tickOf first m
  let half := m % 2
  match x.source with
  | 0 =>
    let ref := fun (v : State) (n : Nat) => txTap v (16 * x.index + getF (inForce v n) (F.ORX_STAT_SEL x.index)) cfrOut
    recordHalf (acrossCounts s (fun v n => orxOut v x.index (2 * n + half)) tick)
      ++ recordHalf (acrossCounts s (fun v n => ref v n (2 * n + half - getF (inForce v n) (F.ORX_ALIGN_ALIGN x.index))) tick)
  | 1 =>
    recordCode (acrossCounts s (fun v n => adcOut v x.index (2 * n + half)) tick)
      ++ recordHalf (acrossCounts s (fun v n => txTap v x.index dpdOut (2 * n + half)) tick)
  | 2 =>
    recordHalf (acrossCounts s (fun v n => txTap v x.index dpdOut (2 * n + half)) tick)
      ++ recordHalf (acrossCounts s (fun v n => txTap v x.index cfrOut (2 * n + half)) tick)
  | _ => streamRecord
where
  /-- A sample of the capture's stream, as read out or as completed; zeros where its carrier no longer was. -/
  streamRecord : List Byte :=
    leSample (acrossCounts s (fun v n => match carrierIn v x.carrier n with
      | some c => if x.layer.1 = 0 then layerIn v x.carrier c x.layer.2 n else completed v c n
      | none => (0, 0)) (x.tickOf first m)) ++ [0, 0, 0, 0]

  /-- A completed uplink layer sample: on a lantern that of the array (R354). -/
  completed (v : State) (c : Carrier) (q : Nat) : Sample :=
    match (streamsOf v x.carrier 1).find? fun y => y.2.layer = x.layer.2 with
    | some y => if combines v then arrayLayer v y.1 x.carrier c x.layer.2 (c.grid + (q - c.grid) / (1024 * c.k) * (1024 * c.k)) q
      else ulLayer v x.carrier c x.layer.2 q
    | none => ulLayer v x.carrier c x.layer.2 q

/-- The first `n` records of a capture, in their bytes. -/
def captureData (s : State) (x : Capture) (n : Nat) : List Byte :=
  (List.range n).flatMap fun m => captureRecord s x (x.first.getD 0) m

/-! ## What raises a count in a tick -/

/-- The datapath half of path p runs at tick n: the device is in ACTIVE and PD4 or PD5 is on (R436, R442). -/
def halfRuns (s : State) (p n : Nat) : Bool := isActive (inForce s n) && domainOn (inForce s n) (4 + halfOf (podOf p))

/-- Saturations of BEAM.SAT.DL at tick n: beam product, synthesis and correction multiply, on the samples that leave those stages on the paths
whose half runs (R140). -/
def beamSatDl (s : State) (n : Nat) : Nat :=
  ((carriersAt s 0 n).map fun y =>
    let c := y.2
    let q := n + fifoToPin c
    let j := (q - s.time.origin) / c.k
    if (q - s.time.origin) % c.k != 0 then 0
    else (((List.range (nPaths s)).filter fun p => halfRuns s p n).map fun p =>
      hit (dlSynthesised s y.1 c p j).2
      + (if j % slices c = 0 then ((List.range (slices c)).map fun k => hit (dlProduct s y.1 c p (j / slices c) k).2).sum else 0)
      + (match txSince s p n with
        | some e => hit (fifoOut s 0 p c (e + fifoToPin c) (fun j => (dlSynthesised s y.1 c p j).1) j).2
        | none => 0)).sum).sum

/-- Saturations of BEAM.SAT.UL at tick n: correction multiply, fractional delay and slice analysis (R141). -/
def beamSatUl (s : State) (n : Nat) : Nat :=
  ((carriersAt s 1 n).map fun y =>
    let c := y.2
    let d := 40 + carrierRateDelay c
    let at' := fun (d : Nat) (f : Nat → Nat) =>
      if n < d + s.time.origin || (n - d - s.time.origin) % c.k != 0 then 0 else f ((n - d - s.time.origin) / c.k)
    ((List.range (nPaths s)).map fun p => match rxSince s p n with
      | none => 0
      | some e =>
        at' d (fun j => hit (fifoOut s 1 p c 0 (fun j => (ulRate s y.1 c p e (pinTick s c j + rateReach c)).1) j).2)
        + at' (d + 4 * c.k) (fun j => hit (ulCorrected s y.1 c p e j).2)
        + at' (d + (4 + sliceDelay c) * c.k) (fun j =>
            if j % slices c = 0 then ((List.range (slices c)).map fun k => hit (ulSlice s y.1 c p e (j / slices c) k).2).sum else 0)).sum).sum

/-- The samples of tick n among `r` a tick that satisfy a test. -/
def inTick (r n : Nat) (f : Int → Bool) : Nat := ((List.range r).map fun i => hit (f ((r * n + i : Nat) : Int))).sum

/-- Counts of path p at tick n while its transmit chain runs: saturations of stages 6-9 and 11, DAC saturations, peaks cancelled, samples
clipped, and output samples saturated in pre-distortion (R146, R172, R176, R214). -/
def txDig (s : State) (p e n : Nat) : Nat :=
  ((carriersAt s 0 (n + 160)).map fun y => (dlRate s y.1 y.2 p e (n + 160)).2).sum
  + ((carriersAt s 0 (n + 156)).map fun y => hit (dlCarrier s y.1 y.2 p e (n + 156)).2).sum
  + hit (dlSum s p e (n + 156)).2
  + inTick 2 (n + 140) (fun u => (hb1 s p e u).2)
  + inTick 2 (n + 44) (fun u => (cfr1 s p e u).2) + inTick 2 (n + 44) (fun u => (cfr2 s p e u).2)
  + inTick 4 (n + 8) (fun u => (hb2 s p e u).2)
def txDac (s : State) (p e n : Nat) : Nat :=
  if domainOn (inForce s n) (6 + podOf p) then inTick 4 n fun u => (dacCode (dacIn s p e u)).2 else 0
def txPeaks (s : State) (p e n : Nat) : Nat :=
  let v := inForce s (n + 44)
  let taken := fun (x : Int → Sample) (u : Int) =>
    (windowPeaks s (pathThreshold v p) x ((u - 2 * (s.time.origin : Int)) / 32)).any fun q => q.1 == u
  if flag v (F.TXP_CFR_ENABLE p) then
    inTick 2 (n + 44) (taken (fed e 140 2 fun m => (hb1 s p e m).1)) + inTick 2 (n + 44) (taken (fed e 140 2 fun m => (cfr1 s p e m).1))
  else 0
def txClip (s : State) (p e n : Nat) : Nat := inTick 2 (n + 44) fun u => (cfrOut s p e u).2
def dpdSat (s : State) (p e n : Nat) : Nat := inTick 2 (n + 20) fun u => (dpdOut s p e u).2

/-- What the sample of the pin tick `d` before tick n raises: nothing where that lies before the origin, whose samples in flight are lost
(R34). -/
def sinceOrigin (s : State) (d n : Nat) (f : Nat → Nat) : Nat := if n < d + s.time.origin then 0 else f (n - d)

/-- Counts of path p at tick n while its receive chain runs: saturations of stages 3-8, overload samples (R182, R192). -/
def rxDig (s : State) (p e n : Nat) : Nat :=
  sinceOrigin s 12 n (fun m => inTick 2 m fun u => (rxDc s p e u).2) + sinceOrigin s 18 n (fun m => inTick 2 m fun u => (rxIq s p e u).2)
  + sinceOrigin s 20 n (fun m => inTick 2 m fun u => (rxGained s p e u).2) + sinceOrigin s 36 n (fun m => hit (hbd s p e m).2)
  + sinceOrigin s 40 n fun m => ((carriersAt s 1 m).map fun y => hit (ulNco s y.1 y.2 p e m).2 + (ulRate s y.1 y.2 p e m).2).sum
def rxOverload (s : State) (p _e n : Nat) : Nat := sinceOrigin s 10 n fun m => inTick 2 m fun u => overload (adcOut s p u.toNat)

/-- How often a count of a word rises at a tick: `a` is the address of the word, `lo` the lowest bit of the count; 31 is a sticky bit. -/
def risesAt (a lo : Nat) (s : State) (n : Nat) : Nat :=
  let tx := fun (p : Nat) (f : State → Nat → Nat → Nat → Nat) => match txSince s p n with | some e => f s p e n | none => 0
  let rx := fun (p : Nat) (f : State → Nat → Nat → Nat → Nat) => match rxSince s p n with | some e => f s p e n | none => 0
  if a = 0x40020 then (if lo = 0 then beamSatDl s n else beamSatUl s n)
  else if a < 0x90000 then
    let p := (a - 0x80000) / 0x400
    if a % 0x400 = 0x14 then (if lo = 0 then tx p txPeaks else tx p txClip) else if lo = 0 then tx p txDig else tx p txDac
  else if a < 0xD0000 then
    let p := (a - 0xC0000) / 0x400
    if a % 0x400 = 0x70 then rx p rxOverload else rx p rxDig
  else if a < 0x180000 then tx ((a - 0x101000) / 0x10) dpdSat
  else
    let k := (a - 0x180000) / 0x100
    let v := inForce s n
    if flag v (F.ORX_CTRL_EN k) && domainOn v 15 && isActive v then inTick 4 n fun u => overload (orxAdc s k u.toNat) else 0

end Sys2Proof.Machine
end

