-- ==== Sys2Proof/Machine/Samples.lean ====
section
/-!
DEFINITION. Commands whose effect takes samples from the paths: the windows of the DC loops, captures and their channels, uplink packets and
partial sums, the end of a stream, and the counts that samples raise (spec/06_receive_path.md R188, R194, R206; spec/07_predistortion.md
R231-R233; spec/10_bxl_protocol.md R322; spec/11_cascade.md R349-R356; spec/03_commands.md R105).
-/
namespace Sys2Proof.Machine

/-! ## DC windows (R194, R195) -/

/-- The sums of the stage-3 outputs of the window [a, b) of a path. -/
def windowSums (s : State) (path a b : Nat) : Sample :=
  match rxSince s path (b - 1) with
  | none => (0, 0)
  | some e => sumS ((List.range (2 * (b - a))).map fun i => (rxDc s path e ((2 * a + i : Nat) : Int)).1)

/-- A window of a path ends now: if it is the next one to be measured, it is discarded and counted, or its sums give the swap of the loops. -/
def endWindow (s : State) (path : Nat) : State :=
  let w := dcWindow s path
  let a := s.time.tick - w
  let x := rxPath s path
  if !rxRuns s path || x.resetAt.isSome || decide (s.time.tick < s.time.origin + w) || (a - s.time.origin) % w != 0
      || decide (a < x.windowFrom) then s
  else if frozenIn s path a s.time.tick || x.spoilt.any (fun n => decide (a < n) && decide (n < s.time.tick)) then
    modRx (satAdd s (F.RXP_DC_STAT_DISCARDED path) 1) path fun x => { x with windowFrom := s.time.tick, spoilt := [] }
  else
    let sums := windowSums s path a s.time.tick
    measureDc s path w sums.1 sums.2

/-- DC_WINDOW_END (R194, R195). -/
def execDcWindowEnd (t path : Nat) (s : State) : Out := .next (endWindow (advance t s) path)

/-- ADAPTIVE_SWAP_REQUEST: the firmware asks for a swap where the rules of its kind make one: 0 the result of a solve (R243), 1 a measured DC
window (R195), 2 a step of gain control at tick `tick` (R191) (log 13). -/
def execAdaptiveSwapRequest (t path kind bin gain tick : Nat) (better : Bool) (base : Option Coefs) (data : Coefs) (s : State) : Out :=
  let s := advance t s
  .next <|
    match kind with
    | 0 => solveDone s path bin better base data
    | 1 => endWindow s path
    | 2 => requestGain s path gain tick
    | _ => s

/-! ## Captures (R231-R233, R389) -/

/-- CAPTURE_DONE: a capture that has ended, with the records it wrote, to DRAM once the port serves them (R231, R410); the event's TICK is that of its first sample. -/
def execCaptureDone (t job written : Nat) (s : State) : Out :=
  let s := advance t s
  match s.captures.find? (fun x => x.job = job && (captureResult s x written).isSome) with
  | none => .next s
  | some x => .next <| throughPort (x.dest = 2 && dramTrained s) (fun s =>
    match captureResult s x written with
    | none => s
    | some (n, st) =>
      let s := writeRecords s x ((captureData s x n).drop (8 * brought s x)) (8 * brought s x)
      let s := { s with
        captures := s.captures.filter fun y => y.handle != x.handle
        caps := match assocGet s.caps x.job with
          | some j => if mkHandle 4 j.gen x.job = x.handle then assocPut s.caps x.job { j with written := n, ended := true } else s.caps
          | none => s.caps }
      let s := if x.source = 0 && getF s (F.ORX_STAT_USER x.index) == 2 && (hostHolds s x.index).isNone
        then setF s (F.ORX_STAT_USER x.index) 0 else s
      periphEnded (postAt s evCaptureDone (x.first.getD x.tick) (evData [(16, 4, x.handle), (20, 1, st), (24, 4, n)])) x.job) s

/-- The records of the capture in course of a job that are taken by now and not yet written (R389). -/
def recordsToBring (s : State) (i : Nat) : List Byte :=
  match assocGet s.caps i with
  | none => []
  | some j => match s.captures.find? (fun x => x.handle = mkHandle 4 j.gen i && x.first.isSome) with
    | none => []
    | some x => (captureData s x (recordsOf s i j)).drop (8 * j.written)

/-- DMA_BURST_COMPLETE: the reads of the burst in progress are complete, their bytes are written or compared, and the channel takes its
next turn, ends the instruction, or halts for DMA_STOP (R372, R385, R386). `src` and `dst` are what host memory answered for the
source and for the second region of a CMP. -/
def execDmaBurstComplete (t channel : Nat) (src dst : List Byte) (s : State) : Out :=
  let s := advance t s
  match instrAtPc s channel, (chAt s channel).burst with
  | some i, some n =>
    let src := match sourceOf s channel i with
      | some (3, p) => if p < 32 then recordsToBring s p else src
      | _ => src
    if chState s channel != chRunning || (accessFault s channel).isSome || !bytesReady s channel i n src dst then .next s
    else
      .next (throughPort ((spacesInUse s channel).contains 2) (fun s =>
        let s := modCh (runBurst s channel i n src dst) channel fun x => { x with burst := none, reads := 0 }
        pumpShared (if (chAt s channel).stop.isSome then haltDma s channel stCancelled true else nextBurst s channel i)) s)
  | _, _ => .next s

/-! ## Uplink packets (R188, R322, R354-R356) -/

/-- The stream's uplink slot at `first` may be formed now, at tick `q`, under these settings: it is the next slots' turn, some sample of it
is to be sent, and the device is in ACTIVE. -/
def slotReady (s : State) (x : Stream) (c : Carrier) (first q : Nat) : Bool :=
  x.dir = 1 && isActive s && slotSent s c first && decide (q ≤ s.time.tick)

/-- The DATA_UL packet of a stream for a slot. -/
def ulPacket (s : State) (stream : Nat) (x : Stream) (first pip : Nat) (reduced : Bool) (data : List Sample) : Packet :=
  let ver := match streamPartner s x with
    | some p => match partnerAt s p with | some y => y.ver | none => 2
    | none => 2
  { ver := ver, type := 2, flags := (if reduced then 1 else 0) + (if originFlag x first && ver != 1 then 2 else 0),
    handle := mkHandle 2 x.gen stream, tick := first, format := x.format, seq := x.ulSeq, pip := pip,
    payload := encodeSamples x.format data }

/-- UL_PACKET_QUEUED: the DATA_UL packet of stream `stream` for the slot at `first` is formed from its layer samples and queued: at q on a
single chip, at Z + 16 with what was combined on a lantern (R188, R322, R354-R356). -/
def execUlPacketQueued (t stream first : Nat) (s : State) : Out :=
  let s := advance t s
  .next <|
    match streamAt s stream with
    | none => s
    | some x => match ulCarrier s x first with
      | none => s
      | some c =>
        let sum := s.casc.combined.find? fun y => y.stream = stream && y.slot = first
        match if combines s then sum.map (·.queueAt) else some (slotDone c first) with
        | none => s
        | some q =>
          if isMember s || x.orphan.isSome || !slotReady s x c first q || (streamPartner s x).isNone then s
          else
            let data := slotSamples s x c first fun q =>
              if combines s then arrayLayer s stream x.carrier c x.layer first q else ulLayer s x.carrier c x.layer q
            let pip := match sum with | some y => y.pip | none => ulPips s x c first
            let pkt := ulPacket s stream x first pip (sum.any (·.reduced)) data
            let s := enqueue s 0 { pkt := pkt, since := timeOf s q, ctrl := false, index := stream, q := none, stomp := false }
            let kept := s.captures.any fun y => y.source = 3 && y.carrier = x.carrier && y.layer = (1, x.layer)
            let s := modCasc s fun y => { y with combined := y.combined.filter fun z => z.stream != stream || kept || decide (first ≤ z.slot) }
            modStream s stream fun x => { ulFormed x c first with ulSeq := (x.ulSeq + 1) % 2 ^ 16 }

/-! ## Partial sums (R349-R356) -/

/-- SEQ of a CASC_SUM: the slot number. -/
def slotNumber (c : Carrier) (n : Nat) : Nat := (n - c.grid) / (1024 * c.k) % 2 ^ 16

/-- CASC_SUM_ORIGINATE: at q the last member originates the sum of an uplink served stream from its own contribution and pips; REDUCED while
its child port is DOWN (R349-R351, R358). -/
def execCascSumOriginate (t stream first : Nat) (s : State) : Out :=
  let s := advance t s
  .next <|
    match streamAt s stream with
    | none => s
    | some x => match ulCarrier s x first with
      | none => s
      | some c =>
        if !isMember s || !flag s F.CAS_STATUS_LAST || !slotReady s x c first s.time.tick || s.time.tick != slotDone c first then s
        else
          let p := sumPacket (ulKey x) (ownIndex s) first (slotNumber c first) (ulPips s x c first) (!portUp s 2)
            (addSamples (contribution s x.carrier c x.layer first) [])
          let s := enqueue s 1 { pkt := p, since := s.time.now, ctrl := false, index := stream, q := some s.time.now, stomp := false }
          modStream s stream fun x => ulFormed x c first

/-- The settings under which the slot at `n` of a stream lies, whether or not it is still to come. -/
def slotCarrier (s : State) (x : Stream) (n : Nat) : Option Carrier := (carrierAt s x.carrier).map fun z => z.atTick n

/-- The tick to which the last block of a received sum is held: 256 after it was sent, which in FIXED mode was LATENCY before its delivery, 6 ticks
before the sum's arrival (R296, R348, R352; notes/assumptions/31.md). -/
def heldTick (s : State) (x : CascSum) : Nat :=
  if flag s (F.LN_PORT_CTRL_FIXED 2) then x.tick - 6 + 256 - max 128 (getF s (F.LN_PORT_LAT_LATENCY 2)) else x.tick

/-- The tick at which a received sum goes on, with the first of its 645 blocks: with few lanes or a long LATENCY that has left before the sum has
come whole (R352). -/
def passTick (s : State) (x : CascSum) : Nat :=
  let n := max 1 (lanesInUse s 2).length
  if flag s (F.LN_PORT_CTRL_FIXED 2) then heldTick s x - rowTicks s 2 (644 / n) else x.tick

/-- What a state gives if it is taken at an earlier elapsed time: a block that left then bears that time. -/
def sentAt (s : State) (n : Nat) (f : State → State) : State := { f { s with time := { s.time with now := n } } with time := s.time }

/-- CASC_SUM_PASS: an indexed member that is not the last sends a received sum on at its tick with its own contribution and pips; without a
stream of that key the packet goes on unchanged and is counted; a wrong trailer is stomped; in IDLE none is sent (R351-R353, R442). -/
def execCascSumPass (t : Nat) (s : State) : Out :=
  let s := advance t s
  .next <|
    if !isMember s || !isIndexed s || !childInChain s then s
    else match s.casc.sums with
      | [] => s
      | x :: l =>
        if s.time.tick < passTick s x then s
        else if !isActive s then modCasc s fun y => { y with sums := l }
        else
          let s := modCasc s fun y => { y with sums := l }
          let own := keyStream s x.key
          let s := if own.isNone then satAdd s F.CAS_STAT2_NO_STREAM 1 else s
          let r : List Sample × Nat := match own with
            | some (_, y) => match slotCarrier s y x.slot with
              | some c => (addSamples x.data (contribution s y.carrier c y.layer x.slot), x.pip ||| ulPips s y c x.slot)
              | none => (x.data, x.pip)
            | none => (x.data, x.pip)
          if portUp s 1 then sentAt s (timeOf s (passTick s x)) fun s =>
            sendBytes s 1 (packetBytes (sumPacket x.key x.origin x.slot x.seq r.2 x.reduced r.1) (!x.good))
          else satAdd s (F.LN_PORT_STAT_OVERRUN 1) 1

/-- CASC_COMBINE: at Z the lantern adds its own contribution to the sum of the same key and slot if that has come with a good trailer and its last
block is taken in by then (R352); else
it counts the sum as missing and pips its slot and the start of the next (R354, R356). -/
def execCascCombine (t stream first : Nat) (s : State) : Out :=
  let s := advance t s
  .next <|
    match streamAt s stream with
    | none => s
    | some x => match ulCarrier s x first with
      | none => s
      | some c =>
        let z := combineTick s c first
        if !combines s || !slotReady s x c first z || s.casc.combined.any (fun y => y.stream = stream && y.slot = first) then s
        else
          let data := contribution s x.carrier c x.layer first
          let got := s.casc.sums.find? fun y => y.key = ulKey x && y.slot = first && y.good && decide (max y.tick (heldTick s y) ≤ z)
          let after := s.casc.lost.contains (stream, first - 1024 * c.k)
          let y : Combined :=
            { stream := stream
              slot := first
              reduced := match got with | some g => g.reduced || decide (g.origin < s.casc.beyond.getD 0) | none => true
              pip := ulPips s x c first ||| (match got with | some g => g.pip | none => 2 ^ 64 - 1)
                ||| (if after then leadingBlocks (8 * slices c - 1) else 0)
              queueAt := z + 16
              data := addSamples data (match got with | some g => g.data | none => []) }
          let s := if got.isNone then satAdd s F.CAS_STAT_MISSING 1 else s
          modCasc s fun v => { v with
            sums := v.sums.filter fun g => !(g.key = ulKey x && decide (g.slot ≤ first))
            combined := v.combined ++ [y]
            lost := (v.lost.filter fun l => l.1 != stream) ++ if got.isNone then [(stream, first)] else [] }

/-! ## The end of a stream (R105; log 59) -/

/-- The slot that holds the present sample of a downlink stream as it is read out: its record, whose blocks from the present one on, which are
never read out whole, are pipped, goes to the partner with the records that wait. -/
def lastRecords (s : State) (x : Stream) (c : Carrier) : List EchoRecord :=
  let q := s.time.tick + dDl c 0
  let y := slotAt x c (c.grid + (q - c.grid) / (1024 * c.k) * (1024 * c.k))
  let cut := blockMask fun b => decide (q ≤ y.first + (16 * b + 15) * y.k)
  let r := echoRecord s c y
  x.echoes ++ if q < c.grid || y.echoed then [] else [{ r with pips := r.pips ||| cut }]

/-- The slot of an uplink stream that is in course is sent as it stands: samples not completed are zeros and their blocks are pipped. -/
def lastPacket (s : State) (j : Nat) (x : Stream) (c : Carrier) : State :=
  let n := s.time.tick
  let first := x.ulNext
  if n < first || !isActive s || isMember s || !slotSent s c first then s
  else
    let whole := fun q => decide (q + dUl c 0 ≤ n)
    let data := slotSamples s x c first fun q => if whole q then ulLayer s x.carrier c x.layer q else (0, 0)
    let cut := blockMask fun b => !whole (first + (16 * b + 15) * c.k)
    enqueue s 0 { pkt := ulPacket s j x first (ulPips s x c first ||| cut) false data, since := s.time.now, ctrl := false, index := j, q := none,
                  stomp := false }

/-- The carrier with the settings under which samples are read out now: the restart of a change comes 160 ticks before its first sample
(R163). -/
def readingSettings (s : State) (i : Nat) (c : Carrier) : Carrier := (carrierAhead s i c).atTick (s.time.tick + 160)

/-- A stream that is no orphan ends: its packets of the block in course are pipped. -/
def closeStream (s : State) (j : Nat) (x : Stream) : State :=
  match carrierAt s x.carrier, streamPartner s x with
  | some c, some p =>
    if x.dir = 1 then (match ulCarrier s x x.ulNext with | some c => lastPacket s j x c | none => s)
    else
      let l := (lastRecords s x (readingSettings s x.carrier c)).map (echoBytes (mkHandle 2 x.gen j))
      sendEchoes l.length s p l
  | _, _ => s

/-- STREAM_DESTROY (15h): LEASE_REVOKE for a stream that is no orphan, ORPHAN_DESTROYED with CAUSE 0 for one that is (R105, R326,
R329). -/
def execStreamDestroy (t : Nat) (c : Cmd) (s : State) : Out :=
  runCmd t 0x15 c s [] fun s f =>
    immediate s f false none false fun s =>
      let j := handleIdx c.handle
      match streamAt s j with
      | none => (s, 0)
      | some x =>
        let s := if x.orphan.isSome then postOrphanEnd s j 0
          else match streamPartner s x with
            | some p => sendMessage (closeStream s j x) p 0x07 (leBytes 4 c.handle)
            | none => s
        (removeStream s j, 0)

/-! ## Counts that samples raise (R140, R141, R146, R172, R182, R192, R214, R229) -/

/-- The words that count samples or note an overload: the lowest bits of their 16-bit counts, and whether bit 31 is a sticky bit of theirs:
BEAM.SAT, TXP(n).CFR_STAT, TXP(n).SAT, RXP(n).ADC_STAT, RXP(n).SAT, DPD.SAT(n), ORX(k).STAT. -/
def sampleFields (a : Nat) : List Nat × Bool :=
  if a = 0x40020 then ([0, 16], false)
  else if 0x80000 ≤ a && a < 0x90000 && (a % 0x400 = 0x14 || a % 0x400 = 0x30) then ([0, 16], false)
  else if 0xC0000 ≤ a && a < 0xD0000 && a % 0x400 = 0x70 then ([0], true)
  else if 0xC0000 ≤ a && a < 0xD0000 && a % 0x400 = 0x74 then ([0], false)
  else if 0x101000 ≤ a && a < 0x101400 && a % 0x10 = 0xC then ([0], false)
  else if 0x180000 ≤ a && a < 0x180400 && a % 0x100 = 0x20 then ([], true)
  else ([], false)

/-- A word that counts samples is brought up to date with those that have passed since it last was. -/
def settleSamples (s : State) (a : Nat) : State :=
  let x := sampleFields a
  if x.1.isEmpty && !x.2 then s
  else
    let since := (assocGet s.host.sampledAt a).getD 0
    let raised := fun lo => countOver s (risesAt a lo) since s.time.now
    let sticky := x.2 && decide (0 < raised (x.1.headD 31))
    let t := { s with host := { s.host with sampledAt := assocPut s.host.sampledAt a s.time.now } }
    let t := x.1.foldl (fun t lo => satAdd t ⟨⟨a, 0⟩, lo, 16⟩ (raised lo)) t
    if sticky then setFlag t ⟨⟨a, 0⟩, 31, 1⟩ true else t

end Sys2Proof.Machine
end

