-- ==== Sys2Proof/Machine/Sync.lean ====
section
/-!
DEFINITION. The load of an applied SYNC: device time, the flush of the pending-activation queue, and what every unit does at the SYNC origin
(spec/01_clocks_and_time.md R26, R32-R34, R49; spec/04_beam_engine.md R133; spec/05_transmit_path.md R162, R163;
spec/06_receive_path.md R197, R206; spec/07_predistortion.md R240; spec/14_bias_and_monitor.md R424, R435).
-/
namespace Sys2Proof.Machine

/-- Samples in flight are lost: buffered slots and sums go, echo records that are due wait for their message (R332), and every stream of every carrier goes on from the origin with a
new grant; what was accepted before is forgotten (R34, R152, R326; log 55). -/
def syncStreams (s : State) (g : Nat) : State :=
  let s : State := { s with
    carriers := s.carriers.map fun x => (x.1, syncCarrier s g x.2)
    streams := s.streams.map fun x => (x.1, { x.2 with slots := [], firstAccepted := none, ulOld := [] })
    arrivals := []
    casc := { s.casc with sums := [], combined := [], lost := [] } }
  s.carriers.foldl (fun s x => regrant (moveOrigin s x.1 g) x.1 x.2.k g) s

/-- DC windows restart from the origin, a reset that waits is due there and an acquisition goes on from there; pending swaps are gone (R197);
the spacing of gain-control steps starts anew (log 56). -/
def syncRx (s : State) (g : Nat) : State :=
  { s with
    swaps := []
    rx := s.rx.map fun x => { x with
      windowFrom := g, resetAt := x.resetAt.map fun _ => g, acqFrom := x.acqFrom.map fun _ => g, spoilt := [], lastStep := none, acqEnd := none } }

/-- A tick of the old count in the new one. -/
def moveTick (old new n : Nat) : Nat := new + n - old

/-- What runs by elapsed time keeps its place: captures and calibration runs (log 43). -/
def syncRuns (s : State) (old new : Nat) : State :=
  { s with
    captures := s.captures.map fun x => { x with tick := moveTick old new x.tick, first := x.first.map (moveTick old new),
                                                  rates := x.rates.map fun y => (moveTick old new y.1, y.2) }
    cals := s.cals.map fun x => (x.1, { x.2 with run := x.2.run.map fun r =>
      { r with start := moveTick old new r.start, emitAt := moveTick old new r.emitAt, grantAt := r.grantAt.map (moveTick old new) } }) }

/-- Every pending activation ends with SYNC_FLUSHED, in order of activation tick and then of arrival (R34). -/
def flushActs (s : State) (g : Nat) : State :=
  (sortBy (fun p => p.tick) (sortBy (fun p => p.id) s.acts)).foldl (fun s p => endAct s p stSyncFlushed g) s

/-- The load of a captured SYNC: `old` is the value replaced, `late` the ticks since the load. -/
def applySync (s : State) (value old late : Nat) : State :=
  let s := closeEra (countUnmapped s old)
  let log := match runningBank s with | some b => [(value, b + 1)] | none => []
  let s := { s with time := { s.time with tick := (value + late) % 2 ^ 64, origin := value, tddLog := log } }
  let s := set64 (setFlag s F.TIME_CLK_STATUS_TICK_VALID true) A.TIME_SYNC_LAST A.TIME_SYNC_LAST_1 old
  let s := postAt (wrapAdd s F.TIME_SYNC_COUNT_APPLIED 1) evSyncApplied value (evData [(16, 8, old), (24, 8, value)])
  let s := syncRx (syncRuns (flushActs s value) old value) value
  let s := beamOnSync (syncStreams s value)
  hkmOnSync (radioOnSync (lanesOnSync (dpdOnSync s)))

/-- SYNC_APPLIED: the load tick of a captured SYNC event has come (R32). -/
def execSyncApplied (t : Nat) (s : State) : Out :=
  let s := advance t s
  .next <| match dueSync s false with
    | none => s
    | some c =>
      let late := s.time.now - c.loadAt
      applySync (dropSync s c) c.value (s.time.tick - late) late

end Sys2Proof.Machine
end

