-- ==== Sys2Proof/Machine/HostAccess.lean ====
section
/-!
DEFINITION. Accesses through the PCIe windows: what a read of each word of W0 returns and clears, what a write of each word does, the
memories behind W2, PF1, and reads of the device that fail or bring source data (spec/02_host_rings.md R57-R63, R89;
spec/19_register_map.md R498-R502; spec/15_power_and_boot.md R444; spec/17_counters.md R473, R478).
-/
namespace Sys2Proof.Machine

/-! ## What a word shows -/

/-- The word of TXP(n).DELAY(c) (`d` 0) or RXP(n).DELAY(c): 0 while the slot holds no carrier of that direction (R149, R186). -/
def delayWord (s : State) (n c d : Nat) : Nat :=
  match carrierAt s c with
  | none => 0
  | some x => if !carries x d then 0 else if d = 0 then dDl x (corrDelay s n 0) else dUl x (corrDelay s n 1)

/-- A word of the response ROM (R209). -/
def romWord (off : Nat) : Nat :=
  let i := off / 0x800
  let j := off / 0x100 % 8
  let m := off / 4 % 8
  let used := if i < 32 || (48 ≤ i && i < 56) then true else decide (j < 6)
  if 5 ≤ m then 0
  else if used then unsigned 32 (Config.responseRom i j (off / 0x20 % 8) m).toInt
  else if m = 0 then 0x400000 else 0

/-- A word of the identity certificate: its length, then its bytes (R469). -/
def certWord (off : Nat) : Nat :=
  if off = 0 then Config.certificate.length % 2 ^ 32 else leNat ((Config.certificate.drop (off - 4)).take 4)

/-- A word of W0 outside every field table: the two data regions, else 0 (R58, R498). -/
def regionWord (a : Nat) : Nat :=
  if 0xE0000 ≤ a && a < 0x100000 then romWord (a - 0xE0000)
  else if 0x211000 ≤ a && a < 0x213000 then certWord (a - 0x211000)
  else 0

/-- The word that differs between the parts, for the registers of the part identity (R7, R502). -/
def partWord (s : State) (base raw : Nat) : Nat :=
  match s.part with
  | .iza6490 => raw
  | .iza6448 => match base with
    | 0x0 => 0x64480201
    | 0x4 => 0x73F30
    | 0x30 => 0x64481F2C
    | 0x34 => 0x216449
    | _ => raw

/-- The data that a word takes: on the IZA6448 the group registers ignore bits 6 and 7 (R7; spec/14_bias_and_monitor.md "Registers"). -/
def groupData (s : State) (base data : Nat) : Nat :=
  match s.part with
  | .iza6490 => data
  | .iza6448 => if 0x1F0300 ≤ base && base < 0x1F0318 then data &&& (2 ^ 32 - 1 - 0xC0) else data

/-- The word that a present register shows, by the base of its row: most words are held as they stand; the others are formed from the
state of their units. -/
def shownWord (s : State) (base : Nat) (l : List Nat) (raw : Nat) : Nat :=
  let i := l.headD 0
  let j := (l.drop 1).headD 0
  match base with
  | 0x0 | 0x4 | 0x30 | 0x34 => partWord s base raw
  | 0x8 => Config.deviceId % 2 ^ 32
  | 0xC => Config.deviceId / 2 ^ 32 % 2 ^ 32
  | 0x10010 => s.time.tick % 2 ^ 32
  | 0x10018 => frameOf s.time.tick % 2 ^ 32
  | 0x20024 => s.host.cfgLatch
  | 0x34100 => putBits raw 0 24 (periphLevel s i)
  | 0x34200 => putBits raw 0 24 (periphLevel s (0x20 + i))
  | 0x34240 => putBits raw 0 24 (periphLevel s (0x28 + i))
  | 0x80100 => delayWord s i j 0
  | 0x9000C => match streamAt s i with
    | some x => match carrierAt s x.carrier with | some c => bufferCap c.k | none => 0
    | none => 0
  | 0x91000 => pulseWord s i
  | 0xC0054 => putBits raw 31 1 (if acqShown s i then 1 else 0)
  | 0xC0100 => delayWord s i j 1
  | 0x1000C0 => basisTag s
  | 0x101008 => putBits (putBits (putBits raw 7 1 (if meets s i then 1 else 0)) 5 1 (if isHeld s then 1 else 0)) 0 4 (binOf s)
  | 0x1A0104 => putBits raw 28 1 (if signalShown s 0 i then 1 else 0)
  | 0x1B0104 => putBits raw 28 1 (if signalShown s 1 i then 1 else 0)
  | 0x1B0504 => putBits raw 28 1 (if signalShown s 2 i then 1 else 0)
  | 0x1D0004 => putBits raw 31 1 (if bitAt raw 31 && !flag s (F.LN_PORT_CTRL_FIXED 1) then 1 else 0)
  | 0x1F0308 => groupData s base raw
  | 0x210000 => Config.romVersion % 2 ^ 32
  | 0x210010 => 2 ^ 8 * (s.trust.policy % 4) + (if customerProgrammed s then 2 ^ 7 else 0) + fusedEpoch s
  | 0x210200 => leNat ((((keyHash (fusesNow s) (i + 1)).getD []).drop (4 * j)).take 4)
  | _ => raw

/-- A lane whose registers are accessed counts the errors of its search. -/
def settleLane (s : State) (a : Nat) : State :=
  if 0x1A0100 ≤ a && a < 0x1A0500 then settleSearch s 0 ((a - 0x1A0100) / 0x40)
  else if 0x1B0100 ≤ a && a < 0x1B0500 then settleSearch s 1 ((a - 0x1B0100) / 0x40)
  else if 0x1B0500 ≤ a && a < 0x1B0900 then settleSearch s 2 ((a - 0x1B0500) / 0x40)
  else s

/-- Work that is due in a block before it is read or written: edges of the coexistence wires and of CK_HK, ends of synthesiser starts, injected headers, slice blocks and samples to be
counted. -/
def settleBlock (s : State) (a : Nat) : State :=
  if a = 0x140500 then settleCoex s
  else if 0x140000 ≤ a && a < 0x1400C0 then settleLos s
  else if 0x1A0000 ≤ a && a < 0x1D0000 then settleLane (settleInjectors s) a
  else if 0x1E0000 ≤ a && a < 0x1F0000 then settleDram s
  else if 0x1F0000 ≤ a && a < 0x200000 then settleHk s
  else if a = 0x40024 then countUnmapped s s.time.tick
  else settleSamples s a

/-- The counter pairs of PMC: the adaptation processor whose pair the address belongs to. -/
def pairAp (a : Nat) : Option Nat :=
  let p := (a - 0x220000) / 0x100
  if 0x220000 ≤ a && p < 4 && ((pairAt p a).isSome || (pairAt p (a - 4)).isSome) then some p else none

/-- What a read of a word of W0 returns, with nothing cleared; `host` is PF0 (R58, R473, R478). -/
def viewWord (s : State) (a : Nat) (host : Bool) : State × Nat :=
  match rowOf a with
  | none => (s, regionWord a)
  | some (r, l) =>
    if !unitPresent s r l then (s, 0)
    else match pairAp a with
      | some p => readCounter s p a host
      | none =>
        let s := settleBlock s a
        let s := if 0x220000 ≤ a && a < 0x220400 then settlePmc s ((a - 0x220000) / 0x100) else s
        (s, shownWord s r.base l (rawWord s a r l))

/-! ## Reads of W0 (R58) -/

/-- The oldest record of a monitor FIFO leaves it: its low word is returned, its high word latched in word 1; 0 while the FIFO is empty or
bound to a channel (R434). -/
def popRecord (s : State) (k : Nat) : State × Nat :=
  let l := s.periph.results.getD k []
  if l.isEmpty || flag s (F.DMA_PERIPH_HELD (0x20 + k)) then (s, 0)
  else
    let s := setN s (A.MON_FIFO_1 k) (leNat ((l.drop 4).take 4))
    (showFifo { s with periph := { s.periph with results := s.periph.results.set k (l.drop 8) } } k, leNat (l.take 4))

/-- What the RC fields of a word have counted in this cycle, each in its place: `now` is the word before what is due of earlier cycles is
counted (R500). -/
def countedNow (s : State) (a : Nat) (r : RegRow) (l : List Nat) : Nat :=
  let start := ((assocGet s.cycle.regs a).map (·.toNat)).getD (r.reset + r.resetStep * l.headD 0)
  let now := rawWord s a r l
  (r.fields.filter fun f => f.access == .rc).foldl (fun m f =>
    m + (bitsOf now f.lo f.width - bitsOf start f.lo f.width) <<< f.lo) 0

/-- What a read by PF0 clears or latches: RC fields go to their reset value and keep what this cycle has counted in them, PEAK goes to the
depth; reads of TICK_LO and CFG_WRITES latch their high halves (R30, R45, R89, R500). -/
def afterRead (s : State) (a : Nat) (r : RegRow) (l : List Nat) (counted : Nat) : State :=
  if a = 0x10010 then setN s A.TIME_TICK_HI (s.time.tick / 2 ^ 32)
  else if a = 0x10060 then setF s F.TIME_QUEUE_PEAK s.acts.length
  else if a = 0x20020 then { s with host := { s.host with cfgLatch := getN s A.HOST_CFG_WRITES_1 } }
  else
    let m := accessMask r .rc
    if m = 0 then s
    else
      let v := (rawWord s a r l &&& (2 ^ 32 - 1 - m)) ||| (r.reset &&& m)
      let s := setN s ⟨a, 0⟩ (v + counted)
      { s with cycle := { s.cycle with regs := assocPut s.cycle.regs a (BitVec.ofNat 32 v) } }

/-- A 32-bit read of W0 (R58). -/
def readWord (s : State) (a : Nat) : State × Nat :=
  match rowOf a with
  | none => (s, regionWord a)
  | some (r, l) =>
    if !unitPresent s r l then (s, 0)
    else if r.base = 0x1F0410 then popRecord (settleHk s) (l.headD 0)
    else
      let counted := countedNow s a r l
      let x := viewWord s a true
      (afterRead x.1 a r l counted, x.2 - counted)

/-- An address lies in the wick page (R444). -/
def isWick (a : Nat) : Bool := decide (0x200100 ≤ a) && decide (a < 0x200200)

/-- A 32-bit read of W0 by the host while PCIe is up: from the commit point to the end of the wake sequence only the wick page answers
(R444). -/
def hostRead (s : State) (a : Nat) : State × Nat :=
  if asleep s && !isWick a then (satAdd s F.PWR_WICK_BLOCKED_READS 1, 2 ^ 32 - 1) else readWord s a

/-! ## Writes of W0 (R58, R89, R500) -/

/-- A write of a register word without behaviour of its own: RW fields take the data, ones clear W1C fields, the rest ignores it. -/
def storeWord (s : State) (a : Nat) (r : RegRow) (l : List Nat) (data : Nat) : State :=
  let rw := accessMask r .rw
  let w1c := accessMask r .w1c
  let old := rawWord s a r l
  setN s ⟨a, 0⟩ (((old &&& (2 ^ 32 - 1 - rw)) ||| (data &&& rw)) &&& (2 ^ 32 - 1 - (data &&& w1c)))

/-- The data of a write as it lands on a word of which the device has set bits in this cycle: a field that a scheduled activation has set at this
very tick keeps that value, and a W1C bit that an event has set stays (R500). -/
def landed (s : State) (a : Nat) (r : RegRow) (l : List Nat) (data : Nat) : Nat :=
  let h := heldMask s a
  (data &&& (2 ^ 32 - 1 - h)) ||| (rawWord s a r l &&& h &&& accessMask r .rw)

/-- PWR.WICK_CFG: EN_RAIL(7) follows RAIL7_EN in ACTIVE and IDLE (R440). -/
def writeWickCfg (s : State) (data : Nat) : State :=
  let s := setF s F.PWR_WICK_CFG_RAIL7_PG (bitsOf data 1 1)
  let s := setF s F.PWR_WICK_CFG_RAIL7_EN (bitsOf data 0 1)
  if asleep s then s else driveRail s 7 (bitAt data 0)

/-- The write of a present register: those with behaviour of their own by the base of their row, the others as storeWord says. -/
def writeRow (s : State) (a : Nat) (r : RegRow) (l : List Nat) (data : Nat) : State :=
  let i := l.headD 0
  let j := (l.drop 1).headD 0
  let plain := fun (s : State) => storeWord s a r l data
  let still := chState s i = chIdle || chState s i = chHalted
  match r.base with
  | 0x18 => if bitAt data 0 then chipReset s else s
  | 0x10000 => writeClkCtrl s data
  | 0x10020 => writeSyncCtrl s data
  | 0x10050 | 0x10054 | 0x10100 => patternChanged (plain (settleWindows s))
  | 0x20014 => if s.power.phase == .run then { s with host := { s.host with kick := true } } else s
  | 0x20100 | 0x20104 | 0x20108 | 0x2010C => if flag s (F.HOST_CMDR_CTRL_ENABLE i) then s else plain s
  | 0x20500 | 0x20504 | 0x20508 | 0x2050C => if flag s (F.HOST_CQR_CTRL_ENABLE i) then s else plain s
  | 0x20900 | 0x20904 | 0x20908 | 0x2090C => if flag s (F.HOST_EVR_CTRL_ENABLE i) then s else plain s
  | 0x20110 => writeCmdCtrl s i data
  | 0x20510 => writeCqCtrl s i data
  | 0x20910 => writeEvCtrl s i data
  | 0x30008 => writePc s i 0 data
  | 0x3000C => writePc s i 1 data
  | 0x30018 | 0x30020 | 0x30024 | 0x30028 | 0x3002C => if still then plain s else s
  | 0x34008 => writeEvtSet s i data
  | 0x41000 => writeCorr s i j 0 data
  | 0x41004 => writeCorr s i j 1 data
  | 0x80000 => writeTxCtrl s i data
  | 0xC0000 => writeRxCtrl s i data
  | 0xC0050 => writeDcCtrl s i data
  | 0x100000 => writeTerm s 0 data
  | 0x100004 => writeTerm s (i + 1) data
  | 0x101000 => writePolicy s i data
  | 0x140000 => refreshLo (plain s) i
  | 0x140400 => profileChanged (plain s) i
  | 0x140500 => writeCoex s data
  | 0x180000 => orxEnChanged (refreshLo (plain s) 2) i
  | 0x1A0000 => writePortCtrl s 0 data
  | 0x1B0000 => writePortCtrl s 1 data
  | 0x1B0080 => writePortCtrl s 2 data
  | 0x1A0100 => writeLaneCtrl s 0 i data
  | 0x1B0100 => writeLaneCtrl s 1 i data
  | 0x1B0500 => writeLaneCtrl s 2 i data
  | 0x1E0000 => writeMemcCtrl s data
  | 0x1F0300 => writeHuskRelease s data
  | 0x1F0304 => writeHuskSet s data
  | 0x1F0310 => writeStrobe s data
  | 0x200000 => writeMode s data
  | 0x200104 => writeWickCfg s data
  | 0x20010C => writeWakeReq s data
  | 0x210004 => writeHostLen s data
  | 0x210014 => writeStage s data
  | 0x210018 => writeStageCtrl s data
  | 0x210020 => writeFuseProg s data
  | 0x220000 => writePmcCtl s i data
  | 0x220008 | 0x22000C | 0x220040 | 0x220044 => writeCounter s i a data
  | 0x220010 | 0x220020 | 0x220084 => plain (settlePmc s i)
  | 0x220080 => restartSampling (plain (settlePmc s i)) i data
  | 0x220808 => writeSampWr s data
  | _ => plain (settleBlock s a)

/-- A 32-bit write of W0: addresses without a register and registers of absent units ignore it (R7, R58, R500). -/
def writeWord (s : State) (a data : Nat) : State :=
  match rowOf a with
  | none => s
  | some (r, l) => if unitPresent s r l then writeRow s a r l (landed s a r l (groupData s r.base (data % 2 ^ 32))) else s

/-- A 32-bit write of W0 by the host while PCIe is up: it counts in CFG_WRITES but for KICK (R89); while the device sleeps only the wick page
takes it (R444). -/
def hostStore (s : State) (a data : Nat) : State :=
  if asleep s then (if isWick a then driveAlert s (writeWord (modPower s fun p => { p with blocked := p.blocked + 1 }) a data)
    else blockWrite s (a != A.HOST_KICK.addr))
  else if a = A.HOST_KICK.addr then writeWord s a data
  else driveAlert s (writeWord (countCfg s 1) a data)

/-- Software has put both functions into a state other than D0, or the device sleeps, or L1 is enabled in ASPM Control and the link, with no
read of the device outstanding, has gone to it: the link is in L1. When an idle link goes to ASPM L1 is a free value (R56, R446; log 8). -/
def linkInL1 (s : State) : Bool :=
  s.power.link && ((s.host.dstate.1 != 0 && s.host.dstate.2 != 0) || asleep s
    || (bitAt s.host.aspm 1 && ringReads s + sharedReads s == 0 && Config.aspmL1 s.time.now))

/-- TDD_ENTRY_WRITE: a write of TIME.TDD_ENTRY(b, i); one that leaves the running bank invalid stops the table (R43, R503). -/
def execTddEntryWrite (t bank entry data : Nat) (s : State) : Out :=
  byWrite t s fun s => if bank < 2 && entry < 64 then writeWord s (0x10100 + 0x100 * bank + 4 * entry) data else s

/-- REGISTER_WRITE: a 32-bit write of a word of W0 or W4, or of the configuration space of PF0 (R56-R58, R62-R64, R500). -/
def execRegisterWrite (t : Nat) (target : RegTarget) (s : State) : Out :=
  let s := advance t s
  .next <|
    if !pcieUp s then s
    else match target with
      | .w0 a data => if a % 4 = 0 && a < 0x400000 then hostStore s a data else s
      | .w4 a data => storeMsix s a data
      | .pcie bm t10 ext mrrs value aspm => writeConfig s fun s => { s with host := { s.host with
          busMaster := bm, tag10 := t10, extTag := ext, mrrs := mrrs, timeoutValue := value, aspm := aspm } }
      | .msix on func => writeConfig s fun s => writeMsixControl s on func
      | .aer clear cor => writeConfig s fun s => { s with host := { s.host with
          aer := s.host.aer &&& (2 ^ 32 - 1 - clear % 2 ^ 32), aerCor := s.host.aerCor &&& (2 ^ 32 - 1 - cor % 2 ^ 32) } }
      | .aerControl mask severity cor => writeConfig s fun s => { s with host := { s.host with
          aerMask := mask, aerSeverity := severity, aerCorMask := cor } }
      | .powerState fn d => writeConfig s fun s => { s with host := { s.host with
          dstate := if fn = 0 then (d, s.host.dstate.2) else (s.host.dstate.1, d) } }
      | .reporting enables => writeConfig s fun s => { s with host := { s.host with reporting := enables % 16 } }
      | .retrain speed width => writeConfig s fun s => { s with host := { s.host with trained := (speed, width) } }

/-! ## Whole accesses -/

/-- The words of an access to W4 of one or two words (R57). -/
def w4Words (s : State) (x : Sys2Proof.Access) : State :=
  let two := x.len = 8
  if x.write then
    let s := storeMsix s x.addr (x.data % 2 ^ 32)
    if two then storeMsix s (x.addr + 4) (x.data / 2 ^ 32) else s
  else emit s (.readData (msixWord s x.addr + if two then 2 ^ 32 * msixWord s (x.addr + 4) else 0))

/-- A malformed access to W0 (R58). -/
def malformed (x : Sys2Proof.Access) : Bool := (x.len != 4 && x.len != 8) || x.addr % 4 != 0 || !x.enables

/-- The words of a read of W0, the lower address first. -/
def readWords (s : State) (a : Nat) : Nat → State × Nat
  | 0 => (s, 0)
  | n + 1 =>
    let x := hostRead s a
    let y := readWords x.1 (a + 4) n
    (y.1, x.2 + 2 ^ 32 * y.2)

/-- The words of a write of W0, the lower address first. -/
def writeWords (s : State) (a data : Nat) : Nat → State
  | 0 => s
  | n + 1 => writeWords (hostStore s a (data % 2 ^ 32)) (a + 4) (data / 2 ^ 32) n

/-- MALFORMED_ACCESS: a malformed access to W0 is answered with ones and counted once; one that is well formed is carried out;
a malformed one to W4 does nothing (R57, R58, R89, R444; log 7). -/
def execMalformedAccess (t : Nat) (access : Sys2Proof.Access) (s : State) : Out :=
  let s := advance t s
  let x := access
  .next <|
    if !pcieUp s then s
    else if x.w4 then if malformed x then s else w4Words s x
    else if malformed x && asleep s then
      if x.write then blockWrite s true else emit (satAdd s F.PWR_WICK_BLOCKED_READS 1) (.readData (2 ^ (8 * x.len) - 1))
    else if malformed x then
      let s := satAdd s F.HOST_ACCESS_ERR_COUNT 1
      if x.write then countCfg s 1 else emit s (.readData (2 ^ (8 * x.len) - 1))
    else if x.write then writeWords s x.addr x.data (x.len / 4)
    else
      let r := readWords s x.addr (x.len / 4)
      emit r.1 (.readData r.2)

/-- An access to the DRAM part of W2 misses: a read returns ones, MISS is set (R59). -/
def missAccess (s : State) (x : Sys2Proof.Access) : State :=
  let s := raiseFlag s F.HOST_APERTURE_STATUS_MISS
  if x.write then s else emit s (.readData (2 ^ (8 * x.len) - 1))

/-- W2_ACCESS: the store, or the DRAM behind HOST.DRAM_WINDOW; a read that arrives in a pause or a change of rate is answered when it ends, with what
stood there when it arrived (R59, R402, R403, R405, R410, R411, R413, R444). -/
def execW2Access (t : Nat) (access : Sys2Proof.Access) (s : State) : Out :=
  let s := advance t s
  let x := access
  .next <|
    if !pcieUp s then s
    else if asleep s then
      if x.write then blockWrite s false else emit (satAdd s F.PWR_WICK_BLOCKED_READS 1) (.readData (2 ^ (8 * x.len) - 1))
    else if x.addr < storeSize then
      if x.write then { s with store := memWrite s.store x.addr (leBytes x.len x.data) }
      else emit s (.readData (leNat (memRead s.store x.addr x.len)))
    else
      let a := 2 ^ 20 * getF s F.HOST_DRAM_WINDOW_BASE_MIB + (x.addr - storeSize)
      if !dramTrained s || decide (s.dramSize < a + x.len) then missAccess s x
      else
        let s := disturbSr s
        if flag s F.MEMC_STATUS_SR then missAccess s x
        else if x.write then { s with dram := memWrite s.dram a (leBytes x.len x.data) }
        else if portServes s then emit s (.readData (leNat (memRead s.dram a x.len)))
        else modMemc s fun m => { m with w2 := m.w2 ++ [(leNat (memRead s.dram a x.len), x.len)] }

/-- The word of PF0 that a word of PF1 shows (R478). -/
def pf1Source (a : Nat) : Option Nat :=
  if a < 0x1000 then some (0x220000 + a)
  else if a < 0x1400 && a % 16 = 0 then some (0x101008 + (a - 0x1000))
  else if 0x1400 ≤ a && a < 0x1410 then some (0x180024 + 0x40 * (a - 0x1400))
  else if 0x1410 ≤ a && a < 0x1420 then some (0x180028 + 0x40 * (a - 0x1410))
  else if a = 0x1420 then some 0x10060
  else if a = 0x1424 then some 0x10064
  else if a = 0x1428 || a = 0x142C then some (0x1D0018 + (a - 0x1428))
  else if 0x1500 ≤ a && a < 0x1560 && (a - 0x1500) % 0x20 ≤ 0x10 then some (0x1C0100 + (a - 0x1500))
  else none

/-- A word of PF1: nothing is cleared (R60, R478). -/
def pf1Word (s : State) (a : Nat) : State × Nat :=
  if !flag s F.HOST_IF_CTRL_COUNTER_EXPOSE then (s, 0)
  else if asleep s then (s, (Config.pf1Asleep a).toNat)
  else match pf1Source a with
    | none => (s, 0)
    | some b => viewWord s b false

/-- The words of a PF1 read. -/
def pf1Words (s : State) (a : Nat) : Nat → State × Nat
  | 0 => (s, 0)
  | n + 1 =>
    let x := pf1Word s a
    let y := pf1Words x.1 (a + 4) n
    (y.1, x.2 + 2 ^ 32 * y.2)

/-- PF1_READ: writes through PF1 are discarded (R60, R478). -/
def execPf1Read (t : Nat) (access : Sys2Proof.Access) (s : State) : Out :=
  let s := advance t s
  let x := access
  .next <|
    if !pcieUp s || x.write then s
    else
      let r := pf1Words s (x.addr - x.addr % 4) (ceilDiv (x.addr % 4 + x.len) 4)
      emit r.1 (.readData (r.2 / 256 ^ (x.addr % 4) % 256 ^ x.len))

/-! ## Reads of the device (R63, R98) -/

/-- The command in flight whose source data is being read. -/
def sourceFlight (s : State) (ring tag : Nat) : Option Flight :=
  s.host.flight.find? fun f => f.cmd.ring = ring && f.cmd.tag = tag && f.stage == .running && (f.cmd.opcode = 0x19 || f.cmd.opcode = 0x39)
    && (f.source.2 == 0 || decide (0 < f.reads))

/-- Bytes of a source region whose requests are outstanding. -/
def sourceOwed (f : Flight) : Nat := f.source.2 - f.rest.2 - f.got.length

/-- The source data of a command are whole: the command is carried out with them, in DRAM once the port serves it (R98, R125, R225). -/
def sourceWhole (s : State) (f : Flight) (data : List Byte) : State :=
  let uses := dramTrained s && if f.cmd.opcode = 0x19 then decide (p8 f.cmd 16 = 2) || isLib (handleIdx f.cmd.handle) else decide (p8 f.cmd 18 = 2)
  throughPort uses (fun s =>
    let s := keepSource s f []
    pumpShared (if f.cmd.opcode = 0x19 then wsLoadArrived s f data else coefArrived s f data)) s

/-- SOURCE_DATA_READ_COMPLETE: the requests of a WS_LOAD or DPD_COEF_LOAD that are outstanding have completed; `data` is what host memory gave.
While a part of the region has found no tag yet, its requests follow as tags come free; the last data carries the command out (R62, R98,
R125, R225). In sleep nothing is read (R446). -/
def execSourceDataReadComplete (t ring tag : Nat) (data : List Byte) (s : State) : Out :=
  let s := advance t s
  .next <| if asleep s then s else match sourceFlight s ring tag with
    | none => s
    | some f =>
      if 0 < f.rest.2 then (if data.length = sourceOwed f then pumpShared (keepSource s f data) else s)
      else sourceWhole s f (f.got ++ data)

/-- READ_COMPLETION_TIMEOUT: a read gets no completion within the limit, or ends with UR or CA (`abort`): rings halt or retry, a command
fails, a channel halts (R63, R73, R74, R98, R372). -/
def execReadCompletionTimeout (t : Nat) (user : ReadUser) (abort : Bool) (s : State) : Out :=
  let s := advance t s
  .next <| match user with
    | .source ring tag => match sourceFlight s ring tag with
      | none => s
      | some f =>
        if f.source.2 == 0 || !readFailed s abort (f.readAt.getD s.time.now) then s
        else
          let s := leaveStrays (noteTimeout s abort) (f.readAt.getD s.time.now) (f.reads - 1)
          let st := if abort then stFetchAbort else stFetchTimeout
          pumpShared (if f.cmd.opcode = 0x19 then wsLoadFailed s f st else reject s f st)
    | .dma c => dmaReadFault s c abort
    | u => ringReadFault s u abort

end Sys2Proof.Machine
end

