-- ==== Sys2Proof/Machine/Dispatch.lean ====
section
/-!
DEFINITION. One arm for each command: the direct call of its meaning, in the order of spec/opcode_table.json.
-/
namespace Sys2Proof.Machine

/-- The effect of a command on everything but the queue. -/
def exec (i : Instr) (s : State) : Host.Outcome State Fault Refusal :=
  match i with
  | .nop t c => Sys2Proof.Machine.execNop t c s
  | .fence t c => Sys2Proof.Machine.execFence t c s
  | .cancel t c => Sys2Proof.Machine.execCancel t c s
  | .cfgDigest t c => Sys2Proof.Machine.execCfgDigest t c s
  | .attest t c => Sys2Proof.Machine.execAttest t c s
  | .storeClaim t c => Sys2Proof.Machine.execStoreClaim t c s
  | .storeRelease t c => Sys2Proof.Machine.execStoreRelease t c s
  | .carrierCreate t c => Sys2Proof.Machine.execCarrierCreate t c s
  | .carrierSet t c => Sys2Proof.Machine.execCarrierSet t c s
  | .carrierDestroy t c => Sys2Proof.Machine.execCarrierDestroy t c s
  | .streamCreate t c => Sys2Proof.Machine.execStreamCreate t c s
  | .streamDestroy t c => Sys2Proof.Machine.execStreamDestroy t c s
  | .wsCreate t c => Sys2Proof.Machine.execWsCreate t c s
  | .wsLoad t c => Sys2Proof.Machine.execWsLoad t c s
  | .wsActivate t c => Sys2Proof.Machine.execWsActivate t c s
  | .wsDestroy t c => Sys2Proof.Machine.execWsDestroy t c s
  | .pathCorr t c => Sys2Proof.Machine.execPathCorr t c s
  | .rxGain t c => Sys2Proof.Machine.execRxGain t c s
  | .cfrSet t c => Sys2Proof.Machine.execCfrSet t c s
  | .dcLoad t c => Sys2Proof.Machine.execDcLoad t c s
  | .loTune t c => Sys2Proof.Machine.execLoTune t c s
  | .loCal t c => Sys2Proof.Machine.execLoCal t c s
  | .podState t c => Sys2Proof.Machine.execPodState t c s
  | .fesbWrite t c => Sys2Proof.Machine.execFesbWrite t c s
  | .tddSwap t c => Sys2Proof.Machine.execTddSwap t c s
  | .calCreate t c => Sys2Proof.Machine.execCalCreate t c s
  | .calStart t c => Sys2Proof.Machine.execCalStart t c s
  | .calDestroy t c => Sys2Proof.Machine.execCalDestroy t c s
  | .capCreate t c => Sys2Proof.Machine.execCapCreate t c s
  | .capStart t c => Sys2Proof.Machine.execCapStart t c s
  | .capDestroy t c => Sys2Proof.Machine.execCapDestroy t c s
  | .dpdPolicy t c => Sys2Proof.Machine.execDpdPolicy t c s
  | .dpdCoefLoad t c => Sys2Proof.Machine.execDpdCoefLoad t c s
  | .dpdDump t c => Sys2Proof.Machine.execDpdDump t c s
  | .biasSet t c => Sys2Proof.Machine.execBiasSet t c s
  | .biasStrobe t c => Sys2Proof.Machine.execBiasStrobe t c s
  | .monScan t c => Sys2Proof.Machine.execMonScan t c s
  | .monUrgent t c => Sys2Proof.Machine.execMonUrgent t c s
  | .pwrDomain t c => Sys2Proof.Machine.execPwrDomain t c s
  | .laneState t c => Sys2Proof.Machine.execLaneState t c s
  | .cascDiscover t c => Sys2Proof.Machine.execCascDiscover t c s
  | .fiSet t c => Sys2Proof.Machine.execFiSet t c s
  | .fiClear t c => Sys2Proof.Machine.execFiClear t c s
  | .dmaCreate t c => Sys2Proof.Machine.execDmaCreate t c s
  | .dmaStart t c => Sys2Proof.Machine.execDmaStart t c s
  | .dmaStop t c => Sys2Proof.Machine.execDmaStop t c s
  | .dmaDestroy t c => Sys2Proof.Machine.execDmaDestroy t c s
  | .partnerDestroy t c => Sys2Proof.Machine.execPartnerDestroy t c s
  | .scheduledActivation t => Sys2Proof.Machine.execScheduledActivation t s
  | .carrierRestart t carrier => Sys2Proof.Machine.execCarrierRestart t carrier s
  | .ulCarrierRestart t carrier => Sys2Proof.Machine.execUlCarrierRestart t carrier s
  | .ringPoll t => Sys2Proof.Machine.execRingPoll t s
  | .kick t => Sys2Proof.Machine.execKick t s
  | .piReadComplete t ring pi => Sys2Proof.Machine.execPiReadComplete t ring pi s
  | .entryFetchComplete t ring index entries => Sys2Proof.Machine.execEntryFetchComplete t ring index entries s
  | .ciReadComplete t kind ring ci => Sys2Proof.Machine.execCiReadComplete t kind ring ci s
  | .readCompletionTimeout t user abort => Sys2Proof.Machine.execReadCompletionTimeout t user abort s
  | .completionWrite t cq => Sys2Proof.Machine.execCompletionWrite t cq s
  | .completionBacklogDrain t ring => Sys2Proof.Machine.execCompletionBacklogDrain t ring s
  | .eventQueueDrain t ring => Sys2Proof.Machine.execEventQueueDrain t ring s
  | .msixModerationExpiry t kind ring => Sys2Proof.Machine.execMsixModerationExpiry t kind ring s
  | .ringCtrlWrite t kind ring data => Sys2Proof.Machine.execRingCtrlWrite t kind ring data s
  | .functionLevelReset t => Sys2Proof.Machine.execFunctionLevelReset t s
  | .pf1FunctionLevelReset t => Sys2Proof.Machine.execPf1FunctionLevelReset t s
  | .malformedAccess t access => Sys2Proof.Machine.execMalformedAccess t access s
  | .w2Access t access => Sys2Proof.Machine.execW2Access t access s
  | .pf1Read t access => Sys2Proof.Machine.execPf1Read t access s
  | .registerWrite t target => Sys2Proof.Machine.execRegisterWrite t target s
  | .rootEnWrite t data => Sys2Proof.Machine.execRootEnWrite t data s
  | .laneEnWrite t data => Sys2Proof.Machine.execLaneEnWrite t data s
  | .rootPllLock t => Sys2Proof.Machine.execRootPllLock t s
  | .lanePllLock t => Sys2Proof.Machine.execLanePllLock t s
  | .clockUnlock t pll => Sys2Proof.Machine.execClockUnlock t pll s
  | .pllRelock t pll => Sys2Proof.Machine.execPllRelock t pll s
  | .syncArm t data => Sys2Proof.Machine.execSyncArm t data s
  | .syncEvent t => Sys2Proof.Machine.execSyncEvent t s
  | .syncApplied t => Sys2Proof.Machine.execSyncApplied t s
  | .syncCheck t => Sys2Proof.Machine.execSyncCheck t s
  | .syncOutScheduled t => Sys2Proof.Machine.execSyncOutScheduled t s
  | .patternTableStart t => Sys2Proof.Machine.execPatternTableStart t s
  | .patternTableStop t => Sys2Proof.Machine.execPatternTableStop t s
  | .tddEntryWrite t bank entry data => Sys2Proof.Machine.execTddEntryWrite t bank entry data s
  | .frameBoundary t => Sys2Proof.Machine.execFrameBoundary t s
  | .adaptiveSwapRequest t path kind bin gain tick better base data => Sys2Proof.Machine.execAdaptiveSwapRequest t path kind bin gain tick better base data s
  | .adaptiveSwap t => Sys2Proof.Machine.execAdaptiveSwap t s
  | .prefetchStart t carrier dir => Sys2Proof.Machine.execPrefetchStart t carrier dir s
  | .prefetchComplete t carrier dir => Sys2Proof.Machine.execPrefetchComplete t carrier dir s
  | .dramPrefetchLate t carrier dir => Sys2Proof.Machine.execDramPrefetchLate t carrier dir s
  | .stagedCopyStart t carrier dir => Sys2Proof.Machine.execStagedCopyStart t carrier dir s
  | .weightSetSwap t carrier dir => Sys2Proof.Machine.execWeightSetSwap t carrier dir s
  | .oldSetFreed t carrier dir => Sys2Proof.Machine.execOldSetFreed t carrier dir s
  | .corrWrite t path dir word data => Sys2Proof.Machine.execCorrWrite t path dir word data s
  | .dlPacketArrival t => Sys2Proof.Machine.execDlPacketArrival t s
  | .slotDecided t stream first => Sys2Proof.Machine.execSlotDecided t stream first s
  | .echoRecord t stream first => Sys2Proof.Machine.execEchoRecord t stream first s
  | .echo t => Sys2Proof.Machine.execEcho t s
  | .txpCtrlWrite t path data => Sys2Proof.Machine.execTxpCtrlWrite t path data s
  | .rxpCtrlWrite t path data => Sys2Proof.Machine.execRxpCtrlWrite t path data s
  | .gainControlStep t path gain tick => Sys2Proof.Machine.execGainControlStep t path gain tick s
  | .dcWindowEnd t path => Sys2Proof.Machine.execDcWindowEnd t path s
  | .dcReset t path => Sys2Proof.Machine.execDcReset t path s
  | .ulPacketQueued t stream first => Sys2Proof.Machine.execUlPacketQueued t stream first s
  | .packetSend t port => Sys2Proof.Machine.execPacketSend t port s
  | .packetOverrun t port => Sys2Proof.Machine.execPacketOverrun t port s
  | .dpdTermWrite t k data => Sys2Proof.Machine.execDpdTermWrite t k data s
  | .dpdSlotStart t orx => Sys2Proof.Machine.execDpdSlotStart t orx s
  | .dpdCaptureStart t orx => Sys2Proof.Machine.execDpdCaptureStart t orx s
  | .dpdCaptureEnd t orx => Sys2Proof.Machine.execDpdCaptureEnd t orx s
  | .dpdSolveDone t path bin better base data => Sys2Proof.Machine.execDpdSolveDone t path bin better base data s
  | .spectrumMonitorCapture t orx path aclr evm => Sys2Proof.Machine.execSpectrumMonitorCapture t orx path aclr evm s
  | .captureStart t job => Sys2Proof.Machine.execCaptureStart t job s
  | .captureDone t job written => Sys2Proof.Machine.execCaptureDone t job written s
  | .loLocked t synth => Sys2Proof.Machine.execLoLocked t synth s
  | .loLossOfLock t synth => Sys2Proof.Machine.execLoLossOfLock t synth s
  | .loCalDone t synth failed => Sys2Proof.Machine.execLoCalDone t synth failed s
  | .calibrationGapStart t => Sys2Proof.Machine.execCalibrationGapStart t s
  | .ladderStepEnd t => Sys2Proof.Machine.execLadderStepEnd t s
  | .patternTurnaround t => Sys2Proof.Machine.execPatternTurnaround t s
  | .fePinEdge t pod => Sys2Proof.Machine.execFePinEdge t pod s
  | .fesbFrameStart t half => Sys2Proof.Machine.execFesbFrameStart t half s
  | .fesbFrameEnd t half bits => Sys2Proof.Machine.execFesbFrameEnd t half bits s
  | .coexGntISeen t level => Sys2Proof.Machine.execCoexGntISeen t level s
  | .coexReqISeen t level => Sys2Proof.Machine.execCoexReqISeen t level s
  | .grantWaitExpiry t job => Sys2Proof.Machine.execGrantWaitExpiry t job s
  | .calEmissionStart t job => Sys2Proof.Machine.execCalEmissionStart t job s
  | .calStepEnd t job meas => Sys2Proof.Machine.execCalStepEnd t job meas s
  | .calDone t job => Sys2Proof.Machine.execCalDone t job s
  | .orxImageCalEnd t job found => Sys2Proof.Machine.execOrxImageCalEnd t job found s
  | .slip t port lane data => Sys2Proof.Machine.execSlip t port lane data s
  | .restart t port lane data => Sys2Proof.Machine.execRestart t port lane data s
  | .blockLock t port lane nat => Sys2Proof.Machine.execBlockLock t port lane nat s
  | .blockLockLoss t port lane nat signal => Sys2Proof.Machine.execBlockLockLoss t port lane nat signal s
  | .laneDead t port lane signal => Sys2Proof.Machine.execLaneDead t port lane signal s
  | .markerSend t port => Sys2Proof.Machine.execMarkerSend t port s
  | .markerReceive t port lane before line => Sys2Proof.Machine.execMarkerReceive t port lane before line s
  | .lanePowerEntry t port lane => Sys2Proof.Machine.execLanePowerEntry t port lane s
  | .lanePowerExitEnd t port lane => Sys2Proof.Machine.execLanePowerExitEnd t port lane s
  | .laneDownEnd t port slot => Sys2Proof.Machine.execLaneDownEnd t port slot s
  | .equaliserAdaptStep t port lane up => Sys2Proof.Machine.execEqualiserAdaptStep t port lane up s
  | .laneLoopWrite t port lane data => Sys2Proof.Machine.execLaneLoopWrite t port lane data s
  | .packetReceive t port first lanes => Sys2Proof.Machine.execPacketReceive t port first lanes s
  | .hello t => Sys2Proof.Machine.execHello t s
  | .keepaliveReceive t => Sys2Proof.Machine.execKeepaliveReceive t s
  | .leaseAck t => Sys2Proof.Machine.execLeaseAck t s
  | .bye t => Sys2Proof.Machine.execBye t s
  | .partnerTimeReceive t => Sys2Proof.Machine.execPartnerTimeReceive t s
  | .keepalive t => Sys2Proof.Machine.execKeepalive t s
  | .timeSend t => Sys2Proof.Machine.execTimeSend t s
  | .partnerLost t partner => Sys2Proof.Machine.execPartnerLost t partner s
  | .orphanTimeout t stream => Sys2Proof.Machine.execOrphanTimeout t stream s
  | .reorderHoldExpiry t port slot => Sys2Proof.Machine.execReorderHoldExpiry t port slot s
  | .cascAssign t => Sys2Proof.Machine.execCascAssign t s
  | .cascReport t => Sys2Proof.Machine.execCascReport t s
  | .cascAssignPeriodic t => Sys2Proof.Machine.execCascAssignPeriodic t s
  | .chainEReached t => Sys2Proof.Machine.execChainEReached t s
  | .cascDiscoverDone t => Sys2Proof.Machine.execCascDiscoverDone t s
  | .cascSumOriginate t stream first => Sys2Proof.Machine.execCascSumOriginate t stream first s
  | .cascSumLate t => Sys2Proof.Machine.execCascSumLate t s
  | .cascSumPass t => Sys2Proof.Machine.execCascSumPass t s
  | .cascCombine t stream first => Sys2Proof.Machine.execCascCombine t stream first s
  | .cascadeTimeReceive t => Sys2Proof.Machine.execCascadeTimeReceive t s
  | .move t channel => Sys2Proof.Machine.execMove t channel s
  | .fill t channel => Sys2Proof.Machine.execFill t channel s
  | .cmp t channel => Sys2Proof.Machine.execCmp t channel s
  | .loop t channel => Sys2Proof.Machine.execLoop t channel s
  | .wait t channel => Sys2Proof.Machine.execWait t channel s
  | .waitEnd t channel => Sys2Proof.Machine.execWaitEnd t channel s
  | .signal t channel => Sys2Proof.Machine.execSignal t channel s
  | .link t channel => Sys2Proof.Machine.execLink t channel s
  | .halt t channel => Sys2Proof.Machine.execHalt t channel s
  | .instructionFetchComplete t channel data => Sys2Proof.Machine.execInstructionFetchComplete t channel data s
  | .peripheralBurst t channel => Sys2Proof.Machine.execPeripheralBurst t channel s
  | .stepBudget t channel => Sys2Proof.Machine.execStepBudget t channel s
  | .dmaFault t channel => Sys2Proof.Machine.execDmaFault t channel s
  | .dmaPcWrite t channel word data => Sys2Proof.Machine.execDmaPcWrite t channel word data s
  | .evtSetWrite t w data => Sys2Proof.Machine.execEvtSetWrite t w data s
  | .train t data => Sys2Proof.Machine.execTrain t data s
  | .trainingStepEnd t good channel size => Sys2Proof.Machine.execTrainingStepEnd t good channel size s
  | .retrainingDue t => Sys2Proof.Machine.execRetrainingDue t s
  | .gatheringEnd t => Sys2Proof.Machine.execGatheringEnd t s
  | .pauseStart t => Sys2Proof.Machine.execPauseStart t s
  | .pauseEnd t fail0 fail1 => Sys2Proof.Machine.execPauseEnd t fail0 fail1 s
  | .selfRefreshEntry t => Sys2Proof.Machine.execSelfRefreshEntry t s
  | .selfRefreshCommit t => Sys2Proof.Machine.execSelfRefreshCommit t s
  | .dramRequest t source write addr len drained => Sys2Proof.Machine.execDramRequest t source write addr len drained s
  | .selfRefreshExitEnd t => Sys2Proof.Machine.execSelfRefreshExitEnd t s
  | .rateWrite t data => Sys2Proof.Machine.execRateWrite t data s
  | .rateChangeStart t => Sys2Proof.Machine.execRateChangeStart t s
  | .rateChangeEnd t => Sys2Proof.Machine.execRateChangeEnd t s
  | .huskSet t data => Sys2Proof.Machine.execHuskSet t data s
  | .huskRelease t data => Sys2Proof.Machine.execHuskRelease t data s
  | .anaPowerGoodFall t dip => Sys2Proof.Machine.execAnaPowerGoodFall t dip s
  | .strobe t data => Sys2Proof.Machine.execStrobe t data s
  | .ldbInEdge t => Sys2Proof.Machine.execLdbInEdge t s
  | .slewStep t dac => Sys2Proof.Machine.execSlewStep t dac s
  | .monitorWindowEnd t unit => Sys2Proof.Machine.execMonitorWindowEnd t unit s
  | .monitorResult t unit code ovr => Sys2Proof.Machine.execMonitorResult t unit code ovr s
  | .firmwareUrgentRequest t unit input => Sys2Proof.Machine.execFirmwareUrgentRequest t unit input s
  | .domainReady t domain cells => Sys2Proof.Machine.execDomainReady t domain cells s
  | .modeWriteActiveIdle t data => Sys2Proof.Machine.execModeWriteActiveIdle t data s
  | .modeWriteSleepDeep t data => Sys2Proof.Machine.execModeWriteSleepDeep t data s
  | .entryBegin t => Sys2Proof.Machine.execEntryBegin t s
  | .entryDrainEnd t => Sys2Proof.Machine.execEntryDrainEnd t s
  | .commitPoint t => Sys2Proof.Machine.execCommitPoint t s
  | .entryComplete t => Sys2Proof.Machine.execEntryComplete t s
  | .entryCancel t => Sys2Proof.Machine.execEntryCancel t s
  | .wakeN t low => Sys2Proof.Machine.execWakeN t low s
  | .wickWakeReq t data => Sys2Proof.Machine.execWickWakeReq t data s
  | .wickTimerExpiry t => Sys2Proof.Machine.execWickTimerExpiry t s
  | .wakeStepCondition t => Sys2Proof.Machine.execWakeStepCondition t s
  | .wakeStepDelayEnd t => Sys2Proof.Machine.execWakeStepDelayEnd t s
  | .wakeStepTimeout t => Sys2Proof.Machine.execWakeStepTimeout t s
  | .wakeSequenceEnd t straps store dram => Sys2Proof.Machine.execWakeSequenceEnd t straps store dram s
  | .powerOnReset t => Sys2Proof.Machine.execPowerOnReset t s
  | .resetNLow t => Sys2Proof.Machine.execResetNLow t s
  | .resetNRelease t => Sys2Proof.Machine.execResetNRelease t s
  | .chip t data => Sys2Proof.Machine.execChip t data s
  | .chipResetEnd t => Sys2Proof.Machine.execChipResetEnd t s
  | .perstN t => Sys2Proof.Machine.execPerstN t s
  | .imageLoadDone t data failed => Sys2Proof.Machine.execImageLoadDone t data failed s
  | .hostLen t data => Sys2Proof.Machine.execHostLen t data s
  | .verificationDone t => Sys2Proof.Machine.execVerificationDone t s
  | .ready t => Sys2Proof.Machine.execReady t s
  | .stageWrite t data => Sys2Proof.Machine.execStageWrite t data s
  | .verify t data => Sys2Proof.Machine.execVerify t data s
  | .activate t data => Sys2Proof.Machine.execActivate t data s
  | .fwActivated t => Sys2Proof.Machine.execFwActivated t s
  | .firmwareStartTimeout t => Sys2Proof.Machine.execFirmwareStartTimeout t s
  | .go t data => Sys2Proof.Machine.execGo t data s
  | .fuseProgrammingDone t took => Sys2Proof.Machine.execFuseProgrammingDone t took s
  | .clear t ap data => Sys2Proof.Machine.execClear t ap data s
  | .counterWrite t ap addr data => Sys2Proof.Machine.execCounterWrite t ap addr data s
  | .sampleRecord t ap addr latency => Sys2Proof.Machine.execSampleRecord t ap addr latency s
  | .msixUnmask t vec => Sys2Proof.Machine.execMsixUnmask t vec s
  | .laneEnableChange t port lane data => Sys2Proof.Machine.execLaneEnableChange t port lane data s
  | .missingMarker t port lane => Sys2Proof.Machine.execMissingMarker t port lane s
  | .brownOut t => Sys2Proof.Machine.execBrownOut t s
  | .dmaBurstComplete t channel src dst => Sys2Proof.Machine.execDmaBurstComplete t channel src dst s
  | .sourceDataReadComplete t ring tag data => Sys2Proof.Machine.execSourceDataReadComplete t ring tag data s
  | .keccakJobDone t => Sys2Proof.Machine.execKeccakJobDone t s
  | .wakeStepRetry t => Sys2Proof.Machine.execWakeStepRetry t s

end Sys2Proof.Machine
end

