-- ==== Sys2Proof/Safety.lean ====
section
/-!
DEFINITION. The terms in which the statements speak of every state: what a sound state is, when a ring command may run, and which
commands are entries of a command ring or register writes.
-/
namespace Sys2Proof.Machine

/-- The memories are in canonical form. -/
def State.memWf (s : State) : Bool := Memory.wf s.store && Memory.wf s.dram

/-- A step that goes on: it ends in no fault and no refusal. -/
def stepGoesOn (s : State) : Prop := ∃ s', step s = .next s'

/-- `f` is command `c` of opcode `op` in flight: in the state `u` its turn has come (R83) and checks 1 to 3 of R98 pass it, where
its PARAMS name the handles `more`. -/
abbrev mayRun (u : State) (op : Nat) (c : Cmd) (more : List (Nat × Nat)) (f : Flight) : Prop :=
  c.opcode = op ∧ turn u c = some f ∧ earlyChecks u c more = none

/-- Checks 5, 6, 7 and 9 of R98 pass a scheduled command: its lead time, the far limit, its conflict keys, room in the
pending-activation queue (R44-R46). -/
abbrev inWindow (u : State) (c : Cmd) (f : Flight) (keys : List (Nat × Nat × Nat)) : Prop :=
  f.arrival + leadOf c ≤ c.actTick ∧ c.actTick < f.arrival + 2 ^ 34 ∧ conflicts u c.actTick keys = false ∧ queueUse u < 512

/-- Time, entry, opcode and handles named in PARAMS of a row that is an opcode of the command rings (R91), in a state. -/
def ringRow (u : State) : Instr → Option (Nat × Cmd × Nat × List (Nat × Nat))
  | .nop t c => some (t, c, 0x00, [])
  | .fence t c => some (t, c, 0x01, [])
  | .cancel t c => some (t, c, 0x02, [])
  | .cfgDigest t c => some (t, c, 0x03, [])
  | .attest t c => some (t, c, 0x04, [])
  | .storeClaim t c => some (t, c, 0x05, [])
  | .storeRelease t c => some (t, c, 0x06, [])
  | .carrierCreate t c => some (t, c, 0x10, [])
  | .carrierSet t c => some (t, c, 0x11, [])
  | .carrierDestroy t c => some (t, c, 0x12, [])
  | .streamCreate t c => some (t, c, 0x14, if isMember u then [] else [(6, p32 c 20)])
  | .streamDestroy t c => some (t, c, 0x15, [])
  | .wsCreate t c => some (t, c, 0x18, [(1, p32 c 24)])
  | .wsLoad t c => some (t, c, 0x19, [])
  | .wsActivate t c => some (t, c, 0x1A, [])
  | .wsDestroy t c => some (t, c, 0x1B, [])
  | .pathCorr t c => some (t, c, 0x20, [])
  | .rxGain t c => some (t, c, 0x21, [])
  | .cfrSet t c => some (t, c, 0x22, [])
  | .dcLoad t c => some (t, c, 0x23, [])
  | .loTune t c => some (t, c, 0x28, [])
  | .loCal t c => some (t, c, 0x29, [])
  | .podState t c => some (t, c, 0x2A, [])
  | .fesbWrite t c => some (t, c, 0x2C, [])
  | .tddSwap t c => some (t, c, 0x2D, [])
  | .calCreate t c => some (t, c, 0x30, [])
  | .calStart t c => some (t, c, 0x31, [])
  | .calDestroy t c => some (t, c, 0x32, [])
  | .capCreate t c => some (t, c, 0x34, if p8 c 16 = 3 then [(2, p32 c 32)] else [])
  | .capStart t c => some (t, c, 0x35, [])
  | .capDestroy t c => some (t, c, 0x36, [])
  | .dpdPolicy t c => some (t, c, 0x38, [])
  | .dpdCoefLoad t c => some (t, c, 0x39, [])
  | .dpdDump t c => some (t, c, 0x3A, [])
  | .biasSet t c => some (t, c, 0x40, [])
  | .biasStrobe t c => some (t, c, 0x41, [])
  | .monScan t c => some (t, c, 0x42, [])
  | .monUrgent t c => some (t, c, 0x43, [])
  | .pwrDomain t c => some (t, c, 0x48, [])
  | .laneState t c => some (t, c, 0x49, [])
  | .cascDiscover t c => some (t, c, 0x50, [])
  | .fiSet t c => some (t, c, 0x58, [])
  | .fiClear t c => some (t, c, 0x59, [])
  | .dmaCreate t c => some (t, c, 0x60, [])
  | .dmaStart t c => some (t, c, 0x61, [])
  | .dmaStop t c => some (t, c, 0x62, [])
  | .dmaDestroy t c => some (t, c, 0x63, [])
  | .partnerDestroy t c => some (t, c, 0x68, [])
  | _ => none

/-- Time of a row that is a write of a register of W0 outside the wick page. -/
def writeTime : Instr → Option Nat
  | .corrWrite t _ _ _ _ => some t
  | .dmaPcWrite t _ _ _ => some t
  | .evtSetWrite t _ _ => some t
  | .dpdTermWrite t _ _ => some t
  | .train t _ => some t
  | .rateWrite t _ => some t
  | .strobe t _ => some t
  | .huskSet t _ => some t
  | .huskRelease t _ => some t
  | .tddEntryWrite t _ _ _ => some t
  | .ringCtrlWrite t _ _ _ => some t
  | .laneEnableChange t _ _ _ => some t
  | .slip t _ _ _ => some t
  | .restart t _ _ _ => some t
  | .laneLoopWrite t _ _ _ => some t
  | .clear t _ _ => some t
  | .counterWrite t _ _ _ => some t
  | .modeWriteActiveIdle t _ => some t
  | .modeWriteSleepDeep t _ => some t
  | .chip t _ => some t
  | .rxpCtrlWrite t _ _ => some t
  | .txpCtrlWrite t _ _ => some t
  | .rootEnWrite t _ => some t
  | .laneEnWrite t _ => some t
  | .syncArm t _ => some t
  | .hostLen t _ => some t
  | .stageWrite t _ => some t
  | .verify t _ => some t
  | .activate t _ => some t
  | .go t _ => some t
  | _ => none

/-- Commands that may change the store or the DRAM: the decision log of an adaptive swap, a weight set or a boot image that arrives,
records of calibrations, captures and samples, a DMA burst, a dump, an access of W2, a memory whose domain turns on or that is lost. -/
def writesMemory : Instr → Bool
  | .adaptiveSwapRequest _ _ _ _ _ _ _ _ _ => true
  | .gainControlStep _ _ _ _ => true
  | .dcWindowEnd _ _ => true
  | .dpdSolveDone _ _ _ _ _ _ => true
  | .sourceDataReadComplete _ _ _ _ => true
  | .calStepEnd _ _ _ => true
  | .captureDone _ _ _ => true
  | .dmaBurstComplete _ _ _ _ => true
  | .dpdDump _ _ => true
  | .w2Access _ _ => true
  | .sampleRecord _ _ _ _ => true
  | .domainReady _ _ _ => true
  | .wakeSequenceEnd _ _ _ _ => true
  | .imageLoadDone _ _ _ => true
  | _ => false

end Sys2Proof.Machine
end

