-- ==== Sys2Proof/Certificates/Slice0/Obligations.lean ====
section
/-!
DEFINITION. The statements for the provers. Throughout, `u` is the state once time has moved to the command's time `t`, so that every
equation `exec … = .next …` says the command's whole effect and with it everything that it leaves as it was.
-/
open Sys2Proof Sys2Proof.Machine

/-! ## The machine -/

/-- The front command runs on the state whose queue is the rest. -/
def Obligations.StepRunsTheFrontCommand : Prop :=
  ∀ (s : State) (i : Instr) (rest : List Instr), s.pending = i :: rest → step s = exec i { s with pending := rest }

/-- With no command waiting one CK_DP period passes and nothing else changes: while the counter counts it advances by one modulo 2^64, the
tick that passed joins the past of the sample path, and a cycle begins with the registers as they stand. Where a chip reset falls due with that
period (R501), the device is held in reset from its end on. The idle tick is the model's choice (notes/assumptions/5.md), as are that past
(46.md) and the boundary at which a chip reset falls due (42.md). -/
def Obligations.IdleStepLetsOnePeriodPass : Prop :=
  ∀ s : State, s.pending = [] →
    (s.power.chipAt ≠ some (s.time.now + 1) →
      ∃ s', step s = .next s'
        ∧ s'.time = { s.time with
            now := s.time.now + 1, tick := if s.time.counting then (s.time.tick + 1) % 2 ^ 64 else s.time.tick }
        ∧ s'.past = (if s.time.counting then { s.past with spans := spanTo s (s.time.tick + 1) :: s.past.spans } else s.past)
        ∧ s'.cycle = { regs := s.regs, held := [] }
        ∧ { s' with time := s.time, past := s.past, cycle := s.cycle } = s)
    ∧ (s.power.chipAt = some (s.time.now + 1) →
        step s = .next (chipHold (moveTime (s.time.now + 1) s)) ∧ (chipHold (moveTime (s.time.now + 1) s)).power.phase = .held)

/-- At the power-on reset no command waits, no carrier, stream, weight set, calibration or capture job, DMA channel or partner exists, nothing
is pending or driven out, no tick has passed, device time is 0, not valid, and does not count, both memories are in canonical form, no ring is
enabled, and every register word but that of address 0x200124 (the rails, of which the wick already drives the first) holds its reset value. That the
model begins inside the power-on reset, with step 1 begun, is its choice (notes/assumptions/42.md), as are the part (6.md) and the empty past of the
sample path (46.md). -/
def Obligations.ResetIsQuiet : Prop :=
  State.reset.pending = [] ∧ State.reset.acts = [] ∧ State.reset.out = [] ∧ State.reset.carriers = [] ∧ State.reset.streams = []
    ∧ State.reset.past = { spans := [], eras := [] } ∧ State.reset.beam.sets = [] ∧ State.reset.cals = [] ∧ State.reset.caps = [] ∧ State.reset.dmas = [] ∧ State.reset.partners = []
    ∧ State.reset.memWf = true ∧ tickValid State.reset = false ∧ State.reset.time.counting = false
    ∧ State.reset.time.now = 0 ∧ State.reset.time.tick = 0 ∧ State.reset.part = .iza6490
    ∧ (∀ r, r < 16 → cmdEnabled State.reset r = false ∧ outEnabled State.reset 1 r = false)
    ∧ (∀ r, r < 4 → outEnabled State.reset 2 r = false)
    ∧ (∀ r : Reg, r.addr ≠ 0x200124 → getR State.reset r = BitVec.ofNat 32 r.reset)

/-- Every step keeps both memories in canonical form. -/
def Obligations.StepKeepsMemoriesCanonical : Prop :=
  ∀ s s' : State, s.memWf = true → step s = .next s' → s'.memWf = true

/-- Every step keeps the pending-activation queue within its 512 entries. -/
def Obligations.StepKeepsQueueWithin512 : Prop :=
  ∀ s s' : State, s.acts.length ≤ 512 → step s = .next s' → s'.acts.length ≤ 512

/-- Every command goes on from every state, with a next state that keeps the commands that wait and the part, and in which time has not
run backwards. -/
def Obligations.EveryCommandGoesOn : Prop :=
  ∀ (i : Instr) (s : State), ∃ s', exec i s = .next s' ∧ s'.pending = s.pending ∧ s'.part = s.part ∧ s.time.now ≤ s'.time.now

/-- Only the commands that `writesMemory` names may change the store or the DRAM: every other command leaves every byte of both as it was.
-/
def Obligations.OnlyTheseCommandsWriteMemories : Prop :=
  ∀ (i : Instr) (s s' : State), writesMemory i = false → exec i s = .next s' → s'.store = s.store ∧ s'.dram = s.dram

/-- A ring command whose turn has not come only lets time pass (R83); one that fails one of checks 1 to 3 of R98 completes with that
check's status and has no other effect. -/
def Obligations.WaitingAndRejectedCommands : Prop :=
  (∀ (i : Instr) (t op : Nat) (c : Cmd) (more : List (Nat × Nat)) (s u : State),
    u = advance t s → ringRow u i = some (t, c, op, more) → c.opcode = op → turn u c = none → exec i s = .next u)
  ∧ (∀ (i : Instr) (t op : Nat) (c : Cmd) (more : List (Nat × Nat)) (s u : State) (f : Flight) (st : Nat),
    u = advance t s → ringRow u i = some (t, c, op, more) → c.opcode = op → turn u c = some f → earlyChecks u c more = some st →
      exec i s = .next (reject u f st))

/-- The checks of R98 in their order. Checks 1 to 3: a reserved opcode, a reserved FLAGS bit, a set reserved bit or a wrong mode is
BAD_PARAM; then a scheduled command without valid time is NO_TIME; then a stale handle is BAD_HANDLE. Checks 4 to 10: range, lead, far
limit (R44), conflict, state, room, memory. -/
def Obligations.ChecksInOrder : Prop :=
  (∀ (u : State) (c : Cmd) (more : List (Nat × Nat)),
    (opcodeRow c.opcode = none → earlyChecks u c more = some 0x10)
    ∧ ∀ (mode : Machine.Mode) (cfg : Bool) (type : Nat), opcodeRow c.opcode = some (mode, cfg, type) →
      let form := c.flags < 8 ∧ (mode = .i → sched c = false) ∧ (mode = .s → sched c = true)
        ∧ reservedZero c (layoutOf c.opcode) = true ∧ (type = 0 → c.handle = 0)
      let time := sched c = true → tickValid u = true
      let names := (type ≠ 0 → handleLive u type c.handle = true) ∧ ∀ h ∈ more, handleLive u h.1 h.2 = true
      (¬form → earlyChecks u c more = some 0x10)
      ∧ (form → ¬time → earlyChecks u c more = some 0x08)
      ∧ (form → time → ¬names → earlyChecks u c more = some 0x11)
      ∧ (form → time → names → earlyChecks u c more = none))
  ∧ (∀ (u : State) (f : Flight) (bad mem : Bool) (keys : List (Nat × Nat × Nat)) (res : Option Nat),
    (bad = true → lateChecks u f bad keys res mem = some 0x10)
    ∧ (bad = false → sched f.cmd = true →
        (f.cmd.actTick < f.arrival + leadOf f.cmd → lateChecks u f bad keys res mem = some 0x02)
        ∧ (f.arrival + leadOf f.cmd ≤ f.cmd.actTick → f.arrival + 2 ^ 34 ≤ f.cmd.actTick → lateChecks u f bad keys res mem = some 0x03)
        ∧ (f.arrival + leadOf f.cmd ≤ f.cmd.actTick → f.cmd.actTick < f.arrival + 2 ^ 34 → conflicts u f.cmd.actTick keys = true →
            lateChecks u f bad keys res mem = some 0x05)
        ∧ (f.arrival + leadOf f.cmd ≤ f.cmd.actTick → f.cmd.actTick < f.arrival + 2 ^ 34 → conflicts u f.cmd.actTick keys = false →
            (∀ st, res = some st → lateChecks u f bad keys res mem = some st)
            ∧ (res = none → 512 ≤ queueUse u → lateChecks u f bad keys res mem = some 0x04)
            ∧ (res = none → queueUse u < 512 → lateChecks u f bad keys res mem = if mem then some 0x17 else none)))
    ∧ (bad = false → sched f.cmd = false →
        lateChecks u f bad keys res mem = match res with | some st => some st | none => if mem then some 0x17 else none))

/-- A completed command leaves one final completion with OK, the tick and TICK_OK of its effect, its ring, TAG and RESULT, on the
completion ring of its command ring, and settles; with QUIET it leaves none and leaves flight (notes/assumptions/12.md). A configuration command
counts once in CFG_WRITES; no other register, and nothing else of the host, changes. A rejected command leaves, also with QUIET, one final
completion with its status and the tick and TICK_OK of its arrival, and settles; one that is LATE, but for a CANCEL, counts in LATE_COUNT, and
nothing else changes. An activation that ends leaves the queue, whose depth TIME.QUEUE shows, with the fill of its weight set; its command, if it is still in
flight, gets its final completion with the status and that tick: with OK that of a completed command. -/
def Obligations.CompletionIsRecorded : Prop :=
  (∀ (u : State) (f : Flight) (st : Nat), st ≠ 0 →
    let v := if st = 2 ∧ f.cmd.opcode ≠ 0x02 then wrapAdd u F.TIME_LATE_COUNT_COUNT 1 else u
    (reject u f st).host.due = u.host.due ++
      [{ id := f.id, ring := f.cmd.ring, cq := cqOf v f.cmd.ring, tag := f.cmd.tag, status := st, final := true, result := 0,
         tick := f.arrival, tickOk := f.tickOk }]
    ∧ (reject u f st).host.flight = u.host.flight.map (fun g => if g.id = f.id then { g with stage := FlightStage.settled } else g)
    ∧ (reject u f st).regs = v.regs
    ∧ { (reject u f st).host with due := u.host.due, flight := u.host.flight } = u.host
    ∧ { reject u f st with host := u.host, regs := u.regs } = u)
  ∧ (∀ (u : State) (p : Pending) (st n : Nat),
    let v := endFill u p.id
    let w := showQueue { v with acts := v.acts.filter fun q => q.id != p.id }
    w.acts = u.acts.filter (fun q => q.id != p.id)
    ∧ getF w F.TIME_QUEUE_DEPTH = w.acts.length % 1024
    ∧ (∀ x ∈ w.beam.fills, x.id ≠ p.id)
    ∧ (flightOf w p.id = none → endAct u p st n = w)
    ∧ (∀ f, flightOf w p.id = some f → st ≠ 0 → st ≠ 2 →
        (endAct u p st n).acts = w.acts ∧ (endAct u p st n).regs = w.regs
        ∧ (endAct u p st n).host.due = w.host.due ++
            [{ id := f.id, ring := f.cmd.ring, cq := cqOf w f.cmd.ring, tag := f.cmd.tag, status := st, final := true, result := 0,
               tick := n, tickOk := tickValid w }])
    ∧ (∀ f, flightOf w p.id = some f → w.time.tick = n → endAct u p 0 n = complete w f 0))
  ∧ ∀ (u : State) (f : Flight) (r : Nat),
    (complete u f r).host.due = (if quiet f.cmd then u.host.due else u.host.due ++
        [{ id := f.id, ring := f.cmd.ring, cq := cqOf (complete u f r) f.cmd.ring, tag := f.cmd.tag, status := 0, final := true, result := r,
           tick := u.time.tick, tickOk := tickValid u }])
    ∧ (isCfg f.cmd.opcode = false → (complete u f r).regs = u.regs)
    ∧ (isCfg f.cmd.opcode = true → (complete u f r).regs = (countCfg u 1).regs)
    ∧ (quiet f.cmd = true → ∀ g ∈ (complete u f r).host.flight, g.id ≠ f.id)
    ∧ (quiet f.cmd = false → (complete u f r).host.flight =
        u.host.flight.map fun g => if g.id = f.id then { g with stage := FlightStage.settled } else g)
    ∧ { (complete u f r).host with due := u.host.due, flight := u.host.flight } = u.host
    ∧ { complete u f r with host := u.host, regs := u.regs } = u

/-- An accepted command takes one entry of the queue with its tick and conflict keys, settles and, unless QUIET, completes provisionally with
QUEUED; but for the queue, its own stage, that completion and the word TIME.QUEUE, whose DEPTH counts it, nothing changes. -/
def Obligations.AcceptanceQueuesTheActivation : Prop :=
  ∀ (u : State) (f : Flight) (keys : List (Nat × Nat × Nat)) (src : List Byte),
    (accept u f keys src).acts = u.acts ++ [{ id := f.id, cmd := f.cmd, tick := f.cmd.actTick, keys := keys, src := src }]
    ∧ (u.acts.length < 512 → getF (accept u f keys src) F.TIME_QUEUE_DEPTH = u.acts.length + 1)
    ∧ (accept u f keys src).host.due = (if quiet f.cmd then u.host.due else u.host.due ++
        [{ id := f.id, ring := f.cmd.ring, cq := cqOf (accept u f keys src) f.cmd.ring, tag := f.cmd.tag, status := 1, final := false,
           result := 0, tick := f.arrival, tickOk := f.tickOk }])
    ∧ (accept u f keys src).host.flight =
        u.host.flight.map (fun g => if g.id = f.id then { g with stage := FlightStage.settled } else g)
    ∧ { (accept u f keys src).host with due := u.host.due, flight := u.host.flight } = u.host
    ∧ (∀ r : Reg, r.addr ≠ A.TIME_QUEUE.addr → getR (accept u f keys src) r = getR u r)
    ∧ { accept u f keys src with host := u.host, regs := u.regs, acts := u.acts } = u

/-- While the device sleeps, each command that writes a register outside the wick page is discarded, be it a row of its own, a register write,
a KICK, or an access of one word of W0 or of W2: with PCIe up it is counted in BLOCKED_WRITES, a write of W0 other than KICK also among the writes
that CFG_WRITES takes in later, and nothing else changes; without PCIe nothing changes at all. A read of W0 outside the wick page, or of W2, is
answered with ones and counted in BLOCKED_READS (R444). -/
def Obligations.SleepDiscardsWrites : Prop :=
  (∀ (i : Instr) (t : Nat) (s u : State), u = advance t s → writeTime i = some t → asleep u = true →
    (u.power.link = false → exec i s = .next u)
    ∧ (u.power.link = true → exec i s = .next
        (satAdd { u with power := { u.power with blocked := u.power.blocked + 1 } } F.PWR_WICK_BLOCKED_WRITES 1)))
  ∧ ∀ (t : Nat) (x : Sys2Proof.Access) (s u : State), u = advance t s → asleep u = true →
    let uncounted := satAdd u F.PWR_WICK_BLOCKED_WRITES 1
    let counted := satAdd { u with power := { u.power with blocked := u.power.blocked + 1 } } F.PWR_WICK_BLOCKED_WRITES 1
    let ones := emit (satAdd u F.PWR_WICK_BLOCKED_READS 1) (.readData (2 ^ (8 * x.len) - 1))
    (u.power.link = false → exec (.kick t) s = .next u ∧ exec (.malformedAccess t x) s = .next u ∧ exec (.w2Access t x) s = .next u
        ∧ ∀ target, exec (.registerWrite t target) s = .next u)
    ∧ (u.power.link = true → exec (.kick t) s = .next uncounted)
    ∧ (∀ a data, u.power.link = true → a % 4 = 0 → a < 0x400000 → isWick a = false →
        exec (.registerWrite t (.w0 a data)) s = .next (if a = A.HOST_KICK.addr then uncounted else counted))
    ∧ (u.power.link = true → x.w4 = false → (malformed x = true ∨ (x.len = 4 ∧ isWick x.addr = false ∧ x.addr ≠ A.HOST_KICK.addr)) →
        exec (.malformedAccess t x) s = .next (if x.write then counted else ones))
    ∧ (u.power.link = true → exec (.w2Access t x) s = .next (if x.write then uncounted else ones))

/-- A field that lies within its word reads back what was written, cut to its width, and every field of another word or of other bits of
the word keeps its value. Bytes written to a memory read back, every other byte keeps its value. -/
def Obligations.WritesReadBack : Prop :=
  (∀ (u : State) (f g : Fld) (v : Nat), f.lo + f.width ≤ 32 → g.lo + g.width ≤ 32 →
    getF (setF u f v) f = v % 2 ^ f.width
    ∧ (g.reg.addr ≠ f.reg.addr → getF (setF u f v) g = getF u g)
    ∧ (g.reg = f.reg → g.lo + g.width ≤ f.lo ∨ f.lo + f.width ≤ g.lo → getF (setF u f v) g = getF u g))
  ∧ (∀ (m : List Host.Cell) (a b : Nat) (l : List Byte), Memory.wf m = true →
    memGet (memWrite m a l) b = if a ≤ b ∧ b < a + l.length then l.getD (b - a) 0 else memGet m b)

/-! ## Commands of the rings: general ones, handles, carriers, streams, weight sets -/

/-- NOP and FENCE complete with RESULT 0 and no effect but that; an entry whose opcode is in no row of the table completes with BAD_PARAM.
STORE_CLAIM gives the banks of its mask to the system, STORE_RELEASE to nobody, both with RESULT 0, or are BUSY while a handle owns one of
them. CFG_DIGEST and ATTEST hand the digest of the configuration in force now to the Keccak engine; the end of the job writes the digest (64
bytes) or the report (5,075 bytes) to host memory and completes the command. -/
def Obligations.GeneralCommandsComplete : Prop :=
  (∀ (t : Nat) (c : Cmd) (s u : State) (f : Flight), u = advance t s →
    (opcodeRow c.opcode = none → turn u c = some f → exec (.nop t c) s = .next (reject u f stBadParam))
    ∧ (mayRun u 0x00 c [] f → exec (.nop t c) s = .next (complete u f 0))
    ∧ (mayRun u 0x01 c [] f → exec (.fence t c) s = .next (complete u f 0))
    ∧ (mayRun u 0x05 c [] f → maskOwned u (p32 c 16) = false →
        exec (.storeClaim t c) s = .next (complete (ownBanks u (bitsSet (p32 c 16) 32) 1) f 0))
    ∧ (mayRun u 0x05 c [] f → maskOwned u (p32 c 16) = true → exec (.storeClaim t c) s = .next (reject u f stBusy))
    ∧ (mayRun u 0x06 c [] f → maskOwned u (p32 c 16) = false →
        exec (.storeRelease t c) s = .next (complete (ownBanks u (bitsSet (p32 c 16) 32) 0) f 0))
    ∧ (mayRun u 0x06 c [] f → maskOwned u (p32 c 16) = true → exec (.storeRelease t c) s = .next (reject u f stBusy)))
  ∧ (∀ (t : Nat) (c : Cmd) (s u : State) (f : Flight), u = advance t s →
    (mayRun u 0x03 c [] f → p64 c 16 % 64 = 0 → p64 c 16 + 64 ≤ 2 ^ 48 →
        exec (.cfgDigest t c) s = .next (startJob u f (.digest f.id (cfgDigest u))))
    ∧ (mayRun u 0x04 c [] f → p64 c 16 % 64 = 0 → p64 c 16 + 8192 ≤ 2 ^ 48 →
        exec (.attest t c) s = .next (startJob u f (.attest f.id (cfgDigest u) (get64 u A.HOST_CFG_WRITES A.HOST_CFG_WRITES_1))))
    ∧ (∀ cfg rest, u.trust.jobs = .digest f.id cfg :: rest → flightOf u f.id = some f →
        exec (.keccakJobDone t) s = .next
          (complete (hostWrite { u with trust := { u.trust with jobs := rest } } (p64 f.cmd 16) 64 (leNat cfg)) f 0))
    ∧ (∀ cfg writes rest, u.trust.jobs = .attest f.id cfg writes :: rest → flightOf u f.id = some f →
        exec (.keccakJobDone t) s = .next
          (complete (hostWrite { u with trust := { u.trust with jobs := rest } } (p64 f.cmd 16) 5075
            (leNat (report u cfg writes (leBytes 32 (bitsOf f.cmd.params.toNat 64 256))))) f 5075)))

/-- CANCEL removes every pending activation with its RING, TAG and TICK, each ending with CANCELLED, and its RESULT is their number; with
none it is NOT_FOUND, with one that fails its lead it is LATE and removes none (R96). -/
def Obligations.CancelRemovesWhatItNames : Prop :=
  ∀ (t : Nat) (c : Cmd) (s u : State) (f : Flight), u = advance t s → mayRun u 0x02 c [] f → p8 c 16 ≤ 15 →
    (cancelled u c = u.acts.filter fun p => p.cmd.ring == p8 c 16 && p.cmd.tag == p16 c 18 && p.tick == p64 c 24)
    ∧ (cancelled u c = [] → exec (.cancel t c) s = .next (reject u f stNotFound))
    ∧ ((∃ p ∈ cancelled u c, p.tick < f.arrival + leadOf p.cmd) → exec (.cancel t c) s = .next (reject u f stLate))
    ∧ (cancelled u c ≠ [] → (∀ p ∈ cancelled u c, f.arrival + leadOf p.cmd ≤ p.tick) →
        exec (.cancel t c) s = .next
          (complete ((cancelled u c).foldl (fun v p => endAct v p stCancelled v.time.tick) u) f (cancelled u c).length))

/-- CARRIER_CREATE makes a carrier of the given settings, with the SYNC origin as its packet origin, in the lowest free of eight slots, or
completes with NO_RESOURCE. CARRIER_DESTROY frees the slot and cancels what is pending for the handle, or completes with BUSY while a stream
or a weight set names the carrier. CARRIER_SET with settings in range and within the budgets is accepted, or takes effect at once, and grants
its streams anew where it selects rate or response; with settings out of range it completes with BAD_PARAM. The restarts of a carrier's
downlink and uplink run when they are due. -/
def Obligations.CarriersComplete : Prop :=
  (∀ (t : Nat) (c : Cmd) (s u : State) (f : Flight), u = advance t s →
    (∀ i, mayRun u 0x10 c [] f → p8 c 16 ≤ 2 → p8 c 17 ≤ 4 →
        settingsGood (p8 c 16) (p16 c 18) (p8 c 20) (bitsOf (p8 c 21) 0 3) = true → lowestFree u.carriers 8 = some i →
        exec (.carrierCreate t c) s = .next
          (complete (putCarrier (takeGen u 1 i) i
            { gen := nextGen u 1 i, dir := p8 c 16, sLog2 := p8 c 17, k := p16 c 18, resp := p8 c 20, cicN := bitsOf (p8 c 21) 0 3,
              cicM := bitsOf (p8 c 21) 4 1 + 1, nco := p32 c 24, phaseAt := (u.time.origin, 0), grid := u.time.origin, ulSpans := [],
              dlSpans := [], ulZero := [], ulRestart := [], dlFrom := u.time.tick, ulFrom := u.time.tick, dlRestarted := [], dlDue := [], was := [] })
            f (mkHandle 1 (nextGen u 1 i) i)))
    ∧ (mayRun u 0x10 c [] f → p8 c 16 ≤ 2 → p8 c 17 ≤ 4 →
        settingsGood (p8 c 16) (p16 c 18) (p8 c 20) (bitsOf (p8 c 21) 0 3) = true → lowestFree u.carriers 8 = none →
        exec (.carrierCreate t c) s = .next (reject u f stNoResource))
    ∧ (mayRun u 0x12 c [] f → (∀ x ∈ u.streams, x.2.carrier ≠ handleIdx c.handle) → (∀ x ∈ u.beam.sets, x.2.carrier ≠ c.handle) →
        exec (.carrierDestroy t c) s = .next
          (complete (cancelNaming { u with carriers := assocDel u.carriers (handleIdx c.handle) } c.handle) f 0))
    ∧ (mayRun u 0x12 c [] f → ((∃ x ∈ u.streams, x.2.carrier = handleIdx c.handle) ∨ (∃ x ∈ u.beam.sets, x.2.carrier = c.handle)) →
        exec (.carrierDestroy t c) s = .next (reject u f stBusy)))
  ∧ (∀ (t : Nat) (c : Cmd) (s u : State) (f : Flight) (x : Carrier), u = advance t s →
    (mayRun u 0x11 c [] f → carrierAt u (handleIdx c.handle) = some x → setGood u x c (if sched c then c.actTick else u.time.tick) = true →
        (bitAt (p8 c 16) 1 = true → ∀ d, d < 2 →
          budgetsHold u d (directionLoad u d (handleIdx c.handle) (p16 c 18)) = true) →
        (sched c = true → inWindow u c f (carrierSetKeys c)) →
        let n := if sched c then c.actTick else u.time.tick
        let new := settingsAt x (pendingSets u c.handle ++ [(n, c)]) n
        let grant := fun v => if bitAt (p8 c 16) 1 || bitAt (p8 c 16) 2 then regrant v (handleIdx c.handle) new.k (firstNew v new n) else v
        exec (.carrierSet t c) s = .next
          (if sched c then grant (accept u f (carrierSetKeys c) []) else complete (applyCarrierSet (grant u) c f.id n) f 0))
    ∧ (mayRun u 0x11 c [] f → carrierAt u (handleIdx c.handle) = some x → setGood u x c (if sched c then c.actTick else u.time.tick) = false →
        exec (.carrierSet t c) s = .next (reject u f stBadParam))
    ∧ (∀ i d, carrierAt u i = some x → x.dlDue.find? (fun y => decide (y.2.1 ≤ u.time.tick + 160)) = some d →
        exec (.carrierRestart t i) s = .next
          (modCarrier (restartDl u i (x.under d.2.2) d.1) i fun y => { y with dlDue := y.dlDue.erase d }))
    ∧ (∀ i p y, carrierAt u i = some x → (∀ d ∈ x.dlDue, u.time.tick + 160 < d.2.1) → dueRestart u i x = some (p, y) →
        exec (.carrierRestart t i) s = .next
          (modCarrier (restartDl u i (y.atTick (y.grid - 1)) p.tick) i fun z => { z with dlRestarted := p.id :: z.dlRestarted }))
    ∧ (∀ i d, carrierAt u i = some x → x.ulRestart.find? (fun y => decide (y.1 ≤ u.time.tick)) = some d →
        exec (.ulCarrierRestart t i) s = .next
          (modCarrier u i fun y => { y with ulRestart := y.ulRestart.erase d, ulZero := d.2 :: y.ulZero })))

/-- PATH_CORR is accepted or sets TAPER, PHASE and DELAY at once; a write of BEAM.CORR sets the fields of its word at once, that of an absent
path is only counted. What PATH_CORR sets is what the three fields then read, and the words of every other path and direction keep their
values. -/
def Obligations.PathCorrectionComplete : Prop :=
  ∀ (t : Nat) (c : Cmd) (s u : State) (f : Flight), u = advance t s →
    (mayRun u 0x20 c [] f → pathPresent u (p8 c 16) = true → p8 c 17 ≤ 1 → p16 c 22 ≤ 4095 →
        (sched c = true → inWindow u c f [(0x20, p8 c 16, p8 c 17)]) →
        exec (.pathCorr t c) s = .next
          (if sched c then accept u f [(0x20, p8 c 16, p8 c 17)] []
           else complete (applyCorr u (p8 c 16) (p8 c 17) (p16 c 18) (p16 c 20) (p16 c 22) u.time.tick) f 0))
    ∧ (∀ n d w data, asleep u = false → pathPresent u n = true → d < 2 → w < 2 →
        exec (.corrWrite t n d w data) s = .next (writeCorr (countCfg u 1) n d w data))
    ∧ (∀ n d w data, asleep u = false → pathPresent u n = false → exec (.corrWrite t n d w data) s = .next (countCfg u 1))
    ∧ (∀ n d taper phase delay at', n < 64 → d < 2 → taper < 2 ^ 16 → phase < 2 ^ 16 → delay < 2 ^ 12 →
        let v := applyCorr u n d taper phase delay at'
        getF v (F.BEAM_CORR_TAPER n d) = taper ∧ getF v (F.BEAM_CORR_PHASE n d) = phase ∧ corrDelay v n d = delay
        ∧ (∀ m e, m < 64 → e < 2 → (m, e) ≠ (n, d) → getR v (A.BEAM_CORR m e) = getR u (A.BEAM_CORR m e)
            ∧ getR v (A.BEAM_CORR_1 m e) = getR u (A.BEAM_CORR_1 m e)))

/-- STREAM_CREATE with a JOINED partner, or on a member with none, makes the stream in the lowest free slot of its direction and sends its
LEASE_GRANT; with a LOST partner it is BUSY, beyond a budget NO_RESOURCE. STREAM_DESTROY closes the lease of a stream, posts the end of an
orphan, and removes the stream in every case; PARTNER_DESTROY says BYE to a JOINED partner and orphans its streams, and frees the partner. -/
def Obligations.StreamCommandsComplete : Prop :=
  ∀ (t : Nat) (c : Cmd) (s u : State) (f : Flight) (x : Carrier) (p : Partner) (j : Nat), u = advance t s →
    (p8 c 16 ≤ 1 → p8 c 17 ≤ 63 → p8 c 18 ≤ 2 → carrierAt u (handleIdx c.handle) = some x → carries x (p8 c 16) = true →
        (∀ y ∈ u.streams, ¬(y.2.carrier = handleIdx c.handle ∧ y.2.dir = p8 c 16 ∧ y.2.layer = p8 c 17)) →
        freeStream u (p8 c 16) = some j →
        let y : Stream :=
          { gen := nextGen u 2 j, carrier := handleIdx c.handle, dir := p8 c 16, layer := p8 c 17, format := p8 c 18, partner := p32 c 20,
            acked := false, grant := (x.k, x.grid, 0), orphan := none, orphanEnd := none, newest := none, slots := [],
            firstAccepted := none, badSlots := 0, firstBad := 0, echoes := [], ulNext := slotFrom x u.time.tick, ulOld := [], ulSeq := 0,
            newOrigin := false }
        let v := putStream (takeGen (countUnmapped u u.time.tick) 2 j) j y
        let w := setBitOf (setBitOf v (fun w => F.BXL_LEASE_ACK_ACK w) j false) (fun w => F.BXL_ORPHAN_ORPHAN w) j false
        let fits := budgetsHold u (p8 c 16) ((smallestK u (handleIdx c.handle) x, p8 c 18)
          :: directionLoad u (p8 c 16) (handleIdx c.handle) (smallestK u (handleIdx c.handle) x))
        (mayRun u 0x14 c [(6, p32 c 20)] f → isMember u = false → partnerAt u (handleIdx (p32 c 20)) = some p →
          bitAt p.formats (p8 c 18) = true → (p.ver = 1 → p8 c 18 ≠ 2) →
          (fits = true → p.lost = false → exec (.streamCreate t c) s = .next
            (complete (sendGrant (showStreams w (handleIdx (p32 c 20))) j) f (mkHandle 2 (nextGen u 2 j) j)))
          ∧ (fits = true → p.lost = true → exec (.streamCreate t c) s = .next (reject u f stBusy))
          ∧ (fits = false → exec (.streamCreate t c) s = .next (reject u f stNoResource)))
        ∧ (mayRun u 0x14 c [] f → isMember u = true → p32 c 20 = 0 → fits = true →
          exec (.streamCreate t c) s = .next (complete (sendGrant w j) f (mkHandle 2 (nextGen u 2 j) j))))
    ∧ (∀ y q, mayRun u 0x15 c [] f → streamAt u (handleIdx c.handle) = some y → y.orphan = none → streamPartner u y = some q →
        exec (.streamDestroy t c) s = .next
          (complete (removeStream (sendMessage (closeStream u (handleIdx c.handle) y) q 0x07 (leBytes 4 c.handle)) (handleIdx c.handle)) f 0))
    ∧ (∀ y, mayRun u 0x15 c [] f → streamAt u (handleIdx c.handle) = some y → y.orphan = none → streamPartner u y = none →
        exec (.streamDestroy t c) s = .next (complete (removeStream u (handleIdx c.handle)) f 0))
    ∧ (∀ y, mayRun u 0x15 c [] f → streamAt u (handleIdx c.handle) = some y → y.orphan.isSome = true →
        exec (.streamDestroy t c) s = .next
          (complete (removeStream (postOrphanEnd u (handleIdx c.handle) 0) (handleIdx c.handle)) f 0))
    ∧ (mayRun u 0x68 c [] f → partnerAt u (handleIdx c.handle) = some p → p.lost = false →
        exec (.partnerDestroy t c) s = .next
          (complete (cancelNaming (freePartner (orphanStreams (sendMessage u (handleIdx c.handle) 0x09 (leBytes 8 p.ident))
            (handleIdx c.handle) u.time.now) (handleIdx c.handle)) c.handle) f 0))
    ∧ (mayRun u 0x68 c [] f → partnerAt u (handleIdx c.handle) = some p → p.lost = true →
        exec (.partnerDestroy t c) s = .next (complete (cancelNaming (freePartner u (handleIdx c.handle)) c.handle) f 0))

/-- WS_CREATE makes an empty set in the slot it names. WS_LOAD takes a staged bank for an on-chip-only set and reads its source; when the
source data is there, read piece by piece as tags come free, a library set has it in the DRAM, an on-chip-only set in its staged bank, and the
command completes; in sleep, and while the DRAM port that it needs does not serve, it has to wait; for a set destroyed meanwhile it completes with BAD_HANDLE (the model's choice, notes/assumptions/54.md), and where it needs the DRAM and the port is untrained by
then with MEM_DOWN. WS_ACTIVATE is accepted with the fill of the shadow
bank, or completes with NO_RESOURCE where its columns or windows do not fit. WS_DESTROY frees the set with its staged columns and cancels what
is pending for it, or completes with BUSY while the set is in the active or the shadow bank. -/
def Obligations.WeightSetCommandsComplete : Prop :=
  ∀ (t : Nat) (c : Cmd) (s u : State) (f : Flight) (w : WeightSet) (x : Carrier), u = advance t s →
    (mayRun u 0x18 c [(1, p32 c 24)] f → p16 c 16 ≤ 8255 → p8 c 18 ≤ 1 → 1 ≤ p8 c 19 → p8 c 19 ≤ 64 → p8 c 20 ≤ 4 →
        p8 c 19 * 2 ^ p8 c 20 ≤ 512 → carrierAt u (handleIdx (p32 c 24)) = some x → x.sLog2 = p8 c 20 → carries x (p8 c 18) = true →
        (p16 c 16 < 8192 → p16 c 16 < getF u F.BEAM_LIB_CTRL_SLOTS) → setAt u (p16 c 16) = none →
        exec (.wsCreate t c) s = .next
          (complete (putSet (takeGen u 3 (p16 c 16)) (p16 c 16)
             { gen := nextGen u 3 (p16 c 16), dir := p8 c 18, l := p8 c 19, sLog2 := p8 c 20, carrier := p32 c 24, bank := none, data := [] })
             f (mkHandle 3 (nextGen u 3 (p16 c 16)) (p16 c 16))))
    ∧ (∀ b, mayRun u 0x19 c [] f → setAt u (handleIdx c.handle) = some w → (8192 ≤ handleIdx c.handle → stagedFor u (handleIdx c.handle) w = some b) →
        p64 c 24 % 4 = 0 → regionBad (p8 c 16) (p64 c 24) (bytesOf w) = false → regionDown u (p8 c 16) (p64 c 24) (bytesOf w) = false →
        (handleIdx c.handle < 8192 → regionDown u 2 (libAddr u (handleIdx c.handle)) (bytesOf w) = false) →
        inActive u (handleIdx c.handle) = false → inShadow u (handleIdx c.handle) = false →
        (∀ y ∈ u.beam.fills, y.slot ≠ handleIdx c.handle) →
        let v := setStage u f.id .running
        let v := if handleIdx c.handle < 8192 then v
          else { v with beam := { v.beam with loads := v.beam.loads ++ [(f.id, handleIdx c.handle, b)] } }
        exec (.wsLoad t c) s = .next (if p8 c 16 = 0 then readSource v f (p64 c 24) (bytesOf w) else v))
    ∧ (∀ (v : State) (data bytes : List Byte), asleep u = false → sourceFlight u f.cmd.ring f.cmd.tag = some f → f.cmd.opcode = 0x19 →
        f.rest.2 = 0 →
        (p8 f.cmd 16 = 2 ∨ handleIdx f.cmd.handle < 8192 → dramTrained u = true ∧ v = disturbSr u ∧ portServes v = true) →
        (p8 f.cmd 16 ≠ 2 → 8192 ≤ handleIdx f.cmd.handle → v = u) →
        setAt v (handleIdx f.cmd.handle) = some w → w.gen = handleGen f.cmd.handle →
        bytes = (if p8 f.cmd 16 = 0 then (f.got ++ data).take (bytesOf w)
          else if p8 f.cmd 16 = 1 then memRead v.store (p64 f.cmd 24) (bytesOf w) else memRead v.dram (p64 f.cmd 24) (bytesOf w)) →
        let w0 := dropLoad (keepSource v f []) f.id
        (handleIdx f.cmd.handle < 8192 → exec (.sourceDataReadComplete t f.cmd.ring f.cmd.tag data) s = .next
          (pumpShared (complete { w0 with dram := memWrite v.dram (libAddr v (handleIdx f.cmd.handle)) bytes } f 0)))
        ∧ (8192 ≤ handleIdx f.cmd.handle → exec (.sourceDataReadComplete t f.cmd.ring f.cmd.tag data) s = .next
          (pumpShared (complete (showCols (putSet w0 (handleIdx f.cmd.handle) { w with
            bank := (v.beam.loads.find? (fun y => y.1 = f.id)).map (·.2.2) <|> w.bank, data := bytes }) w.dir) f 0))))
    ∧ (∀ data, asleep u = false → sourceFlight u f.cmd.ring f.cmd.tag = some f → f.cmd.opcode = 0x19 →
        (0 < f.rest.2 → exec (.sourceDataReadComplete t f.cmd.ring f.cmd.tag data) s = .next
          (if data.length = f.source.2 - f.rest.2 - f.got.length then pumpShared (keepSource u f data) else u))
        ∧ (f.rest.2 = 0 → dramTrained u = true → p8 f.cmd 16 = 2 ∨ handleIdx f.cmd.handle < 8192 → portServes (disturbSr u) = false →
          exec (.sourceDataReadComplete t f.cmd.ring f.cmd.tag data) s = .next (disturbSr u)))
    ∧ (∀ ring tag data, asleep u = true → exec (.sourceDataReadComplete t ring tag data) s = .next u)
    ∧ (∀ data, asleep u = false → sourceFlight u f.cmd.ring f.cmd.tag = some f → f.cmd.opcode = 0x19 → f.rest.2 = 0 →
        (p8 f.cmd 16 = 2 ∨ handleIdx f.cmd.handle < 8192 → dramTrained u = false) →
        ((∀ w, setAt u (handleIdx f.cmd.handle) = some w → w.gen ≠ handleGen f.cmd.handle) →
          exec (.sourceDataReadComplete t f.cmd.ring f.cmd.tag data) s = .next
            (pumpShared (reject (dropLoad (keepSource u f []) f.id) f stBadHandle)))
        ∧ (setAt u (handleIdx f.cmd.handle) = some w → w.gen = handleGen f.cmd.handle → p8 f.cmd 16 = 2 ∨ handleIdx f.cmd.handle < 8192 →
          exec (.sourceDataReadComplete t f.cmd.ring f.cmd.tag data) s = .next
            (pumpShared (reject (dropLoad (keepSource u f []) f.id) f stMemDown))))
    ∧ (mayRun u 0x1A c [] f → setAt u (handleIdx c.handle) = some w → (8192 ≤ handleIdx c.handle → w.bank.isSome = true) →
        inWindow u c f [(0x1A, handleIdx w.carrier, w.dir)] → activateFits u (handleIdx c.handle) (handleIdx w.carrier) w.dir (colsOf w) c.actTick = true →
        (handleIdx c.handle < 8192 → changeBars u c.actTick = false) →
        exec (.wsActivate t c) s = .next
          (accept { u with beam := { u.beam with fills := u.beam.fills ++
            [{ id := f.id, slot := handleIdx c.handle, carrier := handleIdx w.carrier, dir := w.dir, cols := colsOf w, tick := c.actTick,
               started := false, done := false, failed := false, down := false, data := [] }] } } f [(0x1A, handleIdx w.carrier, w.dir)] []))
    ∧ (mayRun u 0x1A c [] f → setAt u (handleIdx c.handle) = some w → (8192 ≤ handleIdx c.handle → w.bank.isSome = true) →
        inWindow u c f [(0x1A, handleIdx w.carrier, w.dir)] → activateFits u (handleIdx c.handle) (handleIdx w.carrier) w.dir (colsOf w) c.actTick = false →
        exec (.wsActivate t c) s = .next (reject u f stNoResource))
    ∧ (mayRun u 0x1B c [] f → inActive u (handleIdx c.handle) = false → inShadow u (handleIdx c.handle) = false →
        exec (.wsDestroy t c) s = .next
          (complete (showAllCols (cancelNaming (dropLoads { u with beam := { u.beam with sets := assocDel u.beam.sets (handleIdx c.handle) } }
            (handleIdx c.handle)) c.handle)) f 0))
    ∧ (mayRun u 0x1B c [] f → (inActive u (handleIdx c.handle) = true ∨ inShadow u (handleIdx c.handle) = true) →
        exec (.wsDestroy t c) s = .next (reject u f stBusy))

/-- A WS_CREATE whose SLOT already holds a weight set completes with NO_RESOURCE and creates nothing (R509). -/
def Obligations.WsCreateInAFullSlotIsRefused : Prop :=
  ∀ (t : Nat) (c : Cmd) (s u : State) (f : Flight) (x : Carrier), u = advance t s → mayRun u 0x18 c [(1, p32 c 24)] f →
    p16 c 16 ≤ 8255 → p8 c 18 ≤ 1 → 1 ≤ p8 c 19 → p8 c 19 ≤ 64 → p8 c 20 ≤ 4 → p8 c 19 * 2 ^ p8 c 20 ≤ 512 →
    carrierAt u (handleIdx (p32 c 24)) = some x → x.sLog2 = p8 c 20 → carries x (p8 c 18) = true →
    (p16 c 16 < 8192 → p16 c 16 < getF u F.BEAM_LIB_CTRL_SLOTS) → (assocGet u.beam.sets (p16 c 16)).isSome = true →
    ∃ s', exec (.wsCreate t c) s = .next s' ∧ s' = reject u f 0x12 ∧ s'.beam = u.beam

/-- The fill of the shadow bank. The fetch of a library set starts 49,152 ticks before its tick T, failed from the start while the DRAM port is
untrained; a fetch that completes by T - 4,096, while the port issues requests, holds the library's bytes and counts in PREFETCH_DONE; one that has not done so at T - 4,096 has
failed, counts in PREFETCH_LATE and posts its event. The copy of a staged set starts at T - 4,096. From its slice block B on, of the settings of
its carrier that are in force there, the new set maps the layers, and 7SK later the columns of the old one are free. That the fetch reads the whole
set at the tick at which it completes is the model's choice (notes/assumptions/53.md), as is that a fetch waits while the port does not serve, having
only disturbed self-refresh (36.md). -/
def Obligations.WeightSetFillsComplete : Prop :=
  ∀ (t i d : Nat) (s u : State) (x : Fill), u = advance t s →
    (u.beam.fills.find? (fun y => y.carrier = i && y.dir = d && (isLib y.slot && !y.started && decide (y.tick ≤ u.time.tick + 49152))) = some x →
        exec (.prefetchStart t i d) s = .next (showCols { u with beam := { u.beam with
          fills := u.beam.fills.map fun y => if y.id = x.id then { y with started := true, down := !dramTrained u } else y } } d))
    ∧ (u.beam.fills.find? (fun y => y.carrier = i && y.dir = d && fetchOpen u y) = some x → dramTrained u = true →
        let v := disturbSr u
        (portServes v = true → exec (.prefetchComplete t i d) s = .next (wrapAdd { v with beam := { u.beam with fills := u.beam.fills.map fun y =>
          if y.id = x.id then { y with done := true, data := memRead u.dram (libAddr u x.slot) (256 * x.cols) } else y } }
            F.BEAM_PREFETCH_DONE 1))
        ∧ (portServes v = false → exec (.prefetchComplete t i d) s = .next v))
    ∧ (∀ w, u.beam.fills.find? (fun y => y.carrier = i && y.dir = d
          && (isLib y.slot && !y.done && !y.failed && decide (y.tick ≤ u.time.tick + 4096))) = some x → setAt u x.slot = some w →
        exec (.dramPrefetchLate t i d) s = .next (post (satAdd { u with beam := { u.beam with fills := u.beam.fills.map fun y =>
          if y.id = x.id then { y with failed := true, down := y.down || !dramTrained u } else y } } F.BEAM_PREFETCH_LATE 1)
            0x00C1 (evData [(16, 4, mkHandle 3 w.gen x.slot)])))
    ∧ (∀ w, u.beam.fills.find? (fun y => y.carrier = i && y.dir = d
          && (!isLib y.slot && !y.started && decide (y.tick ≤ u.time.tick + 4096))) = some x → setAt u x.slot = some w →
        exec (.stagedCopyStart t i d) s = .next (showCols { u with beam := { u.beam with fills := u.beam.fills.map fun y =>
          if y.id = x.id then { y with started := true, done := true, data := w.data } else y } } d))
    ∧ (let v := countUnmapped u u.time.tick;
        exec (.weightSetSwap t i d) s = .next { v with beam := { v.beam with active := v.beam.active.map fun y =>
          if y.carrier = i && y.dir = d && (match mapBlock v y with | some b => decide (b ≤ v.time.tick) | none => false)
          then { y with mapped := some y.layers, mapAt := none } else y } })
    ∧ exec (.oldSetFreed t i d) s = .next (showCols { u with beam := { u.beam with
        leaving := u.beam.leaving.filter fun y => !(y.carrier = i && y.dir = d && decide (freeTick u y ≤ u.time.tick)) } } d)
    ∧ (∀ c a n, carrierAt u i = some c → c.was = [] → a.carrier = i → a.mapAt = some n →
        mapBlock u a = some (gridUp u (slices c * c.k) n)
        ∧ ∀ y : Leaving, y.carrier = i → y.after = n → freeTick u y = gridUp u (slices c * c.k) n + 7 * (slices c * c.k))

/-! ## The sample paths -/

/-- CFR_SET, RX_GAIN and DC_LOAD are accepted, CFR_SET without a tick sets its paths at once; RX_GAIN is BUSY under gain control, DC_LOAD
unless FREEZE is ALWAYS. A write of TXP(n).CTRL of a present path sets EN and shows a change outside; one of RXP(n).CTRL sets EN, resets the
DC loops where EN turns to 1, and ends the acquisition span and counts the window in course as discarded where it turns to 0: that this happens
at once is the model's choice (notes/assumptions/15.md, 14.md). A write for an absent path is only counted. -/
def Obligations.PathControlComplete : Prop :=
  (∀ (t : Nat) (c : Cmd) (s u : State) (f : Flight), u = advance t s →
    (mayRun u 0x22 c [] f → p64 c 16 < 2 ^ nPaths u → p8 c 24 ≤ 1 → 65 ≤ p16 c 26 → p16 c 26 ≤ 95 →
        (sched c = true → inWindow u c f ((bitsSet (p64 c 16) 64).map fun n => (0x22, n, 0))) →
        exec (.cfrSet t c) s = .next
          (if sched c then accept u f ((bitsSet (p64 c 16) 64).map fun n => (0x22, n, 0)) [] else complete (applyCfrSet u c) f 0))
    ∧ (mayRun u 0x21 c [] f → pathPresent u (p8 c 16) = true → p8 c 17 ≤ 30 → inWindow u c f [(0x21, p8 c 16, 0)] →
        exec (.rxGain t c) s = .next (if flag u (F.RXP_GAIN_AUTO (p8 c 16)) then reject u f stBusy else accept u f [(0x21, p8 c 16, 0)] []))
    ∧ (mayRun u 0x23 c [] f → pathPresent u (p8 c 16) = true → -64 ≤ signed 8 (p8 c 17) → signed 8 (p8 c 17) ≤ 63 →
        -64 ≤ signed 8 (p8 c 18) → signed 8 (p8 c 18) ≤ 63 → -4095 ≤ signed 16 (p16 c 20) → signed 16 (p16 c 20) ≤ 4095 →
        -4095 ≤ signed 16 (p16 c 22) → signed 16 (p16 c 22) ≤ 4095 → inWindow u c f [(0x23, p8 c 16, 0)] →
        exec (.dcLoad t c) s = .next (if dcFreeze u (p8 c 16) = 2 then accept u f [(0x23, p8 c 16, 0)] [] else reject u f stBusy)))
  ∧ (∀ (t n data : Nat) (s u : State), u = advance t s → asleep u = false →
    (pathPresent u n = true → getF (countCfg u 1) (F.TXP_CTRL_EN n) ≠ data % 2 →
        exec (.txpCtrlWrite t n data) s = .next (emit (setF (countCfg u 1) (F.TXP_CTRL_EN n) (data % 2)) (.txEnable n (bitAt data 0))))
    ∧ (pathPresent u n = true → getF (countCfg u 1) (F.TXP_CTRL_EN n) = data % 2 →
        exec (.txpCtrlWrite t n data) s = .next (setF (countCfg u 1) (F.TXP_CTRL_EN n) (data % 2)))
    ∧ (pathPresent u n = false → exec (.txpCtrlWrite t n data) s = .next (countCfg u 1) ∧ exec (.rxpCtrlWrite t n data) s = .next (countCfg u 1))
    ∧ (pathPresent u n = true →
        let v := setF (countCfg u 1) (F.RXP_CTRL_EN n) (data % 2)
        let a := edgeAtOrAfter v (dcWindow v n) (rxPath v n).windowFrom
        (flag (countCfg u 1) (F.RXP_CTRL_EN n) = bitAt data 0 → exec (.rxpCtrlWrite t n data) s = .next v)
        ∧ (flag (countCfg u 1) (F.RXP_CTRL_EN n) = false → bitAt data 0 = true →
          exec (.rxpCtrlWrite t n data) s = .next (resetDc (spoilWindow v n v.time.tick) n))
        ∧ (flag (countCfg u 1) (F.RXP_CTRL_EN n) = true → bitAt data 0 = false →
          exec (.rxpCtrlWrite t n data) s = .next (closeAcq (modRx
            (if a < v.time.tick ∧ v.time.tick < a + dcWindow v n then satAdd v (F.RXP_DC_STAT_DISCARDED n) 1 else v) n
            fun x => { x with spoilt := [] }) n v.time.tick))))

/-- A DC window that ends is discarded and counted when a tick of it is frozen or spoilt, else its sums of stage-3 outputs are measured; a
reset that is due clears C and F; a step of gain control that may be taken requests its swap, and where that is made its tick is noted. -/
def Obligations.ReceiveLoopsComplete : Prop :=
  ∀ (t n : Nat) (s u : State), u = advance t s →
    (∀ w a, w = dcWindow u n → a = u.time.tick - w → rxRuns u n = true → (rxPath u n).resetAt = none →
        u.time.origin + w ≤ u.time.tick → (a - u.time.origin) % w = 0 → (rxPath u n).windowFrom ≤ a →
        ((frozenIn u n a u.time.tick = true ∨ ∃ m ∈ (rxPath u n).spoilt, a < m ∧ m < u.time.tick) →
          exec (.dcWindowEnd t n) s = .next
            (modRx (satAdd u (F.RXP_DC_STAT_DISCARDED n) 1) n fun x => { x with windowFrom := u.time.tick, spoilt := [] }))
        ∧ (frozenIn u n a u.time.tick = false → (∀ m ∈ (rxPath u n).spoilt, m ≤ a ∨ u.time.tick ≤ m) →
          exec (.dcWindowEnd t n) s = .next
            (measureDc u n w (windowSums u n a u.time.tick).1 (windowSums u n a u.time.tick).2)))
    ∧ (∀ w, (rxPath u n).resetAt = some w → w ≤ u.time.tick →
        exec (.dcReset t n) s = .next (modRx (setDc u n 0 0 0 0) n fun x => { x with resetAt := none }))
    ∧ (∀ gain tick, pathPresent u n = true → flag u (F.RXP_GAIN_AUTO n) = true → fwRunning u = true → gain ≤ 30 →
        gainTickGood u n tick = true →
        let r := requestSwap u n 2 0 tick false (BitVec.ofNat 8 gain :: List.replicate 251 0)
        exec (.gainControlStep t n gain tick) s = .next (if r.2 then modRx r.1 n fun x => { x with lastStep := some tick } else r.1))

/-- A packet that awaits its tests leaves the list of arrivals. It is counted as misaligned, early, late or duplicate at the first test that it
fails; one that passes them all writes its slot with its samples, is the stream's first accepted packet if there was none, and lowers the
least margin. -/
def Obligations.DownlinkPacketIsTested : Prop :=
  ∀ (t : Nat) (s u v : State) (p : DlArrival) (rest : List DlArrival) (x : Stream) (c0 c : Carrier), u = advance t s →
    u.arrivals = p :: rest → v = { u with arrivals := rest } → streamAt u p.stream = some x → carrierAt u x.carrier = some c0 →
    c = settingsFor v x.carrier c0 p.first →
    (packetTest v c x p.first p.arrival = 1 → exec (.dlPacketArrival t) s = .next (satAdd v (F.TXP_DLB_MISC_MISALIGNED p.stream) 1))
    ∧ (packetTest v c x p.first p.arrival = 2 → exec (.dlPacketArrival t) s = .next
        (modSlot (satAdd v (F.TXP_DLB_DROP_EARLY p.stream) 1) p.stream p.first c fun y => { y with dropped := true }))
    ∧ (packetTest v c x p.first p.arrival = 3 → exec (.dlPacketArrival t) s = .next
        (modSlot (satAdd v (F.TXP_DLB_ERR_LATE p.stream) 1) p.stream p.first c fun y => { y with late := true }))
    ∧ (packetTest v c x p.first p.arrival = 4 → exec (.dlPacketArrival t) s = .next (satAdd v (F.TXP_DLB_DROP_DUPLICATE p.stream) 1))
    ∧ (packetTest v c x p.first p.arrival = 0 →
        let w := putStream v p.stream { putSlot x { slotAt x c p.first with written := true, data := p.data } with
          firstAccepted := some (x.firstAccepted.getD p.first) }
        exec (.dlPacketArrival t) s = .next (setF w (F.TXP_DLB_MISC_MARGIN_MIN p.stream)
          (min (getF u (F.TXP_DLB_MISC_MARGIN_MIN p.stream)) ((p.first - dDl c 0 - 1024 - p.arrival) / 64))))

/-- At the read-out of its last sample a slot of a downlink stream that is no orphan is decided, written, late, missing or none of these, and
no other stream changes. A frame boundary posts DL_LATE for each stream with late or missing slots and clears their count. The record of a
decided slot with a required block is made once, when it has passed every path; every 16,384 ticks from the SYNC origin the records go out in
ECHO messages and are dropped. -/
def Obligations.SlotEventsComplete : Prop :=
  ∀ (t j n : Nat) (s u : State) (x : Stream) (c0 c : Carrier), u = advance t s → streamAt u j = some x → carrierAt u x.carrier = some c0 →
    c = (carrierAhead u x.carrier c0).atTick n →
    (x.dir = 0 → x.orphan = none → skippedSlot (carrierAhead u x.carrier c0) c n = false → (slotAt x c n).decided = none → c.grid ≤ n → (n - c.grid) % (1024 * c.k) = 0 → slotReadOut c n ≤ u.time.tick →
        ∃ s' y, exec (.slotDecided t j n) s = .next s' ∧ streamAt s' j = some y
          ∧ (slotAt y c n).required = blockMask (blockRequired u c n)
          ∧ (slotAt y c n).decided = some (if blockMask (blockRequired u c n) = 0 then 3 else if (slotAt x c n).written then 0
              else match x.firstAccepted with
                | some a => if a ≤ n then (if (slotAt x c n).late then 1 else 2) else 3
                | none => 3)
          ∧ (∀ i, i ≠ j → streamAt s' i = streamAt u i) ∧ { s' with streams := u.streams, regs := u.regs } = u)
    ∧ (∀ y, x.orphan = none → x.slots.find? (fun z => z.first = n && echoDue u z) = some y →
        exec (.echoRecord t j n) s = .next (modStream u j fun z =>
          { putSlot z { y with echoed := true } with echoes := if isActive u then z.echoes ++ [echoRecord u c0 y] else z.echoes }))
    ∧ (u.time.tick % 9830400 = 0 →
        exec (.frameBoundary t) s = .next (u.streams.foldl (fun v y => if y.2.badSlots = 0 then v else
          modStream (post v 0x0063 (evData [(16, 4, mkHandle 2 y.2.gen y.1), (20, 4, y.2.badSlots), (24, 2, y.2.firstBad)])) y.1
            fun z => { z with badSlots := 0, firstBad := 0 }) u))
    ∧ ((u.time.tick - u.time.origin) % 16384 = 0 → isActive u = true → ∃ s', exec (.echo t) s = .next s'
        ∧ s'.carriers = u.carriers ∧ s'.acts = u.acts ∧ s'.streams = u.streams.map fun y => (y.1, { y.2 with echoes := [] }))

/-- An uplink packet is formed of its layer samples and pips and queued at the front port once its slot is complete; on a lantern that
combines, once its sum is combined, with the sum's samples, pips and REDUCED. A port sends the packet that nextQueued names, a TIME packet
with this tick, a partial sum with its wait recorded; a packet that waits for more than 32,768 ticks is discarded and counted. -/
def Obligations.UplinkAndSendingComplete : Prop :=
  ∀ (t j n : Nat) (s u : State), u = advance t s →
    (∀ (x : Stream) (c : Carrier) (pip q : Nat) (reduced : Bool) (data : List Sample), streamAt u j = some x → ulCarrier u x n = some c →
        isMember u = false → x.orphan = none → (streamPartner u x).isSome = true → slotReady u x c n q = true →
        (combines u = false → q = slotDone c n ∧ u.casc.combined.find? (fun y => y.stream = j && y.slot = n) = none ∧ pip = ulPips u x c n ∧ reduced = false
          ∧ data = slotSamples u x c n fun r => ulLayer u x.carrier c x.layer r) →
        (combines u = true → (∃ y, u.casc.combined.find? (fun y => y.stream = j && y.slot = n) = some y ∧ q = y.queueAt ∧ pip = y.pip
            ∧ reduced = y.reduced) ∧ data = slotSamples u x c n fun r => arrayLayer u j x.carrier c x.layer n r) →
        let v := enqueue u 0 { pkt := ulPacket u j x n pip reduced data, since := timeOf u q, ctrl := false, index := j, q := none, stomp := false }
        let kept := u.captures.any fun y => y.source = 3 && y.carrier = x.carrier && y.layer = (1, x.layer)
        let w := modCasc v fun y => { y with combined := y.combined.filter (fun z => z.stream != j || kept || decide (n ≤ z.slot)) }
        exec (.ulPacketQueued t j n) s = .next (modStream w j fun y => { ulFormed y c n with ulSeq := (y.ulSeq + 1) % 2 ^ 16 }))
    ∧ (∀ q x, portUp u q = true → nextQueued (Sys2Proof.Machine.port u q).queue = some x → mayStart u q x.pkt = true →
        u.time.now ≤ x.since + 32768 →
        let v := takeCapacity (modPort u q fun y => { y with queue := y.queue.erase x }) q x.pkt
        (x.q = none → x.pkt.type ≠ 4 → exec (.packetSend t q) s = .next (sendBytes v q (packetBytes x.pkt x.stomp)))
        ∧ (x.q = none → x.pkt.type = 4 → exec (.packetSend t q) s = .next (sendBytes v q
            (packetBytes { x.pkt with payload := leBytes 8 u.time.tick ++ x.pkt.payload.drop 8 } x.stomp)))
        ∧ (∀ m, x.q = some m → u.time.now ≤ m + ulAllow u → x.pkt.type ≠ 4 → exec (.packetSend t q) s = .next
            (sendBytes (setF v F.CAS_WAIT_MAX_WAIT (max (getF v F.CAS_WAIT_MAX_WAIT) (min 65535 (u.time.now - m)))) q
              (packetBytes x.pkt x.stomp))))
    ∧ (∀ q x, (Sys2Proof.Machine.port u q).queue.find? (fun y => decide (y.since + 32768 < u.time.now)) = some x →
        exec (.packetOverrun t q) s = .next
          (satAdd (modPort u q fun y => { y with queue := y.queue.erase x }) (F.LN_PORT_STAT_OVERRUN q) 1))

/-- A pending activation acts at its tick and ends with its status, the earliest first, but while an entry into SLEEP or DEEP is in course and in
sleep none does (notes/assumptions/41.md); the fields that it sets at its very tick hold against a register write of that cycle (R500). An adaptive
swap takes effect at its tick; the firmware's request of a swap of a kind does what the solve, the window or the step of that kind does
(notes/assumptions/13.md), and a gain step that meets every test of a swap is made: it joins the pending swaps with the next sequence number, and
commands, carriers and coefficient blocks stay as they were. -/
def Obligations.ActivationsAndSwapsTakeEffect : Prop :=
  ∀ (t : Nat) (s u : State), u = advance t s →
    (∀ p, u.power.phase = .run → dueAct u = some p → exec (.scheduledActivation t) s = .next (endAct
        ((if p.tick = u.time.tick then fieldsOf u p.cmd else []).foldl holdBits (activate u p).1) p (activate u p).2 p.tick))
    ∧ (u.power.phase ≠ .run → exec (.scheduledActivation t) s = .next u)
    ∧ (∀ p q : Pending, p.cmd.opcode < 256 → (p.keys.headD (0, 0, 0)).2.1 < 2 ^ 32 →
        (p.keys.headD (0, 0, 0)).2.2 < 2 ^ 16 → p.tick < q.tick → actRank p < actRank q)
    ∧ (∀ x, (sortBy (fun y => y.tick) (u.swaps.filter fun y => y.tick ≤ u.time.tick)).head? = some x → x.kind = 0 →
        exec (.adaptiveSwap t) s = .next (applyDpdSwap { u with swaps := u.swaps.erase x } x))
    ∧ (∀ x, (sortBy (fun y => y.tick) (u.swaps.filter fun y => y.tick ≤ u.time.tick)).head? = some x → x.kind ≠ 0 →
        exec (.adaptiveSwap t) s = .next (applyRxSwap { u with swaps := u.swaps.erase x } x))
    ∧ (∀ path bin gain tick better base data,
        exec (.adaptiveSwapRequest t path 0 bin gain tick better base data) s = .next (solveDone u path bin better base data)
        ∧ exec (.adaptiveSwapRequest t path 1 bin gain tick better base data) s = .next (endWindow u path)
        ∧ exec (.adaptiveSwapRequest t path 2 bin gain tick better base data) s = .next (requestGain u path gain tick))
    ∧ (∀ path bin gain tick better base data, pathPresent u path = true → flag u (F.RXP_GAIN_AUTO path) = true →
        fwRunning u = true → gain ≤ 30 → gainTickGood u path tick = true → tickValid u = true → u.time.tick + 24576 ≤ tick →
        tick < u.time.tick + 2 ^ 34 → conflicts u tick [(0x21, path, 0)] = false → logRefusal u = none → adaptEventRoom u = true →
        ∃ s', exec (.adaptiveSwapRequest t path 2 bin gain tick better base data) s = .next s'
          ∧ s'.swaps = u.swaps ++
              [{ coarse := false, path := path, kind := 2, bin := 0, tick := tick, seq := u.swapSeq,
                 block := tagBlock (BitVec.ofNat 8 gain :: List.replicate 251 0) u.swapSeq }]
          ∧ s'.swapSeq = (u.swapSeq + 1) % 2 ^ 32 ∧ s'.acts = u.acts ∧ s'.carriers = u.carriers ∧ s'.dpd = u.dpd)

/-! ## Clocks, device time, the pattern -/

/-- PLL switches, locks and losses of lock. A write that stops the root PLL holds the counter and clears TICK_VALID, pending activations stay,
and captures that await their load are dropped (the model's choice, notes/assumptions/51.md); its lock sets ROOT_LOCK and the counter to 0, from which it counts. The lock of the lane PLL lets the lanes follow. A loss of lock clears
the lock bit, sets UNLOCK_STICKY and posts CLOCK_UNLOCK; a lock found again sets the lock bit and does nothing else. -/
def Obligations.ClocksComplete : Prop :=
  ∀ (t data : Nat) (s u : State), u = advance t s →
    (asleep u = false → exec (.rootEnWrite t data) s = .next (writeClkCtrl (countCfg u 1) data)
        ∧ exec (.laneEnWrite t data) s = .next (writeClkCtrl (countCfg u 1) data))
    ∧ (asleep u = false → flag (countCfg u 1) F.TIME_CLK_CTRL_ROOT_EN = true → bitAt data 0 = false → bitAt data 1 = true →
        ∃ s', exec (.rootEnWrite t data) s = .next s' ∧ s'.time.counting = false ∧ s'.time.tick = u.time.tick ∧ s'.time.syncs = []
          ∧ tickValid s' = false ∧ s'.acts = u.acts)
    ∧ (flag u F.TIME_CLK_CTRL_ROOT_EN = true → u.time.counting = false → asleep u = false →
        ∃ s', exec (.rootPllLock t) s = .next s' ∧ s' = restartCounter (setFlag u F.TIME_CLK_STATUS_ROOT_LOCK true)
          ∧ flag s' F.TIME_CLK_STATUS_ROOT_LOCK = true ∧ s'.time.tick = 0 ∧ s'.time.counting = true ∧ tickValid s' = tickValid u ∧ s'.acts = u.acts)
    ∧ (flag u F.TIME_CLK_CTRL_LANE_EN = true → u.time.counting = true → u.time.laneUp = false →
        let v := settleInjectors u
        exec (.lanePllLock t) s = .next ((List.range 3).foldl (fun v q => lanesFollow v q fun _ => true)
          (setFlag { v with time := { v.time with laneUp := true } } F.TIME_CLK_STATUS_LANE_LOCK true)))
    ∧ (flag u F.TIME_CLK_STATUS_ROOT_LOCK = true →
        exec (.clockUnlock t 0) s = .next (post (raiseFlag (setFlag u F.TIME_CLK_STATUS_ROOT_LOCK false)
          F.TIME_CLK_STATUS_UNLOCK_STICKY) 0x0010 (evData [(16, 1, 0)])))
    ∧ (flag u F.TIME_CLK_STATUS_LANE_LOCK = true →
        exec (.clockUnlock t 1) s = .next (post (raiseFlag (setFlag u F.TIME_CLK_STATUS_LANE_LOCK false)
          F.TIME_CLK_STATUS_UNLOCK_STICKY) 0x0010 (evData [(16, 1, 1)])))
    ∧ (u.time.counting = true → flag u F.TIME_CLK_CTRL_ROOT_EN = true →
        exec (.pllRelock t 0) s = .next (setFlag u F.TIME_CLK_STATUS_ROOT_LOCK true))
    ∧ (u.time.laneUp = true → flag u F.TIME_CLK_CTRL_LANE_EN = true →
        exec (.pllRelock t 1) s = .next (setFlag u F.TIME_CLK_STATUS_LANE_LOCK true))

/-- SYNC: a write of SYNC_CTRL; the capture of an event at a REFCLK edge in mode APPLY with ARMED, to be loaded 256 - 4 COMP ticks later, or in mode
CHECK, to be compared then, and in the other cases none; in repeat mode, whatever the capture, SYNC_OUT two REFCLK edges later for four periods; the load of a capture that is due; the check, which counts or posts the
difference; the scheduled SYNC_OUT, which ends with its register all ones, a value that never matches. -/
def Obligations.SyncCommandsComplete : Prop :=
  ∀ (t data : Nat) (s u : State), u = advance t s →
    (asleep u = false → exec (.syncArm t data) s = .next (writeSyncCtrl (countCfg u 1) data))
    ∧ (u.time.counting = true → onRefclk u = true →
        let m := getF u F.TIME_SYNC_CTRL_MODE
        let kept := fun (w : State) => ({ w with time := { u.time with
          syncs := u.time.syncs ++ [{ check := m == 2, value := get64 u A.TIME_SYNC_VALUE A.TIME_SYNC_VALUE_1,
                                      loadAt := u.time.now + (256 - 4 * getF u F.TIME_SYNC_CTRL_COMP) }] } } : State)
        let v := (if m = 1 ∧ flag u F.TIME_SYNC_CTRL_ARMED = true then kept (setFlag u F.TIME_SYNC_CTRL_ARMED false)
          else if m = 2 then kept u else u)
        (getF u F.TIME_SYNC_CTRL_OUT_MODE ≠ 1 → exec (.syncEvent t) s = .next v)
        ∧ (getF u F.TIME_SYNC_CTRL_OUT_MODE = 1 → exec (.syncEvent t) s = .next (emit v (.syncOut (u.time.now + 8) (u.time.now + 24)))))
    ∧ (u.time.counting = false → exec (.syncEvent t) s = .next u)
    ∧ (∀ c, dueSync u false = some c →
        exec (.syncApplied t) s = .next
          (applySync (dropSync u c) c.value (u.time.tick - (u.time.now - c.loadAt)) (u.time.now - c.loadAt)))
    ∧ (∀ c, dueSync u true = some c →
        let diff : Int := (c.value : Int) - ((u.time.tick : Int) - ((u.time.now - c.loadAt : Nat) : Int))
        (diff = 0 → exec (.syncCheck t) s = .next (wrapAdd (dropSync u c) F.TIME_SYNC_COUNT_CHECKED 1))
        ∧ (diff ≠ 0 → exec (.syncCheck t) s = .next (post (dropSync u c) 0x0012 (evData [(16, 8, unsigned 64 diff)]))))
    ∧ (u.time.counting = true → getF u F.TIME_SYNC_CTRL_OUT_MODE = 2 →
        u.time.tick = get64 u A.TIME_SYNC_OUT_TICK A.TIME_SYNC_OUT_TICK_1 → u.time.tick < 2 ^ 64 - 1 →
        let e := u.time.now + (edgeAtOrAfter u 4 u.time.tick - u.time.tick)
        exec (.syncOutScheduled t) s = .next
          (set64 (emit u (.syncOut e (e + 16))) A.TIME_SYNC_OUT_TICK A.TIME_SYNC_OUT_TICK_1 (2 ^ 64 - 1)))

/-- An applied SYNC sets the counter to the value and makes it the origin; no activation, adaptive swap, slot or fill of the shadow bank is left,
the records that wait for the next ECHO stay; every carrier's packet grid and phase start at the origin, and both memories keep their contents. -/
def Obligations.AppliedSyncStartsAnew : Prop :=
  ∀ (u : State) (value old : Nat), value < 2 ^ 64 → old < 2 ^ 64 →
    let v := applySync u value old 0
    v.time.tick = value ∧ v.time.origin = value ∧ v.time.now = u.time.now ∧ v.acts = [] ∧ v.swaps = [] ∧ (∀ x ∈ v.streams, x.2.slots = [])
    ∧ v.streams.map (fun x => (x.1, x.2.echoes)) = u.streams.map (fun x => (x.1, x.2.echoes))
    ∧ (∀ x ∈ v.carriers, x.2.grid = value ∧ x.2.phaseAt = (value, 0)) ∧ v.beam.fills = [] ∧ v.store = u.store ∧ v.dram = u.dram

/-- The pattern table: TDD_SWAP is accepted for a valid bank at a boundary of its period, else it is BAD_PARAM; bank 0 starts at such a boundary
while the table is enabled, time is valid and no bank runs; the table stops when its conditions fail; an entry is written; at each of these and at
a turnaround every pod in PATTERN is driven anew. -/
def Obligations.PatternCommandsComplete : Prop :=
  ∀ (t : Nat) (c : Cmd) (s u : State) (f : Flight), u = advance t s →
    (mayRun u 0x2D c [] f → p8 c 16 ≤ 1 → tddSwapGood u (p8 c 16) c.actTick = true → inWindow u c f [(0x2D, 0, 0)] →
        exec (.tddSwap t c) s = .next (accept u f [(0x2D, 0, 0)] []))
    ∧ (mayRun u 0x2D c [] f → tddSwapGood u (p8 c 16) c.actTick = false → exec (.tddSwap t c) s = .next (reject u f stBadParam))
    ∧ (flag u F.TIME_TDD_CTRL_ENABLE = true → tickValid u = true → flag u F.TIME_TDD_CTRL_RUNNING = false → bankValid u 0 = true →
        u.time.tick % period u 0 = 0 → exec (.patternTableStart t) s = .next (followPattern (runBank u 0 u.time.tick)))
    ∧ (∀ b, runningBank u = some b → (flag u F.TIME_TDD_CTRL_ENABLE && tickValid u && bankValid u b) = false →
        exec (.patternTableStop t) s = .next (followPattern (stopPattern u)))
    ∧ (∀ v, followPattern v = ((List.range (nPods v)).filter fun p => podTarget v p = 5).foldl drivePod v)
    ∧ (∀ b e data, asleep u = false → b < 2 → e < 64 →
        exec (.tddEntryWrite t b e data) s = .next (writeWord (countCfg u 1) (0x10100 + 0x100 * b + 4 * e) data))
    ∧ exec (.patternTurnaround t) s = .next (((List.range (nPods u)).filter fun p => podTarget u p = 5).foldl drivePod u)

/-! ## The rings and the host -/

/-- A poll that is due, or asked for by a KICK, is made while no other runs. PI that arrives within the ring's size shows its entries; one too far
ahead halts the ring with INDEX_ERROR. The entries that a fetch brings become commands in flight and CI is written; those of a ring that was
disabled meanwhile are discarded, as is what a PI read brings of a ring that was disabled or enabled anew meanwhile: it halts nothing (the model's choice,
notes/assumptions/62.md). Reads that waited for a tag are then issued. -/
def Obligations.CommandRingEventsComplete : Prop :=
  ∀ (t r : Nat) (s u : State), u = advance t s →
    (u.power.phase = .run → pollRuns u = false → (u.host.kick = true ∨ u.host.lastPoll + pollTicks u ≤ u.time.now) →
        exec (.ringPoll t) s = .next (poll u))
    ∧ (u.power.phase = .run → exec (.kick t) s = .next { u with host := { u.host with kick := true } })
    ∧ (∀ pi, cmdEnabled u r = true → (cmdRing u r).piOut = true → (cmdRing u r).piStale = false → pi < 2 ^ 32 →
        (pi + 2 ^ 32 - (cmdRing (modCmdRing u r fun g => { g with piOut := false }) r).ci) % 2 ^ 32 ≤ cmdSize u r →
        exec (.piReadComplete t r pi) s = .next
          (issueReads (modCmdRing (modCmdRing u r fun g => { g with piOut := false }) r fun g => { g with piSeen := pi })))
    ∧ (∀ pi, cmdEnabled u r = true → (cmdRing u r).piOut = true → (cmdRing u r).piStale = false → pi < 2 ^ 32 →
        cmdSize u r < (pi + 2 ^ 32 - (cmdRing (modCmdRing u r fun g => { g with piOut := false }) r).ci) % 2 ^ 32 →
        exec (.piReadComplete t r pi) s = .next (issueReads (haltRing (modCmdRing u r fun g => { g with piOut := false }) r 2)))
    ∧ (∀ pi, (cmdRing u r).piOut = true → (cmdRing u r).piStale = true ∨ cmdEnabled u r = false →
        exec (.piReadComplete t r pi) s = .next (issueReads (modCmdRing u r fun g => { g with piOut := false })))
    ∧ (∀ index (l : List Byte) f, (cmdRing u r).fetches.find? (fun x => x.index = index && 64 * x.count = l.length) = some f →
        let v := modCmdRing u r fun g => { g with fetches := g.fetches.erase f }
        (f.discard = false →
          let w := takeEntries v (decodeEntries r f.count l)
          let ci := (index + f.count) % 2 ^ 32
          let w := setF (modCmdRing w r fun g => { g with ci := ci }) (F.HOST_CMDR_STATUS_CI_LO r) ci
          exec (.entryFetchComplete t r index l) s = .next (issueReads (hostWrite w (cmdDb w r + 64) 4 ci)))
        ∧ (f.discard = true → exec (.entryFetchComplete t r index l) s = .next (issueReads v)))

/-- Completions and events reach host memory: a completion or event ring's consumer index is renewed and what waits for the ring is written in
order while it fits; a completion that is due is delivered; the backlog and the event queue of an enabled ring are drained; the message of
moderated entries goes out when their delay has passed; a vector's mask bit clears, and a message that it held back is sent while MSI-X is on and
the function not masked. An event goes to the ring that its class is routed to: while that ring is disabled it is counted in LOST; else it takes the
next sequence number and is written, or waits in the event queue behind those of its ring, or, while ring and queue are full, is counted in DROPPED
and leaves an EVENTS_LOST due, which goes ahead of the next event that finds room. -/
def Obligations.OutputRingEventsComplete : Prop :=
  (∀ (u : State) (type n data r : Nat) (e : Ev), r = bitsOf (getN u A.HOST_EVT_ROUTE) (2 * (type / 16)) 2 →
    e = { ring := r, seq := (outRing u 2 r).seq, type := type, cls := type / 16, tick := n, tickOk := tickValid u, data := data } →
    (outEnabled u 2 r = false → postAt u type n data = satAdd u F.HOST_LOST_EVENTS 1)
    ∧ (outEnabled u 2 r = true → r < u.host.evRings.length →
        let v := modOutRing u 2 r fun o => { o with seq := (o.seq + 1) % 2 ^ 32 }
        let waits := outFull u 2 r = true ∨ ∃ x ∈ u.host.evq, x.ring = r
        ((outRing u 2 r).lost = 0 → ¬waits → postAt u type n data = writeEvent v e)
        ∧ ((outRing u 2 r).lost = 0 → waits → u.host.evq.length < 256 →
          postAt u type n data = askCi { v with host := { v.host with evq := u.host.evq ++ [e] } } 2 r
          ∧ (postAt u type n data).host.evq = u.host.evq ++ [e])
        ∧ ((outRing u 2 r).lost = 0 → waits → 256 ≤ u.host.evq.length →
          getF (postAt u type n data) (F.HOST_EVR_STATUS_DROPPED r) = min (getF u (F.HOST_EVR_STATUS_DROPPED r) + 1) (2 ^ (F.HOST_EVR_STATUS_DROPPED r).width - 1)
          ∧ (outRing (postAt u type n data) 2 r).lost = 1 ∧ (outRing (postAt u type n data) 2 r).seq = (e.seq + 1) % 2 ^ 32
          ∧ (postAt u type n data).host.evq = u.host.evq ∧ (postAt u type n data).out = u.out)
        ∧ (0 < (outRing u 2 r).lost → waits → 256 ≤ u.host.evq.length →
          (outRing (postAt u type n data) 2 r).lost = (outRing u 2 r).lost + 1)
        ∧ (0 < (outRing u 2 r).lost → (¬waits ∨ u.host.evq.length < 256) →
          let w := modOutRing (modOutRing u 2 r fun o => { o with lost := 0 }) 2 r fun o => { o with seq := (o.seq + 1) % 2 ^ 32 }
          let x : Ev := { e with type := 0x0002, cls := 0, tick := u.time.tick, data := evData [(16, 4, (outRing u 2 r).lost), (20, 1, r)] }
          let w := placeEvent w x
          (outRing w 2 r).lost = 0 ∧ postAt u type n data = postAt w type n data)))
  ∧ ∀ (t k r : Nat) (s u : State), u = advance t s →
    (∀ ci, outEnabled u 1 r = true → (outRing u 1 r).ciOut = true → (outRing u 1 r).ciStale = false → ci < 2 ^ 32 →
        let v := modOutRing u 1 r fun o => { o with ciOut := false, ci := ci }
        exec (.ciReadComplete t 1 r ci) s = .next (issueReads (drainBacklog v.host.backlog.length v r)))
    ∧ (∀ ci, outEnabled u 2 r = true → (outRing u 2 r).ciOut = true → (outRing u 2 r).ciStale = false → ci < 2 ^ 32 →
        exec (.ciReadComplete t 2 r ci) s = .next (issueReads (drainQueue (modOutRing u 2 r fun o => { o with ciOut := false, ci := ci }) r)))
    ∧ (∀ c, u.host.due.find? (fun x => x.cq = r) = some c →
        exec (.completionWrite t r) s = .next (deliverCpl { u with host := { u.host with due := u.host.due.erase c } } c))
    ∧ (outEnabled u 1 r = true → exec (.completionBacklogDrain t r) s = .next (drainBacklog u.host.backlog.length u r))
    ∧ (outEnabled u 2 r = true → exec (.eventQueueDrain t r) s = .next (drainQueue u r))
    ∧ (outEnabled u k r = true → outIrqEn u k r = true → 0 < (outRing u k r).unsignalled →
        (outRing u k r).firstAt + outModDelay u k r ≤ u.time.now →
        exec (.msixModerationExpiry t k r) s = .next (sendMsix (modOutRing u k r fun o => { o with unsignalled := 0 }) (outVector u k r)))
    ∧ (r < 32 →
        let v : State := { u with host := { u.host with msixMask := putBits u.host.msixMask r 1 0 } }
        (bitAt u.host.msixPend r = true → u.host.msixOn = true → u.host.msixFunc = false →
          exec (.msixUnmask t r) s = .next (emitMsix { v with host := { v.host with msixPend := u.host.msixPend - 2 ^ r } } r))
        ∧ (bitAt u.host.msixPend r = false ∨ u.host.msixOn = false ∨ u.host.msixFunc = true → exec (.msixUnmask t r) s = .next v))

/-- The device writes PHASE as 1 - ((index / size) mod 2): it is 1 on the first pass through the ring and toggles at each wrap, so that an entry's
PHASE differs from that of the entry one pass before in the same place. That is the PHASE bit of every completion entry (byte 3, bit 0) and of
every event entry (byte 2, bit 0), on rings whose base is aligned as R68 demands (R80). -/
def Obligations.PhaseTogglesAtEachWrap : Prop :=
  (∀ i size, 0 < size → phaseOf i size = 1 - (i / size) % 2 ∧ (i < size → phaseOf i size = 1) ∧ phaseOf (i + size) size = 1 - phaseOf i size)
  ∧ (∀ (u : State) (c : Cpl), c.tag < 2 ^ 16 → c.status < 2 ^ 8 → outBase u 1 c.cq % 64 = 0 →
      ∃ a v, (u.time.now, Output.hostWrite a 16 v) ∈ (writeCpl u c).out
        ∧ bitsOf v 24 1 = 1 - ((outRing u 1 c.cq).pi / outSize u 1 c.cq) % 2)
  ∧ (∀ (u : State) (e : Ev), e.type < 2 ^ 16 → outBase u 2 e.ring % 64 = 0 →
      ∃ a v, (u.time.now, Output.hostWrite a 32 v) ∈ (writeEvent u e).out
        ∧ bitsOf v 16 1 = 1 - ((outRing u 2 e.ring).pi / outSize u 2 e.ring) % 2)

/-- CTRL of a command, completion or event ring is written. The function level reset of PF0 empties backlog and event queue, disables every
ring, masks every vector, turns the bus master off, puts PF0 into D0 and sets the max read request size to 512, and keeps CFG_WRITES, the PowerState
of PF1 and all that is no part of the HOST block; that of PF1 puts PF1 into D0 and changes nothing else; while the device cannot be reached neither
does anything, and before PD2 is ready both are answered with a retry. A PI read that fails halts its ring; the source read of a command that fails
ends it, and its reads that are still outstanding keep their tags. The values of configuration fields after a reset, and what of PF1's configuration
space the model holds, are the model's (notes/assumptions/8.md), as are those tags (10.md). -/
def Obligations.RingControlComplete : Prop :=
  ∀ (t r data : Nat) (s u : State), u = advance t s →
    (asleep u = false → r < 16 → exec (.ringCtrlWrite t 0 r data) s = .next (writeCmdCtrl (countCfg u 1) r data)
        ∧ exec (.ringCtrlWrite t 1 r data) s = .next (writeCqCtrl (countCfg u 1) r data))
    ∧ (asleep u = false → r < 4 → exec (.ringCtrlWrite t 2 r data) s = .next (writeEvCtrl (countCfg u 1) r data))
    ∧ (pcieUp u = true → pd2Ready u = true → ∃ s', exec (.functionLevelReset t) s = .next s' ∧ s'.host.backlog = [] ∧ s'.host.evq = []
        ∧ s'.host.msixMask = 2 ^ 32 - 1 ∧ s'.host.busMaster = false ∧ s'.host.mrrs = 512 ∧ s'.host.dstate = (0, u.host.dstate.2)
        ∧ (∀ q, q < 16 → cmdEnabled s' q = false ∧ outEnabled s' 1 q = false) ∧ (∀ q, q < 4 → outEnabled s' 2 q = false)
        ∧ get64 s' A.HOST_CFG_WRITES A.HOST_CFG_WRITES_1 = get64 u A.HOST_CFG_WRITES A.HOST_CFG_WRITES_1
        ∧ (∀ q : Reg, (q.addr < 0x20000 ∨ 0x30000 ≤ q.addr) → getR s' q = getR u q)
        ∧ { s' with host := u.host, regs := u.regs } = u)
    ∧ (pcieUp u = true → pd2Ready u = true →
        exec (.pf1FunctionLevelReset t) s = .next { u with host := { u.host with dstate := (u.host.dstate.1, 0) } })
    ∧ (pcieUp u = true → pd2Ready u = false → exec (.functionLevelReset t) s = .next (emit u .configRetry)
        ∧ exec (.pf1FunctionLevelReset t) s = .next (emit u .configRetry))
    ∧ (pcieUp u = false → exec (.functionLevelReset t) s = .next u ∧ exec (.pf1FunctionLevelReset t) s = .next u)
    ∧ (∀ abort, cmdEnabled u r = true → (cmdRing u r).piOut = true → (cmdRing u r).piStale = false → readFailed u abort (cmdRing u r).piAt = true →
        exec (.readCompletionTimeout t (.pi r) abort) s = .next
          (issueReads (haltRing (modCmdRing (noteTimeout u abort) r fun g => { g with piOut := false }) r (if abort then 4 else 3))))
    ∧ (∀ f tag abort, sourceFlight u r tag = some f → f.source.2 ≠ 0 → readFailed u abort (f.readAt.getD u.time.now) = true →
        let v := leaveStrays (noteTimeout u abort) (f.readAt.getD u.time.now) (f.reads - 1)
        (f.cmd.opcode = 0x39 → exec (.readCompletionTimeout t (.source r tag) abort) s = .next
          (pumpShared (reject v f (if abort then stFetchAbort else stFetchTimeout))))
        ∧ (f.cmd.opcode = 0x19 → exec (.readCompletionTimeout t (.source r tag) abort) s = .next
          (pumpShared (wsLoadFailed v f (if abort then stFetchAbort else stFetchTimeout)))))

/-- Accesses of the host while it reaches the device: a malformed access to W0 is answered with ones, counted once as an error and, as a write, in
CFG_WRITES; a well-formed one of 4 or 8 bytes reads or writes its words, the lower address first, of W0 or of the MSI-X table (that such accesses come
as rows of this name is the model's choice, notes/assumptions/7.md, as is that a malformed one of W4 does nothing); a register write stores its word,
or sets what PF0's configuration space holds (the model's fields, 8.md); W2 reaches the store and, while the port is trained and not in self-refresh,
the DRAM behind the window, a read that arrives in a pause or a change of rate being answered later with what stood there (36.md), and an access of an
untrained port, past the installed DRAM or in self-refresh misses, a read with ones. A read through PF1 is answered with the bytes that the words of
its window show, each of them the word of PF0 that the table of R478 names, or 0. -/
def Obligations.HostAccessesComplete : Prop :=
  ∀ (t : Nat) (x : Sys2Proof.Access) (s u : State), u = advance t s → pcieUp u = true → asleep u = false →
    (x.w4 = false → malformed x = true → x.write = true →
        exec (.malformedAccess t x) s = .next (countCfg (satAdd u F.HOST_ACCESS_ERR_COUNT 1) 1))
    ∧ (x.w4 = false → malformed x = true → x.write = false →
        exec (.malformedAccess t x) s = .next (emit (satAdd u F.HOST_ACCESS_ERR_COUNT 1) (.readData (2 ^ (8 * x.len) - 1))))
    ∧ (x.w4 = false → malformed x = false → x.len = 4 → x.write = true →
        exec (.malformedAccess t x) s = .next (hostStore u x.addr (x.data % 2 ^ 32)))
    ∧ (x.w4 = false → malformed x = false → x.len = 8 → x.write = true → x.data < 2 ^ 64 →
        exec (.malformedAccess t x) s = .next (hostStore (hostStore u x.addr (x.data % 2 ^ 32)) (x.addr + 4) (x.data / 2 ^ 32)))
    ∧ (∀ a data, a ≠ A.HOST_KICK.addr → hostStore u a data = driveAlert u (writeWord (countCfg u 1) a data))
    ∧ (x.w4 = false → malformed x = false → x.len = 4 → x.write = false →
        exec (.malformedAccess t x) s = .next (emit (readWord u x.addr).1 (.readData (readWord u x.addr).2)))
    ∧ (x.w4 = false → malformed x = false → x.len = 8 → x.write = false → asleep (readWord u x.addr).1 = false →
        let lo := readWord u x.addr
        let hi := readWord lo.1 (x.addr + 4)
        exec (.malformedAccess t x) s = .next (emit hi.1 (.readData (lo.2 + 2 ^ 32 * hi.2))))
    ∧ (x.w4 = true → malformed x = true → exec (.malformedAccess t x) s = .next u)
    ∧ (x.w4 = true → malformed x = false → x.len = 4 → exec (.malformedAccess t x) s = .next
        (if x.write then storeMsix u x.addr (x.data % 2 ^ 32) else emit u (.readData (msixWord u x.addr))))
    ∧ (x.w4 = true → malformed x = false → x.len = 8 → exec (.malformedAccess t x) s = .next
        (if x.write then storeMsix (storeMsix u x.addr (x.data % 2 ^ 32)) (x.addr + 4) (x.data / 2 ^ 32)
         else emit u (.readData (msixWord u x.addr + 2 ^ 32 * msixWord u (x.addr + 4)))))
    ∧ (∀ a data, a % 4 = 0 → a < 0x400000 → a ≠ A.HOST_KICK.addr →
        exec (.registerWrite t (.w0 a data)) s = .next (driveAlert u (writeWord (countCfg u 1) a data)))
    ∧ (∀ a data, exec (.registerWrite t (.w4 a data)) s = .next (storeMsix u a data))
    ∧ (∀ bm t10 ext m value aspm, exec (.registerWrite t (.pcie bm t10 ext m value aspm)) s = .next
        { u with host := { u.host with busMaster := bm, tag10 := t10, extTag := ext, mrrs := m, timeoutValue := value, aspm := aspm } })
    ∧ (∀ on func, exec (.registerWrite t (.msix on func)) s = .next (writeMsixControl u on func))
    ∧ (∀ clear cor, exec (.registerWrite t (.aer clear cor)) s = .next { u with host := { u.host with
        aer := u.host.aer &&& (2 ^ 32 - 1 - clear % 2 ^ 32), aerCor := u.host.aerCor &&& (2 ^ 32 - 1 - cor % 2 ^ 32) } })
    ∧ (∀ mask severity cor, exec (.registerWrite t (.aerControl mask severity cor)) s = .next
        { u with host := { u.host with aerMask := mask, aerSeverity := severity, aerCorMask := cor } })
    ∧ (∀ fn d, exec (.registerWrite t (.powerState fn d)) s = .next
        { u with host := { u.host with dstate := if fn = 0 then (d, u.host.dstate.2) else (u.host.dstate.1, d) } })
    ∧ (∀ enables, exec (.registerWrite t (.reporting enables)) s = .next { u with host := { u.host with reporting := enables % 16 } })
    ∧ (∀ speed width, exec (.registerWrite t (.retrain speed width)) s = .next { u with host := { u.host with trained := (speed, width) } })
    ∧ (x.write = false → exec (.pf1Read t x) s = .next
        (emit (pf1Words u (x.addr - x.addr % 4) (ceilDiv (x.addr % 4 + x.len) 4)).1
          (.readData ((pf1Words u (x.addr - x.addr % 4) (ceilDiv (x.addr % 4 + x.len) 4)).2 / 256 ^ (x.addr % 4) % 256 ^ x.len))))
    ∧ (∀ a n, flag u F.HOST_IF_CTRL_COUNTER_EXPOSE = true → pf1Words u a (n + 1) = match pf1Source a with
        | none => ((pf1Words u (a + 4) n).1, 2 ^ 32 * (pf1Words u (a + 4) n).2)
        | some b => let v := viewWord u b false
            ((pf1Words v.1 (a + 4) n).1, v.2 + 2 ^ 32 * (pf1Words v.1 (a + 4) n).2))
    ∧ (x.addr < 0x1000000 → x.write = true →
        exec (.w2Access t x) s = .next { u with store := memWrite u.store x.addr (leBytes x.len x.data) })
    ∧ (x.addr < 0x1000000 → x.write = false →
        exec (.w2Access t x) s = .next (emit u (.readData (leNat (memRead u.store x.addr x.len)))))
    ∧ (0x1000000 ≤ x.addr →
        (dramTrained u = false ∨ u.dramSize < 2 ^ 20 * getF u F.HOST_DRAM_WINDOW_BASE_MIB + (x.addr - 0x1000000) + x.len) →
        let v := raiseFlag u F.HOST_APERTURE_STATUS_MISS
        exec (.w2Access t x) s = .next (if x.write then v else emit v (.readData (2 ^ (8 * x.len) - 1))))
    ∧ (0x1000000 ≤ x.addr → dramTrained u = true →
        2 ^ 20 * getF u F.HOST_DRAM_WINDOW_BASE_MIB + (x.addr - 0x1000000) + x.len ≤ u.dramSize →
        let a := 2 ^ 20 * getF u F.HOST_DRAM_WINDOW_BASE_MIB + (x.addr - 0x1000000)
        let v := disturbSr u
        (flag v F.MEMC_STATUS_SR = false → x.write = true →
          exec (.w2Access t x) s = .next { v with dram := memWrite v.dram a (leBytes x.len x.data) })
        ∧ (flag v F.MEMC_STATUS_SR = false → x.write = false → portServes v = true →
          exec (.w2Access t x) s = .next (emit v (.readData (leNat (memRead v.dram a x.len)))))
        ∧ (flag v F.MEMC_STATUS_SR = false → x.write = false → portServes v = false →
          exec (.w2Access t x) s = .next (modMemc v fun m => { m with w2 := m.w2 ++ [(leNat (memRead v.dram a x.len), x.len)] }))
        ∧ (flag v F.MEMC_STATUS_SR = true → exec (.w2Access t x) s = .next (missAccess v x)))

/-- PF1 W0 discards every write, and while HOST.IF_CTRL.COUNTER_EXPOSE is 0 every PF1 read returns 0 (R60). While it is 1
and the device is awake, a read of an aligned word returns the PF0 word that the table of R478 gives for it, with nothing cleared, and 0 where
the table lists none. -/
def Obligations.Pf1ReadsZeroUnlessExposed : Prop :=
  ∀ (t : Nat) (x : Sys2Proof.Access) (s u : State), u = advance t s →
    (x.write = true → exec (.pf1Read t x) s = .next u)
    ∧ (x.write = false → pcieUp u = true → flag u F.HOST_IF_CTRL_COUNTER_EXPOSE = false → exec (.pf1Read t x) s = .next (emit u (.readData 0)))
    ∧ (x.write = false → pcieUp u = true → flag u F.HOST_IF_CTRL_COUNTER_EXPOSE = true → asleep u = false → x.addr % 4 = 0 → x.len = 4 →
        (∀ b, pf1Source x.addr = some b →
          exec (.pf1Read t x) s = .next (emit (viewWord u b false).1 (.readData ((viewWord u b false).2 % 2 ^ 32))))
        ∧ (pf1Source x.addr = none → exec (.pf1Read t x) s = .next (emit u (.readData 0))))

/-! ## The serial lanes -/

/-- LANE_STATE is accepted or moves its lanes at once; a lane whose markers have gone enters its state, one whose exit time has passed is in L0
and, from LD, searches again, from L1 joins the own mask at its first marker; a step of the equaliser moves the peaking by one within 0 to 15. The writes of LANE.CTRL and PORT_CTRL of the
present ports and lanes are counted and do what writeLaneCtrl and writePortCtrl say. -/
def Obligations.LanePowerComplete : Prop :=
  (∀ (t q l : Nat) (c : Cmd) (s u : State) (f : Flight), u = advance t s →
    (mayRun u 0x49 c [] f → p8 c 16 ≤ 2 → p8 c 20 ≤ 2 →
        (sched c = true → inWindow u c f ((bitsSet (p16 c 18) 16).map fun i => (0x49, p8 c 16, i))) →
        exec (.laneState t c) s = .next
          (if sched c then accept u f ((bitsSet (p16 c 18) 16).map fun i => (0x49, p8 c 16, i)) [] else complete (applyLaneState u c) f 0))
    ∧ (∀ st, (lane u q l).leave = some (st, 0) → exec (.lanePowerEntry t q l) s = .next (enterPower u q l st))
    ∧ (∀ n, (lane u q l).exit = some (n, 1) → n ≤ u.time.now →
        exec (.lanePowerExitEnd t q l) s = .next
          (showOwn (restartCount (modLane (setF (settleHeaders u q) (F.LANE_STATUS_PSTATE q l) 0) q l fun x =>
            { x with exit := none, rejoins := true }) q fun i => i == l) q))
    ∧ (∀ n, (lane u q l).exit = some (n, 2) → n ≤ u.time.now →
        exec (.lanePowerExitEnd t q l) s = .next
          (startSearch (restartCount (modLane (setF (settleHeaders u q) (F.LANE_STATUS_PSTATE q l) 0) q l fun x =>
            { x with exit := none, rejoins := true }) q fun i => i == l) q l))
    ∧ (∀ up, laneRuns u q l = true → flag u (F.LANE_CTRL_ADAPT q l) = true → getF u (F.LANE_STATUS_PSTATE q l) ≠ 2 →
        (lane u q l).stepAt + 983040 ≤ u.time.now →
        exec (.equaliserAdaptStep t q l up) s = .next
          (modLane (setF u (F.LANE_STATUS_PEAK_NOW q l)
            (if up then min 15 (getF u (F.LANE_STATUS_PEAK_NOW q l) + 1) else getF u (F.LANE_STATUS_PEAK_NOW q l) - 1)) q l fun x =>
              { x with stepAt := u.time.now })))
  ∧ (∀ (t q l data : Nat) (s u : State), u = advance t s → asleep u = false → q < 3 → l < 16 →
    exec (.slip t q l data) s = .next (writeLaneCtrl (countCfg u 1) q l data)
    ∧ exec (.restart t q l data) s = .next (writeLaneCtrl (countCfg u 1) q l data)
    ∧ exec (.laneLoopWrite t q (some l) data) s = .next (writeLaneCtrl (countCfg u 1) q l data)
    ∧ exec (.laneLoopWrite t q none data) s = .next (writePortCtrl (countCfg u 1) q data)
    ∧ exec (.laneEnableChange t q (some l) data) s = .next (writeLaneCtrl (countCfg u 1) q l data)
    ∧ exec (.laneEnableChange t q none data) s = .next (writePortCtrl (countCfg u 1) q data))

/-- Lock, its loss and the death of a lane, with their counts and events; the marker that a port sends with its own mask, whose lanes in use and
blocks follow; a marker, taken from its line bits, that is invalid, spoilt or missing counts as bad, one of another lane number ends alignment, one
of its own aligns the lane and gives the far mask (that a marker with a wrong lane ID takes alignment away, and that one whose header is spoilt
counts as bad, is the model's reading of R292 and R308: notes/assumptions/26.md); in FIXED mode the blocks after a marker come LATENCY after its grid
tick; the end of an injected lane-down. -/
def Obligations.LaneEventsComplete : Prop :=
  ∀ (t q l : Nat) (s u : State), u = advance t s →
    (∀ nat, laneReceives u q l = true → isLocked u q l = false → isDead u q l = false → (nearEnd u q l = true → laneSends u q l = true) →
        let v := satAdd u (F.LANE_SH_ERR_NAT q l) nat
        let v := if getF v (F.LANE_CTRL_LOOP q l) = 2 then setF v (F.LANE_STATUS_POS q l) 0 else v
        let v := setFlag (setFlag v (F.LANE_STATUS_BLOCK_LOCK q l) true) (F.LANE_STATUS_SIG q l) (!nearEnd v q l || flag v (F.LANE_STATUS_SIG q l))
        let v := modLane v q l fun x => { x with search := none, bad := 0, errorsAt := u.time.now }
        exec (.blockLock t q l nat) s = .next (post v 0x0070 (evData [(16, 1, q), (17, 1, l), (18, 1, getF v (F.LANE_STATUS_POS q l))])))
    ∧ (∀ nat signal, isLocked u q l = true →
        let v := dropLock (satAdd (satAdd u (F.LANE_SH_ERR_NAT q l) nat) (F.LANE_LINK_ERR_LOCK_LOSS q l) 1) q l
        exec (.blockLockLoss t q l nat signal) s = .next
          (startSearch (setFlag v (F.LANE_STATUS_SIG q l) (if nearEnd u q l then flag u (F.LANE_STATUS_SIG q l) else signal)) q l))
    ∧ (∀ signal n, (lane u q l).search = some n → (lane u q l).pausedAt = none → isLocked u q l = false →
        n + 66 * dwellTicks u q ≤ u.time.now →
        exec (.laneDead t q l signal) s = .next
          (post (showOwn (setFlag (setFlag (modLane u q l fun x => { x with search := none }) (F.LANE_STATUS_DEAD q l) true)
            (F.LANE_STATUS_SIG q l) signal) q) 0x0071 (evData [(16, 1, q), (17, 1, l)])))
    ∧ (markerDue (settleHeaders u q) q = true →
        let v := showOwn (settleHeaders u q) q
        let own := getF v (F.LN_PORT_MASKS_OWN q)
        let out := (List.range 16).map (markerLine v q own)
        let w := modPort (emit v (.marker q own (out.zipIdx.filterMap fun x => x.1.map fun b => (x.2, b.2)))) q fun p =>
          { p with mark := some v.time.now, sent := own, dealt := 0, rest := [],
                   lanes := p.lanes.zipIdx.map fun x => afterMarker x.1 (nearEnd v q x.2) (out.getD x.2 none) }
        let x := setInUse w q (own &&& getF w (F.LN_PORT_MASKS_FAR q))
        exec (.markerSend t q) s = .next (if portUp x q then sendBlocks x q (Sys2Proof.Machine.port v q).rest else x))
    ∧ (∀ before line, laneRuns (settleHeaders u q) q l = true → isLocked (settleHeaders u q) q l = true →
        isDead (settleHeaders u q) q l = false → q < 3 → l < 16 →
        canReceive (settleHeaders u q) q l [{ header := 0, line := before }, { header := syncHeader true, line := line }] = true →
        let v := loopBack (settleHeaders u q) q l u.time.now [{ header := syncHeader true, line := line }]
        let m := blockBytes (descramble before line)
        (headerHit v q l 1 (-1) = true ∨ markerValid m = false → exec (.markerReceive t q l before line) s = .next (badMarker v q l))
        ∧ (headerHit v q l 1 (-1) = false → markerValid m = true → (m.getD 1 0).toNat = l →
            ∃ s', exec (.markerReceive t q l before line) s = .next s' ∧ isAligned s' q l = true ∧ flag s' (F.LANE_STATUS_ID_ERR q l) = false
              ∧ getF s' (F.LN_PORT_MASKS_FAR q) = leNat ((m.drop 2).take 2) % 2 ^ 16)
        ∧ (headerHit v q l 1 (-1) = false → markerValid m = true → (m.getD 1 0).toNat ≠ l →
            ∃ s', exec (.markerReceive t q l before line) s = .next s' ∧ isAligned s' q l = false ∧ flag s' (F.LANE_STATUS_ID_ERR q l) = true))
    ∧ (∀ mask again, q < u.ports.length → isFixed u q = true →
        ∃ rest, (Sys2Proof.Machine.port (setRun u q l mask again) q).runs =
          (timeOf u (gridTick u q u.time.tick) + max 128 (getF u (F.LN_PORT_LAT_LATENCY q)),
            mask &&& (Sys2Proof.Machine.port u q).sent) :: rest)
    ∧ (laneRuns (settleHeaders u q) q l = true → isLocked (settleHeaders u q) q l = true → isDead (settleHeaders u q) q l = false →
        exec (.missingMarker t q l) s = .next (badMarker (settleHeaders u q) q l))
    ∧ (∀ j x, injAt u q j = some x → x.kind = 5 → x.arg1 ≠ 0 → x.start + 1024 * x.arg1 ≤ u.time.now →
        exec (.laneDownEnd t q j) s = .next (stopLaneInj u q j))

/-! ## The Billux link and the cascade -/

/-- FI_SET clears its slot and installs the injector there, and begins the lane-down of that kind; FI_CLEAR clears one slot or the eight of a
port; a held packet goes on when its wait has run out. The headers of the blocks that arrive on the locked lanes of a port are checked and counted,
UP or DOWN. The blocks that the lanes of an UP port deliver are taken one by one: those of one
whole packet hand it to the receive-side injectors, a control block inside a packet ends it as a framing error; a packet that meets no
injector goes to the checks as it is; a DOWN port takes nothing. Blocks dealt over the lanes of the receive set and scrambled on each are delivered
as they were, at the block times of their marker round, from lanes whose receivers give them. That any control block ends a packet, and how blocks
and lines stand in the operands, is the model's choice (notes/assumptions/61.md). -/
def Obligations.InjectionAndReceiveComplete : Prop :=
  (∀ (t : Nat) (c : Cmd) (s u : State) (f : Flight), u = advance t s →
    (mayRun u 0x58 c [] f → p8 c 16 ≤ 2 → p8 c 18 ≤ 6 → p8 c 19 ≤ 7 →
        fiGood (p8 c 18) (p8 c 17) (p32 c 20) (p32 c 24) (p64 c 32) = true →
        let q := p8 c 16
        let j := p8 c 19
        let v := clearInj (settleHeaders u q) q j
        let w := setInj v q j (some
          { kind := p8 c 18, lane := p8 c 17, arg1 := p32 c 20, arg2 := p32 c 24, pattern := p64 c 32, start := v.time.now, seen := 0,
            events := 0, held := none, units := 0, upTo := v.time.now })
        let w := setF (setF (setFlag w (F.BXL_FI_1_ACTIVE q j) true) (F.BXL_FI_1_LANE q j) (p8 c 17)) (F.BXL_FI_1_KIND q j) (p8 c 18)
        exec (.fiSet t c) s = .next
          (complete (if p8 c 18 = 5 then beginLaneDown w q j (p8 c 17) (p32 c 24 / 2 ^ 31) else w) f 0))
    ∧ (mayRun u 0x59 c [] f → p8 c 16 ≤ 2 → p8 c 19 ≤ 7 → exec (.fiClear t c) s = .next (complete (clearInj u (p8 c 16) (p8 c 19)) f 0))
    ∧ (mayRun u 0x59 c [] f → p8 c 16 ≤ 2 → p8 c 19 = 0xFF →
        exec (.fiClear t c) s = .next (complete ((List.range 8).foldl (fun v j => clearInj v (p8 c 16) j) u) f 0))
    ∧ (∀ q j x h, injAt u q j = some x → x.held = some h → h.deadline ≤ u.time.now →
        exec (.reorderHoldExpiry t q j) s = .next (releaseHeld u q j)))
  ∧ (∀ (t q first : Nat) (lanes got : List (List LineBlock)) (s u v w : State) (l : List Block), u = settleHeaders (advance t s) q →
    got = (lanes.zipIdx.map fun x => if canReceive u q x.2 x.1 then x.1 else []) → v = loopLanes u q first got → w = countHeaders v q got →
    (portUp w q = false → exec (.packetReceive t q first lanes) s = .next w)
    ∧ (portUp w q = true → delivered w q first got = none → exec (.packetReceive t q first lanes) s = .next w)
    ∧ (portUp w q = true → delivered w q first got = some l →
        exec (.packetReceive t q first lanes) s = .next (l.foldl (fun v b => receiveBlock v q b) w))
    ∧ (∀ b, portUp w q = true → delivered w q first got = some l → framed b = true → (Sys2Proof.Machine.port w q).opened = none →
        l = packetBlocks b → exec (.packetReceive t q first lanes) s = .next (receivePacket w q b))
    ∧ (∀ b o, portUp w q = true → delivered w q first got = some l → l = [b] → b.control = true → (Sys2Proof.Machine.port w q).opened = some o →
        exec (.packetReceive t q first lanes) s = .next
          (modPort (satAdd w (F.BXL_RX_FRAMING q) 1) q fun p => { p with opened := if b == startBlock then some [] else none }))
    ∧ (∀ b, (∀ j, j < 8 → injAt w q j = none) → receivePacket w q b = receiveFramed w q b false))
  ∧ (∀ (q first start mask : Nat) (rest : List (Nat × Nat)) (set : List Nat) (blocks : List Block) (last : Nat → LineBlock) (u : State),
    (Sys2Proof.Machine.port u q).runs = (start, mask) :: rest → set = bitsSet mask 16 → set ≠ [] → blocks ≠ [] →
    (∀ b ∈ blocks, b.bytes.length = 8) → (∀ x ∈ (Sys2Proof.Machine.port u q).inj.filterMap id, x.kind = 6 → x.arg2 / 2 ^ 31 ≠ 1) →
    (∀ l ∈ set, laneGives u q l = true) → first + blocks.length ≤ 16383 * set.length →
    u.time.now = start + rowTicks u q ((first + blocks.length - 1) / set.length) + 6 →
    delivered u q first ((deal set first blocks).zipIdx.map fun x => last x.2 :: toLines (last x.2).line x.1) = some blocks)

/-- The messages of partners take effect: HELLO greets or welcomes, KEEPALIVE, LEASE_ACK and TIME renew, BYE loses the partner (R324-R327,
R333). -/
def Obligations.PartnerMessagesComplete : Prop :=
  ∀ (t : Nat) (s u v : State) (m : Inbox) (rest : List Inbox), u = advance t s → u.inbox = m :: rest → v = { u with inbox := rest } →
    m.port = 0 →
    (isHello m.pkt = true → body m.pkt 0 8 = 0 → exec (.hello t) s = .next (satAdd v (F.BXL_RX_2_FORMAT_ERR 0) 1))
    ∧ (isHello m.pkt = true → body m.pkt 0 8 ≠ 0 → (joined v).find? (fun y => y.2.ident = body m.pkt 0 8) = none →
        exec (.hello t) s = .next (greet v m))
    ∧ (∀ i y, isHello m.pkt = true → body m.pkt 0 8 ≠ 0 → (joined v).find? (fun y => y.2.ident = body m.pkt 0 8) = some (i, y) →
        exec (.hello t) s = .next (if y.session = body m.pkt 8 4 then sendWelcome v i m.pkt.ver else greet (losePartner v i (arrivedAt v m.tick)) m))
    ∧ (∀ i, m.pkt.type = 3 → msgOf m.pkt = 0x04 → namedPartner v m.pkt = some i →
        exec (.keepaliveReceive t) s = .next (renew v i m.tick))
    ∧ (∀ i x, m.pkt.type = 3 → msgOf m.pkt = 0x06 → namedPartner v m.pkt = some i →
        let w := renew v i m.tick
        let h := body m.pkt 0 4
        streamAt w (handleIdx h) = some x → handleLive w 2 h = true → x.partner = partnerHandle w i →
        exec (.leaseAck t) s = .next
          (setBitOf (modStream w (handleIdx h) fun y => { y with acked := true }) (fun k => F.BXL_LEASE_ACK_ACK k) (handleIdx h) true))
    ∧ (∀ i, m.pkt.type = 3 → msgOf m.pkt = 0x09 → namedPartner v m.pkt = some i → exec (.bye t) s = .next (losePartner v i (arrivedAt v m.tick)))
    ∧ (∀ i, m.pkt.type = 4 → namedPartner v m.pkt = some i →
        exec (.partnerTimeReceive t) s = .next
          (renew (modPartner v i fun p => { p with timePayload := leNat (m.pkt.payload.take 8), timeArrival := m.tick }) i m.tick))

/-- What the block sends by itself, and what ends by time: KEEPALIVE with the grants that are not acknowledged, to each JOINED partner whose
KEEPALIVE is due; TIME to each JOINED partner and out of both cascade ports; the loss of a silent partner; the end of an orphan. -/
def Obligations.PartnerTimersComplete : Prop :=
  ∀ (t : Nat) (s u : State), u = advance t s →
    exec (.keepalive t) s = .next (((joined u).filter fun y =>
        if tickValid u then u.time.tick % 983040 == 0
        else decide (y.2.welcome < u.time.now) && (u.time.now - y.2.welcome) % 983040 == 0).foldl (fun v y =>
          (((partnerStreams v y.1).filter fun x => !x.2.acked).map (·.1)).foldl sendGrant
            (sendMessage v y.1 0x04 (leBytes 8 y.2.ident ++ leBytes 4 (partnerStreams v y.1).length))) u)
    ∧ (tickValid u = true → u.time.tick % 983040 = 0 →
        let v := (joined u).foldl (fun v y =>
          sendPartner v y.1 4 (leBytes 8 0 ++ leBytes 8 v.time.origin ++ leBytes 8 y.2.timePayload ++ leBytes 8 y.2.timeArrival)) u
        let time := fun (v : State) (q : Nat) => modCasc (enqueueCtrl v q (ctrlPacket 2 4 0 (v.casc.seqs.getD q 0)
            (leBytes 8 0 ++ leBytes 8 v.time.origin ++ leBytes 8 (v.casc.times.getD q (0, 0)).1 ++ leBytes 8 (v.casc.times.getD q (0, 0)).2)))
          fun y => { y with seqs := y.seqs.set q ((v.casc.seqs.getD q 0 + 1) % 2 ^ 16) }
        exec (.timeSend t) s = .next (time (time v 1) 2))
    ∧ (∀ i p, partnerAt u i = some p → p.lossAt ≤ u.time.now → exec (.partnerLost t i) s = .next (losePartner u i p.lossAt))
    ∧ (∀ j x n, streamAt u j = some x → x.orphanEnd = some n → n ≤ u.time.now →
        exec (.orphanTimeout t j) s = .next (removeStream (postOrphanEnd u j 1) j))

/-- Discovery: CASC_DISCOVER is BAD_PARAM on a member, finds one chip at once on a chip without a chain, and on a lantern sets and offers E or,
without time, is NO_TIME. Before E a member takes the index that it is offered, relays the offer and reports; a report from beyond is recorded;
lantern and member repeat theirs every 983,040 ticks; at the first E that waits its assignment is in force and the later ones wait on; the command ends with one more than the last index
reported once that is stable or 983,040 ticks have passed. -/
def Obligations.DiscoveryComplete : Prop :=
  ∀ (t : Nat) (c : Cmd) (s u : State) (f : Flight), u = advance t s →
    (mayRun u 0x50 c [] f → isMember u = true → exec (.cascDiscover t c) s = .next (reject u f stBadParam))
    ∧ (mayRun u 0x50 c [] f → isMember u = false → isLantern u = false → exec (.cascDiscover t c) s = .next (complete u f 1))
    ∧ (mayRun u 0x50 c [] f → isLantern u = true → tickValid u = false → exec (.cascDiscover t c) s = .next (reject u f stNoTime))
    ∧ (mayRun u 0x50 c [] f → isLantern u = true → tickValid u = true →
        let v := setStage (sendAssign u 1 (cascDepth u) (commonFeature u) (assignTick u)) f.id .running
        exec (.cascDiscover t c) s = .next { v with casc := { v.casc with
          next := assocPut v.casc.next (assignTick u) (some 0, none)
          discover := v.casc.discover ++ [{ id := f.id, start := v.time.now, e := assignTick u, last := none }] } })
    ∧ (∀ m rest, u.inbox = m :: rest → m.port = 1 → m.pkt.type = 3 → msgOf m.pkt = 0x10 → m.tick < body m.pkt 4 8 →
        body m.pkt 0 1 ≤ body m.pkt 1 1 →
        let v := setF { u with inbox := rest } F.CAS_FEATURE_COMMON (body m.pkt 2 1)
        let e := body m.pkt 4 8
        let far := match assocGet v.casc.next e with
          | some (i, far) => if i = some (body m.pkt 0 1) then far else none
          | none => none
        let w := modCasc v fun x => { x with next := assocPut x.next e (some (body m.pkt 0 1), far) }
        exec (.cascAssign t) s = .next (sendReport (sendAssign w (body m.pkt 0 1 + 1) (body m.pkt 1 1) (body m.pkt 2 1) e) e))
    ∧ (∀ m rest, u.inbox = m :: rest → m.port = 2 → m.pkt.type = 3 → msgOf m.pkt = 0x11 →
        ∃ s', exec (.cascReport t) s = .next s' ∧ s'.casc.minFeat = some (body m.pkt 1 1) ∧ s'.casc.broken = bitAt (body m.pkt 2 1) 0
          ∧ s'.casc.beyond = (if body m.pkt 4 8 = chainE u then
              (if ownIndex u < body m.pkt 0 1 ∧ u.casc.cut = false then some (body m.pkt 0 1) else none) else u.casc.beyond)
          ∧ s'.inbox = rest ∧ s'.acts = u.acts ∧ s'.streams = u.streams)
    ∧ (u.casc.lastSent + 983040 ≤ u.time.now →
        let v : State := { u with casc := { u.casc with lastSent := u.time.now } }
        (isLantern u = true → chainE u ≠ 0 →
          exec (.cascAssignPeriodic t) s = .next (sendAssign v 1 (cascDepth v) (commonFeature v) (chainE v)))
        ∧ (isLantern u = false → isMember u = true → exec (.cascAssignPeriodic t) s = .next (sendReports v)))
    ∧ (∀ e i far later, u.casc.next = (e, i, far) :: later → e ≤ u.time.tick →
        let v := set64 u A.CAS_CHAIN_E A.CAS_CHAIN_E_1 e
        let w : State := { v with casc := { v.casc with next := later, cut := !portUp v 2, beyond := far } }
        (isLantern w = false → exec (.chainEReached t) s = .next
          (showChain (setF (setFlag w F.CAS_STATUS_INDEXED i.isSome) F.CAS_STATUS_INDEX (i.getD 0))))
        ∧ (isLantern w = true → exec (.chainEReached t) s = .next (showMembers (refreshCommon w) false)))
    ∧ (∀ d, u.casc.discover = [d] → (d.start + 983040 ≤ u.time.now ∨ ∃ x, d.last = some x ∧ x.2 + 98304 ≤ u.time.now) →
        flightOf u d.id = some f →
        exec (.cascDiscoverDone t) s = .next
          (complete { u with casc := { u.casc with discover := [] } } f ((d.last.map (·.1)).getD 0 + 1)))

/-- Partial sums: the last member originates one from its own contribution and pips, REDUCED while its child port is DOWN; a member in between
passes one on at its pass tick with its own contribution and pips, or unchanged and counted where it has no stream of the key, and in IDLE
drops it; the lantern combines at Z what
has come and been held back to its hold tick with its own contribution, or counts the sum as missing and pips the slot; a sum that waits too long is
discarded and counted. TIME on the parent port gives a member its offset; that an odd difference is halved downwards, and that the far end of the hop is
FIXED or not as a free value says, is the model's choice (notes/assumptions/32.md). -/
def Obligations.PartialSumsComplete : Prop :=
  ∀ (t j n : Nat) (s u : State) (x : Stream) (c : Carrier), u = advance t s →
    (streamAt u j = some x → ulCarrier u x n = some c → isMember u = true → flag u F.CAS_STATUS_LAST = true →
        slotReady u x c n u.time.tick = true → u.time.tick = slotDone c n →
        exec (.cascSumOriginate t j n) s = .next
          (modStream (enqueue u 1
            { pkt := sumPacket (ulKey x) (ownIndex u) n (slotNumber c n) (ulPips u x c n) (!portUp u 2)
                (addSamples (contribution u x.carrier c x.layer n) []),
              since := u.time.now, ctrl := false, index := j, q := some u.time.now, stomp := false }) j fun y => ulFormed y c n))
    ∧ (∀ y, (Sys2Proof.Machine.port u 1).queue.find? (fun z => match z.q with | some q => decide (q + ulAllow u < u.time.now) | none => false) = some y →
        exec (.cascSumLate t) s = .next (satAdd (modPort u 1 fun p => { p with queue := p.queue.erase y }) F.CAS_STAT_LATE 1))
    ∧ (∀ y rest, isMember u = true → isIndexed u = true → childInChain u = true → u.casc.sums = y :: rest → portUp u 1 = true →
        passTick u y ≤ u.time.tick →
        let v : State := { u with casc := { u.casc with sums := rest } }
        (isActive u = false → exec (.cascSumPass t) s = .next v)
        ∧ (∀ i, isActive u = true → keyStream v y.key = some (i, x) → slotCarrier v x y.slot = some c →
          exec (.cascSumPass t) s = .next (sentAt v (timeOf v (passTick v y)) fun w =>
            sendBytes w 1 (packetBytes (sumPacket y.key y.origin y.slot y.seq (y.pip ||| ulPips v x c y.slot) y.reduced
              (addSamples y.data (contribution v x.carrier c x.layer y.slot))) (!y.good))))
        ∧ (let w := satAdd v F.CAS_STAT2_NO_STREAM 1
          isActive u = true → keyStream v y.key = none → portUp w 1 = true →
          exec (.cascSumPass t) s = .next (sentAt w (timeOf w (passTick w y)) fun w => sendBytes w 1
            (packetBytes (sumPacket y.key y.origin y.slot y.seq y.pip y.reduced y.data) (!y.good)))))
    ∧ (∀ got, streamAt u j = some x → ulCarrier u x n = some c → combines u = true → slotReady u x c n (combineTick u c n) = true →
        (∀ y ∈ u.casc.combined, ¬(y.stream = j ∧ y.slot = n)) →
        got = u.casc.sums.find? (fun y => y.key = ulKey x && y.slot = n && y.good && decide (max y.tick (heldTick u y) ≤ combineTick u c n)) →
        exec (.cascCombine t j n) s = .next (modCasc (if got.isNone then satAdd u F.CAS_STAT_MISSING 1 else u) fun v => { v with
          sums := v.sums.filter fun g => !(g.key = ulKey x && decide (g.slot ≤ n))
          combined := v.combined ++ [
            { stream := j, slot := n,
              reduced := match got with | some g => g.reduced || decide (g.origin < u.casc.beyond.getD 0) | none => true,
              pip := ulPips u x c n ||| (match got with | some g => g.pip | none => 2 ^ 64 - 1)
                ||| (if u.casc.lost.contains (j, n - 1024 * c.k) then leadingBlocks (8 * slices c - 1) else 0),
              queueAt := combineTick u c n + 16,
              data := addSamples (contribution u x.carrier c x.layer n) (match got with | some g => g.data | none => []) }]
          lost := (v.lost.filter fun l => l.1 != j) ++ if got.isNone then [(j, n)] else [] }))
    ∧ (∀ m rest, u.inbox = m :: rest → m.port = 1 → m.pkt.type = 4 → isMember u = true →
        let part := fun i => ((leNat ((m.pkt.payload.drop i).take 8) : Nat) : Int)
        exec (.cascadeTimeReceive t) s = .next (setFlag (setN
          { u with inbox := rest, casc := { u.casc with times := u.casc.times.set 1 (leNat (m.pkt.payload.take 8), m.tick) } }
          A.CAS_SYNC_OFFSET (unsigned 32 ((((m.tick : Nat) : Int) - part 0 - (part 24 - part 16)) / 2)))
          F.CAS_STATUS_OFFSET_VALID (!flag u (F.LN_PORT_CTRL_FIXED 1) && !Config.parentFixed u.time.now)))

/-! ## Radio control and calibration -/

/-- LO_TUNE and LO_CAL are accepted (LO_CAL also runs at once); a synthesiser's calibration ends, it is found in lock or loses it, and a
declared calibration gap of at least 393,216 ticks that no accepted swap ends starts what is pending (R251, R253, R256, R258-R262). A loss of lock by
LO-T while TX outputs are enabled is recorded and reported. POD_STATE is accepted; due ladder steps end and each pod goes on; the first front-end edge that is due, one of the step in course or of
the last one, or an early entry edge of a step that is known before it starts, sets the pins, and an early edge overrides the exit before it; a pod whose
domain is off has no early edges. An FESB_WRITE is accepted with its framing, its frame goes out as the profile stands then, and its end ends the
activation. That a calibration which follows a start reports its end, and how the plan of a pod's steps is foreseen, are the model's readings of R258
and R270 (notes/assumptions/21.md, 22.md). -/
def Obligations.SynthesisersAndPodsComplete : Prop :=
  (∀ (t i : Nat) (c : Cmd) (s u : State) (f : Flight), u = advance t s →
    (mayRun u 0x28 c [] f → p8 c 16 ≤ 2 → freqGood (p8 c 16) (p64 c 24) = true →
        (p8 c 16 = 1 → flag u F.RAD_LO_CFG_TDD_TIE = false) → inWindow u c f [(0x28, p8 c 16, 0)] →
        exec (.loTune t c) s = .next (accept u f [(0x28, p8 c 16, 0)] []))
    ∧ (mayRun u 0x29 c [] f → p8 c 17 ≤ 1 → (∀ k ∈ bitsSet (p8 c 16) 3, loOn u k = true) →
        (sched c = true → inWindow u c f ((bitsSet (p8 c 16) 3).map fun k => (0x29, k, 0))) →
        exec (.loCal t c) s = .next
          (if sched c then accept u f ((bitsSet (p8 c 16) 3).map fun k => (0x29, k, 0)) [] else complete (applyLoCal u c) f 0))
    ∧ (∀ x failed, loCal u i = some x → x.post = true → x.stop ≤ u.time.now →
        let v := setLoCal u i
          (if x.kind = 2 then some { x with post := false, table := false, queued := none, saved := x.saved || !failed } else none)
        let w := if x.table then tableBuilt v i (!failed) else v
        let e := post w 0x0033 (evData [(16, 1, i), (17, 1, if failed then 1 else 0)])
        (x.queued = none → exec (.loCalDone t i failed) s = .next e)
        ∧ (∀ k, x.queued = some k → exec (.loCalDone t i failed) s = .next (beginCal e i k x.stop)))
    ∧ (∀ v, v = settleLo u i → i < 3 → loOn v i = true → Sys2Proof.Machine.loLocked v i = false → loBusy v i = false →
        exec (.loLocked t i) s = .next (lockLo (setLoCal v i none) i))
    ∧ (Sys2Proof.Machine.loLocked u i = true →
        let v := raiseFlag (setFlag u (F.RAD_LO_STAT_LOCK i) false) (F.RAD_LO_STAT_LOCK_LOST i)
        (i ≠ 0 ∨ txPods u = 0 → exec (.loLossOfLock t i) s = .next v)
        ∧ (i = 0 → txPods u ≠ 0 → exec (.loLossOfLock t i) s = .next
            (post (raiseFlag v (F.RAD_LO_STAT_UNLOCKED_TX 0)) 0x0030 (evData [(16, 1, 0), (17, 1, txPods u)]))))
    ∧ (∀ b g, bankAt u u.time.tick = some b → segmentAt u b u.time.tick = some g → g.cal = true → g.start = u.time.tick % period u b →
        g.start + 393216 ≤ g.stop → (swapBetween u (u.time.tick + 1) (u.time.tick + 393215)).isNone = true →
        exec (.calibrationGapStart t) s = .next ((List.range 3).foldl (fun v k =>
          if flag v (F.RAD_LO_STAT_CAL_PENDING k) && loOn v k && !loBusy v k then beginCal v k 0 v.time.now else v) (settleLos u))))
  ∧ (∀ (t p : Nat) (c : Cmd) (s u : State) (f : Flight), u = advance t s →
    (mayRun u 0x2A c [] f → maskWithin (p8 c 16) (nPods u) = true → p8 c 17 ≤ 5 →
        inWindow u c f ((bitsSet (p8 c 16) 8).map fun k => (0x2A, k, 0)) →
        exec (.podState t c) s = .next (accept u f ((bitsSet (p8 c 16) 8).map fun k => (0x2A, k, 0)) []))
    ∧ (∀ due, due = ((List.range (nPods u)).filter fun k =>
          match (podSt u k).step with | some x => decide (x.stop ≤ u.time.now) | none => false) →
        exec (.ladderStepEnd t) s = .next (due.foldl drivePod (refreshLo (refreshLo
          (unlockedTx (due.foldl endStep u) ((due.filter fun k =>
            match (podSt u k).step with | some x => x.goal == 4 | none => false).map (2 ^ ·)).sum) 0) 1)))
    ∧ (∀ e, dueEdge u.time.now ((podSt u p).edges ++ earlyEdges u p) = some e →
        (e ∈ (podSt u p).edges →
          exec (.fePinEdge t p) s = .next (setFeCode (modPod u p fun x => { x with edges := x.edges.erase e }) p e.code))
        ∧ (e ∉ (podSt u p).edges →
          exec (.fePinEdge t p) s = .next (setFeCode (modPod u p fun x => { x with
            made := (e.at', e.code) :: x.made
            edges := if fromSynth u p e then (podSt u p).edges.filter (fun y => !(y.exit && decide (e.at' ≤ y.at'))) else (podSt u p).edges })
              p e.code)))
    ∧ (∀ e, e ∈ earlyEdges u p ↔ (podOn u p = true ∧ (e.at', e.code) ∉ (podSt u p).made
          ∧ ∃ k ∈ knownSteps u p, e ∈ entryEdges u p k.2.2 k.2.1 ∧ e.at' < k.1))
    ∧ (mayRun u 0x2C c [] f → p8 c 16 ≤ 1 → 8 ≤ p8 c 17 → p8 c 17 ≤ 32 → p8 c 18 ≤ 3 →
        (flag u (F.RAD_FE_PROF_PROFILE (p8 c 16)) = true →
          p8 c 18 ≤ 1 ∧ (p8 c 18 = 1 → flag u (F.RAD_FE_PROF_CS_EN (p8 c 16)) = true)) →
        let fr := fesbFrame u (fesbDiv u (p8 c 16)) c
        (∀ q ∈ fesbPending u (p8 c 16), (fesbSpan (fesbNow u q) q.tick).2 ≤ (fesbSpan fr c.actTick).1
          ∨ (fesbSpan fr c.actTick).2 ≤ (fesbSpan (fesbNow u q) q.tick).1) →
        inWindow u c f [(0x2C, p8 c 16, 0)] →
        exec (.fesbWrite t c) s = .next (accept u f [(0x2C, p8 c 16, 0)] fr))
    ∧ (∀ q, ((fesbPending u p).find? fun x =>
          !u.radio.frames.contains x.id && decide ((fesbSpan (fesbNow u x) x.tick).1 ≤ u.time.tick)) = some q →
        let fr := fesbNow u q
        exec (.fesbFrameStart t p) s = .next (emit { u with
            radio := { u.radio with frames := q.id :: u.radio.frames }
            acts := u.acts.map fun x => if x.id = q.id then { x with src := fr } else x }
          (.fesb p (fr.getD 2 0).toNat (fesbEdges fr q.cmd (nowOf u q.tick)))))
    ∧ (∀ q bits, ((fesbPending u p).find? fun x => u.radio.frames.contains x.id && decide (x.tick ≤ u.time.tick)) = some q →
        let sel := (q.src.getD 2 0).toNat
        let v : State := { u with radio := { u.radio with frames := u.radio.frames.erase q.id } }
        let w := if sel = 0 ∨ fesbSelect u q.cmd = sel then emit v (.fesb p sel [(nowOf u q.tick, .select, true)]) else v
        exec (.fesbFrameEnd t p bits) s = .next (endAct (setN w (A.RAD_FESB_RDATA p) (bits % 2 ^ 32)) q 0 q.tick)))

/-- CAL_CREATE makes a job in the lowest free slot with the lowest free run of banks; CAL_START is accepted, or completes with NO_RESOURCE where
its window meets another's; CAL_DESTROY aborts a run, cancels what is pending for the job and frees its slot and banks. -/
def Obligations.CalibrationObjectsComplete : Prop :=
  ∀ (t : Nat) (c : Cmd) (s u : State) (f : Flight), u = advance t s →
    (∀ i b, mayRun u 0x30 c [] f → p8 c 16 ≤ 3 → p8 c 17 ≤ 1 → p16 c 18 ≠ 0 → p8 c 20 ≤ 8 →
        calMasksGood u (p8 c 16) (p64 c 24) (p64 c 32) (p8 c 20) = true → lowestFree u.cals 16 = some i →
        (p8 c 20 = 0 → b = 0) → (p8 c 20 ≠ 0 → findRun u (p8 c 20) = some b) →
        let j : CalJob :=
          { gen := nextGen u 7 i, kind := p8 c 16, prio := p8 c 17, grantWait := p16 c 18, bank := b, banks := p8 c 20,
            txMask := p64 c 24, rxMask := p64 c 32, run := none }
        exec (.calCreate t c) s = .next
          (complete (ownBanks { takeGen u 7 i with cals := assocPut u.cals i j } (bankRun b (p8 c 20)) (mkHandle 7 (nextGen u 7 i) i))
            f (mkHandle 7 (nextGen u 7 i) i)))
    ∧ (∀ j, mayRun u 0x31 c [] f → calAt u (handleIdx c.handle) = some j → calClash u j c.actTick = false →
        inWindow u c f [(0x31, c.handle, 0)] → exec (.calStart t c) s = .next (accept u f [(0x31, c.handle, 0)] []))
    ∧ (∀ j, mayRun u 0x31 c [] f → calAt u (handleIdx c.handle) = some j → calClash u j c.actTick = true →
        inWindow u c f [(0x31, c.handle, 0)] → exec (.calStart t c) s = .next (reject u f stNoResource))
    ∧ (∀ j, mayRun u 0x32 c [] f → calAt u (handleIdx c.handle) = some j →
        let v := cancelNaming (if j.run.isSome then abortRun u (handleIdx c.handle) 0 else u) c.handle
        exec (.calDestroy t c) s = .next
          (complete (releaseBanks { v with cals := assocDel v.cals (handleIdx c.handle) } c.handle) f 0))

/-- A running job without a grant ends with RESULT 1 when its wait is over; a granted one emits when its delay has passed, or aborts where the
grant is gone by then, and waits while COEX_GNT_O is high (that it aborts at that tick is the model's reading of R279: notes/assumptions/24.md); each step writes one 16-byte record per receiver to the job's banks; after the last step it ends with RESULT 0 or 2. An
image job ends after 1,966,080 ticks with the correction of its ORx. The wires are seen at CK_HK edges: a grant goes to the jobs that ask, a
grant that is lost aborts those that emit; a request of the peer is granted while it may be, a grant whose request goes is taken back and its
jobs go on, or, if its rise has not come yet, is never made (24.md). -/
def Obligations.CalibrationRunsComplete : Prop :=
  ∀ (t i : Nat) (j : CalJob) (r : CalRun) (s u : State), u = settleCoex (advance t s) → calAt u i = some j → j.run = some r →
    (r.phase = .asking → r.start + grantTicks j ≤ u.time.tick → exec (.grantWaitExpiry t i) s = .next (doneRun u i 1))
    ∧ (r.phase = .granted → r.emitAt ≤ u.time.tick → u.radio.coex.gntO = false →
        exec (.calEmissionStart t i) s = .next
          (if coexEn u && !flag u F.RAD_COEX_GNT_I then abortRun (modRun u i fun x => { x with phase := .emitting }) i 2
           else modRun u i fun x => { x with phase := .emitting }))
    ∧ (∀ meas, r.phase = .emitting → r.step < stepsOf j → r.emitAt + stepTicks u ≤ u.time.tick →
        ∃ s', exec (.calStepEnd t i meas) s = .next s'
          ∧ s'.store = memWrite u.store (524288 * j.bank + 16 * r.records)
              ((List.range (receivers j r.step).length).map fun k => calRecord ((emitters j).getD r.step 0xFE)
                ((receivers j r.step).getD k 0) (meas.getD k (0, 0, 0, 0))).flatten
          ∧ (∃ y z, calAt s' i = some y ∧ y.run = some z ∧ z.step = r.step + 1 ∧ z.records = r.records + (receivers j r.step).length)
          ∧ { s' with store := u.store, cals := u.cals } = u)
    ∧ ((r.phase = .emitting ∨ r.phase = .image) → runSteps j ≤ r.step →
        exec (.calDone t i) s = .next (doneRun u i (if r.bad then 2 else 0)))
    ∧ (∀ found, r.phase = .image → r.step = 0 → r.start + 1966080 ≤ u.time.tick →
        exec (.orxImageCalEnd t i found) s = .next (modRun
          ((List.range (bitsSet (calOrx j) 4).length).foldl (fun v k =>
            setN (setN v (A.ORX_IRC ((bitsSet (calOrx j) 4).getD k 0)) (found.getD k (0, 0)).1)
              (A.ORX_IRC_1 ((bitsSet (calOrx j) 4).getD k 0)) (found.getD k (0, 0)).2) u) i fun x => { x with step := 1 }))
    ∧ (r.phase = .granted → u.radio.coex.gntO = true → exec (.calEmissionStart t i) s = .next u)
    ∧ (coexEn u = true → onHk u = true →
        exec (.coexGntISeen t true) s = .next (grantJobs (setFlag u F.RAD_COEX_GNT_I true) u.time.tick))
    ∧ (coexEn u = true → onHk u = true →
        let v := askAgain (setFlag u F.RAD_COEX_GNT_I false) fun r =>
          (r.phase == .granted || r.phase == .emitting) && r.grantAt == some u.time.tick
        exec (.coexGntISeen t false) s = .next
          (((calRuns v).filter fun x => usesWires x && isEmitting x).foldl (fun w x => abortRun w x.1 2) v))
    ∧ (coexEn u = true → onHk u = true → flag u F.RAD_COEX_REQ_I = false →
        let v := setFlag u F.RAD_COEX_REQ_I true
        exec (.coexReqISeen t true) s = .next (if mayGrantPeer v then settleCoex (raiseGnt v v.time.now) else v))
    ∧ (coexEn u = true → onHk u = true → flag u F.RAD_COEX_REQ_I = true →
        let v := setFlag u F.RAD_COEX_REQ_I false
        (u.radio.coex.gntO = false → exec (.coexReqISeen t false) s = .next v)
        ∧ (u.radio.coex.gntO = true → u.time.now ≤ u.radio.coex.gntAt →
          exec (.coexReqISeen t false) s = .next (grantJobs (holdPeer v) v.time.tick))
        ∧ (u.radio.coex.gntO = true → u.radio.coex.gntAt < u.time.now →
          let w := noteHeld (modCoex (driveCoex v 2 false v.time.now) fun x => { x with gntO := false })
          let x := post w evCoexPeerGranted (evData [(16, 4, w.radio.coex.held)])
          let y := askAgain (settleCoex (modCoex x fun y => { y with held := 0, heldSince := none })) (·.phase == .asking)
          exec (.coexReqISeen t false) s = .next (grantJobs y y.time.tick)))

/-! ## Captures and pre-distortion -/

/-- CAP_CREATE makes a job in the lowest free slot, with the lowest free run of banks where it captures into the store; CAP_START is accepted or
starts a capture at once; CAP_DESTROY stops a running one and frees slot and banks. A capture starts once its first sample is due: one of an
ORx takes it, or ends at once where it may not run. One that has ended writes the records that its channel has not brought yet, the job shows
them, its ORx is idle again, and CAPTURE_DONE is posted; one into the DRAM does so once the port serves it, and has then only disturbed self-refresh
(notes/assumptions/36.md). -/
def Obligations.CapturesComplete : Prop :=
  ∀ (t job : Nat) (c : Cmd) (s u : State) (f : Flight), u = advance t s →
    (∀ i b n, mayRun u 0x34 c (if p8 c 16 = 3 then [(2, p32 c 32)] else []) f → p8 c 16 ≤ 3 → 1 ≤ p8 c 18 → p8 c 18 ≤ 3 → 1 ≤ p32 c 20 →
        p32 c 20 ≤ 2 ^ 28 → (p8 c 16 = 0 → orxPresent u (p8 c 17) = true ∧ p32 c 20 ≤ 65536) →
        (p8 c 16 = 1 ∨ p8 c 16 = 2 → pathPresent u (p8 c 17) = true) →
        (p8 c 18 ≠ 1 → regionBad (if p8 c 18 = 2 then 2 else 0) (p64 c 24) (8 * p32 c 20) = false) → lowestFree u.caps 32 = some i →
        n = (if p8 c 18 = 1 then ceilDiv (8 * p32 c 20) 524288 else 0) → (if n = 0 then some 0 else findRun u n) = some b →
        let j : CapJob :=
          { gen := nextGen u 4 i, source := p8 c 16, index := p8 c 17, dest := p8 c 18, length := p32 c 20, addr := p64 c 24,
            stream := p32 c 32, bank := b, written := 0, taken := 0, ended := false }
        exec (.capCreate t c) s = .next
          (complete (ownBanks { takeGen u 4 i with caps := assocPut u.caps i j } (bankRun b n) (mkHandle 4 (nextGen u 4 i) i)) f
            (mkHandle 4 (nextGen u 4 i) i)))
    ∧ (mayRun u 0x35 c [] f → (sched c = true → inWindow u c f [(0x35, c.handle, 0)]) →
        exec (.capStart t c) s = .next
          (if sched c then accept u f [(0x35, c.handle, 0)] [] else complete (startCapture u c.handle u.time.tick) f 0))
    ∧ (mayRun u 0x36 c [] f →
        let v : State := { u with
          caps := assocDel u.caps (handleIdx c.handle)
          captures := u.captures.map fun x =>
            if x.handle = c.handle && x.stop.isNone then { x with stop := some (u.time.tick, stCancelled) } else x }
        exec (.capDestroy t c) s = .next
          (complete (periphGone (releaseBanks (cancelNaming v c.handle) c.handle) (handleIdx c.handle)) f 0))
    ∧ (∀ x, u.captures.find? (fun x => x.job = job && x.first.isNone && x.stop.isNone) = some x → firstSample u x ≤ u.time.tick →
        (x.source ≠ 0 →
          exec (.captureStart t job) s = .next (modCapture u x.handle fun y => { y with
            first := some (firstSample u x)
            rates := if y.source = 3 then [(firstSample u x, 0, match carrierAt u x.carrier with | some c => c.k | none => 1)] else [] }))
        ∧ (∀ st, x.source = 0 → orxRefusal u x = some st →
          exec (.captureStart t job) s = .next
            (modCapture u x.handle fun y => { y with first := some (firstSample u x), stop := some (firstSample u x, st) }))
        ∧ (x.source = 0 → orxRefusal u x = none → hostHolds u x.index = none →
          exec (.captureStart t job) s = .next
            (modCapture (setF (takeOrx u x.index 2) (F.ORX_STAT_SEL x.index)
              (getF (takeOrx u x.index 2) (F.ORX_CTRL_HOST_SEL x.index))) x.handle fun y => { y with first := some (firstSample u x) })))
    ∧ (∀ x w, u.captures.find? (fun x => x.job = job && (captureResult u x w).isSome) = some x → x.dest = 2 → dramTrained u = true →
        portServes (disturbSr u) = false → exec (.captureDone t job w) s = .next (disturbSr u))
    ∧ (∀ x n st w y, u.captures.find? (fun x => x.job = job && (captureResult u x w).isSome) = some x →
        (x.dest = 2 → dramTrained u = true → y = disturbSr u ∧ portServes y = true) → (x.dest ≠ 2 ∨ dramTrained u = false → y = u) →
        captureResult y x w = some (n, st) →
        let v := writeRecords y x ((captureData y x n).drop (8 * brought y x)) (8 * brought y x)
        let v : State := { v with
          captures := v.captures.filter (fun y => y.handle != x.handle)
          caps := match assocGet v.caps x.job with
            | some j => if mkHandle 4 j.gen x.job = x.handle then assocPut v.caps x.job { j with written := n, ended := true } else v.caps
            | none => v.caps }
        let v := if x.source = 0 ∧ getF v (F.ORX_STAT_USER x.index) = 2 ∧ hostHolds v x.index = none then
          setF v (F.ORX_STAT_USER x.index) 0 else v
        exec (.captureDone t job w) s = .next
          (periphEnded (postAt v 0x0050 (x.first.getD x.tick) (evData [(16, 4, x.handle), (20, 1, st), (24, 4, n)])) x.job))

/-- DPD_POLICY is accepted or sets its paths at once. DPD_COEF_LOAD reads its block before it is accepted, and is BUSY outside MANUAL mode; when the
block has come a wrong TAG is BAD_PARAM and any other is accepted with SEQ FFFF_FFFFh in it. DPD_DUMP writes the live block out; a write of
DPD.TERM sets every bank to the bypass block. The firmware: a DPD slot is started anew, a monitor slot takes the ORx; the planned capture starts
on its tick and ends; a solve that may be swapped in asks for its swap, or is dropped and counted inside the spacing; the monitor captures of an ORx
take its paths in turn and give their estimates. -/
def Obligations.PredistortionComplete : Prop :=
  (∀ (t k data : Nat) (c : Cmd) (s u : State) (f : Flight), u = advance t s →
    (mayRun u 0x38 c [] f → p8 c 16 ≤ 3 → p8 c 17 ≤ 100 → 1 ≤ p16 c 22 → p16 c 22 ≤ 1000 → 1 ≤ p8 c 24 → p8 c 24 ≤ 40 →
        maskWithin (p64 c 32) (nPaths u) = true → (sched c = true → inWindow u c f ((bitsSet (p64 c 32) 64).map fun n => (0x38, n, 0))) →
        exec (.dpdPolicy t c) s = .next
          (if sched c then accept u f ((bitsSet (p64 c 32) 64).map fun n => (0x38, n, 0)) [] else complete (applyPolicy u c) f 0))
    ∧ (mayRun u 0x39 c [] f → pathPresent u (p8 c 16) = true → p8 c 17 ≤ 15 → regionBad (p8 c 18) (p64 c 24) 256 = false →
        inWindow u c f [(0x39, p8 c 16, p8 c 17)] → loadPending u (p8 c 16) (p8 c 17) = false → modeOf u (p8 c 16) = 3 →
        regionDown u (p8 c 18) (p64 c 24) 256 = false →
        let v := setStage u f.id .running
        exec (.dpdCoefLoad t c) s = .next (if p8 c 18 = 0 then readSource v f (p64 c 24) 256 else v))
    ∧ (mayRun u 0x39 c [] f → pathPresent u (p8 c 16) = true → p8 c 17 ≤ 15 → regionBad (p8 c 18) (p64 c 24) 256 = false →
        inWindow u c f [(0x39, p8 c 16, p8 c 17)] → loadPending u (p8 c 16) (p8 c 17) = false → modeOf u (p8 c 16) ≠ 3 →
        exec (.dpdCoefLoad t c) s = .next (reject u f stBusy))
    ∧ (∀ bytes whole : List Byte, asleep u = false → sourceFlight u f.cmd.ring f.cmd.tag = some f → f.cmd.opcode = 0x39 → p8 f.cmd 18 = 0 →
        f.rest.2 = 0 → whole = f.got ++ bytes → whole.length = 256 →
        (blockTagGood u whole = true → u.acts.length < 512 →
          exec (.sourceDataReadComplete t f.cmd.ring f.cmd.tag bytes) s = .next
            (pumpShared (accept (keepSource u f []) f [(0x39, p8 f.cmd 16, p8 f.cmd 17)] (whole.take 252 ++ [255, 255, 255, 255]))))
        ∧ (blockTagGood u whole = false →
          exec (.sourceDataReadComplete t f.cmd.ring f.cmd.tag bytes) s = .next (pumpShared (reject (keepSource u f []) f stBadParam))))
    ∧ (mayRun u 0x3A c [] f → pathPresent u (p8 c 16) = true → p8 c 17 ≤ 15 → regionBad (p8 c 18) (p64 c 24) 256 = false →
        regionDown u (p8 c 18) (p64 c 24) 256 = false →
        let block := liveBlock u (p8 c 16) (p8 c 17)
        (p8 c 18 = 0 → exec (.dpdDump t c) s = .next (complete (hostWrite u (p64 c 24) 256 (leNat block)) f 0))
        ∧ (p8 c 18 = 1 → exec (.dpdDump t c) s = .next (complete { u with store := memWrite u.store (p64 c 24) block } f 0))
        ∧ (p8 c 18 = 2 → exec (.dpdDump t c) s = .next (complete { disturbSr u with dram := memWrite u.dram (p64 c 24) block } f 0)))
    ∧ (asleep u = false → k < 48 → ∃ s', exec (.dpdTermWrite t k data) s = .next s' ∧ s' = writeTerm (countCfg u 1) k data
        ∧ ∀ n b, liveBlock s' n b = bypassBlock))
  ∧ (∀ (t k : Nat) (s u : State), u = advance t s →
    (∀ o, o = orxSched u k → orxPresent u k = true → tickValid u = true → u.time.tick = o.slotAt → o.visit = none →
        u.dpd.holdT ≠ 2 → u.dpd.holdO ≠ 2 → getF u (F.ORX_STAT_USER k) ≠ 4 →
        let v := modOrx u k fun o => { o with slotQ := (orxSched u k).slotQ + 1, slotAt := u.time.tick + slotTicks u, slotLen := slotTicks u }
        (isDpdSlot (shareOf v k) o.slotQ = true → exec (.dpdSlotStart t k) s = .next (startDpdSlot v k))
        ∧ (isDpdSlot (shareOf v k) o.slotQ = false → orxCaptures v k = true →
          getF v (F.ORX_STAT_USER k) = 0 → exec (.dpdSlotStart t k) s = .next (setF v (F.ORX_STAT_USER k) 4)))
    ∧ (∀ v, (orxSched u k).visit = some v → v.started = false → u.time.tick = v.start → calHolds u k = false → hostHolds u k = none →
        eligible u v.path = true → orxCaptures u k = true →
        exec (.dpdCaptureStart t k) s = .next (noteStart (modOrx
          (setF (setF u (F.ORX_STAT_USER k) 3) (F.ORX_STAT_SEL k) (v.path % 16)) k
            fun o => { o with visit := some { v with started := true, bin := binOf u } }) k v.path))
    ∧ (∀ v, (orxSched u k).visit = some v → v.started = true → v.stop ≤ u.time.tick →
        exec (.dpdCaptureEnd t k) s = .next (finishVisit u k v))
    ∧ (∀ path bin better base data v n, u.dpd.solves.contains (path, bin) = true → fwRunning u = true →
        v = setBase { u with dpd := { u.dpd with solves := u.dpd.solves.erase (path, bin) } } bin base → n = swapTick v →
        let r := requestSwap v path 0 bin n false (solvedBlock v bin data)
        (mayswap v path better = false → exec (.dpdSolveDone t path bin better base data) s = .next v)
        ∧ (mayswap v path better = true → (∀ m, assocGet v.dpd.swapped path = some m → m + swapSpacing v path ≤ n) →
          exec (.dpdSolveDone t path bin better base data) s = .next
            (if r.2 then { r.1 with dpd := { r.1.dpd with swapped := assocPut r.1.dpd.swapped path n } } else r.1))
        ∧ (∀ m, mayswap v path better = true → assocGet v.dpd.swapped path = some m → n < m + swapSpacing v path →
          exec (.dpdSolveDone t path bin better base data) s = .next (satAdd v (F.DPD_PATH_STAT_DROPPED path) 1)))
    ∧ (∀ path aclr evm, orxPresent u k = true → getF u (F.ORX_STAT_USER k) = 4 → path = 16 * k + (orxSched u k).turn →
        orxCaptures u k = true →
        let v := modOrx u k fun o => { o with turn := (o.turn + 1) % 16 }
        let v := setF (setF v (F.ORX_STAT_SEL k) (path % 16)) (F.DPD_PATH_STAT_ACLR_EST path) (min 65535 aclr)
        exec (.spectrumMonitorCapture t k path aclr evm) s = .next
          { v with dpd := { v.dpd with estimates := assocPut v.dpd.estimates path (aclr, evm) } }))

/-! ## Bias, husk and the monitor -/

/-- BIAS_SET, BIAS_STROBE; the writes of STROBE, HUSK_SET and HUSK_RELEASE; the edge of LDB_IN, the fall of the power-good detector and
the slew steps (R418-R423). MON_SCAN and MON_URGENT; the firmware's request at a segment start; the end of a window; a result, the mean of the
latest codes of the two converters rounded half away from zero, enters the FIFO and its register 64 ticks after its window, with OVR, but never for a
temperature, and reports what the host asked for. That an edge of LDB_IN does nothing while PD18 is off, and that the length of the dip of VDD_ANA is an
operand, is the model's choice (notes/assumptions/37.md). -/
def Obligations.BiasAndMonitorComplete : Prop :=
  (∀ (t data : Nat) (c : Cmd) (s u : State) (f : Flight), u = advance t s →
    (∀ v, v = settleHkTo u u.time.now → mayRun u 0x40 c [] f → dacPresent v (p8 c 16) = true → p16 c 18 ≤ 4095 → 1 ≤ p8 c 20 → 1 ≤ p16 c 22 →
        p16 c 22 ≤ 4095 → (sched c = true → inWindow v c f [(0x40, p8 c 16, 0)]) →
        exec (.biasSet t c) s = .next
          (if sched c then accept v f [(0x40, p8 c 16, 0)] []
           else complete (setN v (A.HKM_DAC_SET (p8 c 16)) (setWord (p16 c 18) (p8 c 20) (p16 c 22))) f 0))
    ∧ (mayRun u 0x41 c [] f → maskWithin (p8 c 16) (nPods u) = true →
        inWindow u c f ((bitsSet (p8 c 16) 8).map fun p => (0x41, p, 0)) →
        exec (.biasStrobe t c) s = .next (accept u f ((bitsSet (p8 c 16) 8).map fun p => (0x41, p, 0)) []))
    ∧ (asleep u = false → exec (.strobe t data) s = .next (writeStrobe (countCfg u 1) data)
        ∧ exec (.huskSet t data) s = .next (writeHuskSet (countCfg u 1) data)
        ∧ exec (.huskRelease t data) s = .next (writeHuskRelease (countCfg u 1) data))
    ∧ (hkmOn u = true → exec (.ldbInEdge t) s = .next
        (hkAt (satAdd (settleHk u) F.HKM_LDB_EDGES 1) (hkNow u) (.strobe (getF u F.HKM_LDB_MASK))))
    ∧ (hkmOn u = false → exec (.ldbInEdge t) s = .next u)
    ∧ (∀ dip, exec (.anaPowerGoodFall t dip) s = .next
        (raiseFlag (enterHusk (modHkm (settleHk u) fun h => { h with anaLow := (settleHk u).time.now + dip }) 0xFF) F.HKM_HUSK_CAUSE_ANA_PG))
    ∧ (∀ d e, (dacAt (settleHk u) d).next = some e → e ≤ (settleHk u).time.now → exec (.slewStep t d) s = .next (slew (settleHk u) d e)))
  ∧ (∀ (t k : Nat) (c : Cmd) (s u : State) (f : Flight), u = advance t s →
    (mayRun u 0x42 c [] f → hkmOn u = true → p8 c 16 ≤ 3 → p8 c 17 ≤ 3 → p8 c 18 ≤ 1 →
        (bitsSet (p32 c 20 % 2 ^ 24) 24).all (inputPresent u (p8 c 16)) = true →
        (p8 c 18 = 1 → (bitsSet (p32 c 20 % 2 ^ 24) 24).length = 1) →
        let v := modMon u (p8 c 16) fun x => { x with next := some (p8 c 17, p8 c 18, p32 c 20 % 2 ^ 24) }
        exec (.monScan t c) s = .next
          (complete (if (monUnit v (p8 c 16)).queue.isEmpty then resumeScan v (p8 c 16) (hkNext v) else v) f 0))
    ∧ (mayRun u 0x43 c [] f → p8 c 16 ≤ 3 → inputPresent u (p8 c 16) (p8 c 17) = true →
        (sched c = true → inWindow u c f [(0x43, p8 c 16, 0)]) →
        exec (.monUrgent t c) s = .next
          (if sched c then accept u f [(0x43, p8 c 16, 0)] [] else complete (urgent u (p8 c 16) (p8 c 17) (hkNext u) true) f 0))
    ∧ (∀ i, fwRunning u = true → k < 4 → inputPresent u k i = true → segmentStart u u.time.tick = true →
        exec (.firmwareUrgentRequest t k i) s = .next (urgent u k i (hkNow u) false))
    ∧ (let v := settleWindows u
        let x := monUnit v k
        x.running = true → u.time.counting = true → x.queue = [] → flag v (F.MON_SCAN_INTERLEAVE k) = false →
        x.start + x.w ≤ u.time.now → k < u.hkm.units.length →
        ∃ s', exec (.monitorWindowEnd t k) s = .next s' ∧ ∃ y, y = monUnit s' k
          ∧ (∃ d, y.due = x.due ++ [d] ∧ d.stop = x.start + x.w ∧ d.input = x.scan ∧ d.urgent = false ∧ d.host = false))
    ∧ (∀ d rest code loud ovr, (monUnit u k).due = d :: rest → d.stop + 64 ≤ u.time.now → k < 4 →
        (ovr = true ↔ loud = true ∧ d.input ≠ 16 ∧ d.input ≠ 17) →
        let l := latestCodes d.part (monUnit u k).codes code
        let v := unsigned 20 (meanCode l.1 l.2)
        let w := pushRecord (modMon u k fun x => { x with due := rest, codes := l }) k (monRecord d v ovr)
        let w := setFlag (setFlag w (F.MON_RESULT_VALID k d.input) true) (F.MON_RESULT_OVR k d.input) ovr
        let w := setF (setFlag w (F.MON_RESULT_URGENT k d.input) d.urgent) (F.MON_RESULT_RESULT k d.input) v
        let w := if ovr then noteOvr w k d else w
        let w := if d.host then postAt w 0x00A1 d.tick
            (evData [(16, 1, k), (17, 1, d.input), (20, 4, unsigned 32 (signed 20 v)), (24, 1, if ovr then 1 else 0)]) else w
        exec (.monitorResult t k code loud) s = .next (markStale (if k = 3 ∧ d.input = 17 then loTemperature w v else w)))
    ∧ (∀ a b : Int, (0 ≤ a + b → (meanCode a b - (a + b) / 2 = (a + b) % 2)) ∧ meanCode (-a) (-b) = -meanCode a b))

/-! ## DMA channel programs -/

/-- DMA_CREATE makes an IDLE channel in the lowest free slot, DMA_START is accepted or starts it, DMA_STOP halts it or waits for its
access, DMA_DESTROY frees slot, context, bindings and banks; the writes of a program counter and of the event bits (R102, R370-R373,
R387). The line that holds the program counter arrives and is decoded, from host memory, the store or, while the port issues requests, the
DRAM; an access that has become impossible halts the channel; either frees the tags that others wait for. -/
def Obligations.DmaCommandsComplete : Prop :=
  (∀ (t : Nat) (c : Cmd) (s u : State) (f : Flight), u = advance t s →
    (∀ i b, mayRun u 0x60 c [] f → p8 c 16 ≤ 2 → p8 c 17 ≤ 1 → p8 c 18 ≤ 8 → p64 c 24 % 16 = 0 → regionBad (p8 c 16) (p64 c 24) 16 = false →
        (p8 c 16 = 2 → p64 c 24 < u.dramSize) → (p8 c 17 = 1 → ∀ x ∈ u.dmas, flag u (F.DMA_CH_STATE_SUPERVISORY x.1) = false) →
        lowestFree u.dmas 64 = some i → (if p8 c 18 = 0 then some 0 else findRun u (p8 c 18)) = some b →
        let h := mkHandle 5 (nextGen u 5 i) i
        let x : DmaCh :=
          { gen := nextGen u 5 i, loops := [], entry := (p8 c 16, p64 c 24), line := none, reading := false, busy := false, burst := none,
            kept := [], first := none, stop := none, want := false, reads := 0, readAt := 0 }
        let v := ownBanks { takeGen u 5 i with dmas := assocPut u.dmas i x } (bankRun b (p8 c 18)) h
        let v := setF (setChState v i 1) (F.DMA_CH_STATE_SUPERVISORY i) (p8 c 17)
        let v := setN (setPc (setN v (A.DMA_CH_HANDLE i) h) i (p8 c 16) (p64 c 24)) (A.DMA_CH_BUDGET i) (p32 c 20)
        exec (.dmaCreate t c) s = .next
          (complete (setF (setF v (F.DMA_CH_BANKS_COUNT i) (p8 c 18)) (F.DMA_CH_BANKS_FIRST i) (if p8 c 18 = 0 then 0 else b)) f h))
    ∧ (mayRun u 0x61 c [] f → chBusy u (handleIdx c.handle) = false → (sched c = true → inWindow u c f [(0x61, c.handle, 0)]) →
        exec (.dmaStart t c) s = .next
          (if sched c then accept u f [(0x61, c.handle, 0)] [] else complete (startDma u (handleIdx c.handle)) f 0))
    ∧ (mayRun u 0x61 c [] f → sched c = false → chBusy u (handleIdx c.handle) = true →
        exec (.dmaStart t c) s = .next (reject u f stBusy))
    ∧ (mayRun u 0x62 c [] f → (chState u (handleIdx c.handle) = chParked → entryRequested u = false) →
        exec (.dmaStop t c) s = .next
          (if chState u (handleIdx c.handle) = chRunning
              && ((chAt u (handleIdx c.handle)).burst.isSome || (chAt u (handleIdx c.handle)).reading) then
            modCh (setStage u f.id .running) (handleIdx c.handle) fun x => { x with stop := some (x.stop.getD [] ++ [f.id]) }
           else complete (if chBusy u (handleIdx c.handle) then pumpShared (haltDma u (handleIdx c.handle) stCancelled true) else u) f 0))
    ∧ (mayRun u 0x63 c [] f → chBusy u (handleIdx c.handle) = false →
        let v := cancelNaming (unbindAll u (handleIdx c.handle)) c.handle
        exec (.dmaDestroy t c) s = .next
          (complete (releaseBanks (clearContext { v with dmas := assocDel v.dmas (handleIdx c.handle) } (handleIdx c.handle)) c.handle) f 0))
    ∧ (∀ ch word data, asleep u = false → ch < 64 → exec (.dmaPcWrite t ch word data) s = .next (writePc (countCfg u 1) ch word data))
    ∧ (∀ w data, asleep u = false → w < 2 → exec (.evtSetWrite t w data) s = .next (writeEvtSet (countCfg u 1) w data)))
  ∧ (∀ (t c : Nat) (data : List Byte) (s u : State), u = advance t s →
    (chState u c = chRunning → (chAt u c).line = none → accessFault u c = none →
        (chAt u c).reading = true → ((chPc u c).1 = 0 → data.length = 64) →
        (∀ w, ((chPc u c).1 ≠ 2 → w = u) → ((chPc u c).1 = 2 → w = disturbSr u ∧ portServes w = true) →
          let bytes := if (chPc u c).1 = 0 then data else memRead (if (chPc u c).1 = 1 then w.store else w.dram) ((chPc u c).2 / 64 * 64) 64
          let v := modCh w c fun x => { x with line := some ((chPc u c).1, (chPc u c).2 / 64 * 64, bytes), reading := false, reads := 0 }
          exec (.instructionFetchComplete t c data) s = .next
            (pumpShared (if (chAt u c).stop.isSome then haltDma v c stCancelled true else seek v c)))
        ∧ ((chPc u c).1 = 2 → portServes (disturbSr u) = false → exec (.instructionFetchComplete t c data) s = .next (disturbSr u)))
    ∧ (∀ st, accessFault u c = some st → exec (.dmaFault t c) s = .next (pumpShared (faultDma u c st))))

/-- Every instruction of a channel that is about to start it and has budget left runs; WAIT and SIGNAL run with the budget spent, any
other halts then. A wait ends when its condition holds, but not while an entry into SLEEP or DEEP is under way (notes/assumptions/41.md). A burst moves its bytes,
one of the DRAM while the port issues requests, and the channel then halts, ends its instruction or takes its next turn behind those that
wait (log 33); a peripheral's request starts a burst, in the channel's turn. -/
def Obligations.DmaInstructionsComplete : Prop :=
  ∀ (t c : Nat) (i : DmaInstr) (s u : State), u = advance t s → instrAtPc u c = some i →
    (∀ a b d e g h k, poised u c = true → spent u c = false → i = .move a b d e g h k → exec (.move t c) s = .next (beginData u c i))
    ∧ (∀ a b d e g, poised u c = true → spent u c = false → i = .fill a b d e g → exec (.fill t c) s = .next (beginData u c i))
    ∧ (∀ a b d e g h k l m n, poised u c = true → spent u c = false → i = .cmp a b d e g h k l m n →
        exec (.cmp t c) s = .next (beginData u c i))
    ∧ (∀ n back, poised u c = true → spent u c = false → i = .loop n back → exec (.loop t c) s = .next (runLoop u c n back))
    ∧ (∀ kind clr bit periph tick, poised u c = true → i = .wait kind clr bit periph tick →
        exec (.wait t c) s = .next (runWait u c kind periph))
    ∧ (∀ clr bit periph tick, chState u c = chWaiting → u.power.phase = .run → i = .wait 1 clr bit periph tick → tickValid u = true → tick ≤ u.time.tick →
        exec (.waitEnd t c) s = .next (endWait u c))
    ∧ (∀ clr bit periph tick, chState u c = chWaiting → u.power.phase = .run → i = .wait 2 clr bit periph tick → periphRequest u periph = true →
        exec (.waitEnd t c) s = .next (endWait u c))
    ∧ (∀ clr bit periph tick, chState u c = chWaiting → u.power.phase = .run → i = .wait 0 clr bit periph tick →
        exec (.waitEnd t c) s = .next (settleBit u bit))
    ∧ (chState u c = chWaiting → u.power.phase ≠ .run → exec (.waitEnd t c) s = .next u)
    ∧ (∀ kind bit vector value addr, poised u c = true → i = .signal kind bit vector value addr →
        exec (.signal t c) s = .next (runSignal u c kind bit vector value addr))
    ∧ (∀ q, poised u c = true → spent u c = false → i = .halt q →
        exec (.halt t c) s = .next
          (haltDma (setDone (setPc (countStep u c) c (chPc u c).1 ((chPc u c).2 + 16)) c 0) c stOK (!q)))
    ∧ (poised u c = true → spent u c = true → (∀ a b d e g, i ≠ .wait a b d e g) → (∀ a b d e g, i ≠ .signal a b d e g) →
        exec (.stepBudget t c) s = .next (faultDma u c stStepBudget))
    ∧ (∀ n data src dst, (chAt u c).burst = some n → chState u c = chRunning → accessFault u c = none →
        src = (match sourceOf u c i with | some (3, p) => if p < 32 then recordsToBring u p else data | _ => data) →
        bytesReady u c i n src dst = true →
        (∀ w, ((spacesInUse u c).contains 2 = false → w = u) →
          ((spacesInUse u c).contains 2 = true → w = disturbSr u ∧ portServes w = true) →
          let v := modCh (runBurst w c i n src dst) c fun x => { x with burst := none, reads := 0 }
          exec (.dmaBurstComplete t c data dst) s = .next
            (pumpShared (if (chAt v c).stop.isSome then haltDma v c stCancelled true else nextBurst v c i)))
        ∧ ((spacesInUse u c).contains 2 = true → portServes (disturbSr u) = false →
            exec (.dmaBurstComplete t c data dst) s = .next (disturbSr u)))
    ∧ (∀ a b d e n g h p, i = .move a b d e n g h → waitsOn u c = some p → chState u c = chRunning → periphRequest u p = true →
        (chAt u c).stop = none → accessFault u c = none →
        (othersWant u c = true → exec (.peripheralBurst t c) s = .next (modCh u c fun x => { x with want := true }))
        ∧ (othersWant u c = false → 0 < min (min (periphLevel u p / periphUnit p * periphUnit p) (n - progress u c)) 512 →
          exec (.peripheralBurst t c) s = .next (tookTurn (modCh u c fun x =>
            { x with burst := some (min (min (periphLevel u p / periphUnit p * periphUnit p) (n - progress u c)) 512), want := false }) c)))

/-- LINK continues fetching at ADDR in SPACE: it sets PC to ADDR with SPACE in bits [49:48], leaves the loop stack unchanged, and goes on
at that place with nothing held (R382). -/
def Obligations.LinkContinuesFetchingElsewhere : Prop :=
  ∀ (t c space addr : Nat) (s u : State), u = advance t s → poised u c = true → spent u c = false →
    instrAtPc u c = some (.link space addr) → c < 64 → (assocGet u.dmas c).isSome = true →
    exec (.link t c) s = .next (goTo (countStep u c) c space addr true)
    ∧ (regionDown u space addr 16 = false → (space = 0 → u.host.busMaster = true) → addr < 2 ^ 48 → space ≤ 2 → addr % 16 = 0 →
        regionBad space addr 16 = false →
        ∃ s', exec (.link t c) s = .next s' ∧ chPc s' c = (space, addr) ∧ (chAt s' c).loops = (chAt u c).loops ∧ (chAt s' c).line = none
          ∧ s'.store = u.store ∧ s'.dram = u.dram)

/-! ## The DRAM port -/

/-- The writes of MEMC.CTRL, training step by step, the periodic retraining with its gathering and pause, or owed until self-refresh or a
change of rate is over; a pause that ends with the drift in range or out of it, and after 1,180 ticks in any case; self-refresh, whose entry empties
the write queue and closes every row, which a request cancels up to the commit
point and leaves behind it; a request, which is served at once or waits for a port that does not serve; the change of rate. What an exit, a pause or a
change of rate that has lasted its longest time brings is done first (settleDram). That a retraining is owed until self-refresh or a change of rate is
over, that requests wait for the port, how many entries have drained, the free span of a change of rate, and the drift of a pause that no PAUSE_END ended
are the model's choices (notes/assumptions/36.md). -/
def Obligations.DramComplete : Prop :=
  ∀ (t data : Nat) (s u w : State), u = advance t s → w = settleDram u →
    (asleep u = false → exec (.train t data) s = .next (writeMemcCtrl (countCfg u 1) data)
        ∧ exec (.rateWrite t data) s = .next (writeMemcCtrl (countCfg u 1) data))
    ∧ (∀ k start size channel, u.memc.step = some (k, start) → u.time.now ≤ start + stepTimeout k → k ≠ 2 → k ≠ 8 →
        exec (.trainingStepEnd t true channel size) s = .next (modMemc u fun m => { m with step := some (k + 1, u.time.now) }))
    ∧ (∀ start size channel, u.memc.step = some (2, start) → u.time.now ≤ start + 98304 → 1 ≤ size → size ≤ 3 →
        exec (.trainingStepEnd t true channel size) s = .next
          (modMemc { setF u F.MEMC_CFG_SIZE size with dramSize := 2 ^ (30 + size) } fun m => { m with step := some (3, u.time.now) }))
    ∧ (∀ start size channel, u.memc.step = some (8, start) → u.time.now ≤ start + 1966080 →
        exec (.trainingStepEnd t true channel size) s = .next (trained u))
    ∧ (∀ k start size channel, u.memc.step = some (k, start) →
        exec (.trainingStepEnd t false channel size) s = .next
          (trainFail (setFlag (modMemc u fun m => { m with step := none }) F.MEMC_STATUS_TRAINING false) (channel % 2) k))
    ∧ (∀ d, w.memc.due = some d → d ≤ w.time.now → w.memc.gather = none → w.memc.ready = false → w.memc.pause = none →
        flag w F.MEMC_STATUS_SR = false → w.memc.change = none →
        exec (.retrainingDue t) s = .next (startGather (modMemc w fun m => { m with due := some (d + 49152000) })))
    ∧ (∀ d, w.memc.due = some d → d ≤ w.time.now → w.memc.gather = none → w.memc.ready = false → w.memc.pause = none →
        (flag w F.MEMC_STATUS_SR = true ∨ w.memc.change.isSome = true) →
        exec (.retrainingDue t) s = .next (modMemc w fun m => { m with due := some (d + 49152000), owed := true }))
    ∧ (∀ g, w.memc.gather = some g → g + 16384 ≤ w.time.now →
        exec (.gatheringEnd t) s = .next
          (setFlag (modMemc w fun m => { m with gather := none, ready := true }) F.MEMC_STATUS_GATHER false))
    ∧ (w.memc.ready = true → spanFree w 2048 = true → w.memc.change = none → asleepDram w = false →
        exec (.pauseStart t) s = .next
          (setFlag (modMemc w fun m => { m with ready := false, pause := some w.time.now }) F.MEMC_STATUS_PAUSE true))
    ∧ (∀ p fail0 fail1, u.memc.pause = some p → u.time.now ≤ p + 1180 →
        let v := setFlag (modMemc u fun m => { m with pause := none, idleSince := u.time.now }) F.MEMC_STATUS_PAUSE false
        let v := wrapAdd v F.MEMC_RETRAIN_COUNT 1
        (fail0 = false → fail1 = false → exec (.pauseEnd t fail0 fail1) s = .next (serveWaiting (setF v F.MEMC_STATUS_RETRAIN_FAILS 0)))
        ∧ (fail0 = true ∨ fail1 = true →
          let v := if fail0 then trainFail v 0 9 else v
          let v := if fail1 then trainFail v 1 9 else v
          let v := satAdd v F.MEMC_STATUS_RETRAIN_FAILS 1
          exec (.pauseEnd t fail0 fail1) s = .next (serveWaiting (if getF v F.MEMC_STATUS_RETRAIN_FAILS = 3 then dramLost v else v))))
    ∧ (∀ p, u.memc.pause = some p → p + 1180 ≤ u.time.now → w.memc.pause = none)
    ∧ (∀ p fail0 fail1, u.memc.pause = some p → p + 1180 < u.time.now → exec (.pauseEnd t fail0 fail1) s = .next w)
    ∧ (dramTrained w = true → asleepDram w = false →
        ((flag w F.MEMC_CTRL_SR_EN = true ∧ portIdle w = true) ∨ (w.power.phase = .store ∧ portQuiet w = true)) →
        exec (.selfRefreshEntry t) s = .next (modMemc (writeBack w w.memc.queue) fun m =>
          { m with entry := some w.time.now, banks := m.banks.map fun b => { b with held := false } }))
    ∧ (∀ e, w.memc.entry = some e → e + 48 ≤ w.time.now →
        exec (.selfRefreshCommit t) s = .next (setFlag w F.MEMC_STATUS_SR true))
    ∧ (u.memc.exit.isSome = true →
        exec (.selfRefreshExitEnd t) s = .next (payGather (serveWaiting (wrapAdd (setFlag (modMemc u fun m =>
          { m with entry := none, exit := none, idleSince := u.time.now }) F.MEMC_STATUS_SR false) F.MEMC_SR_STAT_EXITS 1))))
    ∧ (∀ source write addr len drained, asleep u = false → dramTrained u = true → source ≤ 5 → 1 ≤ len → addr % 64 + len ≤ 64 →
        addr + len ≤ u.dramSize →
        let v := disturbSr (if portServes w = true ∧ ((∀ x ∈ w.memc.waiting, x.write = true) ∨ 48 ≤ w.memc.queue.length)
          then writeBack w (w.memc.queue.take drained) else w)
        let x : DramReq := { source := source, write := write, addr := addr, len := len }
        let r := modMemc v fun m => { m with waiting := m.waiting ++ [x] }
        exec (.dramRequest t source write addr len drained) s = .next (serveWaiting r)
        ∧ (portServes r = false → serveWaiting r = r)
        ∧ (portServes r = true → v.memc.waiting = [] → v.memc.w2 = [] →
            let y := modMemc v fun m => { m with waiting := [], turn := if source = 0 then m.turn else source }
            let z := if write then queueWrite y (addr / 64) (byteMask addr len) else queueRead y (addr / 64) (byteMask addr len)
            serveWaiting r = modMemc z fun m => { m with idleSince := z.time.now }))
    ∧ (∀ e, u.memc.entry = some e → u.memc.exit = none → u.memc.pause = none → u.memc.change = none →
        (u.time.now ≤ e + 48 → u.memc.owed = false →
          disturbSr u = satAdd (setFlag (modMemc u fun m => { m with entry := none, idleSince := u.time.now }) F.MEMC_STATUS_SR false)
            F.MEMC_SR_STAT_CANCELLED 1)
        ∧ (e + 48 < u.time.now →
          disturbSr u = setFlag (modMemc u fun m => { m with entry := none, exit := some u.time.now, idleSince := u.time.now })
            F.MEMC_STATUS_SR true))
    ∧ (flag w F.MEMC_STATUS_RATE_PENDING = true → dramTrained w = true → asleep w = false → w.memc.change = none →
        w.memc.gather = none → w.memc.ready = false → w.memc.pause = none → spanFree w 6143 = true →
        exec (.rateChangeStart t) s = .next (modMemc w fun m => { m with change := some (w.time.now, getF w F.MEMC_CTRL_RATE) }))
    ∧ (∀ n rate, u.memc.change = some (n, rate) →
        exec (.rateChangeEnd t) s = .next (askRate (payGather (serveWaiting (setFlag (setF (modMemc u fun m =>
          { m with change := none, idleSince := u.time.now }) F.MEMC_STATUS_RATE_NOW rate) F.MEMC_STATUS_RATE_PENDING false)))))

/-! ## Power, resets, trust, counters -/

/-- PWR_DOMAIN is accepted or applied, its domains become ready; PWR.MODE is written; an entry begins, drains, commits, completes, with
what was under way in the units lost and a latched wake replayed, or is cancelled by a wake event, also by one in the tick of the commit
point; WAKE_N, a write of WICK_WAKE_REQ and the wick timer, once per sleep, are wake events. An activation that was accepted in the entry is cancelled
like those that were pending. That PWR.DOMAIN shows the isolation at the commit point, that wick writes in sleep count with the blocked ones, and that the
registers are lost with ENTRY_COMPLETE are the model's readings (notes/assumptions/41.md); that a wick period takes between 29,100 and 30,900 ticks, and
how many lie in a sleep, are free values (42.md). -/
def Obligations.PowerEntryComplete : Prop :=
  ∀ (t data : Nat) (c : Cmd) (s u : State) (f : Flight), u = advance t s →
    (mayRun u 0x48 c [] f → p8 c 20 ≤ 1 → (u.part = .iza6448 → bitsOf (bitsOf (p32 c 16) 0 24) 12 2 = 0) →
        (sched c = true → inWindow u c f ((bitsSet (bitsOf (p32 c 16) 0 24) 19).map fun d => (0x48, d, 0))) →
        exec (.pwrDomain t c) s = .next
          (if sched c then accept u f ((bitsSet (bitsOf (p32 c 16) 0 24) 19).map fun d => (0x48, d, 0)) []
           else complete (applyPwrDomain u c) f 0))
    ∧ (∀ d cells j, dueJob u d = some j → (j.left.filter fun x => x.1 != d) = [] →
        let v := if j.on then domainReady u d cells else u
        exec (.domainReady t d cells) s = .next (postDomainState (modPower v fun p => { p with jobs := p.jobs.erase j })))
    ∧ (asleep u = false → exec (.modeWriteActiveIdle t data) s = .next (writeMode (countCfg u 1) data)
        ∧ exec (.modeWriteSleepDeep t data) s = .next (writeMode (countCfg u 1) data))
    ∧ (u.power.phase = .run → entryRequested u = true → (parkedChannel u).isSome = true → u.trust.since = none → u.power.wakeLow = false →
        u.power.source = none →
        exec (.entryBegin t) s = .next (drainForEntry (setFlag (modPower u fun p => { p with
          phase := .drain, entryAt := u.time.now, retain := flag u F.MEMC_CTRL_RETAIN_DEEP, source := none }) F.PWR_MODE_ENTRY true)))
    ∧ (∀ v, u.power.phase = .drain → v = cancelActs u → (drained v = true ∨ u.power.entryAt + 983040 ≤ u.time.now) →
        exec (.entryDrainEnd t) s = .next (modPower (discardHeld ((runningChannels v).foldl (fun v ch => haltDma v ch stCancelled true) v))
          fun p => { p with phase := .store }))
    ∧ (u.power.phase = .store → u.power.source = none → u.power.wakeLow = false → memorySafe u = true →
        let deep := decide (getF u F.PWR_MODE_TARGET = 3)
        let v := settleInjectors (settleAllPmc (cancelActs u))
        let v := if dramTrained v = true ∧ flag v F.MEMC_STATUS_SR = false then closeRows v else v
        exec (.commitPoint t) s = .next (modPower (setF (setF v F.PWR_MODE_STATE (if deep then 3 else 2))
          F.PWR_DOMAIN_ON (if deep then 1 else 3)) fun p => { p with
            phase := .settle, deep := deep, cold := false, commitAt := u.time.now, domains := getF u F.PWR_DOMAIN_ON, blocked := 0,
            timer := true }))
    ∧ (u.power.phase = .settle →
        let v := setFlag (settleLow (modPower (loseUnits (wrapAdd u F.PWR_STAT_ENTRIES 1)) fun p => { p with
          jobs := [], passed := putBits p.passed 11 1 0, link := !p.deep }) u.power.deep) F.PWR_MODE_ENTRY false
        (u.power.source = none → exec (.entryComplete t) s = .next v)
        ∧ (∀ n, u.power.source = some n → exec (.entryComplete t) s = .next (startWake v n.1 true)))
    ∧ (u.power.phase = .settle → u.time.now = u.power.commitAt → u.power.wakeLow = false →
        exec (.wakeN t true) s = .next (modPower (setF (setF u F.PWR_MODE_STATE u.power.back) F.PWR_DOMAIN_ON u.power.domains) fun p =>
          { p with wakeLow := true, phase := .store, timer := false, source := some (1, u.time.now) }))
    ∧ (∀ ch, entering u = true → (u.power.source.isSome = true ∨ u.power.wakeLow = true) →
        let v := satAdd (setF (stopEntry u) F.PWR_MODE_TARGET u.power.back) F.PWR_STAT_CANCELLED 1
        parkedChannel v = some ch →
        exec (.entryCancel t) s = .next (endWait (setF v (F.DMA_CH_STATE_WAIT_STATUS ch) stWakePending) ch))
    ∧ (u.power.wakeLow = false → exec (.wakeN t true) s = .next (wakeEvent (modPower u fun p => { p with wakeLow := true }) 1))
    ∧ (exec (.wakeN t false) s = .next (modPower u fun p => { p with wakeLow := false }))
    ∧ (bitAt data 0 = true → (asleep u = false → exec (.wickWakeReq t data) s = .next (wakeEvent (countCfg u 1) 2))
        ∧ (asleep u = true → u.power.link = true →
            exec (.wickWakeReq t data) s = .next (wakeEvent (modPower u fun p => { p with blocked := p.blocked + 1 }) 2)))
    ∧ (u.power.timer = true → getN u A.PWR_WICK_WAKE_TIMER ≠ 0 →
        u.power.commitAt + wickMin * getN u A.PWR_WICK_WAKE_TIMER ≤ u.time.now →
        exec (.wickTimerExpiry t) s = .next (wakeEvent (modPower u fun p => { p with timer := false }) 3))
    ∧ (∀ source, (source = 3 → sleepPeriods u source = getN u A.PWR_WICK_WAKE_TIMER)
        ∧ (source ≠ 3 → (u.time.now - u.power.commitAt) / 30900 ≤ sleepPeriods u source
          ∧ sleepPeriods u source ≤ (u.time.now - u.power.commitAt) / 29100))

/-- The wake sequence: a step's condition, its delay, its timeout with one retry and the fallback, and the end, which restores the state
before a SLEEP or boots. Steps 1 to 11 wait for their condition, but step 8 without RAIL7_PG; step 12 waits for nothing. Delays and limits are counted in wick periods as short as the
spec allows, 29,100 ticks (wickMin; notes/assumptions/42.md). -/
def Obligations.WakeSequenceComplete : Prop :=
  ∀ (t : Nat) (s u : State), u = advance t s → u.power.phase = .wake →
    (u.power.seq.stage = 0 → u.power.seq.since ≤ u.time.now → u.power.seq.step = 11 →
        exec (.wakeStepCondition t) s = .next
          (modPower (lockRoot u) fun p => { p with seq := { p.seq with stage := 1, since := u.time.now } }))
    ∧ (u.power.seq.stage = 0 → u.power.seq.since ≤ u.time.now → u.power.seq.step = 9 ∨ u.power.seq.step = 10 ∨ u.power.seq.step = 12 →
        exec (.wakeStepCondition t) s = .next
          (modPower u fun p => { p with seq := { p.seq with stage := 1, since := u.time.now } }))
    ∧ (∀ n again, (startStepAt u n again).power.seq =
        { step := n, stage := if n = 12 ∨ (n = 8 ∧ flag u F.PWR_WICK_CFG_RAIL7_PG = false) then 1 else 0, since := u.time.now, again := again })
    ∧ (u.power.seq.stage = 0 → u.power.seq.since ≤ u.time.now → u.power.seq.step ≤ 8 →
        exec (.wakeStepCondition t) s = .next
          (modPower (setF u F.PWR_WICK_RAILS_PG (putBits (getF u F.PWR_WICK_RAILS_PG) (railOf u.power.seq.step) 1 1)) fun p =>
            { p with seq := { p.seq with stage := 1, since := u.time.now } }))
    ∧ (u.power.seq.stage = 1 → u.power.seq.step < 12 →
        u.power.seq.since + wickMin * stepDelay u.power.deep u.power.seq.step ≤ u.time.now →
        exec (.wakeStepDelayEnd t) s = .next
          (stepsFrom (modPower u fun p => { p with passed := putBits p.passed u.power.seq.step 1 1, link := p.link || u.power.seq.step = 10 })
            (u.power.seq.step + 1)))
    ∧ (u.power.seq.stage = 0 → u.power.seq.step < 12 → u.power.seq.again = false →
        u.power.seq.since + wickMin * stepLimit u.power.seq.step ≤ u.time.now →
        exec (.wakeStepTimeout t) s = .next
          (modPower (undoStep u u.power.seq.step) fun p => { p with seq := { p.seq with stage := 2, since := u.time.now } }))
    ∧ (u.power.seq.stage = 0 → u.power.seq.step < 12 → u.power.seq.again = true →
        u.power.seq.since + wickMin * stepLimit u.power.seq.step ≤ u.time.now →
        exec (.wakeStepTimeout t) s = .next (fallBack (undoStep u u.power.seq.step) u.power.seq.step))
    ∧ (u.power.seq.stage = 2 → u.power.seq.since + 33 * wickMin ≤ u.time.now →
        exec (.wakeStepRetry t) s = .next (startStepAt u u.power.seq.step true))
    ∧ (∀ straps store dram, u.power.seq.stage = 1 → u.power.seq.step = 12 →
        u.power.seq.since + wickMin * stepDelay u.power.deep 12 ≤ u.time.now →
        exec (.wakeSequenceEnd t straps store dram) s = .next (if u.power.deep then startCold u straps dram else restoreSleep u store))

/-- The resets: each loses every register outside the wick page, keeps the fuses and names its cause; a power-on reset and the release of
RESET_N start cold, the former not while RESET_N is low; a chip reset is asked for by its write, starts when time passes the next wick period
boundary and holds for 33 wick periods; a brown-out of PD18 puts every DAC in husk;
PERST_N resets the endpoint's table and the configuration fields of both functions, and the link trains anew; nothing else changes. Where the wick's
boundaries lie, and how long its periods last, are free values (notes/assumptions/42.md); the values that PERST_N leaves are PRESUMED (8.md). -/
def Obligations.ResetsComplete : Prop :=
  ∀ (t data : Nat) (s u : State), u = advance t s →
    (u.power.resetLow = false →
        exec (.powerOnReset t) s = .next (driveAlert u (coldStart { holdReset u 0 with regs := [] })))
    ∧ (u.power.resetLow = true → exec (.powerOnReset t) s = .next (driveAlert u { holdReset u 0 with regs := [] }))
    ∧ exec (.resetNLow t) s = .next (modPower (holdReset u 1) fun p => { p with resetLow := true, chipEnd := none })
    ∧ (u.power.resetLow = true → exec (.resetNRelease t) s = .next (coldStart u))
    ∧ (asleep u = false → bitAt data 0 = true → exec (.chip t data) s = .next (modPower (countCfg u 1) fun p => { p with
        chipAt := some (p.chipAt.getD (u.time.now + 1 + Config.wickBoundary u.time.now % wickMax)) }))
    ∧ (∀ n, s.power.chipAt = some n → s.time.now < n → n ≤ t → ∀ w, w = moveTime n s →
        u = moveTime t (modPower (holdReset w 2) fun p => { p with chipEnd := some (w.time.now + 33 * wickMin) }))
    ∧ (∀ n, u.power.chipEnd = some n → n ≤ u.time.now → u.power.phase = .held → u.power.resetLow = false →
        exec (.chipResetEnd t) s = .next (coldStart u))
    ∧ exec (.brownOut t) s = .next (losePd18 u)
    ∧ exec (.perstN t) s = .next { u with host := { u.host with
        msixTable := List.replicate 32 (0, 0), msixMask := 2 ^ 32 - 1, msixPend := 0, msixOn := false, msixFunc := false,
        busMaster := false, tag10 := false, extTag := false, mrrs := 512, timeoutValue := 0, aspm := 0, reporting := 0, aer := 0,
        aerMask := 0x400000, aerSeverity := 0x462030, aerCor := 0, aerCorMask := 0xE000, dstate := (0, 0), trained := (4, 4) } }
    ∧ (∀ cause, let v := holdReset u cause
        v.acts = [] ∧ v.carriers = [] ∧ v.streams = [] ∧ v.dmas = [] ∧ v.host.flight = [] ∧ v.time.counting = false ∧ v.time.now = u.time.now
          ∧ v.trust.customer = u.trust.customer ∧ v.trust.policy = u.trust.policy ∧ v.trust.epochs = u.trust.epochs
          ∧ v.power.phase = .held ∧ (∀ r, (r.addr < 0x200100 ∨ 0x200200 ≤ r.addr) → getR v r = BitVec.ofNat 32 r.reset))

/-- Images: a boot image arrives, the rest of it read in one command behind its header, is verified under the fuses that stood when that
started, and is started, or is rejected and the next source is tried; a staged image is verified, activated and reports itself, or the old
one runs again; an image that is activated while the device boots replaces the one it boots (notes/assumptions/40.md); the fuses are programmed, with a result that says whether every bit to be set reads back set. -/
def Obligations.TrustComplete : Prop :=
  ∀ (t data : Nat) (s u : State), u = advance t s →
    (∀ k b, u.trust.boot = .load k → 256 ≤ b.length → headerMalformed b = false → b.length = imageTotal b →
        let first := 32 - ceilDiv b.length 524288
        exec (.imageLoadDone t b false) s = .next
          (verifyBoot (qspiRead { u with store := memWrite u.store (524288 * first) b } (copyAt k + 256) (b.length - 256)) (some k) b.length))
    ∧ (∀ k b, u.trust.boot = .load k → 256 ≤ b.length → headerMalformed b = true →
        exec (.imageLoadDone t b false) s = .next (nextSource (rejectBoot u 1) (some k)))
    ∧ (∀ k b, u.trust.boot = .load k → exec (.imageLoadDone t b true) s = .next (nextSource (rejectBoot u 6) (some k)))
    ∧ (asleep u = false → exec (.hostLen t data) s = .next (writeHostLen (countCfg u 1) data)
        ∧ exec (.stageWrite t data) s = .next (writeStage (countCfg u 1) data)
        ∧ exec (.verify t data) s = .next (writeStageCtrl (countCfg u 1) data)
        ∧ exec (.activate t data) s = .next (writeStageCtrl (countCfg u 1) data)
        ∧ exec (.go t data) s = .next (writeFuseProg (countCfg u 1) data))
    ∧ (∀ rest fuses copy, u.trust.jobs = .boot fuses :: rest → u.trust.boot = .verify copy →
        exec (.verificationDone t) s = .next (bootVerified (modTrust u fun x => { x with jobs := x.jobs.tail }) fuses copy))
    ∧ (∀ rest fuses first total, u.trust.jobs = .stage fuses first total :: rest →
        exec (.verificationDone t) s = .next (stageVerified (modTrust u fun x => { x with jobs := x.jobs.tail }) fuses first total))
    ∧ (∀ rest first total, u.trust.jobs = .activate first total :: rest →
        exec (.verificationDone t) s = .next (activateMeasured (modTrust u fun x => { x with jobs := x.jobs.tail }) first total))
    ∧ (u.trust.boot = .starting → ∃ s', exec (.ready t) s = .next s' ∧ s'.trust.boot = .done ∧ s'.trust.run = u.trust.bootNew
        ∧ s'.trust.bootNew = none ∧ s'.trust.new = u.trust.new
        ∧ s'.trust.old = (if u.trust.since.isSome then u.trust.bootNew else u.trust.old) ∧ s'.store = u.store ∧ s'.acts = u.acts)
    ∧ (∀ n x, u.trust.since = some n → u.trust.new = some x → u.time.now ≤ n + 196608000 → ∃ s', exec (.fwActivated t) s = .next s'
        ∧ s'.trust.run = some x ∧ s'.trust.old = none ∧ s'.trust.new = none ∧ s'.trust.since = none ∧ s'.store = u.store)
    ∧ (∀ n, u.trust.since = some n → n + 196608000 ≤ u.time.now →
        exec (.firmwareStartTimeout t) s = .next (stopSampling (restartOld u 8)))
    ∧ (∀ v took, u.trust.fuse = some (3, v) → ∃ s', exec (.fuseProgrammingDone t took) s = .next s'
        ∧ s'.trust.epochs = u.trust.epochs ||| (v &&& took) ∧ s'.trust.customer = u.trust.customer ∧ s'.trust.policy = u.trust.policy
        ∧ s'.trust.fuse = none ∧ flag s' F.TRUST_FUSE_PROG_BUSY = false
        ∧ (getF s' F.TRUST_FUSE_PROG_RESULT = 0 ↔ v &&& (u.trust.epochs ||| took) = v))

/-- The fused epoch is the number of bits set in the epoch field, 0 to 64; fuse bits only go from 0 to 1: every step keeps each bit that is
set in the customer key hash, the policy and the epoch fuses (R463). -/
def Obligations.FusesAreOnlyEverSet : Prop :=
  (∀ s : State, fusedEpoch s = (List.range 64).countP (fun i => s.trust.epochs.testBit i) ∧ fusedEpoch s ≤ 64)
  ∧ (∀ s s' : State, step s = .next s' →
    s.trust.customer &&& s'.trust.customer = s.trust.customer
    ∧ s.trust.policy &&& s'.trust.policy = s.trust.policy
    ∧ s.trust.epochs &&& s'.trust.epochs = s.trust.epochs)

/-- The performance counters: CTL and the counter words are written; the cycle of the N-th sampled occurrence gives its record, which goes
to the buffer, the records of one cycle in ascending AP order whichever comes first; one that finds it full in STOP mode is counted as lost. -/
def Obligations.CountersComplete : Prop :=
  ∀ (t a addr data : Nat) (s u : State), u = advance t s →
    (asleep u = false → a < 4 → exec (.clear t a data) s = .next (writePmcCtl (countCfg u 1) a data)
        ∧ exec (.counterWrite t a addr data) s = .next (writeCounter (countCfg u 1) a addr data))
    ∧ (∀ latency w k, w = settlePmc u a → a < 4 → flag w (F.PMC_SAMP_EN a) = true → apStarted w = true →
        k = max (w.pmc.taken.getD a 0 / sampleEvery w a) (w.pmc.sampled.getD a 0 / sampleEvery w a) + 1 →
        sampleEvery w a * k ≤ w.pmc.sampled.getD a 0 + occurrences w a (getF w (F.PMC_SAMP_EVENT a)) u.time.now (u.time.now + 1) →
        let v := modPmc w fun p => { p with taken := p.taken.set a (sampleEvery w a * k) }
        exec (.sampleRecord t a addr latency) s = .next (putSample v a (sampleRecord v a addr latency (getF v (F.PMC_SAMP_EVENT a)))))
    ∧ (∀ rec, samplesFull u = true → u.pmc.cycle.1 ≠ u.time.now →
        putSample u a rec = satAdd (modPmc u fun p => { p with cycle := (u.time.now, [(a, rec)], []) }) F.PMC_SAMP_LOST_COUNT 1)
    ∧ (∀ rec, samplesFull u = false → u.pmc.cycle.1 ≠ u.time.now →
        let at' := 65536 * getF u F.PMC_SAMP_BASE_BASE + 16 * getF u F.PMC_SAMP_WR_WR
        (putSample u a rec).store = memWrite u.store at' rec
          ∧ (putSample u a rec).dram = u.dram ∧ (putSample u a rec).acts = u.acts
          ∧ ∀ b rec', b < a → getF u F.PMC_SAMP_WR_WR < 4095 →
            (putSample (putSample u a rec) b rec').store = memWrite (memWrite (memWrite u.store at' rec) at' rec') (at' + 16) rec)
end

