-- ==== Sys2Proof/Laws/Memory.lean ====
section
/-!
SUPPORT. The sorted lists: what a list holds after an entry was put in or taken out, that a memory keeps its canonical form through
every operation on it, and that its bytes read back.
-/
namespace Sys2Proof.Machine

/-! ## Lists with rising keys -/

/-- The keys of a list rise strictly. -/
abbrev Rising {α : Type} (l : List (Nat × α)) : Prop := l.Pairwise fun x y => x.1 < y.1

theorem mem_assocPut {α : Type} {l : List (Nat × α)} {n : Nat} {v : α} {x : Nat × α} (h : x ∈ assocPut l n v) : x = (n, v) ∨ x ∈ l := by
  induction l with
  | nil => exact .inl (by simpa [assocPut] using h)
  | cons y l ih =>
    obtain ⟨k, w⟩ := y
    simp only [assocPut] at h
    split at h
    · simpa using h
    · split at h
      · rcases List.mem_cons.mp h with h | h
        · exact .inl h
        · exact .inr (List.mem_cons_of_mem _ h)
      · rcases List.mem_cons.mp h with h | h
        · exact .inr (h ▸ List.mem_cons_self)
        · exact (ih h).imp id (List.mem_cons_of_mem _)

theorem mem_assocDel {α : Type} {l : List (Nat × α)} {n : Nat} {x : Nat × α} (h : x ∈ assocDel l n) : x ∈ l := by
  induction l with
  | nil => simp [assocDel] at h
  | cons y l ih =>
    obtain ⟨k, w⟩ := y
    simp only [assocDel] at h
    split at h
    · exact List.mem_cons_of_mem _ h
    · rcases List.mem_cons.mp h with h | h
      · exact h ▸ List.mem_cons_self
      · exact List.mem_cons_of_mem _ (ih h)

theorem assocPut_rising {α : Type} {l : List (Nat × α)} (h : Rising l) (n : Nat) (v : α) : Rising (assocPut l n v) := by
  induction l with
  | nil => simp [assocPut, Rising]
  | cons y l ih =>
    obtain ⟨k, w⟩ := y
    obtain ⟨hk, hl⟩ := List.pairwise_cons.mp h
    simp only [assocPut]
    split
    · refine List.pairwise_cons.mpr ⟨fun x hx => ?_, h⟩
      rcases List.mem_cons.mp hx with rfl | hx
      · assumption
      · exact Nat.lt_trans ‹_› (hk x hx)
    · split
      · subst n; exact List.pairwise_cons.mpr ⟨hk, hl⟩
      · refine List.pairwise_cons.mpr ⟨fun x hx => ?_, ih hl⟩
        rcases mem_assocPut hx with rfl | hx
        · show k < n; omega
        · exact hk x hx

theorem assocDel_rising {α : Type} {l : List (Nat × α)} (h : Rising l) (n : Nat) : Rising (assocDel l n) := by
  induction l with
  | nil => simp [assocDel, Rising]
  | cons y l ih =>
    obtain ⟨k, w⟩ := y
    obtain ⟨hk, hl⟩ := List.pairwise_cons.mp h
    simp only [assocDel]
    split
    · exact hl
    · exact List.pairwise_cons.mpr ⟨fun x hx => hk x (mem_assocDel hx), ih hl⟩

/-- What a list holds at a key after an entry was put at another or the same key. -/
theorem assocGet_put {α : Type} (l : List (Nat × α)) (n m : Nat) (v : α) :
    assocGet (assocPut l n v) m = if m = n then some v else assocGet l m := by
  induction l with
  | nil =>
    by_cases hm : m = n
    · simp [assocPut, assocGet, hm]
    · simp [assocPut, assocGet, hm, Ne.symm hm]
  | cons y l ih =>
    obtain ⟨k, w⟩ := y
    simp only [assocPut]
    by_cases hm : m = n
    · subst hm; rw [if_pos rfl]
      split
      · simp [assocGet]
      · split
        · simp [assocGet]
        · rw [assocGet, ih, if_neg (by omega), if_pos rfl]
    · rw [if_neg hm]
      split
      · rw [assocGet, if_neg (Ne.symm hm)]
      · split
        · subst n; rw [assocGet, assocGet, if_neg (Ne.symm hm), if_neg (Ne.symm hm)]
        · rw [assocGet, assocGet, ih, if_neg hm]

@[simp] theorem assocGet_put_self {α : Type} (l : List (Nat × α)) (n : Nat) (v : α) : assocGet (assocPut l n v) n = some v := by
  simp [assocGet_put]

theorem assocGet_put_ne {α : Type} (l : List (Nat × α)) {n m : Nat} (h : m ≠ n) (v : α) : assocGet (assocPut l n v) m = assocGet l m := by
  simp [assocGet_put, h]

theorem assocGet_none {α : Type} {l : List (Nat × α)} {m : Nat} (h : ∀ x ∈ l, x.1 ≠ m) : assocGet l m = none := by
  induction l with
  | nil => rfl
  | cons y l ih =>
    obtain ⟨k, w⟩ := y
    simp only [assocGet]
    rw [if_neg (h (k, w) List.mem_cons_self)]
    exact ih fun x hx => h x (List.mem_cons_of_mem _ hx)

/-- What a list with rising keys holds after an entry was taken out. -/
theorem assocGet_del {α : Type} {l : List (Nat × α)} (h : Rising l) (n m : Nat) :
    assocGet (assocDel l n) m = if m = n then none else assocGet l m := by
  induction l with
  | nil => simp [assocDel, assocGet]
  | cons y l ih =>
    obtain ⟨k, w⟩ := y
    obtain ⟨hk, hl⟩ := List.pairwise_cons.mp h
    simp only [assocDel]
    split
    · subst k
      simp only [assocGet]
      by_cases hm : m = n
      · subst hm; rw [if_pos rfl]
        exact assocGet_none fun x hx => Nat.ne_of_gt (hk x hx)
      · rw [if_neg hm, if_neg (fun e => hm e.symm)]
    · simp only [assocGet, ih hl]
      by_cases hm : m = n
      · subst hm; rw [if_neg ‹_›]; simp
      · simp [hm]

/-! ## Memories -/

/-- The canonical form: addresses strictly rising, no entry that holds 0. -/
theorem memory_wf_iff (m : List Host.Cell) : Memory.wf m = true ↔ Rising m ∧ ∀ x ∈ m, x.2 ≠ 0 := by
  induction m with
  | nil => simp [Memory.wf]
  | cons y m ih =>
    obtain ⟨a, b⟩ := y
    cases m with
    | nil => simp [Memory.wf]
    | cons z m =>
      obtain ⟨c, d⟩ := z
      simp only [Memory.wf, Bool.and_eq_true, ih, bne_iff_ne, decide_eq_true_eq]
      constructor
      · rintro ⟨⟨hb, hac⟩, hr, hz⟩
        refine ⟨List.pairwise_cons.mpr ⟨fun x hx => ?_, hr⟩, fun x hx => ?_⟩
        · rcases List.mem_cons.mp hx with rfl | hx
          · exact hac
          · exact Nat.lt_trans hac ((List.pairwise_cons.mp hr).1 x hx)
        · rcases List.mem_cons.mp hx with rfl | hx
          · exact hb
          · exact hz x hx
      · rintro ⟨hr, hz⟩
        obtain ⟨h1, h2⟩ := List.pairwise_cons.mp hr
        exact ⟨⟨hz _ List.mem_cons_self, h1 _ List.mem_cons_self⟩, h2, fun x hx => hz x (List.mem_cons_of_mem _ hx)⟩

theorem memSet_wf {m : List Host.Cell} (h : Memory.wf m = true) (a : Nat) (b : Byte) : Memory.wf (memSet m a b) = true := by
  obtain ⟨hr, hz⟩ := (memory_wf_iff m).mp h
  unfold memSet
  split
  · exact (memory_wf_iff _).mpr ⟨assocDel_rising hr a, fun x hx => hz x (mem_assocDel hx)⟩
  · refine (memory_wf_iff _).mpr ⟨assocPut_rising hr a b, fun x hx => ?_⟩
    rcases mem_assocPut hx with rfl | hx
    · assumption
    · exact hz x hx

theorem memWrite_wf {m : List Host.Cell} (h : Memory.wf m = true) (a : Nat) (l : List Byte) : Memory.wf (memWrite m a l) = true := by
  induction l generalizing m a with
  | nil => exact h
  | cons b l ih => exact ih (memSet_wf h a b) (a + 1)

theorem memCells_wf {m : List Host.Cell} (h : Memory.wf m = true) (l : List Host.Cell) : Memory.wf (memCells m l) = true := by
  unfold memCells
  induction l generalizing m with
  | nil => exact h
  | cons x l ih => exact ih (memSet_wf h x.1 x.2)

theorem memory_filter_wf {m : List Host.Cell} (h : Memory.wf m = true) (p : Host.Cell → Bool) : Memory.wf (m.filter p) = true := by
  obtain ⟨hr, hz⟩ := (memory_wf_iff m).mp h
  exact (memory_wf_iff _).mpr ⟨hr.filter p, fun x hx => hz x (List.mem_filter.mp hx).1⟩

/-- A byte written to a memory reads back, and every other byte keeps its value. -/
theorem memGet_set {m : List Host.Cell} (h : Memory.wf m = true) (a c : Nat) (b : Byte) :
    memGet (memSet m a b) c = if c = a then b else memGet m c := by
  obtain ⟨hr, -⟩ := (memory_wf_iff m).mp h
  unfold memGet memSet
  split
  · rw [assocGet_del hr]; split
    · simp_all
    · rfl
  · rw [assocGet_put]; split <;> rfl

end Sys2Proof.Machine
end

