-- ==== Sys2Proof/Laws/State.lean ====
section
/-!
SUPPORT. What each update of the state leaves as it was, field by field: the register operations change registers only, an output changes the
record of outputs only, and time that passes changes the time and the past only.
-/
namespace Sys2Proof.Machine

@[simp] theorem setR_part (s : State) (r : Reg) (v : Word) : (setR s r v).part = s.part := rfl
@[simp] theorem setR_time (s : State) (r : Reg) (v : Word) : (setR s r v).time = s.time := rfl
@[simp] theorem setR_host (s : State) (r : Reg) (v : Word) : (setR s r v).host = s.host := rfl
@[simp] theorem setR_acts (s : State) (r : Reg) (v : Word) : (setR s r v).acts = s.acts := rfl
@[simp] theorem setR_out (s : State) (r : Reg) (v : Word) : (setR s r v).out = s.out := rfl
@[simp] theorem setR_store (s : State) (r : Reg) (v : Word) : (setR s r v).store = s.store := rfl
@[simp] theorem setR_dram (s : State) (r : Reg) (v : Word) : (setR s r v).dram = s.dram := rfl
@[simp] theorem setR_dramSize (s : State) (r : Reg) (v : Word) : (setR s r v).dramSize = s.dramSize := rfl
@[simp] theorem setR_memc (s : State) (r : Reg) (v : Word) : (setR s r v).memc = s.memc := rfl
@[simp] theorem setR_hkm (s : State) (r : Reg) (v : Word) : (setR s r v).hkm = s.hkm := rfl
@[simp] theorem setR_trust (s : State) (r : Reg) (v : Word) : (setR s r v).trust = s.trust := rfl
@[simp] theorem setR_pmc (s : State) (r : Reg) (v : Word) : (setR s r v).pmc = s.pmc := rfl
@[simp] theorem setR_power (s : State) (r : Reg) (v : Word) : (setR s r v).power = s.power := rfl
@[simp] theorem setR_gens (s : State) (r : Reg) (v : Word) : (setR s r v).gens = s.gens := rfl
@[simp] theorem setR_owners (s : State) (r : Reg) (v : Word) : (setR s r v).owners = s.owners := rfl
@[simp] theorem setR_carriers (s : State) (r : Reg) (v : Word) : (setR s r v).carriers = s.carriers := rfl
@[simp] theorem setR_streams (s : State) (r : Reg) (v : Word) : (setR s r v).streams = s.streams := rfl
@[simp] theorem setR_arrivals (s : State) (r : Reg) (v : Word) : (setR s r v).arrivals = s.arrivals := rfl
@[simp] theorem setR_beam (s : State) (r : Reg) (v : Word) : (setR s r v).beam = s.beam := rfl
@[simp] theorem setR_rx (s : State) (r : Reg) (v : Word) : (setR s r v).rx = s.rx := rfl
@[simp] theorem setR_swaps (s : State) (r : Reg) (v : Word) : (setR s r v).swaps = s.swaps := rfl
@[simp] theorem setR_swapSeq (s : State) (r : Reg) (v : Word) : (setR s r v).swapSeq = s.swapSeq := rfl
@[simp] theorem setR_caps (s : State) (r : Reg) (v : Word) : (setR s r v).caps = s.caps := rfl
@[simp] theorem setR_captures (s : State) (r : Reg) (v : Word) : (setR s r v).captures = s.captures := rfl
@[simp] theorem setR_dpd (s : State) (r : Reg) (v : Word) : (setR s r v).dpd = s.dpd := rfl
@[simp] theorem setR_cals (s : State) (r : Reg) (v : Word) : (setR s r v).cals = s.cals := rfl
@[simp] theorem setR_radio (s : State) (r : Reg) (v : Word) : (setR s r v).radio = s.radio := rfl
@[simp] theorem setR_dmas (s : State) (r : Reg) (v : Word) : (setR s r v).dmas = s.dmas := rfl
@[simp] theorem setR_periph (s : State) (r : Reg) (v : Word) : (setR s r v).periph = s.periph := rfl
@[simp] theorem setR_partners (s : State) (r : Reg) (v : Word) : (setR s r v).partners = s.partners := rfl
@[simp] theorem setR_ports (s : State) (r : Reg) (v : Word) : (setR s r v).ports = s.ports := rfl
@[simp] theorem setR_inbox (s : State) (r : Reg) (v : Word) : (setR s r v).inbox = s.inbox := rfl
@[simp] theorem setR_casc (s : State) (r : Reg) (v : Word) : (setR s r v).casc = s.casc := rfl
@[simp] theorem setR_past (s : State) (r : Reg) (v : Word) : (setR s r v).past = s.past := rfl
@[simp] theorem setR_cycle (s : State) (r : Reg) (v : Word) : (setR s r v).cycle = s.cycle := rfl
@[simp] theorem setR_pending (s : State) (r : Reg) (v : Word) : (setR s r v).pending = s.pending := rfl

@[simp] theorem setF_part (s : State) (f : Fld) (v : Nat) : (setF s f v).part = s.part := rfl
@[simp] theorem setF_time (s : State) (f : Fld) (v : Nat) : (setF s f v).time = s.time := rfl
@[simp] theorem setF_host (s : State) (f : Fld) (v : Nat) : (setF s f v).host = s.host := rfl
@[simp] theorem setF_acts (s : State) (f : Fld) (v : Nat) : (setF s f v).acts = s.acts := rfl
@[simp] theorem setF_out (s : State) (f : Fld) (v : Nat) : (setF s f v).out = s.out := rfl
@[simp] theorem setF_store (s : State) (f : Fld) (v : Nat) : (setF s f v).store = s.store := rfl
@[simp] theorem setF_dram (s : State) (f : Fld) (v : Nat) : (setF s f v).dram = s.dram := rfl
@[simp] theorem setF_dramSize (s : State) (f : Fld) (v : Nat) : (setF s f v).dramSize = s.dramSize := rfl
@[simp] theorem setF_memc (s : State) (f : Fld) (v : Nat) : (setF s f v).memc = s.memc := rfl
@[simp] theorem setF_hkm (s : State) (f : Fld) (v : Nat) : (setF s f v).hkm = s.hkm := rfl
@[simp] theorem setF_trust (s : State) (f : Fld) (v : Nat) : (setF s f v).trust = s.trust := rfl
@[simp] theorem setF_pmc (s : State) (f : Fld) (v : Nat) : (setF s f v).pmc = s.pmc := rfl
@[simp] theorem setF_power (s : State) (f : Fld) (v : Nat) : (setF s f v).power = s.power := rfl
@[simp] theorem setF_gens (s : State) (f : Fld) (v : Nat) : (setF s f v).gens = s.gens := rfl
@[simp] theorem setF_owners (s : State) (f : Fld) (v : Nat) : (setF s f v).owners = s.owners := rfl
@[simp] theorem setF_carriers (s : State) (f : Fld) (v : Nat) : (setF s f v).carriers = s.carriers := rfl
@[simp] theorem setF_streams (s : State) (f : Fld) (v : Nat) : (setF s f v).streams = s.streams := rfl
@[simp] theorem setF_arrivals (s : State) (f : Fld) (v : Nat) : (setF s f v).arrivals = s.arrivals := rfl
@[simp] theorem setF_beam (s : State) (f : Fld) (v : Nat) : (setF s f v).beam = s.beam := rfl
@[simp] theorem setF_rx (s : State) (f : Fld) (v : Nat) : (setF s f v).rx = s.rx := rfl
@[simp] theorem setF_swaps (s : State) (f : Fld) (v : Nat) : (setF s f v).swaps = s.swaps := rfl
@[simp] theorem setF_swapSeq (s : State) (f : Fld) (v : Nat) : (setF s f v).swapSeq = s.swapSeq := rfl
@[simp] theorem setF_caps (s : State) (f : Fld) (v : Nat) : (setF s f v).caps = s.caps := rfl
@[simp] theorem setF_captures (s : State) (f : Fld) (v : Nat) : (setF s f v).captures = s.captures := rfl
@[simp] theorem setF_dpd (s : State) (f : Fld) (v : Nat) : (setF s f v).dpd = s.dpd := rfl
@[simp] theorem setF_cals (s : State) (f : Fld) (v : Nat) : (setF s f v).cals = s.cals := rfl
@[simp] theorem setF_radio (s : State) (f : Fld) (v : Nat) : (setF s f v).radio = s.radio := rfl
@[simp] theorem setF_dmas (s : State) (f : Fld) (v : Nat) : (setF s f v).dmas = s.dmas := rfl
@[simp] theorem setF_periph (s : State) (f : Fld) (v : Nat) : (setF s f v).periph = s.periph := rfl
@[simp] theorem setF_partners (s : State) (f : Fld) (v : Nat) : (setF s f v).partners = s.partners := rfl
@[simp] theorem setF_ports (s : State) (f : Fld) (v : Nat) : (setF s f v).ports = s.ports := rfl
@[simp] theorem setF_inbox (s : State) (f : Fld) (v : Nat) : (setF s f v).inbox = s.inbox := rfl
@[simp] theorem setF_casc (s : State) (f : Fld) (v : Nat) : (setF s f v).casc = s.casc := rfl
@[simp] theorem setF_past (s : State) (f : Fld) (v : Nat) : (setF s f v).past = s.past := rfl
@[simp] theorem setF_cycle (s : State) (f : Fld) (v : Nat) : (setF s f v).cycle = s.cycle := rfl
@[simp] theorem setF_pending (s : State) (f : Fld) (v : Nat) : (setF s f v).pending = s.pending := rfl

@[simp] theorem setFlag_part (s : State) (f : Fld) (b : Bool) : (setFlag s f b).part = s.part := rfl
@[simp] theorem setFlag_time (s : State) (f : Fld) (b : Bool) : (setFlag s f b).time = s.time := rfl
@[simp] theorem setFlag_host (s : State) (f : Fld) (b : Bool) : (setFlag s f b).host = s.host := rfl
@[simp] theorem setFlag_acts (s : State) (f : Fld) (b : Bool) : (setFlag s f b).acts = s.acts := rfl
@[simp] theorem setFlag_out (s : State) (f : Fld) (b : Bool) : (setFlag s f b).out = s.out := rfl
@[simp] theorem setFlag_store (s : State) (f : Fld) (b : Bool) : (setFlag s f b).store = s.store := rfl
@[simp] theorem setFlag_dram (s : State) (f : Fld) (b : Bool) : (setFlag s f b).dram = s.dram := rfl
@[simp] theorem setFlag_dramSize (s : State) (f : Fld) (b : Bool) : (setFlag s f b).dramSize = s.dramSize := rfl
@[simp] theorem setFlag_memc (s : State) (f : Fld) (b : Bool) : (setFlag s f b).memc = s.memc := rfl
@[simp] theorem setFlag_hkm (s : State) (f : Fld) (b : Bool) : (setFlag s f b).hkm = s.hkm := rfl
@[simp] theorem setFlag_trust (s : State) (f : Fld) (b : Bool) : (setFlag s f b).trust = s.trust := rfl
@[simp] theorem setFlag_pmc (s : State) (f : Fld) (b : Bool) : (setFlag s f b).pmc = s.pmc := rfl
@[simp] theorem setFlag_power (s : State) (f : Fld) (b : Bool) : (setFlag s f b).power = s.power := rfl
@[simp] theorem setFlag_gens (s : State) (f : Fld) (b : Bool) : (setFlag s f b).gens = s.gens := rfl
@[simp] theorem setFlag_owners (s : State) (f : Fld) (b : Bool) : (setFlag s f b).owners = s.owners := rfl
@[simp] theorem setFlag_carriers (s : State) (f : Fld) (b : Bool) : (setFlag s f b).carriers = s.carriers := rfl
@[simp] theorem setFlag_streams (s : State) (f : Fld) (b : Bool) : (setFlag s f b).streams = s.streams := rfl
@[simp] theorem setFlag_arrivals (s : State) (f : Fld) (b : Bool) : (setFlag s f b).arrivals = s.arrivals := rfl
@[simp] theorem setFlag_beam (s : State) (f : Fld) (b : Bool) : (setFlag s f b).beam = s.beam := rfl
@[simp] theorem setFlag_rx (s : State) (f : Fld) (b : Bool) : (setFlag s f b).rx = s.rx := rfl
@[simp] theorem setFlag_swaps (s : State) (f : Fld) (b : Bool) : (setFlag s f b).swaps = s.swaps := rfl
@[simp] theorem setFlag_swapSeq (s : State) (f : Fld) (b : Bool) : (setFlag s f b).swapSeq = s.swapSeq := rfl
@[simp] theorem setFlag_caps (s : State) (f : Fld) (b : Bool) : (setFlag s f b).caps = s.caps := rfl
@[simp] theorem setFlag_captures (s : State) (f : Fld) (b : Bool) : (setFlag s f b).captures = s.captures := rfl
@[simp] theorem setFlag_dpd (s : State) (f : Fld) (b : Bool) : (setFlag s f b).dpd = s.dpd := rfl
@[simp] theorem setFlag_cals (s : State) (f : Fld) (b : Bool) : (setFlag s f b).cals = s.cals := rfl
@[simp] theorem setFlag_radio (s : State) (f : Fld) (b : Bool) : (setFlag s f b).radio = s.radio := rfl
@[simp] theorem setFlag_dmas (s : State) (f : Fld) (b : Bool) : (setFlag s f b).dmas = s.dmas := rfl
@[simp] theorem setFlag_periph (s : State) (f : Fld) (b : Bool) : (setFlag s f b).periph = s.periph := rfl
@[simp] theorem setFlag_partners (s : State) (f : Fld) (b : Bool) : (setFlag s f b).partners = s.partners := rfl
@[simp] theorem setFlag_ports (s : State) (f : Fld) (b : Bool) : (setFlag s f b).ports = s.ports := rfl
@[simp] theorem setFlag_inbox (s : State) (f : Fld) (b : Bool) : (setFlag s f b).inbox = s.inbox := rfl
@[simp] theorem setFlag_casc (s : State) (f : Fld) (b : Bool) : (setFlag s f b).casc = s.casc := rfl
@[simp] theorem setFlag_past (s : State) (f : Fld) (b : Bool) : (setFlag s f b).past = s.past := rfl
@[simp] theorem setFlag_cycle (s : State) (f : Fld) (b : Bool) : (setFlag s f b).cycle = s.cycle := rfl
@[simp] theorem setFlag_pending (s : State) (f : Fld) (b : Bool) : (setFlag s f b).pending = s.pending := rfl

@[simp] theorem setN_part (s : State) (r : Reg) (v : Nat) : (setN s r v).part = s.part := rfl
@[simp] theorem setN_time (s : State) (r : Reg) (v : Nat) : (setN s r v).time = s.time := rfl
@[simp] theorem setN_host (s : State) (r : Reg) (v : Nat) : (setN s r v).host = s.host := rfl
@[simp] theorem setN_acts (s : State) (r : Reg) (v : Nat) : (setN s r v).acts = s.acts := rfl
@[simp] theorem setN_out (s : State) (r : Reg) (v : Nat) : (setN s r v).out = s.out := rfl
@[simp] theorem setN_store (s : State) (r : Reg) (v : Nat) : (setN s r v).store = s.store := rfl
@[simp] theorem setN_dram (s : State) (r : Reg) (v : Nat) : (setN s r v).dram = s.dram := rfl
@[simp] theorem setN_dramSize (s : State) (r : Reg) (v : Nat) : (setN s r v).dramSize = s.dramSize := rfl
@[simp] theorem setN_memc (s : State) (r : Reg) (v : Nat) : (setN s r v).memc = s.memc := rfl
@[simp] theorem setN_hkm (s : State) (r : Reg) (v : Nat) : (setN s r v).hkm = s.hkm := rfl
@[simp] theorem setN_trust (s : State) (r : Reg) (v : Nat) : (setN s r v).trust = s.trust := rfl
@[simp] theorem setN_pmc (s : State) (r : Reg) (v : Nat) : (setN s r v).pmc = s.pmc := rfl
@[simp] theorem setN_power (s : State) (r : Reg) (v : Nat) : (setN s r v).power = s.power := rfl
@[simp] theorem setN_gens (s : State) (r : Reg) (v : Nat) : (setN s r v).gens = s.gens := rfl
@[simp] theorem setN_owners (s : State) (r : Reg) (v : Nat) : (setN s r v).owners = s.owners := rfl
@[simp] theorem setN_carriers (s : State) (r : Reg) (v : Nat) : (setN s r v).carriers = s.carriers := rfl
@[simp] theorem setN_streams (s : State) (r : Reg) (v : Nat) : (setN s r v).streams = s.streams := rfl
@[simp] theorem setN_arrivals (s : State) (r : Reg) (v : Nat) : (setN s r v).arrivals = s.arrivals := rfl
@[simp] theorem setN_beam (s : State) (r : Reg) (v : Nat) : (setN s r v).beam = s.beam := rfl
@[simp] theorem setN_rx (s : State) (r : Reg) (v : Nat) : (setN s r v).rx = s.rx := rfl
@[simp] theorem setN_swaps (s : State) (r : Reg) (v : Nat) : (setN s r v).swaps = s.swaps := rfl
@[simp] theorem setN_swapSeq (s : State) (r : Reg) (v : Nat) : (setN s r v).swapSeq = s.swapSeq := rfl
@[simp] theorem setN_caps (s : State) (r : Reg) (v : Nat) : (setN s r v).caps = s.caps := rfl
@[simp] theorem setN_captures (s : State) (r : Reg) (v : Nat) : (setN s r v).captures = s.captures := rfl
@[simp] theorem setN_dpd (s : State) (r : Reg) (v : Nat) : (setN s r v).dpd = s.dpd := rfl
@[simp] theorem setN_cals (s : State) (r : Reg) (v : Nat) : (setN s r v).cals = s.cals := rfl
@[simp] theorem setN_radio (s : State) (r : Reg) (v : Nat) : (setN s r v).radio = s.radio := rfl
@[simp] theorem setN_dmas (s : State) (r : Reg) (v : Nat) : (setN s r v).dmas = s.dmas := rfl
@[simp] theorem setN_periph (s : State) (r : Reg) (v : Nat) : (setN s r v).periph = s.periph := rfl
@[simp] theorem setN_partners (s : State) (r : Reg) (v : Nat) : (setN s r v).partners = s.partners := rfl
@[simp] theorem setN_ports (s : State) (r : Reg) (v : Nat) : (setN s r v).ports = s.ports := rfl
@[simp] theorem setN_inbox (s : State) (r : Reg) (v : Nat) : (setN s r v).inbox = s.inbox := rfl
@[simp] theorem setN_casc (s : State) (r : Reg) (v : Nat) : (setN s r v).casc = s.casc := rfl
@[simp] theorem setN_past (s : State) (r : Reg) (v : Nat) : (setN s r v).past = s.past := rfl
@[simp] theorem setN_cycle (s : State) (r : Reg) (v : Nat) : (setN s r v).cycle = s.cycle := rfl
@[simp] theorem setN_pending (s : State) (r : Reg) (v : Nat) : (setN s r v).pending = s.pending := rfl

@[simp] theorem set64_part (s : State) (lo hi : Reg) (v : Nat) : (set64 s lo hi v).part = s.part := rfl
@[simp] theorem set64_time (s : State) (lo hi : Reg) (v : Nat) : (set64 s lo hi v).time = s.time := rfl
@[simp] theorem set64_host (s : State) (lo hi : Reg) (v : Nat) : (set64 s lo hi v).host = s.host := rfl
@[simp] theorem set64_acts (s : State) (lo hi : Reg) (v : Nat) : (set64 s lo hi v).acts = s.acts := rfl
@[simp] theorem set64_out (s : State) (lo hi : Reg) (v : Nat) : (set64 s lo hi v).out = s.out := rfl
@[simp] theorem set64_store (s : State) (lo hi : Reg) (v : Nat) : (set64 s lo hi v).store = s.store := rfl
@[simp] theorem set64_dram (s : State) (lo hi : Reg) (v : Nat) : (set64 s lo hi v).dram = s.dram := rfl
@[simp] theorem set64_dramSize (s : State) (lo hi : Reg) (v : Nat) : (set64 s lo hi v).dramSize = s.dramSize := rfl
@[simp] theorem set64_memc (s : State) (lo hi : Reg) (v : Nat) : (set64 s lo hi v).memc = s.memc := rfl
@[simp] theorem set64_hkm (s : State) (lo hi : Reg) (v : Nat) : (set64 s lo hi v).hkm = s.hkm := rfl
@[simp] theorem set64_trust (s : State) (lo hi : Reg) (v : Nat) : (set64 s lo hi v).trust = s.trust := rfl
@[simp] theorem set64_pmc (s : State) (lo hi : Reg) (v : Nat) : (set64 s lo hi v).pmc = s.pmc := rfl
@[simp] theorem set64_power (s : State) (lo hi : Reg) (v : Nat) : (set64 s lo hi v).power = s.power := rfl
@[simp] theorem set64_gens (s : State) (lo hi : Reg) (v : Nat) : (set64 s lo hi v).gens = s.gens := rfl
@[simp] theorem set64_owners (s : State) (lo hi : Reg) (v : Nat) : (set64 s lo hi v).owners = s.owners := rfl
@[simp] theorem set64_carriers (s : State) (lo hi : Reg) (v : Nat) : (set64 s lo hi v).carriers = s.carriers := rfl
@[simp] theorem set64_streams (s : State) (lo hi : Reg) (v : Nat) : (set64 s lo hi v).streams = s.streams := rfl
@[simp] theorem set64_arrivals (s : State) (lo hi : Reg) (v : Nat) : (set64 s lo hi v).arrivals = s.arrivals := rfl
@[simp] theorem set64_beam (s : State) (lo hi : Reg) (v : Nat) : (set64 s lo hi v).beam = s.beam := rfl
@[simp] theorem set64_rx (s : State) (lo hi : Reg) (v : Nat) : (set64 s lo hi v).rx = s.rx := rfl
@[simp] theorem set64_swaps (s : State) (lo hi : Reg) (v : Nat) : (set64 s lo hi v).swaps = s.swaps := rfl
@[simp] theorem set64_swapSeq (s : State) (lo hi : Reg) (v : Nat) : (set64 s lo hi v).swapSeq = s.swapSeq := rfl
@[simp] theorem set64_caps (s : State) (lo hi : Reg) (v : Nat) : (set64 s lo hi v).caps = s.caps := rfl
@[simp] theorem set64_captures (s : State) (lo hi : Reg) (v : Nat) : (set64 s lo hi v).captures = s.captures := rfl
@[simp] theorem set64_dpd (s : State) (lo hi : Reg) (v : Nat) : (set64 s lo hi v).dpd = s.dpd := rfl
@[simp] theorem set64_cals (s : State) (lo hi : Reg) (v : Nat) : (set64 s lo hi v).cals = s.cals := rfl
@[simp] theorem set64_radio (s : State) (lo hi : Reg) (v : Nat) : (set64 s lo hi v).radio = s.radio := rfl
@[simp] theorem set64_dmas (s : State) (lo hi : Reg) (v : Nat) : (set64 s lo hi v).dmas = s.dmas := rfl
@[simp] theorem set64_periph (s : State) (lo hi : Reg) (v : Nat) : (set64 s lo hi v).periph = s.periph := rfl
@[simp] theorem set64_partners (s : State) (lo hi : Reg) (v : Nat) : (set64 s lo hi v).partners = s.partners := rfl
@[simp] theorem set64_ports (s : State) (lo hi : Reg) (v : Nat) : (set64 s lo hi v).ports = s.ports := rfl
@[simp] theorem set64_inbox (s : State) (lo hi : Reg) (v : Nat) : (set64 s lo hi v).inbox = s.inbox := rfl
@[simp] theorem set64_casc (s : State) (lo hi : Reg) (v : Nat) : (set64 s lo hi v).casc = s.casc := rfl
@[simp] theorem set64_past (s : State) (lo hi : Reg) (v : Nat) : (set64 s lo hi v).past = s.past := rfl
@[simp] theorem set64_cycle (s : State) (lo hi : Reg) (v : Nat) : (set64 s lo hi v).cycle = s.cycle := rfl
@[simp] theorem set64_pending (s : State) (lo hi : Reg) (v : Nat) : (set64 s lo hi v).pending = s.pending := rfl

@[simp] theorem emit_part (s : State) (o : Output) : (emit s o).part = s.part := rfl
@[simp] theorem emit_time (s : State) (o : Output) : (emit s o).time = s.time := rfl
@[simp] theorem emit_regs (s : State) (o : Output) : (emit s o).regs = s.regs := rfl
@[simp] theorem emit_host (s : State) (o : Output) : (emit s o).host = s.host := rfl
@[simp] theorem emit_acts (s : State) (o : Output) : (emit s o).acts = s.acts := rfl
@[simp] theorem emit_store (s : State) (o : Output) : (emit s o).store = s.store := rfl
@[simp] theorem emit_dram (s : State) (o : Output) : (emit s o).dram = s.dram := rfl
@[simp] theorem emit_dramSize (s : State) (o : Output) : (emit s o).dramSize = s.dramSize := rfl
@[simp] theorem emit_memc (s : State) (o : Output) : (emit s o).memc = s.memc := rfl
@[simp] theorem emit_hkm (s : State) (o : Output) : (emit s o).hkm = s.hkm := rfl
@[simp] theorem emit_trust (s : State) (o : Output) : (emit s o).trust = s.trust := rfl
@[simp] theorem emit_pmc (s : State) (o : Output) : (emit s o).pmc = s.pmc := rfl
@[simp] theorem emit_power (s : State) (o : Output) : (emit s o).power = s.power := rfl
@[simp] theorem emit_gens (s : State) (o : Output) : (emit s o).gens = s.gens := rfl
@[simp] theorem emit_owners (s : State) (o : Output) : (emit s o).owners = s.owners := rfl
@[simp] theorem emit_carriers (s : State) (o : Output) : (emit s o).carriers = s.carriers := rfl
@[simp] theorem emit_streams (s : State) (o : Output) : (emit s o).streams = s.streams := rfl
@[simp] theorem emit_arrivals (s : State) (o : Output) : (emit s o).arrivals = s.arrivals := rfl
@[simp] theorem emit_beam (s : State) (o : Output) : (emit s o).beam = s.beam := rfl
@[simp] theorem emit_rx (s : State) (o : Output) : (emit s o).rx = s.rx := rfl
@[simp] theorem emit_swaps (s : State) (o : Output) : (emit s o).swaps = s.swaps := rfl
@[simp] theorem emit_swapSeq (s : State) (o : Output) : (emit s o).swapSeq = s.swapSeq := rfl
@[simp] theorem emit_caps (s : State) (o : Output) : (emit s o).caps = s.caps := rfl
@[simp] theorem emit_captures (s : State) (o : Output) : (emit s o).captures = s.captures := rfl
@[simp] theorem emit_dpd (s : State) (o : Output) : (emit s o).dpd = s.dpd := rfl
@[simp] theorem emit_cals (s : State) (o : Output) : (emit s o).cals = s.cals := rfl
@[simp] theorem emit_radio (s : State) (o : Output) : (emit s o).radio = s.radio := rfl
@[simp] theorem emit_dmas (s : State) (o : Output) : (emit s o).dmas = s.dmas := rfl
@[simp] theorem emit_periph (s : State) (o : Output) : (emit s o).periph = s.periph := rfl
@[simp] theorem emit_partners (s : State) (o : Output) : (emit s o).partners = s.partners := rfl
@[simp] theorem emit_ports (s : State) (o : Output) : (emit s o).ports = s.ports := rfl
@[simp] theorem emit_inbox (s : State) (o : Output) : (emit s o).inbox = s.inbox := rfl
@[simp] theorem emit_casc (s : State) (o : Output) : (emit s o).casc = s.casc := rfl
@[simp] theorem emit_past (s : State) (o : Output) : (emit s o).past = s.past := rfl
@[simp] theorem emit_cycle (s : State) (o : Output) : (emit s o).cycle = s.cycle := rfl
@[simp] theorem emit_pending (s : State) (o : Output) : (emit s o).pending = s.pending := rfl

@[simp] theorem emit_out (s : State) (o : Output) : (emit s o).out = s.out ++ [(s.time.now, o)] := rfl

@[simp] theorem holdBits_part (s : State) (f : Fld) : (holdBits s f).part = s.part := rfl
@[simp] theorem holdBits_time (s : State) (f : Fld) : (holdBits s f).time = s.time := rfl
@[simp] theorem holdBits_host (s : State) (f : Fld) : (holdBits s f).host = s.host := rfl
@[simp] theorem holdBits_acts (s : State) (f : Fld) : (holdBits s f).acts = s.acts := rfl
@[simp] theorem holdBits_out (s : State) (f : Fld) : (holdBits s f).out = s.out := rfl
@[simp] theorem holdBits_store (s : State) (f : Fld) : (holdBits s f).store = s.store := rfl
@[simp] theorem holdBits_dram (s : State) (f : Fld) : (holdBits s f).dram = s.dram := rfl
@[simp] theorem holdBits_dramSize (s : State) (f : Fld) : (holdBits s f).dramSize = s.dramSize := rfl
@[simp] theorem holdBits_memc (s : State) (f : Fld) : (holdBits s f).memc = s.memc := rfl
@[simp] theorem holdBits_hkm (s : State) (f : Fld) : (holdBits s f).hkm = s.hkm := rfl
@[simp] theorem holdBits_trust (s : State) (f : Fld) : (holdBits s f).trust = s.trust := rfl
@[simp] theorem holdBits_pmc (s : State) (f : Fld) : (holdBits s f).pmc = s.pmc := rfl
@[simp] theorem holdBits_power (s : State) (f : Fld) : (holdBits s f).power = s.power := rfl
@[simp] theorem holdBits_gens (s : State) (f : Fld) : (holdBits s f).gens = s.gens := rfl
@[simp] theorem holdBits_owners (s : State) (f : Fld) : (holdBits s f).owners = s.owners := rfl
@[simp] theorem holdBits_carriers (s : State) (f : Fld) : (holdBits s f).carriers = s.carriers := rfl
@[simp] theorem holdBits_streams (s : State) (f : Fld) : (holdBits s f).streams = s.streams := rfl
@[simp] theorem holdBits_arrivals (s : State) (f : Fld) : (holdBits s f).arrivals = s.arrivals := rfl
@[simp] theorem holdBits_beam (s : State) (f : Fld) : (holdBits s f).beam = s.beam := rfl
@[simp] theorem holdBits_rx (s : State) (f : Fld) : (holdBits s f).rx = s.rx := rfl
@[simp] theorem holdBits_swaps (s : State) (f : Fld) : (holdBits s f).swaps = s.swaps := rfl
@[simp] theorem holdBits_swapSeq (s : State) (f : Fld) : (holdBits s f).swapSeq = s.swapSeq := rfl
@[simp] theorem holdBits_caps (s : State) (f : Fld) : (holdBits s f).caps = s.caps := rfl
@[simp] theorem holdBits_captures (s : State) (f : Fld) : (holdBits s f).captures = s.captures := rfl
@[simp] theorem holdBits_dpd (s : State) (f : Fld) : (holdBits s f).dpd = s.dpd := rfl
@[simp] theorem holdBits_cals (s : State) (f : Fld) : (holdBits s f).cals = s.cals := rfl
@[simp] theorem holdBits_radio (s : State) (f : Fld) : (holdBits s f).radio = s.radio := rfl
@[simp] theorem holdBits_dmas (s : State) (f : Fld) : (holdBits s f).dmas = s.dmas := rfl
@[simp] theorem holdBits_periph (s : State) (f : Fld) : (holdBits s f).periph = s.periph := rfl
@[simp] theorem holdBits_partners (s : State) (f : Fld) : (holdBits s f).partners = s.partners := rfl
@[simp] theorem holdBits_ports (s : State) (f : Fld) : (holdBits s f).ports = s.ports := rfl
@[simp] theorem holdBits_inbox (s : State) (f : Fld) : (holdBits s f).inbox = s.inbox := rfl
@[simp] theorem holdBits_casc (s : State) (f : Fld) : (holdBits s f).casc = s.casc := rfl
@[simp] theorem holdBits_past (s : State) (f : Fld) : (holdBits s f).past = s.past := rfl
@[simp] theorem holdBits_pending (s : State) (f : Fld) : (holdBits s f).pending = s.pending := rfl
@[simp] theorem holdBits_regs (s : State) (f : Fld) : (holdBits s f).regs = s.regs := rfl

/-- Outputs one after the other change the record of outputs only. -/
theorem foldl_emit (l : List Output) (s : State) : l.foldl emit s = { s with out := s.out ++ l.map fun o => (s.time.now, o) } := by
  induction l generalizing s with
  | nil => simp
  | cons o l ih => simp [ih, emit]

/-- A write to host memory is its requests in the record of outputs, and nothing else. -/
theorem hostWrite_eq (s : State) (a l v : Nat) :
    hostWrite s a l v = { s with out := s.out ++ (writeRequests (l / 256 + 2) a l v).map fun o => (s.time.now, o) } := foldl_emit _ _

@[simp] theorem hostWrite_part (s : State) (a l v : Nat) : (hostWrite s a l v).part = s.part := by rw [hostWrite_eq]
@[simp] theorem hostWrite_time (s : State) (a l v : Nat) : (hostWrite s a l v).time = s.time := by rw [hostWrite_eq]
@[simp] theorem hostWrite_regs (s : State) (a l v : Nat) : (hostWrite s a l v).regs = s.regs := by rw [hostWrite_eq]
@[simp] theorem hostWrite_host (s : State) (a l v : Nat) : (hostWrite s a l v).host = s.host := by rw [hostWrite_eq]
@[simp] theorem hostWrite_acts (s : State) (a l v : Nat) : (hostWrite s a l v).acts = s.acts := by rw [hostWrite_eq]
@[simp] theorem hostWrite_store (s : State) (a l v : Nat) : (hostWrite s a l v).store = s.store := by rw [hostWrite_eq]
@[simp] theorem hostWrite_dram (s : State) (a l v : Nat) : (hostWrite s a l v).dram = s.dram := by rw [hostWrite_eq]
@[simp] theorem hostWrite_dramSize (s : State) (a l v : Nat) : (hostWrite s a l v).dramSize = s.dramSize := by rw [hostWrite_eq]
@[simp] theorem hostWrite_memc (s : State) (a l v : Nat) : (hostWrite s a l v).memc = s.memc := by rw [hostWrite_eq]
@[simp] theorem hostWrite_hkm (s : State) (a l v : Nat) : (hostWrite s a l v).hkm = s.hkm := by rw [hostWrite_eq]
@[simp] theorem hostWrite_trust (s : State) (a l v : Nat) : (hostWrite s a l v).trust = s.trust := by rw [hostWrite_eq]
@[simp] theorem hostWrite_pmc (s : State) (a l v : Nat) : (hostWrite s a l v).pmc = s.pmc := by rw [hostWrite_eq]
@[simp] theorem hostWrite_power (s : State) (a l v : Nat) : (hostWrite s a l v).power = s.power := by rw [hostWrite_eq]
@[simp] theorem hostWrite_gens (s : State) (a l v : Nat) : (hostWrite s a l v).gens = s.gens := by rw [hostWrite_eq]
@[simp] theorem hostWrite_owners (s : State) (a l v : Nat) : (hostWrite s a l v).owners = s.owners := by rw [hostWrite_eq]
@[simp] theorem hostWrite_carriers (s : State) (a l v : Nat) : (hostWrite s a l v).carriers = s.carriers := by rw [hostWrite_eq]
@[simp] theorem hostWrite_streams (s : State) (a l v : Nat) : (hostWrite s a l v).streams = s.streams := by rw [hostWrite_eq]
@[simp] theorem hostWrite_arrivals (s : State) (a l v : Nat) : (hostWrite s a l v).arrivals = s.arrivals := by rw [hostWrite_eq]
@[simp] theorem hostWrite_beam (s : State) (a l v : Nat) : (hostWrite s a l v).beam = s.beam := by rw [hostWrite_eq]
@[simp] theorem hostWrite_rx (s : State) (a l v : Nat) : (hostWrite s a l v).rx = s.rx := by rw [hostWrite_eq]
@[simp] theorem hostWrite_swaps (s : State) (a l v : Nat) : (hostWrite s a l v).swaps = s.swaps := by rw [hostWrite_eq]
@[simp] theorem hostWrite_swapSeq (s : State) (a l v : Nat) : (hostWrite s a l v).swapSeq = s.swapSeq := by rw [hostWrite_eq]
@[simp] theorem hostWrite_caps (s : State) (a l v : Nat) : (hostWrite s a l v).caps = s.caps := by rw [hostWrite_eq]
@[simp] theorem hostWrite_captures (s : State) (a l v : Nat) : (hostWrite s a l v).captures = s.captures := by rw [hostWrite_eq]
@[simp] theorem hostWrite_dpd (s : State) (a l v : Nat) : (hostWrite s a l v).dpd = s.dpd := by rw [hostWrite_eq]
@[simp] theorem hostWrite_cals (s : State) (a l v : Nat) : (hostWrite s a l v).cals = s.cals := by rw [hostWrite_eq]
@[simp] theorem hostWrite_radio (s : State) (a l v : Nat) : (hostWrite s a l v).radio = s.radio := by rw [hostWrite_eq]
@[simp] theorem hostWrite_dmas (s : State) (a l v : Nat) : (hostWrite s a l v).dmas = s.dmas := by rw [hostWrite_eq]
@[simp] theorem hostWrite_periph (s : State) (a l v : Nat) : (hostWrite s a l v).periph = s.periph := by rw [hostWrite_eq]
@[simp] theorem hostWrite_partners (s : State) (a l v : Nat) : (hostWrite s a l v).partners = s.partners := by rw [hostWrite_eq]
@[simp] theorem hostWrite_ports (s : State) (a l v : Nat) : (hostWrite s a l v).ports = s.ports := by rw [hostWrite_eq]
@[simp] theorem hostWrite_inbox (s : State) (a l v : Nat) : (hostWrite s a l v).inbox = s.inbox := by rw [hostWrite_eq]
@[simp] theorem hostWrite_casc (s : State) (a l v : Nat) : (hostWrite s a l v).casc = s.casc := by rw [hostWrite_eq]
@[simp] theorem hostWrite_past (s : State) (a l v : Nat) : (hostWrite s a l v).past = s.past := by rw [hostWrite_eq]
@[simp] theorem hostWrite_cycle (s : State) (a l v : Nat) : (hostWrite s a l v).cycle = s.cycle := by rw [hostWrite_eq]
@[simp] theorem hostWrite_pending (s : State) (a l v : Nat) : (hostWrite s a l v).pending = s.pending := by rw [hostWrite_eq]
@[simp] theorem hostWrite_out (s : State) (a l v : Nat) :
    (hostWrite s a l v).out = s.out ++ (writeRequests (l / 256 + 2) a l v).map fun o => (s.time.now, o) := by rw [hostWrite_eq]

@[simp] theorem moveTime_part (t : Nat) (s : State) : (moveTime t s).part = s.part := by unfold moveTime; split <;> rfl
@[simp] theorem moveTime_regs (t : Nat) (s : State) : (moveTime t s).regs = s.regs := by unfold moveTime; split <;> rfl
@[simp] theorem moveTime_host (t : Nat) (s : State) : (moveTime t s).host = s.host := by unfold moveTime; split <;> rfl
@[simp] theorem moveTime_acts (t : Nat) (s : State) : (moveTime t s).acts = s.acts := by unfold moveTime; split <;> rfl
@[simp] theorem moveTime_out (t : Nat) (s : State) : (moveTime t s).out = s.out := by unfold moveTime; split <;> rfl
@[simp] theorem moveTime_store (t : Nat) (s : State) : (moveTime t s).store = s.store := by unfold moveTime; split <;> rfl
@[simp] theorem moveTime_dram (t : Nat) (s : State) : (moveTime t s).dram = s.dram := by unfold moveTime; split <;> rfl
@[simp] theorem moveTime_dramSize (t : Nat) (s : State) : (moveTime t s).dramSize = s.dramSize := by unfold moveTime; split <;> rfl
@[simp] theorem moveTime_memc (t : Nat) (s : State) : (moveTime t s).memc = s.memc := by unfold moveTime; split <;> rfl
@[simp] theorem moveTime_hkm (t : Nat) (s : State) : (moveTime t s).hkm = s.hkm := by unfold moveTime; split <;> rfl
@[simp] theorem moveTime_trust (t : Nat) (s : State) : (moveTime t s).trust = s.trust := by unfold moveTime; split <;> rfl
@[simp] theorem moveTime_pmc (t : Nat) (s : State) : (moveTime t s).pmc = s.pmc := by unfold moveTime; split <;> rfl
@[simp] theorem moveTime_power (t : Nat) (s : State) : (moveTime t s).power = s.power := by unfold moveTime; split <;> rfl
@[simp] theorem moveTime_gens (t : Nat) (s : State) : (moveTime t s).gens = s.gens := by unfold moveTime; split <;> rfl
@[simp] theorem moveTime_owners (t : Nat) (s : State) : (moveTime t s).owners = s.owners := by unfold moveTime; split <;> rfl
@[simp] theorem moveTime_carriers (t : Nat) (s : State) : (moveTime t s).carriers = s.carriers := by unfold moveTime; split <;> rfl
@[simp] theorem moveTime_streams (t : Nat) (s : State) : (moveTime t s).streams = s.streams := by unfold moveTime; split <;> rfl
@[simp] theorem moveTime_arrivals (t : Nat) (s : State) : (moveTime t s).arrivals = s.arrivals := by unfold moveTime; split <;> rfl
@[simp] theorem moveTime_beam (t : Nat) (s : State) : (moveTime t s).beam = s.beam := by unfold moveTime; split <;> rfl
@[simp] theorem moveTime_rx (t : Nat) (s : State) : (moveTime t s).rx = s.rx := by unfold moveTime; split <;> rfl
@[simp] theorem moveTime_swaps (t : Nat) (s : State) : (moveTime t s).swaps = s.swaps := by unfold moveTime; split <;> rfl
@[simp] theorem moveTime_swapSeq (t : Nat) (s : State) : (moveTime t s).swapSeq = s.swapSeq := by unfold moveTime; split <;> rfl
@[simp] theorem moveTime_caps (t : Nat) (s : State) : (moveTime t s).caps = s.caps := by unfold moveTime; split <;> rfl
@[simp] theorem moveTime_captures (t : Nat) (s : State) : (moveTime t s).captures = s.captures := by unfold moveTime; split <;> rfl
@[simp] theorem moveTime_dpd (t : Nat) (s : State) : (moveTime t s).dpd = s.dpd := by unfold moveTime; split <;> rfl
@[simp] theorem moveTime_cals (t : Nat) (s : State) : (moveTime t s).cals = s.cals := by unfold moveTime; split <;> rfl
@[simp] theorem moveTime_radio (t : Nat) (s : State) : (moveTime t s).radio = s.radio := by unfold moveTime; split <;> rfl
@[simp] theorem moveTime_dmas (t : Nat) (s : State) : (moveTime t s).dmas = s.dmas := by unfold moveTime; split <;> rfl
@[simp] theorem moveTime_periph (t : Nat) (s : State) : (moveTime t s).periph = s.periph := by unfold moveTime; split <;> rfl
@[simp] theorem moveTime_partners (t : Nat) (s : State) : (moveTime t s).partners = s.partners := by unfold moveTime; split <;> rfl
@[simp] theorem moveTime_ports (t : Nat) (s : State) : (moveTime t s).ports = s.ports := by unfold moveTime; split <;> rfl
@[simp] theorem moveTime_inbox (t : Nat) (s : State) : (moveTime t s).inbox = s.inbox := by unfold moveTime; split <;> rfl
@[simp] theorem moveTime_casc (t : Nat) (s : State) : (moveTime t s).casc = s.casc := by unfold moveTime; split <;> rfl
@[simp] theorem moveTime_pending (t : Nat) (s : State) : (moveTime t s).pending = s.pending := by unfold moveTime; split <;> rfl

/-- Time never runs backwards: it is the later of the two. -/
@[simp] theorem moveTime_now (t : Nat) (s : State) : (moveTime t s).time.now = max s.time.now t := by
  unfold moveTime; split
  · show t = _; omega
  · omega

/-- A state at its own time stays as it is. -/
theorem moveTime_of_le {t : Nat} {s : State} (h : t ≤ s.time.now) : moveTime t s = s := by
  unfold moveTime; split
  · omega
  · rfl

/-- A second move to the same time does nothing. -/
@[simp] theorem moveTime_moveTime (t : Nat) (s : State) : moveTime t (moveTime t s) = moveTime t s :=
  moveTime_of_le (by rw [moveTime_now]; omega)

/-- With no chip reset due, time alone moves on. -/
theorem advance_of_none {t : Nat} {s : State} (h : s.power.chipAt = none) : advance t s = moveTime t s := by
  simp [advance, h]

/-- With none due on the way, time alone moves on. -/
theorem advance_of_not_due {t : Nat} {s : State} (h : ∀ n, s.power.chipAt = some n → n ≤ s.time.now ∨ t < n) :
    advance t s = moveTime t s := by
  unfold advance
  split
  · next n hn =>
    have := h n hn
    rw [if_neg (by omega)]
  · rfl

/-- A state at its own time stays as it is. -/
theorem advance_of_le {t : Nat} {s : State} (h : t ≤ s.time.now) : advance t s = s := by
  rw [advance_of_not_due fun n _ => by omega, moveTime_of_le h]

/-! ## Registers -/

/-- The word written is read back. -/
@[simp] theorem getR_setR (s : State) (r : Reg) (v : Word) : getR (setR s r v) r = v := by
  unfold getR setR
  suffices h : ∀ l : List (Nat × Word), assocGet (assocPut l r.addr v) r.addr = some v by simp [h]
  intro l
  induction l with
  | nil => simp [assocPut, assocGet]
  | cons x l ih =>
    obtain ⟨k, w⟩ := x
    simp only [assocPut]
    split
    · simp [assocGet]
    · split
      · simp [assocGet]
      · simp only [assocGet]; split
        · omega
        · exact ih

/-- Every other word keeps its value. -/
theorem getR_setR_of_ne (s : State) {r q : Reg} (v : Word) (h : q.addr ≠ r.addr) : getR (setR s r v) q = getR s q := by
  unfold getR setR
  suffices h : ∀ l : List (Nat × Word), assocGet (assocPut l r.addr v) q.addr = assocGet l q.addr by simp [h]
  intro l
  induction l with
  | nil => simp [assocPut, assocGet, Ne.symm h]
  | cons x l ih =>
    obtain ⟨k, w⟩ := x
    simp only [assocPut]
    split
    · simp [assocGet, Ne.symm h]
    · split
      · subst k; simp [assocGet, Ne.symm h]
      · simp only [assocGet]; split
        · rfl
        · exact ih

end Sys2Proof.Machine
end

