-- ==== Sys2Proof/Laws/Calm.lean ====
section
/-!
SUPPORT. What every operation leaves alone: the queue of commands, the part, the two memories, the fuses; it never turns time back
and never lets the pending-activation queue outgrow its 512 entries. One lemma for each operation, to be chained.
-/
set_option linter.unusedSimpArgs false
set_option linter.unusedTactic false
set_option linter.unreachableTactic false
namespace Sys2Proof.Machine

/-- `s` follows from `b` by operations that keep the commands that wait, the part, both memories and the fuses, do not turn time back and
keep the pending-activation queue within 512 entries. -/
def Calm (b s : State) : Prop :=
  s.pending = b.pending ∧ s.part = b.part ∧ b.time.now ≤ s.time.now ∧ s.store = b.store ∧ s.dram = b.dram
    ∧ (b.acts.length ≤ 512 → s.acts.length ≤ 512)
    ∧ s.trust.customer = b.trust.customer ∧ s.trust.policy = b.trust.policy ∧ s.trust.epochs = b.trust.epochs

theorem Calm.refl (s : State) : Calm s s := ⟨rfl, rfl, Nat.le_refl _, rfl, rfl, id, rfl, rfl, rfl⟩

theorem Calm.trans {b s v : State} (h : Calm b s) (k : Calm s v) : Calm b v := by
  obtain ⟨h1, h2, h3, h4, h5, h6, h7, h8, h9⟩ := h
  obtain ⟨k1, k2, k3, k4, k5, k6, k7, k8, k9⟩ := k
  exact ⟨k1.trans h1, k2.trans h2, Nat.le_trans h3 k3, k4.trans h4, k5.trans h5, k6 ∘ h6, k7.trans h7, k8.trans h8, k9.trans h9⟩

/-- Every other field may change, and the tick with them. -/
theorem calm_mk (b s : State) (tick counting laneUp origin syncs tddLog regs host out dramSize memc hkm pmc power gens owners carriers streams
    arrivals beam rx swaps swapSeq caps captures dpd cals radio dmas periph partners ports inbox casc past cycle) :
    Calm b
      { part := s.part
        time := { now := s.time.now, tick := tick, counting := counting, laneUp := laneUp, origin := origin, syncs := syncs, tddLog := tddLog }
        regs := regs, host := host, acts := s.acts, out := out, store := s.store, dram := s.dram, dramSize := dramSize, memc := memc, hkm := hkm
        trust := s.trust, pmc := pmc, power := power, gens := gens, owners := owners, carriers := carriers, streams := streams
        arrivals := arrivals, beam := beam, rx := rx, swaps := swaps, swapSeq := swapSeq, caps := caps, captures := captures, dpd := dpd
        cals := cals, radio := radio, dmas := dmas, periph := periph, partners := partners, ports := ports, inbox := inbox, casc := casc, past := past, cycle := cycle
        pending := s.pending } = Calm b s := rfl

theorem calm_mk' (b s : State) (regs host out dramSize memc hkm pmc power gens owners carriers streams
    arrivals beam rx swaps swapSeq caps captures dpd cals radio dmas periph partners ports inbox casc past cycle) :
    Calm b
      { part := s.part, time := s.time, regs := regs, host := host, acts := s.acts, out := out, store := s.store, dram := s.dram
        dramSize := dramSize, memc := memc, hkm := hkm
        trust := s.trust, pmc := pmc, power := power, gens := gens, owners := owners, carriers := carriers, streams := streams
        arrivals := arrivals, beam := beam, rx := rx, swaps := swaps, swapSeq := swapSeq, caps := caps, captures := captures, dpd := dpd
        cals := cals, radio := radio, dmas := dmas, periph := periph, partners := partners, ports := ports, inbox := inbox, casc := casc, past := past, cycle := cycle
        pending := s.pending } = Calm b s := rfl

theorem calm_ite {b x y : State} {c : Prop} [Decidable c] (hx : Calm b x) (hy : Calm b y) : Calm b (if c then x else y) := by
  split <;> assumption

theorem calm_foldl {α : Type} {b s : State} {l : List α} {f : State → α → State} (hf : ∀ v x, Calm b v → Calm b (f v x)) (h : Calm b s) :
    Calm b (l.foldl f s) := by
  induction l generalizing s with
  | nil => exact h
  | cons x l ih => exact ih (hf s x h)

theorem calm_acts {b s : State} (l : List Pending) (beam : BeamSt) (hl : l.length ≤ s.acts.length) (h : Calm b s) :
    Calm b { s with acts := l, beam := beam } := by
  obtain ⟨h1, h2, h3, h4, h5, h6, h7⟩ := h
  exact ⟨h1, h2, h3, h4, h5, fun k => Nat.le_trans hl (h6 k), h7⟩

theorem calm_modTrust {b s : State} (f : TrustSt → TrustSt) (h : Calm b s)
    (hf : ∀ x : TrustSt, (f x).customer = x.customer ∧ (f x).policy = x.policy ∧ (f x).epochs = x.epochs) : Calm b (modTrust s f) := by
  obtain ⟨h1, h2, h3, h4, h5, h6, h7, h8, h9⟩ := h
  obtain ⟨f1, f2, f3⟩ := hf s.trust
  exact ⟨h1, h2, h3, h4, h5, h6, f1.trans h7, f2.trans h8, f3.trans h9⟩

theorem calm_moveTime {b s : State} (t : Nat) (h : Calm b s) : Calm b (moveTime t s) := by
  obtain ⟨h1, h2, h3, h4⟩ := h
  unfold moveTime; split
  · exact ⟨h1, h2, Nat.le_trans h3 (Nat.le_of_lt ‹_›), h4⟩
  · exact ⟨h1, h2, h3, h4⟩

theorem calm_hostWrite {b s : State} (a l v : Nat) (h : Calm b s) : Calm b (hostWrite s a l v) := by
  rw [hostWrite_eq]; exact h

theorem calm_setR {b s : State} (r : Reg) (v : Word) (h : Calm b s) : Calm b (setR s r v) := by
  unfold setR
  repeat' first | with_reducible assumption | simp only [↓calm_mk'] | simp only [↓calm_mk]
theorem calm_setF {b s : State} (f : Fld) (v : Nat) (h : Calm b s) : Calm b (setF s f v) := by
  unfold setF
  repeat' first | with_reducible assumption | with_reducible apply calm_setR
theorem calm_setFlag {b s : State} (f : Fld) (y : Bool) (h : Calm b s) : Calm b (setFlag s f y) := by
  unfold setFlag
  repeat' first | with_reducible assumption | with_reducible apply calm_setF | with_reducible apply calm_ite | split
theorem calm_holdBits {b s : State} (f : Fld) (h : Calm b s) : Calm b (holdBits s f) := by
  unfold holdBits
  repeat' first | with_reducible assumption | simp only [↓calm_mk'] | simp only [↓calm_mk]
theorem calm_raiseFlag {b s : State} (f : Fld) (h : Calm b s) : Calm b (raiseFlag s f) := by
  unfold raiseFlag
  repeat' first | with_reducible assumption | with_reducible apply calm_holdBits | with_reducible apply calm_setFlag
theorem calm_setN {b s : State} (r : Reg) (v : Nat) (h : Calm b s) : Calm b (setN s r v) := by
  unfold setN
  repeat' first | with_reducible assumption | with_reducible apply calm_setR
theorem calm_set64 {b s : State} (lo : Reg) (hi : Reg) (v : Nat) (h : Calm b s) : Calm b (set64 s lo hi v) := by
  unfold set64
  repeat' first | with_reducible assumption | with_reducible apply calm_setN
theorem calm_closeEra {b s : State}  (h : Calm b s) : Calm b (closeEra s) := by
  unfold closeEra
  repeat' first | with_reducible assumption | simp only [↓calm_mk'] | simp only [↓calm_mk]
theorem calm_emit {b s : State} (o : Output) (h : Calm b s) : Calm b (emit s o) := by
  unfold emit
  repeat' first | with_reducible assumption | simp only [↓calm_mk'] | simp only [↓calm_mk]
theorem calm_modPower {b s : State} (f : PowerSt → PowerSt) (h : Calm b s) : Calm b (modPower s f) := by
  unfold modPower
  repeat' first | with_reducible assumption | simp only [↓calm_mk'] | simp only [↓calm_mk]
theorem calm_modPod {b s : State} (p : Nat) (f : PodSt → PodSt) (h : Calm b s) : Calm b (modPod s p f) := by
  unfold modPod
  repeat' first | with_reducible assumption | simp only [↓calm_mk'] | simp only [↓calm_mk]
theorem calm_drivePins {b s : State} (p : Nat) (h : Calm b s) : Calm b (drivePins s p) := by
  unfold drivePins
  repeat' first | with_reducible assumption | with_reducible apply calm_emit
theorem calm_setFeCode {b s : State} (p : Nat) (code : Nat) (h : Calm b s) : Calm b (setFeCode s p code) := by
  unfold setFeCode
  repeat' first | with_reducible assumption | with_reducible apply calm_drivePins | with_reducible apply calm_setN
theorem calm_setPodIo {b s : State} (p : Nat) (tx : Bool) (rx : Bool) (h : Calm b s) : Calm b (setPodIo s p tx rx) := by
  unfold setPodIo
  repeat' first | with_reducible assumption | with_reducible apply calm_emit | with_reducible apply calm_modPod | with_reducible apply calm_ite | simp only [↓calm_mk'] | simp only [↓calm_mk] | split
theorem calm_quietPod {b s : State} (p : Nat) (h : Calm b s) : Calm b (quietPod s p) := by
  unfold quietPod
  repeat' first | with_reducible assumption | with_reducible apply calm_emit | with_reducible apply calm_setPodIo | with_reducible apply calm_setN | with_reducible apply calm_setFeCode | with_reducible apply calm_modPod | with_reducible apply calm_ite | split
theorem calm_driveRail {b s : State} (r : Nat) (on : Bool) (h : Calm b s) : Calm b (driveRail s r on) := by
  unfold driveRail
  repeat' first | with_reducible assumption | with_reducible apply calm_setF | with_reducible apply calm_ite | split
theorem calm_loseAll {b s : State} (h : Calm b s) : Calm b (loseAll s) := by
  have k : Calm b ((List.range 8).foldl quietPod s) := calm_foldl (fun _ _ hv => calm_quietPod _ hv) h
  unfold loseAll
  generalize (List.range 8).foldl quietPod s = v at k
  have e : s.time.now = s.time.now := rfl
  obtain ⟨h1, h2, h3, h4, h5, h6, h7, h8, h9⟩ := k
  exact ⟨h1, h2, h.2.2.1, h4, h5, fun _ => Nat.zero_le _, h7, h8, h9⟩
theorem calm_holdReset {b s : State} (cause : Nat) (h : Calm b s) : Calm b (holdReset s cause) := by
  unfold holdReset
  repeat' first | with_reducible assumption | with_reducible apply calm_setF | with_reducible apply calm_loseAll | with_reducible apply calm_driveRail | with_reducible refine calm_foldl (fun _ _ _ => ?_) ?_ | simp only [↓calm_mk'] | simp only [↓calm_mk]
theorem calm_chipHold {b s : State}  (h : Calm b s) : Calm b (chipHold s) := by
  unfold chipHold
  repeat' first | with_reducible assumption | with_reducible apply calm_modPower | with_reducible apply calm_holdReset | simp only [↓calm_mk'] | simp only [↓calm_mk]
theorem calm_advance {b s : State} (t : Nat) (h : Calm b s) : Calm b (advance t s) := by
  unfold advance
  split
  · split
    · exact calm_moveTime _ (calm_chipHold (calm_moveTime _ h))
    · exact calm_moveTime _ h
  · exact calm_moveTime _ h

/-- Time never runs backwards: it is the later of the two. -/
@[simp] theorem advance_pending (t : Nat) (s : State) : (advance t s).pending = s.pending := (calm_advance t (Calm.refl s)).1
@[simp] theorem advance_part (t : Nat) (s : State) : (advance t s).part = s.part := (calm_advance t (Calm.refl s)).2.1
@[simp] theorem advance_store (t : Nat) (s : State) : (advance t s).store = s.store := (calm_advance t (Calm.refl s)).2.2.2.1
@[simp] theorem advance_dram (t : Nat) (s : State) : (advance t s).dram = s.dram := (calm_advance t (Calm.refl s)).2.2.2.2.1
theorem calm_satAdd {b s : State} (f : Fld) (n : Nat) (h : Calm b s) : Calm b (satAdd s f n) := by
  unfold satAdd
  repeat' first | with_reducible assumption | with_reducible apply calm_setF
theorem calm_wrapAdd {b s : State} (f : Fld) (n : Nat) (h : Calm b s) : Calm b (wrapAdd s f n) := by
  unfold wrapAdd
  repeat' first | with_reducible assumption | with_reducible apply calm_setF
theorem calm_countCfg {b s : State} (n : Nat) (h : Calm b s) : Calm b (countCfg s n) := by
  unfold countCfg
  repeat' first | with_reducible assumption | with_reducible apply calm_set64
theorem calm_blockWrite {b s : State} (cfg : Bool) (h : Calm b s) : Calm b (blockWrite s cfg) := by
  unfold blockWrite
  repeat' first | with_reducible assumption | with_reducible apply calm_satAdd | with_reducible apply calm_ite | simp only [↓calm_mk'] | simp only [↓calm_mk] | split
theorem calm_modOutRing {b s : State} (kind : Nat) (r : Nat) (f : OutRing → OutRing) (h : Calm b s) : Calm b (modOutRing s kind r f) := by
  unfold modOutRing
  repeat' first | with_reducible assumption | with_reducible apply calm_ite | simp only [↓calm_mk'] | simp only [↓calm_mk] | split
theorem calm_emitMsix {b s : State} (vec : Nat) (h : Calm b s) : Calm b (emitMsix s vec) := by
  unfold emitMsix
  repeat' first | with_reducible assumption | with_reducible apply calm_emit
theorem calm_sendMsix {b s : State} (vec : Nat) (h : Calm b s) : Calm b (sendMsix s vec) := by
  unfold sendMsix
  repeat' first | with_reducible assumption | with_reducible apply calm_emitMsix | with_reducible apply calm_ite | simp only [↓calm_mk'] | simp only [↓calm_mk] | split
theorem calm_releaseMsix {b s : State} (vec : Nat) (h : Calm b s) : Calm b (releaseMsix s vec) := by
  unfold releaseMsix
  repeat' first | with_reducible assumption | with_reducible apply calm_emitMsix | with_reducible apply calm_ite | simp only [↓calm_mk'] | simp only [↓calm_mk] | split
theorem calm_noteWritten {b s : State} (kind : Nat) (r : Nat) (h : Calm b s) : Calm b (noteWritten s kind r) := by
  unfold noteWritten
  repeat' first | with_reducible assumption | with_reducible apply calm_modOutRing | with_reducible apply calm_sendMsix | with_reducible apply calm_ite | simp only [↓calm_mk'] | simp only [↓calm_mk] | split
theorem calm_writeEntry {b s : State} (kind : Nat) (r : Nat) (len : Nat) (val : Nat) (h : Calm b s) : Calm b (writeEntry s kind r len val) := by
  unfold writeEntry
  repeat' first | with_reducible assumption | with_reducible apply calm_hostWrite | with_reducible apply calm_modOutRing | with_reducible apply calm_noteWritten | simp only [↓calm_mk'] | simp only [↓calm_mk]
theorem calm_issueCi {b s : State} (kind : Nat) (r : Nat) (h : Calm b s) : Calm b (issueCi s kind r) := by
  unfold issueCi
  repeat' first | with_reducible assumption | with_reducible apply calm_emit | with_reducible apply calm_modOutRing | with_reducible apply calm_ite | simp only [↓calm_mk'] | simp only [↓calm_mk] | split
theorem calm_askCi {b s : State} (kind : Nat) (r : Nat) (h : Calm b s) : Calm b (askCi s kind r) := by
  unfold askCi
  repeat' first | with_reducible assumption | with_reducible apply calm_issueCi | with_reducible apply calm_modOutRing | with_reducible apply calm_ite | simp only [↓calm_mk'] | simp only [↓calm_mk] | split
theorem calm_writeEvent {b s : State} (e : Ev) (h : Calm b s) : Calm b (writeEvent s e) := by
  unfold writeEvent
  repeat' first | with_reducible assumption | with_reducible apply calm_writeEntry
theorem calm_takeSeq {b s : State} (r : Nat) (h : Calm b s) : Calm b (takeSeq s r) := by
  unfold takeSeq
  repeat' first | with_reducible assumption | with_reducible apply calm_modOutRing | simp only [↓calm_mk'] | simp only [↓calm_mk]
theorem calm_placeEvent {b s : State} (e : Ev) (h : Calm b s) : Calm b (placeEvent s e) := by
  unfold placeEvent
  repeat' first | with_reducible assumption | with_reducible apply calm_writeEvent | with_reducible apply calm_askCi | with_reducible apply calm_ite | simp only [↓calm_mk'] | simp only [↓calm_mk] | split
theorem calm_placeLost {b s : State} (r : Nat) (h : Calm b s) : Calm b (placeLost s r) := by
  unfold placeLost
  repeat' first | with_reducible assumption | with_reducible apply calm_satAdd | with_reducible apply calm_modOutRing | with_reducible apply calm_placeEvent | with_reducible apply calm_takeSeq | with_reducible apply calm_ite | simp only [↓calm_mk'] | simp only [↓calm_mk] | split
theorem calm_placeAllLost {b s : State}  (h : Calm b s) : Calm b (placeAllLost s) := by
  unfold placeAllLost
  repeat' first | with_reducible assumption | with_reducible apply calm_placeLost | with_reducible refine calm_foldl (fun _ _ _ => ?_) ?_
theorem calm_postOn {b s : State} (e : Ev) (h : Calm b s) : Calm b (postOn s e) := by
  unfold postOn
  repeat' first | with_reducible assumption | with_reducible apply calm_satAdd | with_reducible apply calm_placeLost | with_reducible apply calm_placeEvent | with_reducible apply calm_takeSeq | with_reducible apply calm_modOutRing | with_reducible apply calm_ite | simp only [↓calm_mk'] | simp only [↓calm_mk] | split
theorem calm_postAt {b s : State} (type : Nat) (tick : Nat) (data : Nat) (h : Calm b s) : Calm b (postAt s type tick data) := by
  unfold postAt
  repeat' first | with_reducible assumption | with_reducible apply calm_postOn
theorem calm_post {b s : State} (type : Nat) (data : Nat) (h : Calm b s) : Calm b (post s type data) := by
  unfold post
  repeat' first | with_reducible assumption | with_reducible apply calm_postAt
theorem calm_postRingError {b s : State} (kind : Nat) (ring : Nat) (cause : Nat) (h : Calm b s) : Calm b (postRingError s kind ring cause) := by
  unfold postRingError
  repeat' first | with_reducible assumption | with_reducible apply calm_post
theorem calm_drainEvents {b s : State} (n r : Nat) (h : Calm b s) : Calm b (drainEvents n s r) := by
  induction n generalizing s with
  | zero => exact h
  | succ n ih =>
    unfold drainEvents
    repeat' first | with_reducible assumption | exact ih (calm_writeEvent _ h) | split
theorem calm_leaveFlight {b s : State} (id : Nat) (h : Calm b s) : Calm b (leaveFlight s id) := by
  unfold leaveFlight
  repeat' first | with_reducible assumption | simp only [↓calm_mk'] | simp only [↓calm_mk]
theorem calm_writeCpl {b s : State} (c : Cpl) (h : Calm b s) : Calm b (writeCpl s c) := by
  unfold writeCpl
  repeat' first | with_reducible assumption | with_reducible apply calm_writeEntry | with_reducible apply calm_leaveFlight | with_reducible apply calm_ite | split
theorem calm_loseCpl {b s : State} (c : Cpl) (h : Calm b s) : Calm b (loseCpl s c) := by
  unfold loseCpl
  repeat' first | with_reducible assumption | with_reducible apply calm_satAdd | with_reducible apply calm_leaveFlight | with_reducible apply calm_ite | split
theorem calm_showBacklog {b s : State} (cq : Nat) (h : Calm b s) : Calm b (showBacklog s cq) := by
  unfold showBacklog
  repeat' first | with_reducible assumption | with_reducible apply calm_setF
theorem calm_deliverCpl {b s : State} (c : Cpl) (h : Calm b s) : Calm b (deliverCpl s c) := by
  unfold deliverCpl
  repeat' first | with_reducible assumption | with_reducible apply calm_loseCpl | with_reducible apply calm_askCi | with_reducible apply calm_showBacklog | with_reducible apply calm_writeCpl | with_reducible apply calm_ite | simp only [↓calm_mk'] | simp only [↓calm_mk] | split
theorem calm_drainBacklog {b s : State} (n r : Nat) (h : Calm b s) : Calm b (drainBacklog n s r) := by
  induction n generalizing s with
  | zero => exact h
  | succ n ih =>
    unfold drainBacklog
    repeat' first | with_reducible assumption | exact ih (calm_showBacklog _ (calm_writeCpl _ h)) | split
theorem calm_takeGen {b s : State} (type : Nat) (idx : Nat) (h : Calm b s) : Calm b (takeGen s type idx) := by
  unfold takeGen
  repeat' first | with_reducible assumption | simp only [↓calm_mk'] | simp only [↓calm_mk]
theorem calm_setStage {b s : State} (id : Nat) (st : FlightStage) (h : Calm b s) : Calm b (setStage s id st) := by
  unfold setStage
  repeat' first | with_reducible assumption | with_reducible apply calm_ite | simp only [↓calm_mk'] | simp only [↓calm_mk] | split
theorem calm_leaveStrays {b s : State} (at' : Nat) (n : Nat) (h : Calm b s) : Calm b (leaveStrays s at' n) := by
  unfold leaveStrays
  repeat' first | with_reducible assumption | with_reducible apply calm_ite | simp only [↓calm_mk'] | simp only [↓calm_mk] | split
theorem calm_issueSource {b s : State} (f : Flight) (h : Calm b s) : Calm b (issueSource s f) := by
  unfold issueSource
  repeat' first | with_reducible assumption | with_reducible apply calm_emit | with_reducible apply calm_ite | with_reducible refine calm_foldl (fun _ _ _ => ?_) ?_ | simp only [↓calm_mk'] | simp only [↓calm_mk] | split
theorem calm_keepSource {b s : State} (f : Flight) (data : List Byte) (h : Calm b s) : Calm b (keepSource s f data) := by
  unfold keepSource
  repeat' first | with_reducible assumption | with_reducible apply calm_ite | simp only [↓calm_mk'] | simp only [↓calm_mk] | split
theorem calm_issueSources {b s : State}  (h : Calm b s) : Calm b (issueSources s) := by
  unfold issueSources
  repeat' first | with_reducible assumption | with_reducible apply calm_issueSource | with_reducible refine calm_foldl (fun _ _ _ => ?_) ?_
theorem calm_readSource {b s : State} (f : Flight) (addr : Nat) (len : Nat) (h : Calm b s) : Calm b (readSource s f addr len) := by
  unfold readSource
  repeat' first | with_reducible assumption | with_reducible apply calm_issueSources | with_reducible apply calm_ite | simp only [↓calm_mk'] | simp only [↓calm_mk] | split
theorem calm_pushCpl {b s : State} (f : Flight) (status : Nat) (final : Bool) (result : Nat) (tick : Nat) (ok : Bool) (h : Calm b s) : Calm b (pushCpl s f status final result tick ok) := by
  unfold pushCpl
  repeat' first | with_reducible assumption | simp only [↓calm_mk'] | simp only [↓calm_mk]
theorem calm_finish {b s : State} (f : Flight) (status : Nat) (result : Nat) (tick : Nat) (ok : Bool) (h : Calm b s) : Calm b (finish s f status result tick ok) := by
  unfold finish
  repeat' first | with_reducible assumption | with_reducible apply calm_setStage | with_reducible apply calm_countCfg | with_reducible apply calm_wrapAdd | with_reducible apply calm_leaveFlight | with_reducible apply calm_pushCpl | with_reducible apply calm_ite | split
theorem calm_reject {b s : State} (f : Flight) (status : Nat) (h : Calm b s) : Calm b (reject s f status) := by
  unfold reject
  repeat' first | with_reducible assumption | with_reducible apply calm_finish
theorem calm_complete {b s : State} (f : Flight) (result : Nat) (h : Calm b s) : Calm b (complete s f result) := by
  unfold complete
  repeat' first | with_reducible assumption | with_reducible apply calm_finish
theorem calm_showQueue {b s : State}  (h : Calm b s) : Calm b (showQueue s) := by
  unfold showQueue
  repeat' first | with_reducible assumption | with_reducible apply calm_setF
theorem calm_accept {b s : State} (f : Flight) (keys : List (Nat × Nat × Nat)) (src : List Byte) (h : Calm b s) (hq : s.acts.length < 512) :
    Calm b (accept s f keys src) := by
  unfold accept
  have k := calm_setStage f.id .settled h
  have k2 : Calm b { setStage s f.id .settled with
      acts := (setStage s f.id .settled).acts ++ [{ id := f.id, cmd := f.cmd, tick := f.cmd.actTick, keys := keys, src := src }] } := by
    obtain ⟨h1, h2, h3, h4, h5, h6, h7⟩ := k
    exact ⟨h1, h2, h3, h4, h5, fun _ => by simp [setStage]; omega, h7⟩
  dsimp only
  split
  · exact calm_showQueue k2
  · exact calm_pushCpl _ _ _ _ _ _ (calm_showQueue k2)

/-- A scheduled command that passes checks 4 to 10 has room in the queue. -/
theorem room_of_lateChecks {s : State} {f : Flight} {bad : Bool} {keys : List (Nat × Nat × Nat)} {res : Option Nat} {mem : Bool}
    (h : lateChecks s f bad keys res mem = none) (hs : sched f.cmd = true) : s.acts.length < 512 := by
  unfold lateChecks queueUse at h
  repeat' split at h
  all_goals simp_all
  all_goals omega
theorem calm_showCols {b s : State} (d : Nat) (h : Calm b s) : Calm b (showCols s d) := by
  unfold showCols
  repeat' first | with_reducible assumption | with_reducible apply calm_setF
theorem calm_showAllCols {b s : State}  (h : Calm b s) : Calm b (showAllCols s) := by
  unfold showAllCols
  repeat' first | with_reducible assumption | with_reducible apply calm_showCols
theorem calm_endFill {b s : State} (id : Nat) (h : Calm b s) : Calm b (endFill s id) := by
  unfold endFill
  repeat' first | with_reducible assumption | with_reducible apply calm_showCols | simp only [↓calm_mk'] | simp only [↓calm_mk] | split
/-- The end of a fill leaves the pending activations as they are. -/
@[simp] theorem endFill_acts (s : State) (id : Nat) : (endFill s id).acts = s.acts := by
  unfold endFill showCols; split <;> rfl
theorem calm_endAct {b s : State} (p : Pending) (status tick : Nat) (h : Calm b s) : Calm b (endAct s p status tick) := by
  unfold endAct
  have k : Calm b { endFill s p.id with acts := s.acts.filter (fun q => q.id != p.id) } :=
    calm_acts _ _ (by simpa using List.length_filter_le _ _) (calm_endFill p.id h)
  dsimp only
  split
  · exact calm_showQueue k
  · exact calm_finish _ _ _ _ _ (calm_showQueue k)
theorem calm_cancelNaming {b s : State} (x : Nat) (h : Calm b s) : Calm b (cancelNaming s x) := by
  unfold cancelNaming
  repeat' first | with_reducible assumption | with_reducible apply calm_endAct | with_reducible refine calm_foldl (fun _ _ _ => ?_) ?_
theorem calm_immediate {b s : State} (f : Flight) (bad : Bool) (res : Option Nat) (mem : Bool) (effect : State → State × Nat) (h : Calm b s)
    (he : Calm b (effect s).1) : Calm b (immediate s f bad res mem effect) := by
  unfold immediate
  split
  · exact calm_reject _ _ h
  · exact calm_complete _ _ he
theorem calm_schedulable {b s : State} (f : Flight) (bad : Bool) (keys : List (Nat × Nat × Nat)) (res : Option Nat) (mem : Bool)
    (effect : State → State) (h : Calm b s) (he : Calm b (effect s)) : Calm b (schedulable s f bad keys res mem effect) := by
  unfold schedulable
  split
  · exact calm_reject _ _ h
  · split
    · exact calm_accept _ _ _ h (room_of_lateChecks ‹_› ‹_›)
    · exact calm_complete _ _ he
theorem calm_ownBanks {b s : State} (l : List Nat) (x : Nat) (h : Calm b s) : Calm b (ownBanks s l x) := by
  unfold ownBanks
  repeat' first | with_reducible assumption | with_reducible refine calm_foldl (fun _ _ _ => ?_) ?_ | simp only [↓calm_mk'] | simp only [↓calm_mk]
theorem calm_releaseBanks {b s : State} (x : Nat) (h : Calm b s) : Calm b (releaseBanks s x) := by
  unfold releaseBanks
  repeat' first | with_reducible assumption | with_reducible apply calm_ite | simp only [↓calm_mk'] | simp only [↓calm_mk] | split
theorem calm_logBank {b s : State} (n : Nat) (v : Nat) (h : Calm b s) : Calm b (logBank s n v) := by
  unfold logBank
  repeat' first | with_reducible assumption | simp only [↓calm_mk'] | simp only [↓calm_mk]
theorem calm_runBank {b s : State} (y : Nat) (n : Nat) (h : Calm b s) : Calm b (runBank s y n) := by
  unfold runBank
  repeat' first | with_reducible assumption | with_reducible apply calm_logBank | with_reducible apply calm_setF | with_reducible apply calm_setFlag
theorem calm_stopPattern {b s : State}  (h : Calm b s) : Calm b (stopPattern s) := by
  unfold stopPattern
  repeat' first | with_reducible assumption | with_reducible apply calm_logBank | with_reducible apply calm_setFlag
theorem calm_checkPattern {b s : State}  (h : Calm b s) : Calm b (checkPattern s) := by
  unfold checkPattern
  repeat' first | with_reducible assumption | with_reducible apply calm_stopPattern | with_reducible apply calm_ite | simp only [↓calm_mk'] | simp only [↓calm_mk] | split
theorem calm_actTddSwap {b s : State} (p : Pending) (h : Calm b s) : Calm b (actTddSwap s p).1 := by
  unfold actTddSwap
  dsimp only
  repeat' first | with_reducible assumption | with_reducible apply calm_runBank | split
theorem calm_modPort {b s : State} (q : Nat) (f : PortSt → PortSt) (h : Calm b s) : Calm b (modPort s q f) := by
  unfold modPort
  repeat' first | with_reducible assumption | simp only [↓calm_mk'] | simp only [↓calm_mk]
theorem calm_enqueue {b s : State} (q : Nat) (x : Queued) (h : Calm b s) : Calm b (enqueue s q x) := by
  unfold enqueue
  repeat' first | with_reducible assumption | with_reducible apply calm_modPort | with_reducible apply calm_satAdd | with_reducible apply calm_ite | simp only [↓calm_mk'] | simp only [↓calm_mk] | split
theorem calm_enqueueCtrl {b s : State} (q : Nat) (p : Packet) (h : Calm b s) : Calm b (enqueueCtrl s q p) := by
  unfold enqueueCtrl
  repeat' first | with_reducible assumption | with_reducible apply calm_enqueue
theorem calm_setInj {b s : State} (q : Nat) (j : Nat) (x : Option Injector) (h : Calm b s) : Calm b (setInj s q j x) := by
  unfold setInj
  repeat' first | with_reducible assumption | with_reducible apply calm_modPort | simp only [↓calm_mk'] | simp only [↓calm_mk]
theorem calm_countInjected {b s : State} (q : Nat) (j : Nat) (n : Nat) (h : Calm b s) : Calm b (countInjected s q j n) := by
  unfold countInjected
  repeat' first | with_reducible assumption | with_reducible apply calm_satAdd | with_reducible apply calm_setInj | with_reducible apply calm_modPort | with_reducible apply calm_post | with_reducible apply calm_ite | simp only [↓calm_mk'] | simp only [↓calm_mk] | split
theorem calm_stopInj {b s : State} (q : Nat) (j : Nat) (h : Calm b s) : Calm b (stopInj s q j) := by
  unfold stopInj
  repeat' first | with_reducible assumption | with_reducible apply calm_setFlag | with_reducible apply calm_setInj
theorem calm_limitInj {b s : State} (q : Nat) (j : Nat) (h : Calm b s) : Calm b (limitInj s q j) := by
  unfold limitInj
  repeat' first | with_reducible assumption | with_reducible apply calm_stopInj | with_reducible apply calm_ite | simp only [↓calm_mk'] | simp only [↓calm_mk] | split
theorem calm_injectSlot {b s : State} (q side j : Nat) (x : List Byte × Bool) (h : Calm b s) : Calm b (injectSlot s q side j x).1 := by
  unfold injectSlot
  split
  · exact h
  · dsimp only
    repeat' first | with_reducible assumption | with_reducible apply calm_limitInj | with_reducible apply calm_countInjected | with_reducible apply calm_setInj | split
theorem calm_injectFrom {b s : State} (q side first : Nat) (x : List Byte × Bool) (h : Calm b s) : Calm b (injectFrom s q side first x).1 := by
  have aux : ∀ (j : Nat) (l : List (List Byte × Bool)) (r : State × List (List Byte × Bool)), Calm b r.1 →
      Calm b (l.foldl (fun r x => ((injectSlot r.1 q side j x).1, r.2 ++ (injectSlot r.1 q side j x).2)) r).1 := by
    intro j l
    induction l with
    | nil => exact fun _ hr => hr
    | cons x l ih => exact fun r hr => ih _ (calm_injectSlot _ _ _ _ hr)
  have aux2 : ∀ (js : List Nat) (r : State × List (List Byte × Bool)), Calm b r.1 →
      Calm b (js.foldl (fun a j => a.2.foldl (fun r x =>
        ((injectSlot r.1 q side j x).1, r.2 ++ (injectSlot r.1 q side j x).2)) (a.1, [])) r).1 := by
    intro js
    induction js with
    | nil => exact fun _ hr => hr
    | cons j js ih => exact fun r hr => ih _ (aux j _ _ hr)
  exact aux2 _ _ h
theorem calm_injectPacket {b s : State} (q side : Nat) (l : List Byte) (h : Calm b s) : Calm b (injectPacket s q side l).1 :=
  calm_injectFrom _ _ _ _ h
theorem calm_modLane {b s : State} (q : Nat) (l : Nat) (f : LaneSt → LaneSt) (h : Calm b s) : Calm b (modLane s q l f) := by
  unfold modLane
  repeat' first | with_reducible assumption | with_reducible apply calm_modPort | simp only [↓calm_mk'] | simp only [↓calm_mk]
theorem calm_sendBlocks {b s : State} (q : Nat) (l : List Block) (h : Calm b s) : Calm b (sendBlocks s q l) := by
  unfold sendBlocks
  repeat' first | with_reducible assumption | with_reducible apply calm_modPort | with_reducible apply calm_emit | with_reducible apply calm_ite | simp only [↓calm_mk'] | simp only [↓calm_mk] | split
theorem calm_takeCapacity {b s : State} (q : Nat) (p : Packet) (h : Calm b s) : Calm b (takeCapacity s q p) := by
  unfold takeCapacity
  repeat' first | with_reducible assumption | with_reducible apply calm_modPort | with_reducible apply calm_ite | simp only [↓calm_mk'] | simp only [↓calm_mk] | split
theorem calm_sendPacket {b s : State} (q : Nat) (y : List Byte) (h : Calm b s) : Calm b (sendPacket s q y) := by
  unfold sendPacket
  repeat' first | with_reducible assumption | with_reducible apply calm_sendBlocks | with_reducible apply calm_emit
theorem calm_sendBytes {b s : State} (q : Nat) (y : List Byte) (h : Calm b s) : Calm b (sendBytes s q y) := by
  unfold sendBytes
  repeat' first | with_reducible assumption | with_reducible apply calm_injectPacket | with_reducible apply calm_sendPacket | with_reducible refine calm_foldl (fun _ _ _ => ?_) ?_
theorem calm_modPartner {b s : State} (i : Nat) (f : Partner → Partner) (h : Calm b s) : Calm b (modPartner s i f) := by
  unfold modPartner
  repeat' first | with_reducible assumption | simp only [↓calm_mk'] | simp only [↓calm_mk] | split
theorem calm_showStreams {b s : State} (i : Nat) (h : Calm b s) : Calm b (showStreams s i) := by
  unfold showStreams
  repeat' first | with_reducible assumption | with_reducible apply calm_setF
theorem calm_sendPartner {b s : State} (i : Nat) (type : Nat) (payload : List Byte) (h : Calm b s) : Calm b (sendPartner s i type payload) := by
  unfold sendPartner
  repeat' first | with_reducible assumption | with_reducible apply calm_modPartner | with_reducible apply calm_enqueueCtrl | simp only [↓calm_mk'] | simp only [↓calm_mk] | split
theorem calm_sendMessage {b s : State} (i : Nat) (msg : Nat) (body : List Byte) (h : Calm b s) : Calm b (sendMessage s i msg body) := by
  unfold sendMessage
  repeat' first | with_reducible assumption | with_reducible apply calm_sendPartner
theorem calm_modCasc {b s : State} (f : CascSt → CascSt) (h : Calm b s) : Calm b (modCasc s f) := by
  unfold modCasc
  repeat' first | with_reducible assumption | simp only [↓calm_mk'] | simp only [↓calm_mk]
theorem calm_showChain {b s : State}  (h : Calm b s) : Calm b (showChain s) := by
  unfold showChain
  repeat' first | with_reducible assumption | with_reducible apply calm_setFlag | with_reducible apply calm_ite | split
theorem calm_sendCascade {b s : State} (q : Nat) (msg : Nat) (body : List Byte) (h : Calm b s) : Calm b (sendCascade s q msg body) := by
  unfold sendCascade
  repeat' first | with_reducible assumption | with_reducible apply calm_modCasc | with_reducible apply calm_enqueueCtrl | simp only [↓calm_mk'] | simp only [↓calm_mk]
theorem calm_sendReport {b s : State} (e : Nat) (h : Calm b s) : Calm b (sendReport s e) := by
  unfold sendReport
  repeat' first | with_reducible assumption | with_reducible apply calm_sendCascade | with_reducible apply calm_ite | split
theorem calm_sendReports {b s : State}  (h : Calm b s) : Calm b (sendReports s) := by
  unfold sendReports
  repeat' first | with_reducible assumption | with_reducible apply calm_sendReport | with_reducible refine calm_foldl (fun _ _ _ => ?_) ?_ | simp only [↓calm_mk'] | simp only [↓calm_mk] | split
theorem calm_sendAssign {b s : State} (index : Nat) (depth : Nat) (common : Nat) (e : Nat) (h : Calm b s) : Calm b (sendAssign s index depth common e) := by
  unfold sendAssign
  repeat' first | with_reducible assumption | with_reducible apply calm_sendCascade
theorem calm_childPortChanged {b s : State}  (h : Calm b s) : Calm b (childPortChanged s) := by
  unfold childPortChanged
  repeat' first | with_reducible assumption | with_reducible apply calm_showChain | with_reducible apply calm_modCasc | with_reducible apply calm_sendReports | with_reducible apply calm_ite | simp only [↓calm_mk'] | simp only [↓calm_mk] | split
theorem calm_putCarrier {b s : State} (i : Nat) (c : Carrier) (h : Calm b s) : Calm b (putCarrier s i c) := by
  unfold putCarrier
  repeat' first | with_reducible assumption | simp only [↓calm_mk'] | simp only [↓calm_mk]
theorem calm_modCarrier {b s : State} (i : Nat) (f : Carrier → Carrier) (h : Calm b s) : Calm b (modCarrier s i f) := by
  unfold modCarrier
  repeat' first | with_reducible assumption | with_reducible apply calm_putCarrier | simp only [↓calm_mk'] | simp only [↓calm_mk] | split
theorem calm_putStream {b s : State} (i : Nat) (x : Stream) (h : Calm b s) : Calm b (putStream s i x) := by
  unfold putStream
  repeat' first | with_reducible assumption | simp only [↓calm_mk'] | simp only [↓calm_mk]
theorem calm_modStream {b s : State} (i : Nat) (f : Stream → Stream) (h : Calm b s) : Calm b (modStream s i f) := by
  unfold modStream
  repeat' first | with_reducible assumption | with_reducible apply calm_putStream | simp only [↓calm_mk'] | simp only [↓calm_mk] | split
theorem calm_modStreamsOf {b s : State} (i : Nat) (f : Stream → Stream) (h : Calm b s) : Calm b (modStreamsOf s i f) := by
  unfold modStreamsOf
  repeat' first | with_reducible assumption | with_reducible apply calm_ite | simp only [↓calm_mk'] | simp only [↓calm_mk] | split
theorem calm_countUnmapped {b s : State} (n : Nat) (h : Calm b s) : Calm b (countUnmapped s n) := by
  unfold countUnmapped
  repeat' first | with_reducible assumption | with_reducible apply calm_satAdd | simp only [↓calm_mk'] | simp only [↓calm_mk]
theorem calm_addUlSpan {b s : State} (i : Nat) (a : Nat) (y : Nat) (h : Calm b s) : Calm b (addUlSpan s i a y) := by
  unfold addUlSpan
  repeat' first | with_reducible assumption | with_reducible apply calm_modCarrier | simp only [↓calm_mk'] | simp only [↓calm_mk]
theorem calm_addDlSpan {b s : State} (i : Nat) (a : Nat) (y : Nat) (h : Calm b s) : Calm b (addDlSpan s i a y) := by
  unfold addDlSpan
  repeat' first | with_reducible assumption | with_reducible apply calm_modCarrier | simp only [↓calm_mk'] | simp only [↓calm_mk]
theorem calm_spoilByDelay {b s : State} (n : Nat) (d1 : Nat) (d2 : Nat) (h : Calm b s) : Calm b (spoilByDelay s n d1 d2) := by
  unfold spoilByDelay
  repeat' first | with_reducible assumption | with_reducible apply calm_addUlSpan | with_reducible apply calm_ite | with_reducible refine calm_foldl (fun _ _ _ => ?_) ?_ | split
theorem calm_restartDl {b s : State} (i : Nat) (c : Carrier) (n : Nat) (h : Calm b s) : Calm b (restartDl s i c n) := by
  unfold restartDl
  repeat' first | with_reducible assumption | with_reducible apply calm_modStreamsOf | with_reducible apply calm_ite | split
theorem calm_moveOrigin {b s : State} (i : Nat) (g : Nat) (h : Calm b s) : Calm b (moveOrigin s i g) := by
  unfold moveOrigin
  repeat' first | with_reducible assumption | with_reducible apply calm_modStreamsOf | with_reducible apply calm_ite | simp only [↓calm_mk'] | simp only [↓calm_mk] | split
theorem calm_keepOldSlots {b s : State} (i : Nat) (g : Nat) (h : Calm b s) : Calm b (keepOldSlots s i g) := by
  unfold keepOldSlots
  repeat' first | with_reducible assumption | with_reducible apply calm_modStreamsOf | with_reducible apply calm_ite | simp only [↓calm_mk'] | simp only [↓calm_mk] | split
theorem calm_sendGrant {b s : State} (j : Nat) (h : Calm b s) : Calm b (sendGrant s j) := by
  unfold sendGrant
  repeat' first | with_reducible assumption | with_reducible apply calm_sendMessage | simp only [↓calm_mk'] | simp only [↓calm_mk] | split
theorem calm_regrant {b s : State} (i : Nat) (k : Nat) (g : Nat) (h : Calm b s) : Calm b (regrant s i k g) := by
  unfold regrant
  repeat' first | with_reducible assumption | with_reducible apply calm_modStreamsOf | with_reducible apply calm_sendGrant | with_reducible refine calm_foldl (fun _ _ _ => ?_) ?_ | simp only [↓calm_mk'] | simp only [↓calm_mk]
theorem calm_spoilByGain {b s : State} (n : Nat) (h : Calm b s) : Calm b (spoilByGain s n) := by
  unfold spoilByGain
  repeat' first | with_reducible assumption | with_reducible apply calm_addUlSpan | with_reducible apply calm_ite | with_reducible refine calm_foldl (fun _ _ _ => ?_) ?_ | split
theorem calm_captureRates {b s : State} (i : Nat) (g : Nat) (k : Nat) (h : Calm b s) : Calm b (captureRates s i g k) := by
  unfold captureRates
  repeat' first | with_reducible assumption | with_reducible apply calm_ite | simp only [↓calm_mk'] | simp only [↓calm_mk] | split
theorem calm_applyCarrierSet {b s : State} (c : Cmd) (id : Nat) (n : Nat) (h : Calm b s) : Calm b (applyCarrierSet s c id n) := by
  unfold applyCarrierSet
  repeat' first | with_reducible assumption | with_reducible apply calm_countUnmapped | with_reducible apply calm_restartDl | with_reducible apply calm_moveOrigin | with_reducible apply calm_putCarrier | with_reducible apply calm_keepOldSlots | with_reducible apply calm_captureRates | with_reducible apply calm_ite | simp only [↓calm_mk'] | simp only [↓calm_mk] | split
theorem calm_applyCorr {b s : State} (path : Nat) (d : Nat) (taper : Nat) (phase : Nat) (delay : Nat) (n : Nat) (h : Calm b s) : Calm b (applyCorr s path d taper phase delay n) := by
  unfold applyCorr
  repeat' first | with_reducible assumption | with_reducible apply calm_setF | with_reducible apply calm_spoilByDelay | with_reducible apply calm_ite | split
theorem calm_writeF {b s : State} (f : Fld) (v : Nat) (h : Calm b s) : Calm b (writeF s f v) := by
  unfold writeF
  repeat' first | with_reducible assumption | with_reducible apply calm_setF | with_reducible apply calm_ite | split
theorem calm_writeCorr {b s : State} (path : Nat) (d : Nat) (word : Nat) (data : Nat) (h : Calm b s) : Calm b (writeCorr s path d word data) := by
  unfold writeCorr
  repeat' first | with_reducible assumption | with_reducible apply calm_writeF | with_reducible apply calm_spoilByDelay | with_reducible apply calm_ite | split
theorem calm_modMemc {b s : State} (f : MemcSt → MemcSt) (h : Calm b s) : Calm b (modMemc s f) := by
  unfold modMemc
  repeat' first | with_reducible assumption | simp only [↓calm_mk'] | simp only [↓calm_mk]
theorem calm_accessRow {b s : State} (a : Nat) (h : Calm b s) : Calm b (accessRow s a) := by
  unfold accessRow
  repeat' first | with_reducible assumption | with_reducible apply calm_modMemc | with_reducible apply calm_ite | simp only [↓calm_mk'] | simp only [↓calm_mk] | split
theorem calm_writeBack {b s : State} (l : List (Nat × Nat)) (h : Calm b s) : Calm b (writeBack s l) := by
  unfold writeBack
  repeat' first | with_reducible assumption | with_reducible apply calm_accessRow | with_reducible apply calm_modMemc | with_reducible refine calm_foldl (fun _ _ _ => ?_) ?_ | simp only [↓calm_mk'] | simp only [↓calm_mk]
theorem calm_queueWrite {b s : State} (word : Nat) (mask : Nat) (h : Calm b s) : Calm b (queueWrite s word mask) := by
  unfold queueWrite
  repeat' first | with_reducible assumption | with_reducible apply calm_modMemc | with_reducible apply calm_writeBack | with_reducible apply calm_setF | with_reducible apply calm_ite | simp only [↓calm_mk'] | simp only [↓calm_mk] | split
theorem calm_queueRead {b s : State} (word : Nat) (mask : Nat) (h : Calm b s) : Calm b (queueRead s word mask) := by
  unfold queueRead
  repeat' first | with_reducible assumption | with_reducible apply calm_satAdd | with_reducible apply calm_accessRow | with_reducible apply calm_writeBack | with_reducible apply calm_ite | split
theorem calm_serveRequests {b s : State} (n : Nat) (h : Calm b s) : Calm b (serveRequests n s) := by
  induction n generalizing s with
  | zero => exact h
  | succ n ih =>
    unfold serveRequests
    dsimp only
    split
    · exact h
    · refine ih ?_
      split
      · exact calm_queueWrite _ _ (calm_modMemc _ h)
      · exact calm_queueRead _ _ (calm_modMemc _ h)
theorem calm_serveWaiting {b s : State}  (h : Calm b s) : Calm b (serveWaiting s) := by
  unfold serveWaiting
  repeat' first | with_reducible assumption | with_reducible apply calm_modMemc | with_reducible apply calm_serveRequests | with_reducible apply calm_emit | with_reducible apply calm_ite | with_reducible refine calm_foldl (fun _ _ _ => ?_) ?_ | simp only [↓calm_mk'] | simp only [↓calm_mk] | split
theorem calm_startGather {b s : State}  (h : Calm b s) : Calm b (startGather s) := by
  unfold startGather
  repeat' first | with_reducible assumption | with_reducible apply calm_setFlag | with_reducible apply calm_modMemc | simp only [↓calm_mk'] | simp only [↓calm_mk]
theorem calm_payGather {b s : State}  (h : Calm b s) : Calm b (payGather s) := by
  unfold payGather
  repeat' first | with_reducible assumption | with_reducible apply calm_startGather | with_reducible apply calm_ite | split
theorem calm_askRate {b s : State}  (h : Calm b s) : Calm b (askRate s) := by
  unfold askRate
  repeat' first | with_reducible assumption | with_reducible apply calm_setFlag | with_reducible apply calm_satAdd | with_reducible apply calm_ite | split
theorem calm_endChange {b s : State}  (h : Calm b s) : Calm b (endChange s) := by
  unfold endChange
  repeat' first | with_reducible assumption | with_reducible apply calm_setF | with_reducible apply calm_modMemc | with_reducible apply calm_askRate | with_reducible apply calm_payGather | with_reducible apply calm_serveWaiting | with_reducible apply calm_setFlag | simp only [↓calm_mk'] | simp only [↓calm_mk] | split
theorem calm_leaveSr {b s : State}  (h : Calm b s) : Calm b (leaveSr s) := by
  unfold leaveSr
  repeat' first | with_reducible assumption | with_reducible apply calm_payGather | with_reducible apply calm_serveWaiting | with_reducible apply calm_wrapAdd | with_reducible apply calm_setFlag | with_reducible apply calm_modMemc | simp only [↓calm_mk'] | simp only [↓calm_mk]
theorem calm_fillsLosePort {b s : State}  (h : Calm b s) : Calm b (fillsLosePort s) := by
  unfold fillsLosePort
  repeat' first | with_reducible assumption | with_reducible apply calm_ite | simp only [↓calm_mk'] | simp only [↓calm_mk] | split
theorem calm_dramLost {b s : State}  (h : Calm b s) : Calm b (dramLost s) := by
  unfold dramLost
  repeat' first | with_reducible assumption | with_reducible apply calm_setFlag | with_reducible apply calm_emit | with_reducible apply calm_raiseFlag | with_reducible apply calm_askRate | with_reducible apply calm_fillsLosePort | with_reducible apply calm_modMemc | with_reducible refine calm_foldl (fun _ _ _ => ?_) ?_
theorem calm_trainFail {b s : State} (channel : Nat) (step : Nat) (h : Calm b s) : Calm b (trainFail s channel step) := by
  unfold trainFail
  repeat' first | with_reducible assumption | with_reducible apply calm_post | with_reducible apply calm_setF
theorem calm_endPause {b s : State} (fail0 : Bool) (fail1 : Bool) (h : Calm b s) : Calm b (endPause s fail0 fail1) := by
  unfold endPause
  repeat' first | with_reducible assumption | with_reducible apply calm_setFlag | with_reducible apply calm_modMemc | with_reducible apply calm_wrapAdd | with_reducible apply calm_serveWaiting | with_reducible apply calm_trainFail | with_reducible apply calm_satAdd | with_reducible apply calm_dramLost | with_reducible apply calm_setF | with_reducible apply calm_ite | simp only [↓calm_mk'] | simp only [↓calm_mk] | split
theorem calm_settleDram {b s : State}  (h : Calm b s) : Calm b (settleDram s) := by
  unfold settleDram
  repeat' first | with_reducible assumption | with_reducible apply calm_leaveSr | with_reducible apply calm_endPause | with_reducible apply calm_endChange | with_reducible apply calm_ite | simp only [↓calm_mk'] | simp only [↓calm_mk] | split
theorem calm_disturbSr {b s : State}  (h : Calm b s) : Calm b (disturbSr s) := by
  unfold disturbSr
  repeat' first | with_reducible assumption | with_reducible apply calm_settleDram | with_reducible apply calm_modMemc | with_reducible apply calm_payGather | with_reducible apply calm_satAdd | with_reducible apply calm_setFlag | with_reducible apply calm_ite | simp only [↓calm_mk'] | simp only [↓calm_mk] | split
theorem calm_modPmc {b s : State} (f : PmcSt → PmcSt) (h : Calm b s) : Calm b (modPmc s f) := by
  unfold modPmc
  repeat' first | with_reducible assumption | simp only [↓calm_mk'] | simp only [↓calm_mk]
theorem calm_noteRequest {b s : State}  (h : Calm b s) : Calm b (noteRequest s) := by
  unfold noteRequest
  repeat' first | with_reducible assumption | with_reducible apply calm_modPmc | simp only [↓calm_mk'] | simp only [↓calm_mk]
theorem calm_countEvent {b s : State} (a : Nat) (i : Nat) (n : Nat) (h : Calm b s) : Calm b (countEvent s a i n) := by
  unfold countEvent
  repeat' first | with_reducible assumption | with_reducible apply calm_setN | with_reducible apply calm_setF | with_reducible apply calm_ite | split
theorem calm_settleSampling {b s : State} (a : Nat) (n : Nat) (m : Nat) (h : Calm b s) : Calm b (settleSampling s a n m) := by
  unfold settleSampling
  repeat' first | with_reducible assumption | with_reducible apply calm_modPmc | with_reducible apply calm_ite | simp only [↓calm_mk'] | simp only [↓calm_mk] | split
theorem calm_settlePmc {b s : State} (a : Nat) (h : Calm b s) : Calm b (settlePmc s a) := by
  unfold settlePmc
  repeat' first | with_reducible assumption | with_reducible apply calm_settleSampling | with_reducible apply calm_modPmc | with_reducible apply calm_set64 | with_reducible apply calm_countEvent | with_reducible apply calm_ite | with_reducible refine calm_foldl (fun _ _ _ => ?_) ?_ | simp only [↓calm_mk'] | simp only [↓calm_mk] | split
theorem calm_settleAllPmc {b s : State}  (h : Calm b s) : Calm b (settleAllPmc s) := by
  unfold settleAllPmc
  repeat' first | with_reducible assumption | with_reducible apply calm_settlePmc | with_reducible refine calm_foldl (fun _ _ _ => ?_) ?_
theorem calm_loseCycle {b s : State} (addr : Nat) (h : Calm b s) : Calm b (loseCycle s addr) := by
  unfold loseCycle
  repeat' first | with_reducible assumption | with_reducible apply calm_modPmc | simp only [↓calm_mk'] | simp only [↓calm_mk]
theorem calm_writePmcCtl {b s : State} (a : Nat) (data : Nat) (h : Calm b s) : Calm b (writePmcCtl s a data) := by
  unfold writePmcCtl
  repeat' first | with_reducible assumption | with_reducible apply calm_setF | with_reducible apply calm_settlePmc | with_reducible apply calm_loseCycle | with_reducible apply calm_setN | with_reducible apply calm_set64 | with_reducible apply calm_ite | with_reducible refine calm_foldl (fun _ _ _ => ?_) ?_ | split
theorem calm_writeCounter {b s : State} (a : Nat) (addr : Nat) (data : Nat) (h : Calm b s) : Calm b (writeCounter s a addr data) := by
  unfold writeCounter
  repeat' first | with_reducible assumption | with_reducible apply calm_settlePmc | with_reducible apply calm_setN | with_reducible apply calm_modPmc | with_reducible apply calm_loseCycle | simp only [↓calm_mk'] | simp only [↓calm_mk] | split
theorem calm_readCounter {b s : State} (a : Nat) (addr : Nat) (host : Bool) (h : Calm b s) : Calm b (readCounter s a addr host).1 := by
  unfold readCounter
  repeat' first | with_reducible assumption | with_reducible apply calm_settlePmc | with_reducible apply calm_modPmc | with_reducible apply calm_ite | simp only [↓calm_mk'] | simp only [↓calm_mk] | split
theorem calm_restartSampling {b s : State} (a : Nat) (data : Nat) (h : Calm b s) : Calm b (restartSampling s a data) := by
  unfold restartSampling
  repeat' first | with_reducible assumption | with_reducible apply calm_modPmc | with_reducible apply calm_ite | simp only [↓calm_mk'] | simp only [↓calm_mk] | split
theorem calm_writeSampWr {b s : State} (data : Nat) (h : Calm b s) : Calm b (writeSampWr s data) := by
  unfold writeSampWr
  repeat' first | with_reducible assumption | with_reducible apply calm_setFlag | with_reducible apply calm_setF
theorem calm_stopSampling {b s : State}  (h : Calm b s) : Calm b (stopSampling s) := by
  unfold stopSampling
  repeat' first | with_reducible assumption | with_reducible apply calm_setFlag | with_reducible refine calm_foldl (fun _ _ _ => ?_) ?_
theorem calm_setChState {b s : State} (c : Nat) (n : Nat) (h : Calm b s) : Calm b (setChState s c n) := by
  unfold setChState
  repeat' first | with_reducible assumption | with_reducible apply calm_setF
theorem calm_modCh {b s : State} (c : Nat) (f : DmaCh → DmaCh) (h : Calm b s) : Calm b (modCh s c f) := by
  unfold modCh
  repeat' first | with_reducible assumption | with_reducible apply calm_setF | simp only [↓calm_mk'] | simp only [↓calm_mk] | split
theorem calm_setSpaceAddr {b s : State} (lo : Reg) (hi : Reg) (space : Nat) (addr : Nat) (h : Calm b s) : Calm b (setSpaceAddr s lo hi space addr) := by
  unfold setSpaceAddr
  repeat' first | with_reducible assumption | with_reducible apply calm_set64
theorem calm_setPc {b s : State} (c : Nat) (space : Nat) (addr : Nat) (h : Calm b s) : Calm b (setPc s c space addr) := by
  unfold setPc
  repeat' first | with_reducible assumption | with_reducible apply calm_setSpaceAddr
theorem calm_setScur {b s : State} (c : Nat) (space : Nat) (addr : Nat) (h : Calm b s) : Calm b (setScur s c space addr) := by
  unfold setScur
  repeat' first | with_reducible assumption | with_reducible apply calm_setSpaceAddr
theorem calm_setDcur {b s : State} (c : Nat) (space : Nat) (addr : Nat) (h : Calm b s) : Calm b (setDcur s c space addr) := by
  unfold setDcur
  repeat' first | with_reducible assumption | with_reducible apply calm_setSpaceAddr
theorem calm_setDone {b s : State} (c : Nat) (n : Nat) (h : Calm b s) : Calm b (setDone s c n) := by
  unfold setDone
  repeat' first | with_reducible assumption | with_reducible apply calm_setF
theorem calm_hostBytes {b s : State} (a : Nat) (l : List Byte) (h : Calm b s) : Calm b (hostBytes s a l) := by
  unfold hostBytes
  repeat' first | with_reducible assumption | with_reducible apply calm_hostWrite | with_reducible refine calm_foldl (fun _ _ _ => ?_) ?_
theorem calm_flushKept {b s : State} (c : Nat) (h : Calm b s) : Calm b (flushKept s c) := by
  unfold flushKept
  repeat' first | with_reducible assumption | with_reducible apply calm_modCh | with_reducible apply calm_setDone | with_reducible apply calm_hostBytes | with_reducible apply calm_ite | simp only [↓calm_mk'] | simp only [↓calm_mk] | split
theorem calm_postDmaHalt {b s : State} (c : Nat) (status : Nat) (h : Calm b s) : Calm b (postDmaHalt s c status) := by
  unfold postDmaHalt
  repeat' first | with_reducible assumption | with_reducible apply calm_post
theorem calm_haltDma {b s : State} (c : Nat) (status : Nat) (tell : Bool) (h : Calm b s) : Calm b (haltDma s c status tell) := by
  unfold haltDma
  repeat' first | with_reducible assumption | with_reducible apply calm_leaveStrays | with_reducible apply calm_flushKept | with_reducible apply calm_modCh | with_reducible apply calm_setF | with_reducible apply calm_setChState | with_reducible apply calm_postDmaHalt | with_reducible apply calm_complete | with_reducible apply calm_ite | with_reducible refine calm_foldl (fun _ _ _ => ?_) ?_ | simp only [↓calm_mk'] | simp only [↓calm_mk] | split
theorem calm_faultDma {b s : State} (c : Nat) (status : Nat) (h : Calm b s) : Calm b (faultDma s c status) := by
  unfold faultDma
  repeat' first | with_reducible assumption | with_reducible apply calm_haltDma | with_reducible apply calm_ite | split
theorem calm_periphGone {b s : State} (i : Nat) (h : Calm b s) : Calm b (periphGone s i) := by
  unfold periphGone
  repeat' first | with_reducible assumption | with_reducible apply calm_haltDma | with_reducible apply calm_ite | with_reducible refine calm_foldl (fun _ _ _ => ?_) ?_ | split
theorem calm_periphEnded {b s : State} (i : Nat) (h : Calm b s) : Calm b (periphEnded s i) := by
  unfold periphEnded
  repeat' first | with_reducible assumption | with_reducible apply calm_haltDma | with_reducible apply calm_ite | with_reducible refine calm_foldl (fun _ _ _ => ?_) ?_ | simp only [↓calm_mk'] | simp only [↓calm_mk] | split
theorem calm_showFifo {b s : State} (k : Nat) (h : Calm b s) : Calm b (showFifo s k) := by
  unfold showFifo
  repeat' first | with_reducible assumption | with_reducible apply calm_setF
theorem calm_mirrorCtrl {b s : State} (q : Nat) (payload : List Byte) (msg : Nat) (h : Calm b s) : Calm b (mirrorCtrl s q payload msg) := by
  unfold mirrorCtrl
  repeat' first | with_reducible assumption | with_reducible apply calm_satAdd | with_reducible apply calm_ite | simp only [↓calm_mk'] | simp only [↓calm_mk] | split
theorem calm_modOrx {b s : State} (k : Nat) (f : OrxSched → OrxSched) (h : Calm b s) : Calm b (modOrx s k f) := by
  unfold modOrx
  repeat' first | with_reducible assumption | simp only [↓calm_mk'] | simp only [↓calm_mk]
theorem calm_loseSlot {b s : State} (k : Nat) (h : Calm b s) : Calm b (loseSlot s k) := by
  unfold loseSlot
  repeat' first | with_reducible assumption | with_reducible apply calm_satAdd | with_reducible refine calm_foldl (fun _ _ _ => ?_) ?_ | simp only [↓calm_mk'] | simp only [↓calm_mk]
theorem calm_dropVisit {b s : State} (k : Nat) (h : Calm b s) : Calm b (dropVisit s k) := by
  unfold dropVisit
  repeat' first | with_reducible assumption | with_reducible apply calm_modOrx | with_reducible apply calm_loseSlot | with_reducible apply calm_setF | with_reducible apply calm_ite | simp only [↓calm_mk'] | simp only [↓calm_mk] | split
theorem calm_takeOrx {b s : State} (k : Nat) (rank : Nat) (h : Calm b s) : Calm b (takeOrx s k rank) := by
  unfold takeOrx
  repeat' first | with_reducible assumption | with_reducible apply calm_dropVisit | with_reducible apply calm_setF | with_reducible apply calm_ite | simp only [↓calm_mk'] | simp only [↓calm_mk] | split
theorem calm_startCapture {b s : State} (x : Nat) (n : Nat) (h : Calm b s) : Calm b (startCapture s x n) := by
  unfold startCapture
  repeat' first | with_reducible assumption | with_reducible apply calm_ite | simp only [↓calm_mk'] | simp only [↓calm_mk] | split
theorem calm_modCapture {b s : State} (x : Nat) (f : Capture → Capture) (h : Calm b s) : Calm b (modCapture s x f) := by
  unfold modCapture
  repeat' first | with_reducible assumption | with_reducible apply calm_ite | simp only [↓calm_mk'] | simp only [↓calm_mk] | split
theorem calm_setLive {b s : State} (n : Nat) (y : Nat) (block : List Byte) (h : Calm b s) : Calm b (setLive s n y block) := by
  unfold setLive
  repeat' first | with_reducible assumption | simp only [↓calm_mk'] | simp only [↓calm_mk]
theorem calm_writeTerm {b s : State} (k : Nat) (data : Nat) (h : Calm b s) : Calm b (writeTerm s k data) := by
  unfold writeTerm
  repeat' first | with_reducible assumption | with_reducible apply calm_setF | simp only [↓calm_mk'] | simp only [↓calm_mk]
theorem calm_setOrxIf {b s : State}  (h : Calm b s) : Calm b (setOrxIf s) := by
  unfold setOrxIf
  repeat' first | with_reducible assumption | with_reducible apply calm_setFlag | with_reducible apply calm_setN | with_reducible refine calm_foldl (fun _ _ _ => ?_) ?_
theorem calm_policyEffect {b s : State} (n : Nat) (h : Calm b s) : Calm b (policyEffect s n) := by
  unfold policyEffect
  repeat' first | with_reducible assumption | with_reducible apply calm_dropVisit | with_reducible apply calm_ite | simp only [↓calm_mk'] | simp only [↓calm_mk] | split
theorem calm_applyPolicy {b s : State} (c : Cmd) (h : Calm b s) : Calm b (applyPolicy s c) := by
  unfold applyPolicy
  repeat' first | with_reducible assumption | with_reducible apply calm_setF | with_reducible apply calm_policyEffect | with_reducible apply calm_ite | with_reducible refine calm_foldl (fun _ _ _ => ?_) ?_ | split
theorem calm_writePolicy {b s : State} (n : Nat) (data : Nat) (h : Calm b s) : Calm b (writePolicy s n data) := by
  unfold writePolicy
  repeat' first | with_reducible assumption | with_reducible apply calm_setF | with_reducible apply calm_policyEffect
theorem calm_coefArrived {b s : State} (f : Flight) (host : List Byte) (h : Calm b s) : Calm b (coefArrived s f host) := by
  unfold coefArrived
  dsimp only
  with_reducible refine calm_ite (calm_reject _ _ h) ?_
  with_reducible refine calm_ite (calm_reject _ _ h) ?_
  by_cases hq : 512 ≤ s.acts.length
  · rw [if_pos hq]; exact calm_reject _ _ h
  · rw [if_neg hq]; exact calm_accept _ _ _ h (by omega)
theorem calm_actCoefLoad {b s : State} (p : Pending) (h : Calm b s) : Calm b (actCoefLoad s p).1 := by
  unfold actCoefLoad
  repeat' first | with_reducible assumption | with_reducible apply calm_setLive | with_reducible apply calm_ite | split
theorem calm_markStale {b s : State}  (h : Calm b s) : Calm b (markStale s) := by
  unfold markStale
  repeat' first | with_reducible assumption | with_reducible apply calm_setFlag | with_reducible apply calm_ite | with_reducible refine calm_foldl (fun _ _ _ => ?_) ?_ | split
theorem calm_planVisit {b s : State} (k : Nat) (x : Nat) (path : Nat) (pos : Option Nat) (h : Calm b s) : Calm b (planVisit s k x path pos) := by
  unfold planVisit
  repeat' first | with_reducible assumption | with_reducible apply calm_modOrx | with_reducible apply calm_loseSlot | with_reducible apply calm_ite | simp only [↓calm_mk'] | simp only [↓calm_mk] | split
theorem calm_startDpdSlot {b s : State} (k : Nat) (h : Calm b s) : Calm b (startDpdSlot s k) := by
  unfold startDpdSlot
  repeat' first | with_reducible assumption | with_reducible apply calm_loseSlot | with_reducible apply calm_planVisit | with_reducible apply calm_modOrx | with_reducible apply calm_ite | simp only [↓calm_mk'] | simp only [↓calm_mk] | split
theorem calm_finishVisit {b s : State} (k : Nat) (v : Visit) (h : Calm b s) : Calm b (finishVisit s k v) := by
  unfold finishVisit
  repeat' first | with_reducible assumption | with_reducible apply calm_setF | with_reducible apply calm_wrapAdd | with_reducible apply calm_modOrx | with_reducible apply calm_ite | simp only [↓calm_mk'] | simp only [↓calm_mk] | split
theorem calm_noteStart {b s : State} (k : Nat) (n : Nat) (h : Calm b s) : Calm b (noteStart s k n) := by
  unfold noteStart
  repeat' first | with_reducible assumption | with_reducible apply calm_setF | simp only [↓calm_mk'] | simp only [↓calm_mk] | split
theorem calm_setBase {b s : State} (bin : Nat) (base : Option Coefs) (h : Calm b s) : Calm b (setBase s bin base) := by
  unfold setBase
  repeat' first | with_reducible assumption | with_reducible apply calm_ite | simp only [↓calm_mk'] | simp only [↓calm_mk] | split
theorem calm_applyDpdSwap {b s : State} (x : AdaptSwap) (h : Calm b s) : Calm b (applyDpdSwap s x) := by
  unfold applyDpdSwap
  repeat' first | with_reducible assumption | with_reducible apply calm_setLive | with_reducible apply calm_markStale | with_reducible apply calm_ite | simp only [↓calm_mk'] | simp only [↓calm_mk] | split
theorem calm_discardCaptures {b s : State}  (h : Calm b s) : Calm b (discardCaptures s) := by
  unfold discardCaptures
  repeat' first | with_reducible assumption | with_reducible apply calm_post | with_reducible apply calm_dropVisit | with_reducible apply calm_ite | with_reducible refine calm_foldl (fun _ _ _ => ?_) ?_ | simp only [↓calm_mk'] | simp only [↓calm_mk] | split
theorem calm_dpdRetune {b s : State} (i : Nat) (h : Calm b s) : Calm b (dpdRetune s i) := by
  unfold dpdRetune
  repeat' first | with_reducible assumption | with_reducible apply calm_discardCaptures | with_reducible apply calm_setOrxIf | with_reducible apply calm_markStale | with_reducible apply calm_ite | simp only [↓calm_mk'] | simp only [↓calm_mk] | split
theorem calm_dpdLocked {b s : State} (i : Nat) (h : Calm b s) : Calm b (dpdLocked s i) := by
  unfold dpdLocked
  repeat' first | with_reducible assumption | with_reducible apply calm_ite | simp only [↓calm_mk'] | simp only [↓calm_mk] | split
theorem calm_orxEnChanged {b s : State} (k : Nat) (h : Calm b s) : Calm b (orxEnChanged s k) := by
  unfold orxEnChanged
  repeat' first | with_reducible assumption | with_reducible apply calm_dropVisit | with_reducible apply calm_setF | with_reducible apply calm_ite | split
theorem calm_dpdOnSync {b s : State}  (h : Calm b s) : Calm b (dpdOnSync s) := by
  unfold dpdOnSync
  repeat' first | with_reducible assumption | with_reducible apply calm_dropVisit | with_reducible refine calm_foldl (fun _ _ _ => ?_) ?_ | simp only [↓calm_mk'] | simp only [↓calm_mk]
theorem calm_setLoCal {b s : State} (i : Nat) (x : Option LoCal) (h : Calm b s) : Calm b (setLoCal s i x) := by
  unfold setLoCal
  repeat' first | with_reducible assumption | with_reducible apply calm_setFlag | simp only [↓calm_mk'] | simp only [↓calm_mk] | split
theorem calm_unlockedTx {b s : State} (mask : Nat) (h : Calm b s) : Calm b (unlockedTx s mask) := by
  unfold unlockedTx
  repeat' first | with_reducible assumption | with_reducible apply calm_post | with_reducible apply calm_raiseFlag | with_reducible apply calm_ite | split
theorem calm_unlockLo {b s : State} (i : Nat) (h : Calm b s) : Calm b (unlockLo s i) := by
  unfold unlockLo
  repeat' first | with_reducible assumption | with_reducible apply calm_raiseFlag | with_reducible apply calm_setFlag | with_reducible apply calm_unlockedTx | with_reducible apply calm_ite | split
theorem calm_tableBuilt {b s : State} (i : Nat) (good : Bool) (h : Calm b s) : Calm b (tableBuilt s i good) := by
  unfold tableBuilt
  repeat' first | with_reducible assumption | with_reducible apply calm_setFlag | with_reducible apply calm_setF | with_reducible apply calm_ite | split
theorem calm_beginCal {b s : State} (i : Nat) (kind : Nat) (n : Nat) (h : Calm b s) : Calm b (beginCal s i kind n) := by
  unfold beginCal
  repeat' first | with_reducible assumption | with_reducible apply calm_unlockLo | with_reducible apply calm_setLoCal | with_reducible apply calm_post
theorem calm_settleLo {b s : State} (i : Nat) (h : Calm b s) : Calm b (settleLo s i) := by
  unfold settleLo
  repeat' first | with_reducible assumption | with_reducible apply calm_post | with_reducible apply calm_beginCal | with_reducible apply calm_ite | simp only [↓calm_mk'] | simp only [↓calm_mk] | split
theorem calm_settleLos {b s : State}  (h : Calm b s) : Calm b (settleLos s) := by
  unfold settleLos
  repeat' first | with_reducible assumption | with_reducible apply calm_settleLo
theorem calm_askCal {b s : State} (i : Nat) (kind : Nat) (h : Calm b s) : Calm b (askCal s i kind) := by
  unfold askCal
  repeat' first | with_reducible assumption | with_reducible apply calm_settleLo | with_reducible apply calm_beginCal | with_reducible apply calm_setLoCal | with_reducible apply calm_ite | simp only [↓calm_mk'] | simp only [↓calm_mk] | split
theorem calm_abortCal {b s : State} (i : Nat) (h : Calm b s) : Calm b (abortCal s i) := by
  unfold abortCal
  repeat' first | with_reducible assumption | with_reducible apply calm_settleLo | with_reducible apply calm_post | with_reducible apply calm_setFlag | with_reducible apply calm_setLoCal | with_reducible apply calm_ite | simp only [↓calm_mk'] | simp only [↓calm_mk] | split
theorem calm_startLo {b s : State} (i : Nat) (n : Nat) (table : Bool) (pod : Bool) (h : Calm b s) : Calm b (startLo s i n table pod) := by
  unfold startLo
  repeat' first | with_reducible assumption | with_reducible apply calm_settleLo | with_reducible apply calm_setLoCal | with_reducible apply calm_post | with_reducible apply calm_unlockLo | with_reducible apply calm_setFlag | with_reducible apply calm_ite | simp only [↓calm_mk'] | simp only [↓calm_mk] | split
theorem calm_stopLo {b s : State} (i : Nat) (h : Calm b s) : Calm b (stopLo s i) := by
  unfold stopLo
  repeat' first | with_reducible assumption | with_reducible apply calm_settleLo | with_reducible apply calm_setFlag | with_reducible apply calm_setLoCal | with_reducible apply calm_unlockLo | simp only [↓calm_mk'] | simp only [↓calm_mk] | split
theorem calm_refreshLo {b s : State} (i : Nat) (h : Calm b s) : Calm b (refreshLo s i) := by
  unfold refreshLo
  repeat' first | with_reducible assumption | with_reducible apply calm_stopLo | with_reducible apply calm_startLo | with_reducible apply calm_ite | split
theorem calm_refreshLos {b s : State}  (h : Calm b s) : Calm b (refreshLos s) := by
  unfold refreshLos
  repeat' first | with_reducible assumption | with_reducible apply calm_refreshLo
theorem calm_podStartsLo {b s : State}  (h : Calm b s) : Calm b (podStartsLo s).1 := by
  unfold podStartsLo
  repeat' first | with_reducible assumption | with_reducible apply calm_settleLo | with_reducible apply calm_startLo | with_reducible apply calm_ite | with_reducible refine calm_foldl (fun _ _ _ => ?_) ?_ | simp only [↓calm_mk'] | simp only [↓calm_mk] | split
theorem calm_tuneLo {b s : State} (i : Nat) (w : Nat) (h : Calm b s) : Calm b (tuneLo s i w) := by
  unfold tuneLo
  repeat' first | with_reducible assumption | with_reducible apply calm_settleLo | with_reducible apply calm_setF | with_reducible apply calm_setN | with_reducible apply calm_abortCal | with_reducible apply calm_beginCal | with_reducible apply calm_unlockLo | with_reducible apply calm_dpdRetune | with_reducible apply calm_ite | simp only [↓calm_mk'] | simp only [↓calm_mk] | split
theorem calm_actLoTune {b s : State} (c : Cmd) (h : Calm b s) : Calm b (actLoTune s c) := by
  unfold actLoTune
  repeat' first | with_reducible assumption | with_reducible apply calm_tuneLo | with_reducible apply calm_ite | split
theorem calm_applyLoCal {b s : State} (c : Cmd) (h : Calm b s) : Calm b (applyLoCal s c) := by
  unfold applyLoCal
  repeat' first | with_reducible assumption | with_reducible apply calm_askCal | with_reducible apply calm_ite | with_reducible refine calm_foldl (fun _ _ _ => ?_) ?_ | split
theorem calm_lockLo {b s : State} (i : Nat) (h : Calm b s) : Calm b (lockLo s i) := by
  unfold lockLo
  repeat' first | with_reducible assumption | with_reducible apply calm_setFlag | with_reducible apply calm_dpdLocked | with_reducible apply calm_post
theorem calm_loTemperature {b s : State} (result : Nat) (h : Calm b s) : Calm b (loTemperature s result) := by
  unfold loTemperature
  repeat' first | with_reducible assumption | with_reducible apply calm_setF | with_reducible apply calm_post | with_reducible apply calm_setFlag | with_reducible apply calm_settleLos | with_reducible apply calm_ite | with_reducible refine calm_foldl (fun _ _ _ => ?_) ?_ | split
theorem calm_loDomain {b s : State} (on : Bool) (h : Calm b s) : Calm b (loDomain s on) := by
  unfold loDomain
  repeat' first | with_reducible assumption | with_reducible apply calm_refreshLos | with_reducible apply calm_settleLos | with_reducible apply calm_setFlag | with_reducible apply calm_ite | with_reducible refine calm_foldl (fun _ _ _ => ?_) ?_ | split
theorem calm_profileChanged {b s : State} (x : Nat) (h : Calm b s) : Calm b (profileChanged s x) := by
  unfold profileChanged
  repeat' first | with_reducible assumption | with_reducible apply calm_drivePins | with_reducible apply calm_ite | with_reducible refine calm_foldl (fun _ _ _ => ?_) ?_ | split
theorem calm_startStep {b s : State} (p : Nat) (goal : Nat) (h : Calm b s) : Calm b (startStep s p goal) := by
  unfold startStep
  repeat' first | with_reducible assumption | with_reducible apply calm_abortCal | with_reducible apply calm_podStartsLo | with_reducible apply calm_setPodIo | with_reducible apply calm_modPod | with_reducible apply calm_setFlag | with_reducible apply calm_setFeCode | with_reducible apply calm_ite | with_reducible refine calm_foldl (fun _ _ _ => ?_) ?_ | simp only [↓calm_mk'] | simp only [↓calm_mk] | split
theorem calm_drivePod {b s : State} (p : Nat) (h : Calm b s) : Calm b (drivePod s p) := by
  unfold drivePod
  repeat' first | with_reducible assumption | with_reducible apply calm_startStep | with_reducible apply calm_post | with_reducible apply calm_modPod | with_reducible apply calm_ite | simp only [↓calm_mk'] | simp only [↓calm_mk] | split
theorem calm_actPodState {b s : State} (c : Cmd) (h : Calm b s) : Calm b (actPodState s c) := by
  unfold actPodState
  repeat' first | with_reducible assumption | with_reducible apply calm_setF | with_reducible apply calm_drivePod | with_reducible apply calm_modPod | with_reducible apply calm_ite | with_reducible refine calm_foldl (fun _ _ _ => ?_) ?_ | simp only [↓calm_mk'] | simp only [↓calm_mk] | split
theorem calm_endStep {b s : State} (p : Nat) (h : Calm b s) : Calm b (endStep s p) := by
  unfold endStep
  repeat' first | with_reducible assumption | with_reducible apply calm_modPod | with_reducible apply calm_setFlag | with_reducible apply calm_setF | with_reducible apply calm_setPodIo | with_reducible apply calm_emit | simp only [↓calm_mk'] | simp only [↓calm_mk] | split
theorem calm_followPattern {b s : State}  (h : Calm b s) : Calm b (followPattern s) := by
  unfold followPattern
  repeat' first | with_reducible assumption | with_reducible apply calm_drivePod | with_reducible refine calm_foldl (fun _ _ _ => ?_) ?_
theorem calm_patternChanged {b s : State}  (h : Calm b s) : Calm b (patternChanged s) := by
  unfold patternChanged
  repeat' first | with_reducible assumption | with_reducible apply calm_followPattern | with_reducible apply calm_checkPattern
theorem calm_actSwapBank {b s : State} (p : Pending) (h : Calm b s) : Calm b (actSwapBank s p).1 := by
  unfold actSwapBank
  repeat' first | with_reducible assumption | with_reducible apply calm_actTddSwap | with_reducible apply calm_followPattern
theorem calm_makeEarly {b s : State} (p : Nat) (e : FeEdge) (h : Calm b s) : Calm b (makeEarly s p e) := by
  unfold makeEarly
  repeat' first | with_reducible assumption | with_reducible apply calm_setFeCode | with_reducible apply calm_modPod | with_reducible apply calm_ite | simp only [↓calm_mk'] | simp only [↓calm_mk] | split
theorem calm_resetPod {b s : State} (p : Nat) (h : Calm b s) : Calm b (resetPod s p) := by
  unfold resetPod
  repeat' first | with_reducible assumption | with_reducible apply calm_refreshLo | with_reducible apply calm_quietPod
theorem calm_startFrame {b s : State} (p : Pending) (half : Nat) (h : Calm b s) : Calm b (startFrame s p half) := by
  unfold startFrame
  have k : Calm b { s with acts := s.acts.map fun q => if q.id = p.id then { q with src := fesbNow s p } else q } :=
    calm_acts _ s.beam (by simp) h
  dsimp only
  repeat' first | with_reducible assumption | with_reducible apply calm_emit | with_reducible apply calm_ite | exact k | split
theorem calm_endFrame {b s : State} (p : Pending) (half : Nat) (h : Calm b s) : Calm b (endFrame s p half) := by
  unfold endFrame
  repeat' first | with_reducible assumption | with_reducible apply calm_emit | with_reducible apply calm_ite | simp only [↓calm_mk'] | simp only [↓calm_mk] | split
theorem calm_radioOnSync {b s : State}  (h : Calm b s) : Calm b (radioOnSync s) := by
  unfold radioOnSync
  repeat' first | with_reducible assumption | with_reducible apply calm_followPattern | simp only [↓calm_mk'] | simp only [↓calm_mk]
theorem calm_modRun {b s : State} (i : Nat) (f : CalRun → CalRun) (h : Calm b s) : Calm b (modRun s i f) := by
  unfold modRun
  repeat' first | with_reducible assumption | simp only [↓calm_mk'] | simp only [↓calm_mk] | split
theorem calm_modCoex {b s : State} (f : CoexSt → CoexSt) (h : Calm b s) : Calm b (modCoex s f) := by
  unfold modCoex
  repeat' first | with_reducible assumption | simp only [↓calm_mk'] | simp only [↓calm_mk]
theorem calm_driveCoex {b s : State} (pin : Nat) (level : Bool) (n : Nat) (h : Calm b s) : Calm b (driveCoex s pin level n) := by
  unfold driveCoex
  repeat' first | with_reducible assumption | with_reducible apply calm_modCoex | with_reducible apply calm_emit | simp only [↓calm_mk'] | simp only [↓calm_mk]
theorem calm_undoRise {b s : State} (pin : Nat) (n : Nat) (h : Calm b s) : Calm b (undoRise s pin n) := by
  unfold undoRise
  repeat' first | with_reducible assumption | with_reducible apply calm_modCoex | with_reducible apply calm_emit | simp only [↓calm_mk'] | simp only [↓calm_mk]
theorem calm_settleCoex {b s : State}  (h : Calm b s) : Calm b (settleCoex s) := by
  unfold settleCoex
  repeat' first | with_reducible assumption | with_reducible apply calm_setFlag | with_reducible apply calm_modCoex | with_reducible apply calm_ite | with_reducible refine calm_foldl (fun _ _ _ => ?_) ?_ | simp only [↓calm_mk'] | simp only [↓calm_mk] | split
theorem calm_noteHeld {b s : State}  (h : Calm b s) : Calm b (noteHeld s) := by
  unfold noteHeld
  repeat' first | with_reducible assumption | with_reducible apply calm_modCoex | with_reducible apply calm_ite | simp only [↓calm_mk'] | simp only [↓calm_mk] | split
theorem calm_refreshReq {b s : State}  (h : Calm b s) : Calm b (refreshReq s) := by
  unfold refreshReq
  repeat' first | with_reducible assumption | with_reducible apply calm_modCoex | with_reducible apply calm_driveCoex | with_reducible apply calm_ite | simp only [↓calm_mk'] | simp only [↓calm_mk] | split
theorem calm_raiseGnt {b s : State} (n : Nat) (h : Calm b s) : Calm b (raiseGnt s n) := by
  unfold raiseGnt
  repeat' first | with_reducible assumption | with_reducible apply calm_modCoex | with_reducible apply calm_driveCoex | with_reducible apply calm_noteHeld | with_reducible apply calm_modRun | with_reducible apply calm_ite | with_reducible refine calm_foldl (fun _ _ _ => ?_) ?_ | simp only [↓calm_mk'] | simp only [↓calm_mk] | split
theorem calm_settleGnt {b s : State}  (h : Calm b s) : Calm b (settleGnt s) := by
  unfold settleGnt
  repeat' first | with_reducible assumption | with_reducible apply calm_raiseGnt | with_reducible apply calm_ite | split
theorem calm_grantJobs {b s : State} (g : Nat) (h : Calm b s) : Calm b (grantJobs s g) := by
  unfold grantJobs
  repeat' first | with_reducible assumption | with_reducible apply calm_modRun | with_reducible apply calm_ite | with_reducible refine calm_foldl (fun _ _ _ => ?_) ?_ | simp only [↓calm_mk'] | simp only [↓calm_mk] | split
theorem calm_endRun {b s : State} (i : Nat) (h : Calm b s) : Calm b (endRun s i) := by
  unfold endRun
  repeat' first | with_reducible assumption | with_reducible apply calm_setF | with_reducible apply calm_settleGnt | with_reducible apply calm_refreshReq | with_reducible apply calm_noteHeld | with_reducible apply calm_ite | with_reducible refine calm_foldl (fun _ _ _ => ?_) ?_ | simp only [↓calm_mk'] | simp only [↓calm_mk] | split
theorem calm_doneRun {b s : State} (i : Nat) (result : Nat) (h : Calm b s) : Calm b (doneRun s i result) := by
  unfold doneRun
  repeat' first | with_reducible assumption | with_reducible apply calm_endRun | with_reducible apply calm_post
theorem calm_postCalAborted {b s : State} (i : Nat) (cause : Nat) (h : Calm b s) : Calm b (postCalAborted s i cause) := by
  unfold postCalAborted
  repeat' first | with_reducible assumption | with_reducible apply calm_post
theorem calm_abortRun {b s : State} (i : Nat) (cause : Nat) (h : Calm b s) : Calm b (abortRun s i cause) := by
  unfold abortRun
  repeat' first | with_reducible assumption | with_reducible apply calm_endRun | with_reducible apply calm_postCalAborted
theorem calm_askAgain {b s : State} (f : CalRun → Bool) (h : Calm b s) : Calm b (askAgain s f) := by
  unfold askAgain
  repeat' first | with_reducible assumption | with_reducible apply calm_modRun | with_reducible apply calm_ite | with_reducible refine calm_foldl (fun _ _ _ => ?_) ?_ | simp only [↓calm_mk'] | simp only [↓calm_mk] | split
theorem calm_holdPeer {b s : State}  (h : Calm b s) : Calm b (holdPeer s) := by
  unfold holdPeer
  repeat' first | with_reducible assumption | with_reducible apply calm_modCoex | with_reducible apply calm_undoRise | with_reducible apply calm_modRun | with_reducible apply calm_setFlag | with_reducible apply calm_ite | with_reducible refine calm_foldl (fun _ _ _ => ?_) ?_ | simp only [↓calm_mk'] | simp only [↓calm_mk] | split
theorem calm_abortOrxRuns {b s : State}  (h : Calm b s) : Calm b (abortOrxRuns s) := by
  unfold abortOrxRuns
  repeat' first | with_reducible assumption | with_reducible apply calm_abortRun | with_reducible refine calm_foldl (fun _ _ _ => ?_) ?_
theorem calm_startCalRun {b s : State} (i : Nat) (j : CalJob) (n : Nat) (h : Calm b s) : Calm b (startCalRun s i j n) := by
  unfold startCalRun
  repeat' first | with_reducible assumption | with_reducible apply calm_takeOrx | with_reducible apply calm_grantJobs | with_reducible apply calm_modCoex | with_reducible apply calm_driveCoex | with_reducible apply calm_holdPeer | with_reducible apply calm_noteHeld | with_reducible apply calm_ite | with_reducible refine calm_foldl (fun _ _ _ => ?_) ?_ | simp only [↓calm_mk'] | simp only [↓calm_mk] | split
theorem calm_actCalStart {b s : State} (p : Pending) (h : Calm b s) : Calm b (actCalStart s p).1 := by
  unfold actCalStart
  repeat' first | with_reducible assumption | with_reducible apply calm_postCalAborted | with_reducible apply calm_startCalRun | with_reducible apply calm_ite | simp only [↓calm_mk'] | simp only [↓calm_mk] | split
theorem calm_writeCoex {b s : State} (data : Nat) (h : Calm b s) : Calm b (writeCoex s data) := by
  unfold writeCoex
  repeat' first | with_reducible assumption | with_reducible apply calm_settleCoex | with_reducible apply calm_setF | with_reducible apply calm_undoRise | with_reducible apply calm_driveCoex | with_reducible apply calm_setFlag | with_reducible apply calm_grantJobs | with_reducible apply calm_noteHeld | with_reducible apply calm_modCoex | with_reducible apply calm_ite | with_reducible refine calm_foldl (fun _ _ _ => ?_) ?_ | simp only [↓calm_mk'] | simp only [↓calm_mk] | split
theorem calm_showOwn {b s : State} (q : Nat) (h : Calm b s) : Calm b (showOwn s q) := by
  unfold showOwn
  repeat' first | with_reducible assumption | with_reducible apply calm_setF
theorem calm_settleHeaders {b s : State} (q : Nat) (h : Calm b s) : Calm b (settleHeaders s q) := by
  unfold settleHeaders
  repeat' first | with_reducible assumption | with_reducible apply calm_satAdd | with_reducible apply calm_setInj | with_reducible apply calm_countInjected | with_reducible apply calm_setFlag | with_reducible apply calm_ite | with_reducible refine calm_foldl (fun _ _ _ => ?_) ?_ | simp only [↓calm_mk'] | simp only [↓calm_mk] | split
theorem calm_settleInjectors {b s : State}  (h : Calm b s) : Calm b (settleInjectors s) := by
  unfold settleInjectors
  repeat' first | with_reducible assumption | with_reducible apply calm_settleHeaders
theorem calm_settleSearch {b s : State} (q : Nat) (l : Nat) (h : Calm b s) : Calm b (settleSearch s q l) := by
  unfold settleSearch
  repeat' first | with_reducible assumption | with_reducible apply calm_satAdd | with_reducible apply calm_modLane | with_reducible apply calm_ite | simp only [↓calm_mk'] | simp only [↓calm_mk] | split
theorem calm_setInUse {b s : State} (q : Nat) (mask : Nat) (h : Calm b s) : Calm b (setInUse s q mask) := by
  unfold setInUse
  repeat' first | with_reducible assumption | with_reducible apply calm_setFlag | with_reducible apply calm_setF | with_reducible apply calm_satAdd | with_reducible apply calm_modPort | with_reducible apply calm_post | with_reducible apply calm_childPortChanged | with_reducible apply calm_ite | simp only [↓calm_mk'] | simp only [↓calm_mk] | split
theorem calm_dropLock {b s : State} (q : Nat) (l : Nat) (h : Calm b s) : Calm b (dropLock s q l) := by
  unfold dropLock
  repeat' first | with_reducible assumption | with_reducible apply calm_showOwn | with_reducible apply calm_setFlag
theorem calm_startSearch {b s : State} (q : Nat) (l : Nat) (h : Calm b s) : Calm b (startSearch s q l) := by
  unfold startSearch
  repeat' first | with_reducible assumption | with_reducible apply calm_modLane | with_reducible apply calm_ite | simp only [↓calm_mk'] | simp only [↓calm_mk] | split
theorem calm_laneOff {b s : State} (q : Nat) (l : Nat) (h : Calm b s) : Calm b (laneOff s q l) := by
  unfold laneOff
  repeat' first | with_reducible assumption | with_reducible apply calm_modLane | with_reducible apply calm_setFlag | with_reducible apply calm_dropLock | simp only [↓calm_mk'] | simp only [↓calm_mk]
theorem calm_restartCount {b s : State} (q : Nat) (starting : Nat → Bool) (h : Calm b s) : Calm b (restartCount s q starting) := by
  unfold restartCount
  repeat' first | with_reducible assumption | with_reducible apply calm_modPort | with_reducible apply calm_ite | simp only [↓calm_mk'] | simp only [↓calm_mk] | split
theorem calm_lanesFollow {b s : State} (q : Nat) (starting : Nat → Bool) (h : Calm b s) : Calm b (lanesFollow s q starting) := by
  unfold lanesFollow
  repeat' first | with_reducible assumption | with_reducible apply calm_laneOff | with_reducible apply calm_startSearch | with_reducible apply calm_restartCount | with_reducible apply calm_setInUse | with_reducible apply calm_modPort | with_reducible apply calm_ite | with_reducible refine calm_foldl (fun _ _ _ => ?_) ?_ | simp only [↓calm_mk'] | simp only [↓calm_mk] | split
theorem calm_lanePllOff {b s : State}  (h : Calm b s) : Calm b (lanePllOff s) := by
  unfold lanePllOff
  repeat' first | with_reducible assumption | with_reducible apply calm_settleInjectors | with_reducible apply calm_setFlag | with_reducible apply calm_lanesFollow | with_reducible refine calm_foldl (fun _ _ _ => ?_) ?_ | simp only [↓calm_mk'] | simp only [↓calm_mk]
theorem calm_laneDomainChanged {b s : State} (d : Nat) (h : Calm b s) : Calm b (laneDomainChanged s d) := by
  unfold laneDomainChanged
  repeat' first | with_reducible assumption | with_reducible apply calm_lanesFollow | with_reducible apply calm_ite | with_reducible refine calm_foldl (fun _ _ _ => ?_) ?_ | split
theorem calm_researchLane {b s : State} (q : Nat) (l : Nat) (h : Calm b s) : Calm b (researchLane s q l) := by
  unfold researchLane
  repeat' first | with_reducible assumption | with_reducible apply calm_startSearch | with_reducible apply calm_dropLock
theorem calm_writeLaneCtrl {b s : State} (q : Nat) (l : Nat) (data : Nat) (h : Calm b s) : Calm b (writeLaneCtrl s q l data) := by
  unfold writeLaneCtrl
  repeat' first | with_reducible assumption | with_reducible apply calm_settleSearch | with_reducible apply calm_settleHeaders | with_reducible apply calm_setF | with_reducible apply calm_modLane | with_reducible apply calm_lanesFollow | with_reducible apply calm_setFlag | with_reducible apply calm_researchLane | with_reducible apply calm_setN | with_reducible apply calm_showOwn | with_reducible apply calm_ite | simp only [↓calm_mk'] | simp only [↓calm_mk] | split
theorem calm_writePortCtrl {b s : State} (q : Nat) (data : Nat) (h : Calm b s) : Calm b (writePortCtrl s q data) := by
  unfold writePortCtrl
  repeat' first | with_reducible assumption | with_reducible apply calm_settleHeaders | with_reducible apply calm_setF | with_reducible apply calm_lanesFollow | with_reducible apply calm_setFlag | with_reducible apply calm_researchLane | with_reducible apply calm_modPort | with_reducible apply calm_showOwn | with_reducible apply calm_setInUse | with_reducible apply calm_ite | with_reducible refine calm_foldl (fun _ _ _ => ?_) ?_ | simp only [↓calm_mk'] | simp only [↓calm_mk] | split
theorem calm_beginLaneDown {b s : State} (q : Nat) (j : Nat) (l : Nat) (side : Nat) (h : Calm b s) : Calm b (beginLaneDown s q j l side) := by
  unfold beginLaneDown
  repeat' first | with_reducible assumption | with_reducible apply calm_satAdd | with_reducible apply calm_countInjected | with_reducible apply calm_modLane | with_reducible apply calm_dropLock | with_reducible apply calm_ite | simp only [↓calm_mk'] | simp only [↓calm_mk] | split
theorem calm_stopLaneInj {b s : State} (q : Nat) (j : Nat) (h : Calm b s) : Calm b (stopLaneInj s q j) := by
  unfold stopLaneInj
  repeat' first | with_reducible assumption | with_reducible apply calm_stopInj | with_reducible apply calm_settleHeaders | with_reducible apply calm_modLane | with_reducible apply calm_ite | simp only [↓calm_mk'] | simp only [↓calm_mk] | split
theorem calm_badMarker {b s : State} (q : Nat) (l : Nat) (h : Calm b s) : Calm b (badMarker s q l) := by
  unfold badMarker
  repeat' first | with_reducible assumption | with_reducible apply calm_satAdd | with_reducible apply calm_modLane | with_reducible apply calm_showOwn | with_reducible apply calm_setFlag | with_reducible apply calm_ite | simp only [↓calm_mk'] | simp only [↓calm_mk] | split
theorem calm_loopBack {b s : State} (q : Nat) (l : Nat) (n : Nat) (y : List LineBlock) (h : Calm b s) : Calm b (loopBack s q l n y) := by
  unfold loopBack
  repeat' first | with_reducible assumption | with_reducible apply calm_emit | with_reducible apply calm_ite | split
theorem calm_setRun {b s : State} (q : Nat) (l : Nat) (mask : Nat) (again : Bool) (h : Calm b s) : Calm b (setRun s q l mask again) := by
  unfold setRun
  repeat' first | with_reducible assumption | with_reducible apply calm_modPort | with_reducible apply calm_ite | simp only [↓calm_mk'] | simp only [↓calm_mk] | split
theorem calm_takeMarker {b s : State} (q : Nat) (l : Nat) (m : List Byte) (h : Calm b s) : Calm b (takeMarker s q l m) := by
  unfold takeMarker
  repeat' first | with_reducible assumption | with_reducible apply calm_badMarker | with_reducible apply calm_modLane | with_reducible apply calm_setF | with_reducible apply calm_showOwn | with_reducible apply calm_setFlag | with_reducible apply calm_modPort | with_reducible apply calm_satAdd | with_reducible apply calm_setRun | with_reducible apply calm_ite | simp only [↓calm_mk'] | simp only [↓calm_mk] | split
theorem calm_lanesOnSync {b s : State}  (h : Calm b s) : Calm b (lanesOnSync s) := by
  unfold lanesOnSync
  repeat' first | with_reducible assumption | simp only [↓calm_mk'] | simp only [↓calm_mk]
theorem calm_enterPower {b s : State} (q : Nat) (l : Nat) (st : Nat) (h : Calm b s) : Calm b (enterPower s q l st) := by
  unfold enterPower
  repeat' first | with_reducible assumption | with_reducible apply calm_settleHeaders | with_reducible apply calm_modLane | with_reducible apply calm_setF | with_reducible apply calm_dropLock | with_reducible apply calm_showOwn | with_reducible apply calm_ite | simp only [↓calm_mk'] | simp only [↓calm_mk] | split
theorem calm_moveLane {b s : State} (q : Nat) (l : Nat) (st : Nat) (h : Calm b s) : Calm b (moveLane s q l st) := by
  unfold moveLane
  repeat' first | with_reducible assumption | with_reducible apply calm_showOwn | with_reducible apply calm_modLane | with_reducible apply calm_setF | with_reducible apply calm_enterPower | with_reducible apply calm_ite | simp only [↓calm_mk'] | simp only [↓calm_mk] | split
theorem calm_applyLaneState {b s : State} (c : Cmd) (h : Calm b s) : Calm b (applyLaneState s c) := by
  unfold applyLaneState
  repeat' first | with_reducible assumption | with_reducible apply calm_moveLane | with_reducible refine calm_foldl (fun _ _ _ => ?_) ?_
theorem calm_putSet {b s : State} (i : Nat) (w : WeightSet) (h : Calm b s) : Calm b (putSet s i w) := by
  unfold putSet
  repeat' first | with_reducible assumption | simp only [↓calm_mk'] | simp only [↓calm_mk]
theorem calm_dropLoad {b s : State} (id : Nat) (h : Calm b s) : Calm b (dropLoad s id) := by
  unfold dropLoad
  repeat' first | with_reducible assumption | simp only [↓calm_mk'] | simp only [↓calm_mk]
theorem calm_dropLoads {b s : State} (slot : Nat) (h : Calm b s) : Calm b (dropLoads s slot) := by
  unfold dropLoads
  repeat' first | with_reducible assumption | simp only [↓calm_mk'] | simp only [↓calm_mk]
theorem calm_wsLoadFailed {b s : State} (f : Flight) (status : Nat) (h : Calm b s) : Calm b (wsLoadFailed s f status) := by
  unfold wsLoadFailed
  repeat' first | with_reducible assumption | with_reducible apply calm_reject | with_reducible apply calm_dropLoad
theorem calm_modFill {b s : State} (i : Nat) (d : Nat) (p : Fill → Bool) (g : Fill → Fill) (h : Calm b s) : Calm b (modFill s i d p g) := by
  unfold modFill
  repeat' first | with_reducible assumption | with_reducible apply calm_ite | simp only [↓calm_mk'] | simp only [↓calm_mk] | split
theorem calm_actWsActivate {b s : State} (p : Pending) (h : Calm b s) : Calm b (actWsActivate s p).1 := by
  unfold actWsActivate
  repeat' first | with_reducible assumption | with_reducible apply calm_countUnmapped | with_reducible apply calm_showCols | with_reducible apply calm_setN | with_reducible apply calm_ite | simp only [↓calm_mk'] | simp only [↓calm_mk] | split
theorem calm_releaseActive {b s : State} (i : Nat) (d : Nat) (h : Calm b s) : Calm b (releaseActive s i d) := by
  unfold releaseActive
  repeat' first | with_reducible assumption | with_reducible apply calm_countUnmapped | with_reducible apply calm_showCols | with_reducible apply calm_setN | simp only [↓calm_mk'] | simp only [↓calm_mk]
theorem calm_beamOnSync {b s : State}  (h : Calm b s) : Calm b (beamOnSync s) := by
  unfold beamOnSync
  repeat' first | with_reducible assumption | with_reducible apply calm_showAllCols | simp only [↓calm_mk'] | simp only [↓calm_mk] | split
theorem calm_applyCfrSet {b s : State} (c : Cmd) (h : Calm b s) : Calm b (applyCfrSet s c) := by
  unfold applyCfrSet
  repeat' first | with_reducible assumption | with_reducible apply calm_setF | with_reducible refine calm_foldl (fun _ _ _ => ?_) ?_
theorem calm_writeTxCtrl {b s : State} (path : Nat) (data : Nat) (h : Calm b s) : Calm b (writeTxCtrl s path data) := by
  unfold writeTxCtrl
  repeat' first | with_reducible assumption | with_reducible apply calm_setF | with_reducible apply calm_emit | with_reducible apply calm_ite | split
theorem calm_modSlot {b s : State} (i : Nat) (n : Nat) (c : Carrier) (f : Slot → Slot) (h : Calm b s) : Calm b (modSlot s i n c f) := by
  unfold modSlot
  repeat' first | with_reducible assumption | with_reducible apply calm_modStream
theorem calm_setBitOf {b s : State} (f : Nat → Fld) (j : Nat) (y : Bool) (h : Calm b s) : Calm b (setBitOf s f j y) := by
  unfold setBitOf
  repeat' first | with_reducible assumption | with_reducible apply calm_setF | with_reducible apply calm_ite | split
theorem calm_freePartner {b s : State} (i : Nat) (h : Calm b s) : Calm b (freePartner s i) := by
  unfold freePartner
  repeat' first | with_reducible assumption | with_reducible apply calm_setN | simp only [↓calm_mk'] | simp only [↓calm_mk]
theorem calm_settlePartner {b s : State} (i : Nat) (h : Calm b s) : Calm b (settlePartner s i) := by
  unfold settlePartner
  repeat' first | with_reducible assumption | with_reducible apply calm_freePartner | with_reducible apply calm_showStreams | with_reducible apply calm_ite | simp only [↓calm_mk'] | simp only [↓calm_mk] | split
theorem calm_removeStream {b s : State} (j : Nat) (h : Calm b s) : Calm b (removeStream s j) := by
  unfold removeStream
  repeat' first | with_reducible assumption | with_reducible apply calm_countUnmapped | with_reducible apply calm_cancelNaming | with_reducible apply calm_setBitOf | with_reducible apply calm_releaseActive | with_reducible apply calm_settlePartner | with_reducible apply calm_ite | simp only [↓calm_mk'] | simp only [↓calm_mk] | split
theorem calm_postOrphanEnd {b s : State} (j : Nat) (cause : Nat) (h : Calm b s) : Calm b (postOrphanEnd s j cause) := by
  unfold postOrphanEnd
  repeat' first | with_reducible assumption | with_reducible apply calm_post | simp only [↓calm_mk'] | simp only [↓calm_mk] | split
theorem calm_orphanStreams {b s : State} (i : Nat) (n : Nat) (h : Calm b s) : Calm b (orphanStreams s i n) := by
  unfold orphanStreams
  repeat' first | with_reducible assumption | with_reducible apply calm_setBitOf | with_reducible apply calm_modStream | with_reducible apply calm_ite | with_reducible refine calm_foldl (fun _ _ _ => ?_) ?_ | simp only [↓calm_mk'] | simp only [↓calm_mk] | split
theorem calm_losePartner {b s : State} (i : Nat) (l : Nat) (h : Calm b s) : Calm b (losePartner s i l) := by
  unfold losePartner
  repeat' first | with_reducible assumption | with_reducible apply calm_orphanStreams | with_reducible apply calm_setF | with_reducible apply calm_modPartner | with_reducible apply calm_settlePartner | with_reducible apply calm_postAt | with_reducible apply calm_ite | simp only [↓calm_mk'] | simp only [↓calm_mk] | split
theorem calm_markDropped {b s : State} (j : Nat) (x : Stream) (n : Nat) (h : Calm b s) : Calm b (markDropped s j x n) := by
  unfold markDropped
  repeat' first | with_reducible assumption | with_reducible apply calm_modSlot | with_reducible apply calm_ite | simp only [↓calm_mk'] | simp only [↓calm_mk] | split
theorem calm_forwardDl {b s : State} (p : Packet) (j : Nat) (x : Stream) (n : Nat) (h : Calm b s) : Calm b (forwardDl s p j x n) := by
  unfold forwardDl
  repeat' first | with_reducible assumption | with_reducible apply calm_enqueue | with_reducible apply calm_ite | simp only [↓calm_mk'] | simp only [↓calm_mk] | split
theorem calm_receiveDl {b s : State} (q : Nat) (p : Packet) (h : Calm b s) : Calm b (receiveDl s q p) := by
  unfold receiveDl
  repeat' first | with_reducible assumption | with_reducible apply calm_satAdd | with_reducible apply calm_markDropped | with_reducible apply calm_modStream | with_reducible apply calm_wrapAdd | with_reducible apply calm_forwardDl | with_reducible apply calm_ite | simp only [↓calm_mk'] | simp only [↓calm_mk] | split
theorem calm_receiveCtrl {b s : State} (q : Nat) (p : Packet) (h : Calm b s) : Calm b (receiveCtrl s q p) := by
  unfold receiveCtrl
  repeat' first | with_reducible assumption | with_reducible apply calm_satAdd | with_reducible apply calm_enqueueCtrl | with_reducible apply calm_wrapAdd | with_reducible apply calm_mirrorCtrl | with_reducible apply calm_ite | simp only [↓calm_mk'] | simp only [↓calm_mk] | split
theorem calm_receiveSum {b s : State} (q : Nat) (y : List Byte) (corrupted : Bool) (h : Calm b s) : Calm b (receiveSum s q y corrupted) := by
  unfold receiveSum
  repeat' first | with_reducible assumption | with_reducible apply calm_wrapAdd | with_reducible apply calm_satAdd | with_reducible apply calm_modCasc | with_reducible apply calm_ite | simp only [↓calm_mk'] | simp only [↓calm_mk] | split
theorem calm_receiveFramed {b s : State} (q : Nat) (y : List Byte) (corrupted : Bool) (h : Calm b s) : Calm b (receiveFramed s q y corrupted) := by
  unfold receiveFramed
  repeat' first | with_reducible assumption | with_reducible apply calm_receiveSum | with_reducible apply calm_satAdd | with_reducible apply calm_enqueue | with_reducible apply calm_receiveDl | with_reducible apply calm_receiveCtrl | with_reducible apply calm_ite | split
theorem calm_receivePacket {b s : State} (q : Nat) (y : List Byte) (h : Calm b s) : Calm b (receivePacket s q y) := by
  unfold receivePacket
  repeat' first | with_reducible assumption | with_reducible apply calm_injectPacket | with_reducible apply calm_receiveFramed | with_reducible refine calm_foldl (fun _ _ _ => ?_) ?_
theorem calm_receiveBlock {b s : State} (q : Nat) (y : Block) (h : Calm b s) : Calm b (receiveBlock s q y) := by
  unfold receiveBlock
  repeat' first | with_reducible assumption | with_reducible apply calm_modPort | with_reducible apply calm_satAdd | with_reducible apply calm_receivePacket | with_reducible apply calm_ite | simp only [↓calm_mk'] | simp only [↓calm_mk] | split
theorem calm_countHeaders {b s : State} (q : Nat) (lanes : List (List LineBlock)) (h : Calm b s) : Calm b (countHeaders s q lanes) := by
  unfold countHeaders
  repeat' first | with_reducible assumption | with_reducible apply calm_satAdd | with_reducible apply calm_ite | with_reducible refine calm_foldl (fun _ _ _ => ?_) ?_ | split
theorem calm_loopLanes {b s : State} (q : Nat) (first : Nat) (lanes : List (List LineBlock)) (h : Calm b s) : Calm b (loopLanes s q first lanes) := by
  unfold loopLanes
  repeat' first | with_reducible assumption | with_reducible apply calm_loopBack | with_reducible refine calm_foldl (fun _ _ _ => ?_) ?_
theorem calm_releaseHeld {b s : State} (q : Nat) (j : Nat) (h : Calm b s) : Calm b (releaseHeld s q j) := by
  unfold releaseHeld
  repeat' first | with_reducible assumption | with_reducible apply calm_countInjected | with_reducible apply calm_setInj | with_reducible apply calm_injectFrom | with_reducible apply calm_limitInj | with_reducible apply calm_receiveFramed | with_reducible apply calm_sendPacket | with_reducible apply calm_satAdd | with_reducible apply calm_ite | with_reducible refine calm_foldl (fun _ _ _ => ?_) ?_ | simp only [↓calm_mk'] | simp only [↓calm_mk] | split
theorem calm_clearInj {b s : State} (q : Nat) (j : Nat) (h : Calm b s) : Calm b (clearInj s q j) := by
  unfold clearInj
  repeat' first | with_reducible assumption | with_reducible apply calm_stopInj | with_reducible apply calm_releaseHeld | with_reducible apply calm_stopLaneInj | with_reducible apply calm_ite | simp only [↓calm_mk'] | simp only [↓calm_mk] | split
theorem calm_takeInbox {b s v : State} {p : Inbox → Bool} {m : Inbox} (h : Calm b s) (k : takeInbox s p = some (m, v)) : Calm b v := by
  unfold takeInbox at k
  repeat' split at k
  all_goals simp_all
  obtain ⟨-, rfl⟩ := k
  exact h
theorem calm_renew {b s : State} (i : Nat) (a : Nat) (h : Calm b s) : Calm b (renew s i a) := by
  unfold renew
  repeat' first | with_reducible assumption | with_reducible apply calm_setN | with_reducible apply calm_modPartner | with_reducible apply calm_ite | simp only [↓calm_mk'] | simp only [↓calm_mk] | split
theorem calm_sendWelcome {b s : State} (i : Nat) (framing : Nat) (h : Calm b s) : Calm b (sendWelcome s i framing) := by
  unfold sendWelcome
  repeat' first | with_reducible assumption | with_reducible apply calm_modPartner | with_reducible apply calm_enqueueCtrl | simp only [↓calm_mk'] | simp only [↓calm_mk] | split
theorem calm_greet {b s : State} (m : Inbox) (h : Calm b s) : Calm b (greet s m) := by
  unfold greet
  repeat' first | with_reducible assumption | with_reducible apply calm_satAdd | with_reducible apply calm_enqueueCtrl | with_reducible apply calm_takeGen | with_reducible apply calm_setN | with_reducible apply calm_setF | with_reducible apply calm_post | with_reducible apply calm_sendWelcome | with_reducible apply calm_ite | simp only [↓calm_mk'] | simp only [↓calm_mk] | split
theorem calm_sendEchoes {b s : State} (n i : Nat) (l : List (List Byte)) (h : Calm b s) : Calm b (sendEchoes n s i l) := by
  induction n generalizing s l with
  | zero => exact h
  | succ n ih =>
    cases l with
    | nil => exact h
    | cons x l => exact ih _ (calm_sendMessage _ _ _ h)
theorem calm_refreshCommon {b s : State}  (h : Calm b s) : Calm b (refreshCommon s) := by
  unfold refreshCommon
  repeat' first | with_reducible assumption | with_reducible apply calm_setF
theorem calm_showMembers {b s : State} (changed : Bool) (h : Calm b s) : Calm b (showMembers s changed) := by
  unfold showMembers
  repeat' first | with_reducible assumption | with_reducible apply calm_showChain | with_reducible apply calm_setF | with_reducible apply calm_post | with_reducible apply calm_ite | split
theorem calm_modCmdRing {b s : State} (r : Nat) (f : CmdRing → CmdRing) (h : Calm b s) : Calm b (modCmdRing s r f) := by
  unfold modCmdRing
  repeat' first | with_reducible assumption | simp only [↓calm_mk'] | simp only [↓calm_mk]
theorem calm_issueFetch {b s : State} (r : Nat) (k : Nat) (h : Calm b s) : Calm b (issueFetch s r k) := by
  unfold issueFetch
  repeat' first | with_reducible assumption | with_reducible apply calm_emit | with_reducible apply calm_modCmdRing | with_reducible apply calm_ite | simp only [↓calm_mk'] | simp only [↓calm_mk] | split
theorem calm_holdRings {b s : State}  (h : Calm b s) : Calm b (holdRings s) := by
  unfold holdRings
  repeat' first | with_reducible assumption | with_reducible apply calm_modCmdRing | with_reducible apply calm_ite | with_reducible refine calm_foldl (fun _ _ _ => ?_) ?_ | simp only [↓calm_mk'] | simp only [↓calm_mk] | split
theorem calm_issueFetches {b s : State}  (h : Calm b s) : Calm b (issueFetches s) := by
  unfold issueFetches
  repeat' first | with_reducible assumption | with_reducible apply calm_holdRings | with_reducible apply calm_issueFetch | with_reducible refine calm_foldl (fun _ _ _ => ?_) ?_ | simp only [↓calm_mk'] | simp only [↓calm_mk]
theorem calm_haltRing {b s : State} (r : Nat) (cause : Nat) (h : Calm b s) : Calm b (haltRing s r cause) := by
  unfold haltRing
  repeat' first | with_reducible assumption | with_reducible apply calm_setF | with_reducible apply calm_setFlag | with_reducible apply calm_postRingError | with_reducible apply calm_modCmdRing | simp only [↓calm_mk'] | simp only [↓calm_mk]
theorem calm_issuePi {b s : State} (r : Nat) (h : Calm b s) : Calm b (issuePi s r) := by
  unfold issuePi
  repeat' first | with_reducible assumption | with_reducible apply calm_emit | with_reducible apply calm_modCmdRing | with_reducible apply calm_ite | simp only [↓calm_mk'] | simp only [↓calm_mk] | split
theorem calm_issueReads {b s : State}  (h : Calm b s) : Calm b (issueReads s) := by
  unfold issueReads
  repeat' first | with_reducible assumption | with_reducible apply calm_issuePi | with_reducible apply calm_issueCi | with_reducible apply calm_issueFetches | with_reducible refine calm_foldl (fun _ _ _ => ?_) ?_
theorem calm_poll {b s : State}  (h : Calm b s) : Calm b (poll s) := by
  unfold poll
  repeat' first | with_reducible assumption | with_reducible apply calm_modCmdRing | with_reducible apply calm_modOutRing | with_reducible apply calm_issueReads | with_reducible refine calm_foldl (fun _ _ _ => ?_) ?_ | simp only [↓calm_mk'] | simp only [↓calm_mk]
theorem calm_takeEntries {b s : State} (l : List Cmd) (h : Calm b s) : Calm b (takeEntries s l) := by
  unfold takeEntries
  repeat' first | with_reducible assumption | with_reducible refine calm_foldl (fun _ _ _ => ?_) ?_ | simp only [↓calm_mk'] | simp only [↓calm_mk]
theorem calm_drainQueue {b s : State} (ring : Nat) (h : Calm b s) : Calm b (drainQueue s ring) := by
  unfold drainQueue
  repeat' first | with_reducible assumption | with_reducible apply calm_placeAllLost | with_reducible apply calm_placeLost | with_reducible apply calm_drainEvents
theorem calm_setMask {b s : State} (vec : Nat) (on : Bool) (h : Calm b s) : Calm b (setMask s vec on) := by
  unfold setMask
  repeat' first | with_reducible assumption | with_reducible apply calm_releaseMsix | with_reducible apply calm_ite | simp only [↓calm_mk'] | simp only [↓calm_mk] | split
theorem calm_writeMsixControl {b s : State} (on : Bool) (func : Bool) (h : Calm b s) : Calm b (writeMsixControl s on func) := by
  unfold writeMsixControl
  repeat' first | with_reducible assumption | with_reducible apply calm_releaseMsix | with_reducible refine calm_foldl (fun _ _ _ => ?_) ?_ | simp only [↓calm_mk'] | simp only [↓calm_mk]
theorem calm_storeMsix {b s : State} (a : Nat) (data : Nat) (h : Calm b s) : Calm b (storeMsix s a data) := by
  unfold storeMsix
  repeat' first | with_reducible assumption | with_reducible apply calm_setMask | with_reducible apply calm_ite | simp only [↓calm_mk'] | simp only [↓calm_mk] | split
theorem calm_disableOut {b s : State} (kind : Nat) (r : Nat) (h : Calm b s) : Calm b (disableOut s kind r) := by
  unfold disableOut
  repeat' first | with_reducible assumption | with_reducible apply calm_showBacklog | with_reducible apply calm_loseCpl | with_reducible apply calm_placeAllLost | with_reducible apply calm_satAdd | with_reducible apply calm_ite | with_reducible refine calm_foldl (fun _ _ _ => ?_) ?_ | simp only [↓calm_mk'] | simp only [↓calm_mk] | split
theorem calm_disableCmd {b s : State} (r : Nat) (h : Calm b s) : Calm b (disableCmd s r) := by
  unfold disableCmd
  repeat' first | with_reducible assumption | with_reducible apply calm_modCmdRing
theorem calm_writeCmdCtrl {b s : State} (r : Nat) (data : Nat) (h : Calm b s) : Calm b (writeCmdCtrl s r data) := by
  unfold writeCmdCtrl
  repeat' first | with_reducible assumption | with_reducible apply calm_setF | with_reducible apply calm_setFlag | with_reducible apply calm_disableCmd | with_reducible apply calm_modCmdRing | with_reducible apply calm_hostWrite | with_reducible apply calm_ite | simp only [↓calm_mk'] | simp only [↓calm_mk] | split
theorem calm_writeCqCtrl {b s : State} (r : Nat) (data : Nat) (h : Calm b s) : Calm b (writeCqCtrl s r data) := by
  unfold writeCqCtrl
  repeat' first | with_reducible assumption | with_reducible apply calm_setF | with_reducible apply calm_setFlag | with_reducible apply calm_disableOut | with_reducible apply calm_hostWrite | with_reducible apply calm_modOutRing | with_reducible apply calm_renew | with_reducible apply calm_ite | split
theorem calm_writeEvCtrl {b s : State} (r : Nat) (data : Nat) (h : Calm b s) : Calm b (writeEvCtrl s r data) := by
  unfold writeEvCtrl
  repeat' first | with_reducible assumption | with_reducible apply calm_setF | with_reducible apply calm_setFlag | with_reducible apply calm_disableOut | with_reducible apply calm_hostWrite | with_reducible apply calm_modOutRing | with_reducible apply calm_renew | with_reducible apply calm_ite | split
theorem calm_resetHostRegs {b s : State}  (h : Calm b s) : Calm b (resetHostRegs s) := by
  unfold resetHostRegs
  repeat' first | with_reducible assumption | simp only [↓calm_mk'] | simp only [↓calm_mk]
theorem calm_resetPf0 {b s : State}  (h : Calm b s) : Calm b (resetPf0 s) := by
  unfold resetPf0
  repeat' first | with_reducible assumption | with_reducible apply calm_resetHostRegs | with_reducible apply calm_renew | simp only [↓calm_mk'] | simp only [↓calm_mk]
theorem calm_resetPf1 {b s : State}  (h : Calm b s) : Calm b (resetPf1 s) := by
  unfold resetPf1
  repeat' first | with_reducible assumption | simp only [↓calm_mk'] | simp only [↓calm_mk]
theorem calm_noteTimeout {b s : State} (abort : Bool) (h : Calm b s) : Calm b (noteTimeout s abort) := by
  unfold noteTimeout
  repeat' first | with_reducible assumption | with_reducible apply calm_emit | with_reducible apply calm_ite | simp only [↓calm_mk'] | simp only [↓calm_mk] | split
theorem calm_ringReadFault {b s : State} (u : ReadUser) (abort : Bool) (h : Calm b s) : Calm b (ringReadFault s u abort) := by
  unfold ringReadFault
  repeat' first | with_reducible assumption | with_reducible apply calm_modCmdRing | with_reducible apply calm_noteTimeout | with_reducible apply calm_issueReads | with_reducible apply calm_haltRing | with_reducible apply calm_modOutRing | with_reducible apply calm_postRingError | with_reducible apply calm_ite | simp only [↓calm_mk'] | simp only [↓calm_mk] | split
theorem calm_bindPeriph {b s : State} (i : Nat) (c : Nat) (h : Calm b s) : Calm b (bindPeriph s i c) := by
  unfold bindPeriph
  repeat' first | with_reducible assumption | with_reducible apply calm_setF | with_reducible apply calm_setFlag
theorem calm_unbindAll {b s : State} (c : Nat) (h : Calm b s) : Calm b (unbindAll s c) := by
  unfold unbindAll
  repeat' first | with_reducible assumption | with_reducible apply calm_setF | with_reducible apply calm_setFlag | with_reducible apply calm_ite | with_reducible refine calm_foldl (fun _ _ _ => ?_) ?_ | split
theorem calm_nameplate {b s : State} (i c : Nat) (h : Calm b s) : Calm b (nameplate s i c).2 := by
  unfold nameplate
  repeat' first | exact h | exact calm_bindPeriph _ _ h | split
theorem calm_takeBytes {b s : State} (i c n : Nat) (h : Calm b s) : Calm b (takeBytes s i c n).1 := by
  unfold takeBytes
  dsimp only
  repeat' first | exact calm_satAdd _ _ h | exact calm_satAdd _ _ (calm_showFifo _ h) | split
theorem calm_waitTurn {b s : State} (c : Nat) (h : Calm b s) : Calm b (waitTurn s c) := by
  unfold waitTurn
  repeat' first | with_reducible assumption | with_reducible apply calm_modCh | simp only [↓calm_mk'] | simp only [↓calm_mk]
theorem calm_tookTurn {b s : State} (c : Nat) (h : Calm b s) : Calm b (tookTurn s c) := by
  unfold tookTurn
  repeat' first | with_reducible assumption | simp only [↓calm_mk'] | simp only [↓calm_mk]
theorem calm_fetchTurn {b s : State} (c : Nat) (h : Calm b s) : Calm b (fetchTurn s c) := by
  unfold fetchTurn
  repeat' first | with_reducible assumption | with_reducible apply calm_tookTurn | with_reducible apply calm_modCh | with_reducible apply calm_emit | with_reducible apply calm_waitTurn | with_reducible apply calm_ite | simp only [↓calm_mk'] | simp only [↓calm_mk] | split
theorem calm_seek {b s : State} (c : Nat) (h : Calm b s) : Calm b (seek s c) := by
  unfold seek
  repeat' first | with_reducible assumption | with_reducible apply calm_faultDma | with_reducible apply calm_modCh | with_reducible apply calm_waitTurn | with_reducible apply calm_fetchTurn | with_reducible apply calm_ite | simp only [↓calm_mk'] | simp only [↓calm_mk] | split
theorem calm_goTo {b s : State} (c : Nat) (space : Nat) (addr : Nat) (again : Bool) (h : Calm b s) : Calm b (goTo s c space addr again) := by
  unfold goTo
  repeat' first | with_reducible assumption | with_reducible apply calm_setDone | with_reducible apply calm_setPc | with_reducible apply calm_modCh | with_reducible apply calm_faultDma | with_reducible apply calm_seek | with_reducible apply calm_ite | simp only [↓calm_mk'] | simp only [↓calm_mk] | split
theorem calm_goOn {b s : State} (c : Nat) (again : Bool) (h : Calm b s) : Calm b (goOn s c again) := by
  unfold goOn
  repeat' first | with_reducible assumption | with_reducible apply calm_goTo
theorem calm_startDma {b s : State} (c : Nat) (h : Calm b s) : Calm b (startDma s c) := by
  unfold startDma
  repeat' first | with_reducible assumption | with_reducible apply calm_setN | with_reducible apply calm_setChState | with_reducible apply calm_seek | with_reducible apply calm_modCh | simp only [↓calm_mk'] | simp only [↓calm_mk]
theorem calm_actDmaStart {b s : State} (x : Nat) (h : Calm b s) : Calm b (actDmaStart s x).1 := by
  unfold actDmaStart
  repeat' first | with_reducible assumption | with_reducible apply calm_startDma | with_reducible apply calm_ite | split
theorem calm_clearContext {b s : State} (c : Nat) (h : Calm b s) : Calm b (clearContext s c) := by
  unfold clearContext
  repeat' first | with_reducible assumption | simp only [↓calm_mk'] | simp only [↓calm_mk]
theorem calm_writePc {b s : State} (c : Nat) (word : Nat) (data : Nat) (h : Calm b s) : Calm b (writePc s c word data) := by
  unfold writePc
  repeat' first | with_reducible assumption | with_reducible apply calm_setN | with_reducible apply calm_unbindAll | with_reducible apply calm_modCh | with_reducible apply calm_setDone | with_reducible apply calm_ite | simp only [↓calm_mk'] | simp only [↓calm_mk] | split
theorem calm_countStep {b s : State} (c : Nat) (h : Calm b s) : Calm b (countStep s c) := by
  unfold countStep
  repeat' first | with_reducible assumption | with_reducible apply calm_setN
theorem calm_clearSteps {b s : State} (c : Nat) (h : Calm b s) : Calm b (clearSteps s c) := by
  unfold clearSteps
  repeat' first | with_reducible assumption | with_reducible apply calm_setN
theorem calm_finishData {b s : State} (c : Nat) (i : DmaInstr) (h : Calm b s) : Calm b (finishData s c i) := by
  unfold finishData
  repeat' first | with_reducible assumption | with_reducible apply calm_flushKept | with_reducible apply calm_setScur | with_reducible apply calm_setDcur | with_reducible apply calm_modCh | with_reducible apply calm_setN | with_reducible apply calm_raiseFlag | with_reducible apply calm_setFlag | with_reducible apply calm_haltDma | with_reducible apply calm_setDone | with_reducible apply calm_goOn | with_reducible apply calm_ite | simp only [↓calm_mk'] | simp only [↓calm_mk] | split
theorem calm_periphTurn {b s : State} (c : Nat) (p : Nat) (left : Nat) (h : Calm b s) : Calm b (periphTurn s c p left) := by
  unfold periphTurn
  repeat' first | with_reducible assumption | with_reducible apply calm_tookTurn | with_reducible apply calm_modCh | with_reducible apply calm_ite | simp only [↓calm_mk'] | simp only [↓calm_mk] | split
theorem calm_takeTurn {b s : State} (c : Nat) (i : DmaInstr) (h : Calm b s) : Calm b (takeTurn s c i) := by
  unfold takeTurn
  repeat' first | with_reducible assumption | with_reducible apply calm_faultDma | with_reducible apply calm_haltDma | with_reducible apply calm_periphTurn | with_reducible apply calm_tookTurn | with_reducible apply calm_modCh | with_reducible apply calm_emit | with_reducible apply calm_waitTurn | with_reducible apply calm_ite | with_reducible refine calm_foldl (fun _ _ _ => ?_) ?_ | simp only [↓calm_mk'] | simp only [↓calm_mk] | split
theorem calm_nextBurst {b s : State} (c : Nat) (i : DmaInstr) (h : Calm b s) : Calm b (nextBurst s c i) := by
  unfold nextBurst
  repeat' first | with_reducible assumption | with_reducible apply calm_finishData | with_reducible apply calm_waitTurn | with_reducible apply calm_takeTurn | with_reducible apply calm_ite | split
theorem calm_retryTurn {b s : State} (c : Nat) (h : Calm b s) : Calm b (retryTurn s c) := by
  unfold retryTurn
  repeat' first | with_reducible assumption | with_reducible apply calm_modCh | with_reducible apply calm_faultDma | with_reducible apply calm_fetchTurn | with_reducible apply calm_takeTurn | with_reducible apply calm_ite | simp only [↓calm_mk'] | simp only [↓calm_mk] | split
theorem calm_serveTurns {b s : State} (l : List Nat) (h : Calm b s) : Calm b (serveTurns l s) := by
  induction l generalizing s with
  | nil => exact h
  | cons c l ih =>
    rw [serveTurns]
    exact calm_ite (calm_retryTurn c h) (ih (calm_retryTurn c h))
theorem calm_pumpShared {b s : State}  (h : Calm b s) : Calm b (pumpShared s) := by
  unfold pumpShared
  repeat' first | with_reducible assumption | with_reducible apply calm_serveTurns | with_reducible apply calm_issueSources
theorem calm_beginData {b s : State} (c : Nat) (i : DmaInstr) (h : Calm b s) : Calm b (beginData s c i) := by
  unfold beginData
  have k := calm_modCh c (fun x => { x with busy := true, first := if chDone s c = 0 then none else x.first }) (calm_countStep c h)
  dsimp only
  generalize modCh (countStep s c) c _ = v at k ⊢
  have k2 : ∀ {p r}, nameplate v p c = r → Calm b r.2 := fun e => e ▸ calm_nameplate _ _ k
  split
  · exact calm_faultDma _ _ k
  · split
    · split <;> rename_i e
      · exact calm_faultDma _ _ (k2 e)
      · exact calm_nextBurst _ _ (k2 e)
    · exact calm_nextBurst _ _ k
theorem calm_loopJump {b s : State} (c : Nat) (back : Nat) (l : List (Nat × Nat × Nat)) (h : Calm b s) : Calm b (loopJump s c back l) := by
  unfold loopJump
  repeat' first | with_reducible assumption | with_reducible apply calm_modCh | with_reducible apply calm_faultDma | with_reducible apply calm_goTo | with_reducible apply calm_ite | simp only [↓calm_mk'] | simp only [↓calm_mk] | split
theorem calm_runLoop {b s : State} (c : Nat) (count : Nat) (back : Nat) (h : Calm b s) : Calm b (runLoop s c count back) := by
  unfold runLoop
  repeat' first | with_reducible assumption | with_reducible apply calm_countStep | with_reducible apply calm_loopJump | with_reducible apply calm_goOn | with_reducible apply calm_modCh | with_reducible apply calm_faultDma | with_reducible apply calm_ite | simp only [↓calm_mk'] | simp only [↓calm_mk] | split
theorem calm_setEvt {b s : State} (y : Nat) (on : Bool) (h : Calm b s) : Calm b (setEvt s y on) := by
  unfold setEvt
  repeat' first | with_reducible assumption | with_reducible apply calm_raiseFlag | with_reducible apply calm_setFlag | with_reducible apply calm_ite | split
theorem calm_endWait {b s : State} (c : Nat) (h : Calm b s) : Calm b (endWait s c) := by
  unfold endWait
  repeat' first | with_reducible assumption | with_reducible apply calm_goOn | with_reducible apply calm_clearSteps | with_reducible apply calm_setChState
theorem calm_settleBit {b s : State} (y : Nat) (h : Calm b s) : Calm b (settleBit s y) := by
  unfold settleBit
  repeat' first | with_reducible assumption | with_reducible apply calm_endWait | with_reducible apply calm_setEvt | with_reducible apply calm_ite | with_reducible refine calm_foldl (fun _ _ _ => ?_) ?_ | simp only [↓calm_mk'] | simp only [↓calm_mk] | split
theorem calm_runWait {b s : State} (c kind periph : Nat) (h : Calm b s) : Calm b (runWait s c kind periph) := by
  unfold runWait
  have k := calm_countStep c h
  dsimp only
  split
  · split
    · rename_i e
      have k2 := calm_nameplate periph c k
      rw [e] at k2; exact calm_faultDma _ _ k2
    · rename_i e
      have k2 := calm_nameplate periph c k
      rw [e] at k2; exact calm_setChState _ _ k2
  · exact calm_ite (calm_setChState _ _ k) (calm_faultDma _ _ k)
  · exact calm_setChState _ _ k
theorem calm_runSignal {b s : State} (c : Nat) (kind : Nat) (bit : Nat) (vector : Nat) (value : Nat) (addr : Nat) (h : Calm b s) : Calm b (runSignal s c kind bit vector value addr) := by
  unfold runSignal
  repeat' first | with_reducible assumption | with_reducible apply calm_countStep | with_reducible apply calm_goOn | with_reducible apply calm_clearSteps | with_reducible apply calm_setEvt | with_reducible apply calm_sendMsix | with_reducible apply calm_hostWrite | with_reducible apply calm_faultDma | with_reducible apply calm_ite | simp only [↓calm_mk'] | simp only [↓calm_mk] | split
theorem calm_writeEvtSet {b s : State} (w : Nat) (data : Nat) (h : Calm b s) : Calm b (writeEvtSet s w data) := by
  unfold writeEvtSet
  repeat' first | with_reducible assumption | with_reducible apply calm_settleBit | with_reducible apply calm_setEvt | with_reducible refine calm_foldl (fun _ _ _ => ?_) ?_
theorem calm_dmaReadFault {b s : State} (c : Nat) (abort : Bool) (h : Calm b s) : Calm b (dmaReadFault s c abort) := by
  unfold dmaReadFault
  repeat' first | with_reducible assumption | with_reducible apply calm_pumpShared | with_reducible apply calm_faultDma | with_reducible apply calm_modCh | with_reducible apply calm_noteTimeout | with_reducible apply calm_ite | simp only [↓calm_mk'] | simp only [↓calm_mk] | split
theorem calm_startTraining {b s : State}  (h : Calm b s) : Calm b (startTraining s) := by
  unfold startTraining
  repeat' first | with_reducible assumption | with_reducible apply calm_askRate | with_reducible apply calm_setF | with_reducible apply calm_setFlag | with_reducible apply calm_modMemc | with_reducible apply calm_ite | simp only [↓calm_mk'] | simp only [↓calm_mk] | split
theorem calm_writeMemcCtrl {b s : State} (data : Nat) (h : Calm b s) : Calm b (writeMemcCtrl s data) := by
  unfold writeMemcCtrl
  repeat' first | with_reducible assumption | with_reducible apply calm_setF | with_reducible apply calm_askRate | with_reducible apply calm_startTraining | with_reducible apply calm_ite | split
theorem calm_trained {b s : State}  (h : Calm b s) : Calm b (trained s) := by
  unfold trained
  repeat' first | with_reducible assumption | with_reducible apply calm_setFlag | with_reducible apply calm_modMemc | with_reducible apply calm_askRate | with_reducible apply calm_setF | simp only [↓calm_mk'] | simp only [↓calm_mk]
theorem calm_closeRows {b s : State}  (h : Calm b s) : Calm b (closeRows s) := by
  unfold closeRows
  repeat' first | with_reducible assumption | with_reducible apply calm_modMemc | with_reducible apply calm_writeBack | simp only [↓calm_mk'] | simp only [↓calm_mk]
theorem calm_beginSr {b s : State}  (h : Calm b s) : Calm b (beginSr s) := by
  unfold beginSr
  repeat' first | with_reducible assumption | with_reducible apply calm_modMemc | with_reducible apply calm_closeRows | simp only [↓calm_mk'] | simp only [↓calm_mk]
theorem calm_modHkm {b s : State} (f : HkmSt → HkmSt) (h : Calm b s) : Calm b (modHkm s f) := by
  unfold modHkm
  repeat' first | with_reducible assumption | simp only [↓calm_mk'] | simp only [↓calm_mk]
theorem calm_modDac {b s : State} (d : Nat) (f : DacSt → DacSt) (h : Calm b s) : Calm b (modDac s d f) := by
  unfold modDac
  repeat' first | with_reducible assumption | with_reducible apply calm_modHkm | simp only [↓calm_mk'] | simp only [↓calm_mk]
theorem calm_setOut {b s : State} (d : Nat) (v : Nat) (h : Calm b s) : Calm b (setOut s d v) := by
  unfold setOut
  repeat' first | with_reducible assumption | with_reducible apply calm_setF | with_reducible apply calm_setFlag
theorem calm_slew {b s : State} (d : Nat) (e : Nat) (h : Calm b s) : Calm b (slew s d e) := by
  unfold slew
  repeat' first | with_reducible assumption | with_reducible apply calm_modDac | with_reducible apply calm_setOut | with_reducible apply calm_ite | simp only [↓calm_mk'] | simp only [↓calm_mk] | split
theorem calm_strobeDac {b s : State} (e : Nat) (d : Nat) (h : Calm b s) : Calm b (strobeDac s e d) := by
  unfold strobeDac
  repeat' first | with_reducible assumption | with_reducible apply calm_slew | with_reducible apply calm_modDac | with_reducible apply calm_setF | with_reducible apply calm_ite | simp only [↓calm_mk'] | simp only [↓calm_mk] | split
theorem calm_strobe {b s : State} (e : Nat) (mask : Nat) (h : Calm b s) : Calm b (strobe s e mask) := by
  unfold strobe
  repeat' first | with_reducible assumption | with_reducible apply calm_strobeDac | with_reducible refine calm_foldl (fun _ _ _ => ?_) ?_
theorem calm_setHusk {b s : State} (p : Nat) (on : Bool) (h : Calm b s) : Calm b (setHusk s p on) := by
  unfold setHusk
  repeat' first | with_reducible assumption | with_reducible apply calm_setF | with_reducible apply calm_setFlag | with_reducible apply calm_ite | with_reducible refine calm_foldl (fun _ _ _ => ?_) ?_ | split
theorem calm_enterHusk {b s : State} (mask : Nat) (h : Calm b s) : Calm b (enterHusk s mask) := by
  unfold enterHusk
  repeat' first | with_reducible assumption | with_reducible apply calm_setHusk | with_reducible apply calm_modHkm | with_reducible refine calm_foldl (fun _ _ _ => ?_) ?_ | simp only [↓calm_mk'] | simp only [↓calm_mk] | split
theorem calm_zeroCodes {b s : State}  (h : Calm b s) : Calm b (zeroCodes s) := by
  unfold zeroCodes
  repeat' first | with_reducible assumption | with_reducible apply calm_modHkm | with_reducible apply calm_setOut | with_reducible apply calm_setF | with_reducible refine calm_foldl (fun _ _ _ => ?_) ?_ | simp only [↓calm_mk'] | simp only [↓calm_mk]
theorem calm_huskAll {b s : State}  (h : Calm b s) : Calm b (huskAll s) := by
  unfold huskAll
  repeat' first | with_reducible assumption | with_reducible apply calm_zeroCodes | with_reducible apply calm_enterHusk
theorem calm_runHkJob {b s : State} (e : Nat) (j : HkJob) (h : Calm b s) : Calm b (runHkJob s e j) := by
  cases j with
  | set d w => exact calm_setN _ _ h
  | strobe m => exact calm_strobe _ _ h
  | release m => exact calm_foldl (fun _ _ k => calm_setHusk _ _ k) h
theorem calm_settleHkTo {b s : State} (n : Nat) (h : Calm b s) : Calm b (settleHkTo s n) := by
  unfold settleHkTo
  repeat' first | with_reducible assumption | with_reducible apply calm_modHkm | with_reducible apply calm_runHkJob | with_reducible refine calm_foldl (fun _ _ _ => ?_) ?_ | simp only [↓calm_mk'] | simp only [↓calm_mk]
theorem calm_settleHk {b s : State}  (h : Calm b s) : Calm b (settleHk s) := by
  unfold settleHk
  repeat' first | with_reducible assumption | with_reducible apply calm_settleHkTo
theorem calm_hkAt {b s : State} (e : Nat) (j : HkJob) (h : Calm b s) : Calm b (hkAt s e j) := by
  unfold hkAt
  repeat' first | with_reducible assumption | with_reducible apply calm_settleHk | with_reducible apply calm_modHkm | simp only [↓calm_mk'] | simp only [↓calm_mk]
theorem calm_actBiasSet {b s : State} (c : Cmd) (h : Calm b s) : Calm b (actBiasSet s c) := by
  unfold actBiasSet
  repeat' first | with_reducible assumption | with_reducible apply calm_hkAt
theorem calm_actBiasStrobe {b s : State} (c : Cmd) (h : Calm b s) : Calm b (actBiasStrobe s c) := by
  unfold actBiasStrobe
  repeat' first | with_reducible assumption | with_reducible apply calm_hkAt | with_reducible apply calm_settleHk | with_reducible apply calm_strobe | with_reducible apply calm_ite | split
theorem calm_writeStrobe {b s : State} (data : Nat) (h : Calm b s) : Calm b (writeStrobe s data) := by
  unfold writeStrobe
  repeat' first | with_reducible assumption | with_reducible apply calm_hkAt | with_reducible apply calm_settleHk | with_reducible apply calm_strobe | with_reducible apply calm_ite | split
theorem calm_writeHuskSet {b s : State} (data : Nat) (h : Calm b s) : Calm b (writeHuskSet s data) := by
  unfold writeHuskSet
  repeat' first | with_reducible assumption | with_reducible apply calm_enterHusk | with_reducible apply calm_settleHk | with_reducible apply calm_raiseFlag | with_reducible apply calm_ite | split
theorem calm_writeHuskRelease {b s : State} (data : Nat) (h : Calm b s) : Calm b (writeHuskRelease s data) := by
  unfold writeHuskRelease
  repeat' first | with_reducible assumption | with_reducible apply calm_settleHk | with_reducible apply calm_hkAt | with_reducible apply calm_ite | split
theorem calm_modMon {b s : State} (k : Nat) (f : MonUnit → MonUnit) (h : Calm b s) : Calm b (modMon s k f) := by
  unfold modMon
  repeat' first | with_reducible assumption | with_reducible apply calm_modHkm | with_reducible apply calm_setF | with_reducible apply calm_setFlag | simp only [↓calm_mk'] | simp only [↓calm_mk]
theorem calm_startConv {b s : State} (k : Nat) (code : Nat) (e : Nat) (h : Calm b s) : Calm b (startConv s k code e) := by
  unfold startConv
  repeat' first | with_reducible assumption | with_reducible apply calm_modMon | simp only [↓calm_mk'] | simp only [↓calm_mk]
theorem calm_settleWindows {b s : State}  (h : Calm b s) : Calm b (settleWindows s) := by
  unfold settleWindows
  repeat' first | with_reducible assumption | with_reducible apply calm_modMon | with_reducible apply calm_ite | with_reducible refine calm_foldl (fun _ _ _ => ?_) ?_ | simp only [↓calm_mk'] | simp only [↓calm_mk] | split
theorem calm_resumeScan {b s : State} (k : Nat) (e : Nat) (h : Calm b s) : Calm b (resumeScan s k e) := by
  unfold resumeScan
  repeat' first | with_reducible assumption | with_reducible apply calm_setF | with_reducible apply calm_modMon | with_reducible apply calm_setFlag | with_reducible apply calm_startConv | with_reducible apply calm_ite | simp only [↓calm_mk'] | simp only [↓calm_mk] | split
theorem calm_urgent {b s : State} (k : Nat) (input : Nat) (e : Nat) (host : Bool) (h : Calm b s) : Calm b (urgent s k input e host) := by
  unfold urgent
  repeat' first | with_reducible assumption | with_reducible apply calm_modMon | with_reducible apply calm_startConv | with_reducible apply calm_ite | simp only [↓calm_mk'] | simp only [↓calm_mk] | split
theorem calm_actMonUrgent {b s : State} (c : Cmd) (h : Calm b s) : Calm b (actMonUrgent s c) := by
  unfold actMonUrgent
  repeat' first | with_reducible assumption | with_reducible apply calm_urgent
theorem calm_pushRecord {b s : State} (k : Nat) (rec : Nat) (h : Calm b s) : Calm b (pushRecord s k rec) := by
  unfold pushRecord
  repeat' first | with_reducible assumption | with_reducible apply calm_showFifo | with_reducible apply calm_satAdd | with_reducible apply calm_ite | simp only [↓calm_mk'] | simp only [↓calm_mk] | split
theorem calm_noteOvr {b s : State} (k : Nat) (d : MonDue) (h : Calm b s) : Calm b (noteOvr s k d) := by
  unfold noteOvr
  repeat' first | with_reducible assumption | with_reducible apply calm_raiseFlag | with_reducible apply calm_post | with_reducible apply calm_modMon | with_reducible apply calm_ite | simp only [↓calm_mk'] | simp only [↓calm_mk] | split
theorem calm_stopMonitors {b s : State}  (h : Calm b s) : Calm b (stopMonitors s) := by
  unfold stopMonitors
  repeat' first | with_reducible assumption | with_reducible apply calm_showFifo | with_reducible apply calm_setFlag | with_reducible apply calm_modMon | with_reducible refine calm_foldl (fun _ _ _ => ?_) ?_ | simp only [↓calm_mk'] | simp only [↓calm_mk]
theorem calm_losePd18 {b s : State}  (h : Calm b s) : Calm b (losePd18 s) := by
  unfold losePd18
  repeat' first | with_reducible assumption | with_reducible apply calm_raiseFlag | with_reducible apply calm_stopMonitors | with_reducible apply calm_huskAll | with_reducible apply calm_settleHk
theorem calm_hkmOnSync {b s : State}  (h : Calm b s) : Calm b (hkmOnSync s) := by
  unfold hkmOnSync
  repeat' first | with_reducible assumption | with_reducible apply calm_settleHk | with_reducible apply calm_modHkm | with_reducible apply calm_startConv | with_reducible apply calm_ite | with_reducible refine calm_foldl (fun _ _ _ => ?_) ?_ | simp only [↓calm_mk'] | simp only [↓calm_mk] | split
theorem calm_modRx {b s : State} (n : Nat) (f : RxPath → RxPath) (h : Calm b s) : Calm b (modRx s n f) := by
  unfold modRx
  repeat' first | with_reducible assumption | simp only [↓calm_mk'] | simp only [↓calm_mk]
theorem calm_setDc {b s : State} (n : Nat) (ci : Int) (cq : Int) (fi : Int) (fq : Int) (h : Calm b s) : Calm b (setDc s n ci cq fi fq) := by
  unfold setDc
  repeat' first | with_reducible assumption | with_reducible apply calm_setF
theorem calm_spoilWindow {b s : State} (path : Nat) (n : Nat) (h : Calm b s) : Calm b (spoilWindow s path n) := by
  unfold spoilWindow
  repeat' first | with_reducible assumption | with_reducible apply calm_modRx | simp only [↓calm_mk'] | simp only [↓calm_mk]
theorem calm_closeAcq {b s : State} (path : Nat) (n : Nat) (h : Calm b s) : Calm b (closeAcq s path n) := by
  unfold closeAcq
  repeat' first | with_reducible assumption | with_reducible apply calm_modRx | with_reducible apply calm_addUlSpan | with_reducible apply calm_ite | with_reducible refine calm_foldl (fun _ _ _ => ?_) ?_ | simp only [↓calm_mk'] | simp only [↓calm_mk] | split
theorem calm_resetDc {b s : State} (path : Nat) (h : Calm b s) : Calm b (resetDc s path) := by
  unfold resetDc
  repeat' first | with_reducible assumption | with_reducible apply calm_modRx | with_reducible apply calm_ite | simp only [↓calm_mk'] | simp only [↓calm_mk] | split
theorem calm_writeRxCtrl {b s : State} (path : Nat) (data : Nat) (h : Calm b s) : Calm b (writeRxCtrl s path data) := by
  unfold writeRxCtrl
  repeat' first | with_reducible assumption | with_reducible apply calm_setF | with_reducible apply calm_satAdd | with_reducible apply calm_closeAcq | with_reducible apply calm_modRx | with_reducible apply calm_resetDc | with_reducible apply calm_spoilWindow | with_reducible apply calm_ite | simp only [↓calm_mk'] | simp only [↓calm_mk] | split
theorem calm_writeDcCtrl {b s : State} (path : Nat) (data : Nat) (h : Calm b s) : Calm b (writeDcCtrl s path data) := by
  unfold writeDcCtrl
  repeat' first | with_reducible assumption | with_reducible apply calm_setF | with_reducible apply calm_spoilWindow | with_reducible apply calm_modRx | with_reducible apply calm_resetDc | with_reducible apply calm_ite | simp only [↓calm_mk'] | simp only [↓calm_mk] | split
theorem calm_applyGain {b s : State} (path : Nat) (gain : Nat) (n : Nat) (h : Calm b s) : Calm b (applyGain s path gain n) := by
  unfold applyGain
  repeat' first | with_reducible assumption | with_reducible apply calm_emit | with_reducible apply calm_spoilWindow | with_reducible apply calm_spoilByGain | with_reducible apply calm_setF | with_reducible apply calm_ite | split
theorem calm_applyDc {b s : State} (path : Nat) (n : Nat) (ci : Int) (cq : Int) (fi : Int) (fq : Int) (coarse : Bool) (h : Calm b s) : Calm b (applyDc s path n ci cq fi fq coarse) := by
  unfold applyDc
  repeat' first | with_reducible assumption | with_reducible apply calm_setDc | with_reducible apply calm_spoilWindow | with_reducible apply calm_spoilByGain | with_reducible apply calm_ite | split
theorem calm_actDcLoad {b s : State} (p : Pending) (h : Calm b s) : Calm b (actDcLoad s p) := by
  unfold actDcLoad
  repeat' first | with_reducible assumption | with_reducible apply calm_applyDc
theorem calm_applyRxSwap {b s : State} (x : AdaptSwap) (h : Calm b s) : Calm b (applyRxSwap s x) := by
  unfold applyRxSwap
  repeat' first | with_reducible assumption | with_reducible apply calm_applyDc | with_reducible apply calm_applyGain | with_reducible apply calm_ite | split
theorem calm_stopRoot {b s : State}  (h : Calm b s) : Calm b (stopRoot s) := by
  unfold stopRoot
  repeat' first | with_reducible assumption | with_reducible apply calm_settleAllPmc | with_reducible apply calm_setFlag | with_reducible apply calm_patternChanged | simp only [↓calm_mk'] | simp only [↓calm_mk]
theorem calm_startRoot {b s : State}  (h : Calm b s) : Calm b (startRoot s) := by
  unfold startRoot
  repeat' first | with_reducible assumption | with_reducible apply calm_stopRoot
theorem calm_writeClkCtrl {b s : State} (data : Nat) (h : Calm b s) : Calm b (writeClkCtrl s data) := by
  unfold writeClkCtrl
  repeat' first | with_reducible assumption | with_reducible apply calm_setF | with_reducible apply calm_stopRoot | with_reducible apply calm_startRoot | with_reducible apply calm_lanePllOff | with_reducible apply calm_ite | split
theorem calm_restartCounter {b s : State}  (h : Calm b s) : Calm b (restartCounter s) := by
  unfold restartCounter
  repeat' first | with_reducible assumption | with_reducible apply calm_closeEra | with_reducible apply calm_countUnmapped | with_reducible apply calm_settleAllPmc | with_reducible apply calm_ite | simp only [↓calm_mk'] | simp only [↓calm_mk] | split
theorem calm_writeSyncCtrl {b s : State} (data : Nat) (h : Calm b s) : Calm b (writeSyncCtrl s data) := by
  unfold writeSyncCtrl
  repeat' first | with_reducible assumption | with_reducible apply calm_setF | with_reducible apply calm_setFlag | with_reducible apply calm_ite | split
theorem calm_captureSync {b s : State}  (h : Calm b s) : Calm b (captureSync s) := by
  unfold captureSync
  repeat' first | with_reducible assumption | with_reducible apply calm_setFlag | with_reducible apply calm_ite | simp only [↓calm_mk'] | simp only [↓calm_mk] | split
theorem calm_dropSync {b s : State} (c : SyncCapture) (h : Calm b s) : Calm b (dropSync s c) := by
  unfold dropSync
  repeat' first | with_reducible assumption | simp only [↓calm_mk'] | simp only [↓calm_mk]
theorem calm_loadSections {b s : State} (y : List Byte) (h : Calm b s) : Calm b (loadSections s y) := by
  unfold loadSections
  repeat' first | with_reducible assumption | with_reducible apply calm_modTrust | exact fun x => And.intro rfl (And.intro rfl rfl) | simp only [↓calm_mk'] | simp only [↓calm_mk]
theorem calm_putDigest {b s : State} (r : Nat → Reg) (d : List Byte) (h : Calm b s) : Calm b (putDigest s r d) := by
  unfold putDigest
  repeat' first | with_reducible assumption | with_reducible apply calm_setN | with_reducible refine calm_foldl (fun _ _ _ => ?_) ?_
theorem calm_setFwRun {b s : State} (on : Bool) (h : Calm b s) : Calm b (setFwRun s on) := by
  unfold setFwRun
  repeat' first | with_reducible assumption | with_reducible apply calm_setFlag | with_reducible apply calm_settleAllPmc
theorem calm_runImage {b s : State} (x : Option FwImage) (h : Calm b s) : Calm b (runImage s x) := by
  unfold runImage
  repeat' first | with_reducible assumption | with_reducible apply calm_setFwRun | with_reducible apply calm_modTrust | with_reducible apply calm_setF | with_reducible apply calm_putDigest | exact fun x => And.intro rfl (And.intro rfl rfl) | simp only [↓calm_mk'] | simp only [↓calm_mk]
theorem calm_stopAps {b s : State}  (h : Calm b s) : Calm b (stopAps s) := by
  unfold stopAps
  repeat' first | with_reducible assumption | with_reducible apply calm_dropVisit | with_reducible apply calm_setFwRun | with_reducible apply calm_stopSampling | with_reducible refine calm_foldl (fun _ _ _ => ?_) ?_ | simp only [↓calm_mk'] | simp only [↓calm_mk]
theorem calm_queueKeccak {b s : State} (j : KeccakJob) (h : Calm b s) : Calm b (queueKeccak s j) := by
  unfold queueKeccak
  repeat' first | with_reducible assumption | with_reducible apply calm_modTrust | exact fun x => And.intro rfl (And.intro rfl rfl) | simp only [↓calm_mk'] | simp only [↓calm_mk]
theorem calm_rejectBoot {b s : State} (reason : Nat) (h : Calm b s) : Calm b (rejectBoot s reason) := by
  unfold rejectBoot
  repeat' first | with_reducible assumption | with_reducible apply calm_setF
theorem calm_setBoot {b s : State} (p : BootPhase) (phase : Nat) (h : Calm b s) : Calm b (setBoot s p phase) := by
  unfold setBoot
  repeat' first | with_reducible assumption | with_reducible apply calm_setF | with_reducible apply calm_modTrust | exact fun x => And.intro rfl (And.intro rfl rfl) | simp only [↓calm_mk'] | simp only [↓calm_mk]
theorem calm_waitForHost {b s : State}  (h : Calm b s) : Calm b (waitForHost s) := by
  unfold waitForHost
  repeat' first | with_reducible assumption | with_reducible apply calm_setF | with_reducible apply calm_setBoot
theorem calm_qspiRead {b s : State} (addr : Nat) (len : Nat) (h : Calm b s) : Calm b (qspiRead s addr len) := by
  unfold qspiRead
  repeat' first | with_reducible assumption | with_reducible apply calm_emit
theorem calm_loadCopy {b s : State} (k : Nat) (h : Calm b s) : Calm b (loadCopy s k) := by
  unfold loadCopy
  repeat' first | with_reducible assumption | with_reducible apply calm_qspiRead | with_reducible apply calm_setBoot
theorem calm_nextSource {b s : State} (copy : Option Nat) (h : Calm b s) : Calm b (nextSource s copy) := by
  unfold nextSource
  repeat' first | with_reducible assumption | with_reducible apply calm_loadCopy | with_reducible apply calm_waitForHost | with_reducible apply calm_setBoot | with_reducible apply calm_ite | simp only [↓calm_mk'] | simp only [↓calm_mk] | split
theorem calm_startBoot {b s : State}  (h : Calm b s) : Calm b (startBoot s) := by
  unfold startBoot
  repeat' first | with_reducible assumption | with_reducible apply calm_setF | with_reducible apply calm_waitForHost | with_reducible apply calm_setBoot | with_reducible apply calm_loadCopy | simp only [↓calm_mk'] | simp only [↓calm_mk] | split
theorem calm_verifyBoot {b s : State} (copy : Option Nat) (total : Nat) (h : Calm b s) : Calm b (verifyBoot s copy total) := by
  unfold verifyBoot
  repeat' first | with_reducible assumption | with_reducible apply calm_ownBanks | with_reducible apply calm_queueKeccak | with_reducible apply calm_setBoot | with_reducible apply calm_modTrust | exact fun x => And.intro rfl (And.intro rfl rfl) | simp only [↓calm_mk'] | simp only [↓calm_mk]
theorem calm_readRest {b s : State} (k : Nat) (total : Nat) (h : Calm b s) : Calm b (readRest s k total) := by
  unfold readRest
  repeat' first | with_reducible assumption | with_reducible apply calm_qspiRead
theorem calm_writeHostLen {b s : State} (data : Nat) (h : Calm b s) : Calm b (writeHostLen s data) := by
  unfold writeHostLen
  repeat' first | with_reducible assumption | with_reducible apply calm_setF | with_reducible apply calm_verifyBoot | with_reducible apply calm_ite | split
theorem calm_bootVerified {b s : State} (f : Fuses) (copy : Option Nat) (h : Calm b s) : Calm b (bootVerified s f copy) := by
  unfold bootVerified
  repeat' first | with_reducible assumption | with_reducible apply calm_nextSource | with_reducible apply calm_rejectBoot | with_reducible apply calm_setBoot | with_reducible apply calm_loadSections | with_reducible apply calm_modTrust | exact fun x => And.intro rfl (And.intro rfl rfl) | with_reducible apply calm_ite | simp only [↓calm_mk'] | simp only [↓calm_mk] | split
theorem calm_writeStage {b s : State} (data : Nat) (h : Calm b s) : Calm b (writeStage s data) := by
  unfold writeStage
  repeat' first | with_reducible assumption | with_reducible apply calm_setF
theorem calm_startVerify {b s : State}  (h : Calm b s) : Calm b (startVerify s) := by
  unfold startVerify
  repeat' first | with_reducible assumption | with_reducible apply calm_queueKeccak | with_reducible apply calm_setFlag | with_reducible apply calm_ite | split
theorem calm_startActivate {b s : State}  (h : Calm b s) : Calm b (startActivate s) := by
  unfold startActivate
  repeat' first | with_reducible assumption | with_reducible apply calm_stopAps | with_reducible apply calm_setFlag | with_reducible apply calm_queueKeccak | with_reducible apply calm_modTrust | exact fun x => And.intro rfl (And.intro rfl rfl) | with_reducible apply calm_ite | simp only [↓calm_mk'] | simp only [↓calm_mk] | split
theorem calm_writeStageCtrl {b s : State} (data : Nat) (h : Calm b s) : Calm b (writeStageCtrl s data) := by
  unfold writeStageCtrl
  repeat' first | with_reducible assumption | with_reducible apply calm_startVerify | with_reducible apply calm_startActivate | with_reducible apply calm_ite | split
theorem calm_rejectStage {b s : State} (reason : Nat) (h : Calm b s) : Calm b (rejectStage s reason) := by
  unfold rejectStage
  repeat' first | with_reducible assumption | with_reducible apply calm_setFlag | with_reducible apply calm_setF | with_reducible apply calm_rejectBoot
theorem calm_stageVerified {b s : State} (f : Fuses) (first total : Nat) (h : Calm b s) : Calm b (stageVerified s f first total) := by
  rw [stageVerified]
  split
  · exact calm_rejectStage _ h
  · dsimp only
    split
    · exact calm_rejectStage _ (calm_putDigest _ _ h)
    · exact calm_setFlag _ _ (calm_setF _ _ (calm_setF _ _ (calm_putDigest _ _ h)))
theorem calm_restartOld {b s : State} (reason : Nat) (h : Calm b s) : Calm b (restartOld s reason) := by
  have k : ∀ v, Calm b v → Calm b (modTrust (rejectStage (setFwRun v v.trust.old.isSome) reason)
      fun x => { x with old := none, new := none, since := none }) :=
    fun v hv => calm_modTrust _ (calm_rejectStage _ (calm_setFwRun _ hv)) fun x => ⟨rfl, rfl, rfl⟩
  rw [restartOld]
  refine k _ ?_
  cases s.trust.old with
  | none => exact h
  | some x =>
    simp only
    cases storedImage s x.first x.total with
    | none => exact h
    | some d => exact calm_loadSections _ h
theorem calm_activateMeasured {b s : State} (first : Nat) (total : Nat) (h : Calm b s) : Calm b (activateMeasured s first total) := by
  unfold activateMeasured
  repeat' first | with_reducible assumption | with_reducible apply calm_restartOld | with_reducible apply calm_setFwRun | with_reducible apply calm_loadSections | with_reducible apply calm_modTrust | exact fun x => And.intro rfl (And.intro rfl rfl) | with_reducible apply calm_ite | simp only [↓calm_mk'] | simp only [↓calm_mk] | split
theorem calm_writeFuseProg {b s : State} (data : Nat) (h : Calm b s) : Calm b (writeFuseProg s data) := by
  unfold writeFuseProg
  repeat' first | with_reducible assumption | with_reducible apply calm_setF | with_reducible apply calm_setFlag | with_reducible apply calm_modTrust | exact fun x => And.intro rfl (And.intro rfl rfl) | with_reducible apply calm_ite | simp only [↓calm_mk'] | simp only [↓calm_mk] | split
theorem calm_restartCarrier {b s : State} (i : Nat) (n : Nat) (h : Calm b s) : Calm b (restartCarrier s i n) := by
  unfold restartCarrier
  repeat' first | with_reducible assumption | with_reducible apply calm_modStreamsOf | with_reducible apply calm_restartDl | with_reducible apply calm_modCarrier | with_reducible apply calm_addDlSpan | with_reducible apply calm_addUlSpan | with_reducible apply calm_ite | simp only [↓calm_mk'] | simp only [↓calm_mk] | split
theorem calm_restartCarriers {b s : State} (n : Nat) (h : Calm b s) : Calm b (restartCarriers s n) := by
  unfold restartCarriers
  repeat' first | with_reducible assumption | with_reducible apply calm_restartCarrier | with_reducible refine calm_foldl (fun _ _ _ => ?_) ?_
theorem calm_setDomain {b s : State} (d : Nat) (on : Bool) (h : Calm b s) : Calm b (setDomain s d on) := by
  unfold setDomain
  repeat' first | with_reducible assumption | with_reducible apply calm_setF | with_reducible apply calm_ite | split
theorem calm_orxIdle {b s : State}  (h : Calm b s) : Calm b (orxIdle s) := by
  unfold orxIdle
  repeat' first | with_reducible assumption | with_reducible apply calm_setF | with_reducible apply calm_dropVisit | with_reducible apply calm_ite | with_reducible refine calm_foldl (fun _ _ _ => ?_) ?_ | simp only [↓calm_mk'] | simp only [↓calm_mk] | split
theorem calm_resetPodDc {b s : State} (p : Nat) (h : Calm b s) : Calm b (resetPodDc s p) := by
  unfold resetPodDc
  repeat' first | with_reducible assumption | with_reducible apply calm_resetDc | with_reducible refine calm_foldl (fun _ _ _ => ?_) ?_
theorem calm_domainOff {b s : State} (d : Nat) (h : Calm b s) : Calm b (domainOff s d) := by
  unfold domainOff
  repeat' first | with_reducible assumption | with_reducible apply calm_setDomain | with_reducible apply calm_settleInjectors | with_reducible apply calm_dramLost | with_reducible apply calm_resetPod | with_reducible apply calm_loDomain | with_reducible apply calm_abortOrxRuns | with_reducible apply calm_orxIdle | with_reducible apply calm_laneDomainChanged | with_reducible apply calm_losePd18 | with_reducible apply calm_ite | split
theorem calm_postDomainState {b s : State}  (h : Calm b s) : Calm b (postDomainState s) := by
  unfold postDomainState
  repeat' first | with_reducible assumption | with_reducible apply calm_post
theorem calm_applyPwrDomain {b s : State} (c : Cmd) (h : Calm b s) : Calm b (applyPwrDomain s c) := by
  unfold applyPwrDomain
  repeat' first | with_reducible assumption | with_reducible apply calm_modPower | with_reducible apply calm_domainOff | with_reducible apply calm_postDomainState | with_reducible apply calm_ite | with_reducible refine calm_foldl (fun _ _ _ => ?_) ?_ | simp only [↓calm_mk'] | simp only [↓calm_mk] | split
theorem calm_stopEntry {b s : State}  (h : Calm b s) : Calm b (stopEntry s) := by
  unfold stopEntry
  repeat' first | with_reducible assumption | with_reducible apply calm_setFlag | with_reducible apply calm_modPower | simp only [↓calm_mk'] | simp only [↓calm_mk]
theorem calm_writeMode {b s : State} (data : Nat) (h : Calm b s) : Calm b (writeMode s data) := by
  unfold writeMode
  repeat' first | with_reducible assumption | with_reducible apply calm_setF | with_reducible apply calm_stopEntry | with_reducible apply calm_restartCarriers | with_reducible apply calm_abortOrxRuns | with_reducible apply calm_orxIdle | with_reducible apply calm_modPower | with_reducible apply calm_ite | simp only [↓calm_mk'] | simp only [↓calm_mk] | split
theorem calm_stopChannel {b s : State} (c : Nat) (h : Calm b s) : Calm b (stopChannel s c) := by
  unfold stopChannel
  repeat' first | with_reducible assumption | with_reducible apply calm_modCh | with_reducible apply calm_haltDma | with_reducible apply calm_ite | simp only [↓calm_mk'] | simp only [↓calm_mk] | split
theorem calm_cancelActs {b s : State}  (h : Calm b s) : Calm b (cancelActs s) := by
  unfold cancelActs
  repeat' first | with_reducible assumption | with_reducible apply calm_endAct | with_reducible refine calm_foldl (fun _ _ _ => ?_) ?_
theorem calm_drainForEntry {b s : State}  (h : Calm b s) : Calm b (drainForEntry s) := by
  unfold drainForEntry
  repeat' first | with_reducible assumption | with_reducible apply calm_cancelActs | with_reducible apply calm_pumpShared | with_reducible apply calm_stopChannel | with_reducible apply calm_losePartner | with_reducible apply calm_sendMessage | with_reducible refine calm_foldl (fun _ _ _ => ?_) ?_
theorem calm_discardHeld {b s : State}  (h : Calm b s) : Calm b (discardHeld s) := by
  unfold discardHeld
  repeat' first | with_reducible assumption | with_reducible apply calm_loseCpl | with_reducible apply calm_satAdd | with_reducible apply calm_showBacklog | with_reducible refine calm_foldl (fun _ _ _ => ?_) ?_ | simp only [↓calm_mk'] | simp only [↓calm_mk]
theorem calm_loseWeights {b s : State}  (h : Calm b s) : Calm b (loseWeights s) := by
  unfold loseWeights
  repeat' first | with_reducible assumption | with_reducible apply calm_releaseActive | with_reducible apply calm_showAllCols | with_reducible refine calm_foldl (fun _ _ _ => ?_) ?_ | simp only [↓calm_mk'] | simp only [↓calm_mk]
theorem calm_loseUnits {b s : State}  (h : Calm b s) : Calm b (loseUnits s) := by
  unfold loseUnits
  repeat' first | with_reducible assumption | with_reducible apply calm_resetPod | with_reducible apply calm_orxIdle | with_reducible apply calm_losePd18 | with_reducible apply calm_loDomain | with_reducible apply calm_lanePllOff | with_reducible apply calm_stopRoot | with_reducible apply calm_laneDomainChanged | with_reducible apply calm_loseWeights | with_reducible apply calm_endRun | with_reducible refine calm_foldl (fun _ _ _ => ?_) ?_ | simp only [↓calm_mk'] | simp only [↓calm_mk]
theorem calm_undoCommit {b s : State}  (h : Calm b s) : Calm b (undoCommit s) := by
  unfold undoCommit
  repeat' first | with_reducible assumption | with_reducible apply calm_modPower | with_reducible apply calm_setF | simp only [↓calm_mk'] | simp only [↓calm_mk]
theorem calm_settleRails {b s : State} (deep : Bool) (h : Calm b s) : Calm b (settleRails s deep) := by
  unfold settleRails
  repeat' first | with_reducible assumption | with_reducible apply calm_driveRail | with_reducible apply calm_modPower | with_reducible apply calm_ite | with_reducible refine calm_foldl (fun _ _ _ => ?_) ?_ | simp only [↓calm_mk'] | simp only [↓calm_mk] | split
theorem calm_startStepAt {b s : State} (n : Nat) (again : Bool) (h : Calm b s) : Calm b (startStepAt s n again) := by
  unfold startStepAt
  repeat' first | with_reducible assumption | with_reducible apply calm_driveRail | with_reducible apply calm_modPower | with_reducible apply calm_ite | simp only [↓calm_mk'] | simp only [↓calm_mk] | split
theorem calm_stepsFrom {b s : State} (n : Nat) (h : Calm b s) : Calm b (stepsFrom s n) := by
  unfold stepsFrom
  repeat' first | with_reducible assumption | with_reducible apply calm_startStepAt
theorem calm_lockRoot {b s : State}  (h : Calm b s) : Calm b (lockRoot s) := by
  unfold lockRoot
  repeat' first | with_reducible assumption | with_reducible apply calm_restartCounter | with_reducible apply calm_setFlag
theorem calm_undoStep {b s : State} (n : Nat) (h : Calm b s) : Calm b (undoStep s n) := by
  unfold undoStep
  repeat' first | with_reducible assumption | with_reducible apply calm_driveRail | with_reducible apply calm_ite | split
theorem calm_settleLow {b s : State} (deep : Bool) (h : Calm b s) : Calm b (settleLow s deep) := by
  unfold settleLow
  repeat' first | with_reducible assumption | with_reducible apply calm_settleRails | with_reducible apply calm_loseAll | with_reducible apply calm_setF | with_reducible apply calm_modPower | with_reducible apply calm_ite | simp only [↓calm_mk'] | simp only [↓calm_mk] | split
theorem calm_fallBack {b s : State} (n : Nat) (h : Calm b s) : Calm b (fallBack s n) := by
  unfold fallBack
  repeat' first | with_reducible assumption | with_reducible apply calm_modPower | with_reducible apply calm_setF | with_reducible apply calm_raiseFlag | with_reducible apply calm_settleLow | with_reducible apply calm_emit | with_reducible apply calm_satAdd | with_reducible apply calm_ite | simp only [↓calm_mk'] | simp only [↓calm_mk] | split
theorem calm_startWake {b s : State} (source : Nat) (replayed : Bool) (h : Calm b s) : Calm b (startWake s source replayed) := by
  unfold startWake
  repeat' first | with_reducible assumption | with_reducible apply calm_setFlag | with_reducible apply calm_setF | with_reducible apply calm_set64 | with_reducible apply calm_stepsFrom | with_reducible apply calm_modPower | with_reducible apply calm_ite | simp only [↓calm_mk'] | simp only [↓calm_mk] | split
theorem calm_wakeEvent {b s : State} (source : Nat) (h : Calm b s) : Calm b (wakeEvent s source) := by
  unfold wakeEvent
  repeat' first | with_reducible assumption | with_reducible apply calm_modPower | with_reducible apply calm_undoCommit | with_reducible apply calm_startWake | with_reducible apply calm_setF | with_reducible apply calm_ite | simp only [↓calm_mk'] | simp only [↓calm_mk] | split
theorem calm_finishEntry {b s : State}  (h : Calm b s) : Calm b (finishEntry s) := by
  unfold finishEntry
  repeat' first | with_reducible assumption | with_reducible apply calm_modPower | with_reducible apply calm_loseUnits | with_reducible apply calm_wrapAdd | simp only [↓calm_mk'] | simp only [↓calm_mk]
theorem calm_writeWakeReq {b s : State} (data : Nat) (h : Calm b s) : Calm b (writeWakeReq s data) := by
  unfold writeWakeReq
  repeat' first | with_reducible assumption | with_reducible apply calm_wakeEvent | with_reducible apply calm_ite | split
theorem calm_driveUserRail {b s : State}  (h : Calm b s) : Calm b (driveUserRail s) := by
  unfold driveUserRail
  repeat' first | with_reducible assumption | with_reducible apply calm_driveRail | with_reducible apply calm_ite | split
theorem calm_coldStart {b s : State}  (h : Calm b s) : Calm b (coldStart s) := by
  unfold coldStart
  repeat' first | with_reducible assumption | with_reducible apply calm_modPower | with_reducible apply calm_stepsFrom | simp only [↓calm_mk'] | simp only [↓calm_mk]
theorem calm_chipReset {b s : State}  (h : Calm b s) : Calm b (chipReset s) := by
  unfold chipReset
  repeat' first | with_reducible assumption | with_reducible apply calm_modPower | simp only [↓calm_mk'] | simp only [↓calm_mk]
theorem calm_activate {b s : State} (p : Pending) (h : Calm b s) : Calm b (activate s p).1 := by
  unfold activate
  repeat' first | with_reducible assumption | with_reducible apply calm_applyCarrierSet | with_reducible apply calm_actWsActivate | with_reducible apply calm_applyCorr | with_reducible apply calm_applyGain | with_reducible apply calm_applyCfrSet | with_reducible apply calm_actDcLoad | with_reducible apply calm_actLoTune | with_reducible apply calm_applyLoCal | with_reducible apply calm_actPodState | with_reducible apply calm_actSwapBank | with_reducible apply calm_actCalStart | with_reducible apply calm_startCapture | with_reducible apply calm_applyPolicy | with_reducible apply calm_actCoefLoad | with_reducible apply calm_actBiasSet | with_reducible apply calm_actBiasStrobe | with_reducible apply calm_actMonUrgent | with_reducible apply calm_applyPwrDomain | with_reducible apply calm_applyLaneState | with_reducible apply calm_actDmaStart | simp only [↓calm_mk'] | simp only [↓calm_mk] | split
theorem calm_startJob {b s : State} (f : Flight) (j : KeccakJob) (h : Calm b s) : Calm b (startJob s f j) := by
  unfold startJob
  repeat' first | with_reducible assumption | with_reducible apply calm_queueKeccak | with_reducible apply calm_setStage
theorem calm_lastPacket {b s : State} (j : Nat) (x : Stream) (c : Carrier) (h : Calm b s) : Calm b (lastPacket s j x c) := by
  unfold lastPacket
  repeat' first | with_reducible assumption | with_reducible apply calm_enqueue | with_reducible apply calm_ite | split
theorem calm_closeStream {b s : State} (j : Nat) (x : Stream) (h : Calm b s) : Calm b (closeStream s j x) := by
  unfold closeStream
  repeat' first | with_reducible assumption | with_reducible apply calm_lastPacket | with_reducible apply calm_sendEchoes | with_reducible apply calm_ite | simp only [↓calm_mk'] | simp only [↓calm_mk] | split
theorem calm_settleSamples {b s : State} (a : Nat) (h : Calm b s) : Calm b (settleSamples s a) := by
  unfold settleSamples
  repeat' first | with_reducible assumption | with_reducible apply calm_satAdd | with_reducible apply calm_setFlag | with_reducible apply calm_ite | with_reducible refine calm_foldl (fun _ _ _ => ?_) ?_ | simp only [↓calm_mk'] | simp only [↓calm_mk] | split
theorem calm_syncStreams {b s : State} (g : Nat) (h : Calm b s) : Calm b (syncStreams s g) := by
  unfold syncStreams
  repeat' first | with_reducible assumption | with_reducible apply calm_regrant | with_reducible apply calm_moveOrigin | with_reducible refine calm_foldl (fun _ _ _ => ?_) ?_ | simp only [↓calm_mk'] | simp only [↓calm_mk]
theorem calm_syncRx {b s : State} (g : Nat) (h : Calm b s) : Calm b (syncRx s g) := by
  unfold syncRx
  repeat' first | with_reducible assumption | simp only [↓calm_mk'] | simp only [↓calm_mk]
theorem calm_syncRuns {b s : State} (old : Nat) (new : Nat) (h : Calm b s) : Calm b (syncRuns s old new) := by
  unfold syncRuns
  repeat' first | with_reducible assumption | simp only [↓calm_mk'] | simp only [↓calm_mk]
theorem calm_flushActs {b s : State} (g : Nat) (h : Calm b s) : Calm b (flushActs s g) := by
  unfold flushActs
  repeat' first | with_reducible assumption | with_reducible apply calm_endAct | with_reducible refine calm_foldl (fun _ _ _ => ?_) ?_
theorem calm_applySync {b s : State} (value : Nat) (old : Nat) (late : Nat) (h : Calm b s) : Calm b (applySync s value old late) := by
  unfold applySync
  repeat' first | with_reducible assumption | with_reducible apply calm_closeEra | with_reducible apply calm_countUnmapped | with_reducible apply calm_set64 | with_reducible apply calm_setFlag | with_reducible apply calm_postAt | with_reducible apply calm_wrapAdd | with_reducible apply calm_syncRx | with_reducible apply calm_syncRuns | with_reducible apply calm_flushActs | with_reducible apply calm_beamOnSync | with_reducible apply calm_syncStreams | with_reducible apply calm_hkmOnSync | with_reducible apply calm_radioOnSync | with_reducible apply calm_lanesOnSync | with_reducible apply calm_dpdOnSync | simp only [↓calm_mk'] | simp only [↓calm_mk] | split
theorem calm_settleLane {b s : State} (a : Nat) (h : Calm b s) : Calm b (settleLane s a) := by
  unfold settleLane
  repeat' first | with_reducible assumption | with_reducible apply calm_settleSearch | with_reducible apply calm_ite | split
theorem calm_settleBlock {b s : State} (a : Nat) (h : Calm b s) : Calm b (settleBlock s a) := by
  unfold settleBlock
  repeat' first | with_reducible assumption | with_reducible apply calm_settleCoex | with_reducible apply calm_settleLos | with_reducible apply calm_settleLane | with_reducible apply calm_settleInjectors | with_reducible apply calm_settleDram | with_reducible apply calm_settleHk | with_reducible apply calm_countUnmapped | with_reducible apply calm_settleSamples | with_reducible apply calm_ite | split
theorem calm_viewWord {b s : State} (a : Nat) (host : Bool) (h : Calm b s) : Calm b (viewWord s a host).1 := by
  unfold viewWord
  repeat' first | with_reducible assumption | with_reducible apply calm_readCounter | with_reducible apply calm_settleBlock | with_reducible apply calm_settlePmc | with_reducible apply calm_ite | simp only [↓calm_mk'] | simp only [↓calm_mk] | split
theorem calm_popRecord {b s : State} (k : Nat) (h : Calm b s) : Calm b (popRecord s k).1 := by
  unfold popRecord
  repeat' first | with_reducible assumption | with_reducible apply calm_setN | with_reducible apply calm_showFifo | with_reducible apply calm_ite | simp only [↓calm_mk'] | simp only [↓calm_mk] | split
theorem calm_afterRead {b s : State} (a : Nat) (r : RegRow) (l : List Nat) (counted : Nat) (h : Calm b s) : Calm b (afterRead s a r l counted) := by
  unfold afterRead
  repeat' first | with_reducible assumption | with_reducible apply calm_setN | with_reducible apply calm_setF | with_reducible apply calm_ite | simp only [↓calm_mk'] | simp only [↓calm_mk] | split
theorem calm_readWord {b s : State} (a : Nat) (h : Calm b s) : Calm b (readWord s a).1 := by
  unfold readWord
  repeat' first | with_reducible assumption | with_reducible apply calm_popRecord | with_reducible apply calm_settleHk | with_reducible apply calm_viewWord | with_reducible apply calm_afterRead | with_reducible apply calm_ite | simp only [↓calm_mk'] | simp only [↓calm_mk] | split
theorem calm_hostRead {b s : State} (a : Nat) (h : Calm b s) : Calm b (hostRead s a).1 := by
  unfold hostRead
  repeat' first | with_reducible assumption | with_reducible apply calm_satAdd | with_reducible apply calm_readWord | with_reducible apply calm_ite | split
theorem calm_storeWord {b s : State} (a : Nat) (r : RegRow) (l : List Nat) (data : Nat) (h : Calm b s) : Calm b (storeWord s a r l data) := by
  unfold storeWord
  repeat' first | with_reducible assumption | with_reducible apply calm_setN
theorem calm_writeWickCfg {b s : State} (data : Nat) (h : Calm b s) : Calm b (writeWickCfg s data) := by
  unfold writeWickCfg
  repeat' first | with_reducible assumption | with_reducible apply calm_setF | with_reducible apply calm_driveRail | with_reducible apply calm_ite | split
theorem calm_writeRow {b s : State} (a : Nat) (r : RegRow) (l : List Nat) (data : Nat) (h : Calm b s) : Calm b (writeRow s a r l data) := by
  unfold writeRow
  repeat' first | with_reducible assumption | with_reducible apply calm_storeWord | with_reducible apply calm_chipReset | with_reducible apply calm_writeClkCtrl | with_reducible apply calm_writeSyncCtrl | with_reducible apply calm_patternChanged | with_reducible apply calm_settleWindows | with_reducible apply calm_writeCmdCtrl | with_reducible apply calm_writeCqCtrl | with_reducible apply calm_writeEvCtrl | with_reducible apply calm_writePc | with_reducible apply calm_writeEvtSet | with_reducible apply calm_writeCorr | with_reducible apply calm_writeTxCtrl | with_reducible apply calm_writeRxCtrl | with_reducible apply calm_writeDcCtrl | with_reducible apply calm_writeTerm | with_reducible apply calm_writePolicy | with_reducible apply calm_refreshLo | with_reducible apply calm_profileChanged | with_reducible apply calm_writeCoex | with_reducible apply calm_orxEnChanged | with_reducible apply calm_writePortCtrl | with_reducible apply calm_writeLaneCtrl | with_reducible apply calm_writeMemcCtrl | with_reducible apply calm_writeHuskRelease | with_reducible apply calm_writeHuskSet | with_reducible apply calm_writeStrobe | with_reducible apply calm_writeMode | with_reducible apply calm_writeWickCfg | with_reducible apply calm_writeWakeReq | with_reducible apply calm_writeHostLen | with_reducible apply calm_writeStage | with_reducible apply calm_writeStageCtrl | with_reducible apply calm_writeFuseProg | with_reducible apply calm_writePmcCtl | with_reducible apply calm_writeCounter | with_reducible apply calm_settlePmc | with_reducible apply calm_restartSampling | with_reducible apply calm_writeSampWr | with_reducible apply calm_settleBlock | with_reducible apply calm_ite | simp only [↓calm_mk'] | simp only [↓calm_mk] | split
theorem calm_writeWord {b s : State} (a : Nat) (data : Nat) (h : Calm b s) : Calm b (writeWord s a data) := by
  unfold writeWord
  repeat' first | with_reducible assumption | with_reducible apply calm_writeRow | with_reducible apply calm_ite | simp only [↓calm_mk'] | simp only [↓calm_mk] | split
theorem calm_driveAlert {b x s : State} (h : Calm b s) : Calm b (driveAlert x s) := by
  unfold driveAlert
  split
  · exact h
  · exact calm_emit _ h
theorem calm_hostStore {b s : State} (a : Nat) (data : Nat) (h : Calm b s) : Calm b (hostStore s a data) := by
  unfold hostStore
  split
  · split
    · exact calm_driveAlert (calm_writeWord _ _ (calm_modPower _ h))
    · exact calm_blockWrite _ h
  · split
    · exact calm_writeWord _ _ h
    · exact calm_driveAlert (calm_writeWord _ _ (calm_countCfg _ h))
theorem calm_w4Words {b s : State} (x : Sys2Proof.Access) (h : Calm b s) : Calm b (w4Words s x) := by
  unfold w4Words
  repeat' first | with_reducible assumption | with_reducible apply calm_storeMsix | with_reducible apply calm_emit | with_reducible apply calm_ite | split
theorem calm_readWords {b s : State} (a n : Nat) (h : Calm b s) : Calm b (readWords s a n).1 := by
  induction n generalizing s a with
  | zero => exact h
  | succ n ih => exact ih _ (calm_hostRead _ h)
theorem calm_writeWords {b s : State} (a data n : Nat) (h : Calm b s) : Calm b (writeWords s a data n) := by
  induction n generalizing s a data with
  | zero => exact h
  | succ n ih => exact ih _ _ (calm_hostStore _ _ h)
theorem calm_missAccess {b s : State} (x : Sys2Proof.Access) (h : Calm b s) : Calm b (missAccess s x) := by
  unfold missAccess
  repeat' first | with_reducible assumption | with_reducible apply calm_raiseFlag | with_reducible apply calm_emit | with_reducible apply calm_ite | split
theorem calm_pf1Word {b s : State} (a : Nat) (h : Calm b s) : Calm b (pf1Word s a).1 := by
  unfold pf1Word
  repeat' first | with_reducible assumption | with_reducible apply calm_viewWord | with_reducible apply calm_ite | simp only [↓calm_mk'] | simp only [↓calm_mk] | split
theorem calm_pf1Words {b s : State} (a n : Nat) (h : Calm b s) : Calm b (pf1Words s a n).1 := by
  induction n generalizing s a with
  | zero => exact h
  | succ n ih => exact ih _ (calm_pf1Word _ h)
end Sys2Proof.Machine
end

