-- ==== Sys2Proof/Laws/Command.lean ====
section
/-!
SUPPORT. What the shared operations of a ring command can do, said once: whose turn it is, what the checks allow, and what a completion, an
acceptance and a rejection leave as they were.
-/
namespace Sys2Proof.Machine

/-! ## Turns and checks -/

/-- The command whose turn has come is in flight, waits, and is the one asked for. -/
theorem turn_some {u : State} {c : Cmd} {f : Flight} (h : turn u c = some f) : f ∈ u.host.flight ∧ f.cmd = c ∧ f.stage = .waiting := by
  unfold turn at h
  cases hf : u.host.flight.find? (fun f => f.cmd.ring == c.ring && f.stage == .waiting) with
  | none => simp [hf] at h
  | some g =>
    have hm := List.mem_of_find?_eq_some hf
    have hp := List.find?_some hf
    simp only [hf] at h
    by_cases hc : g.cmd = c
    · simp only [Bool.and_eq_true, beq_iff_eq] at hp
      split at h
      · cases h
      · split at h
        · cases h
        · split at h
          · cases h
          · split at h
            · cases h
            · cases h; exact ⟨hm, hc, hp.2⟩
    · simp [hc] at h

/-- A command that has passed checks 1 to 3 has the mode of its opcode: an immediate one is not scheduled. -/
theorem earlyChecks_immediate {u : State} {c : Cmd} {more : List (Nat × Nat)} {cfg : Bool} {type : Nat} (h : earlyChecks u c more = none)
    (hr : opcodeRow c.opcode = some (.i, cfg, type)) : sched c = false := by
  unfold earlyChecks at h
  rw [hr] at h
  cases hs : sched c <;> simp [hs] at h ⊢

/-- As above: a scheduled-only command is scheduled. -/
theorem earlyChecks_scheduled {u : State} {c : Cmd} {more : List (Nat × Nat)} {cfg : Bool} {type : Nat} (h : earlyChecks u c more = none)
    (hr : opcodeRow c.opcode = some (.s, cfg, type)) : sched c = true := by
  unfold earlyChecks at h
  rw [hr] at h
  cases hs : sched c <;> simp [hs] at h ⊢

/-- A row whose command may run runs its own part on it. -/
theorem runCmd_of_mayRun {t op : Nat} {c : Cmd} {s u : State} {more : State → List (Nat × Nat)} {f : Flight} {k : State → Flight → State}
    (hu : u = advance t s) (h : mayRun u op c (more u) f) : runCmd t op c s (more u) k = .next (k u f) := by
  obtain ⟨h1, h2, h3⟩ := h
  simp [runCmd, ← hu, h1, h2, h3]

/-- The late checks of an immediate command pass when its parameters, resources and memory do. -/
theorem lateChecks_immediate {u : State} {f : Flight} {keys : List (Nat × Nat × Nat)} (h : sched f.cmd = false) :
    lateChecks u f false keys none false = none := by simp [lateChecks, h]

/-- Those of a scheduled one pass when its tick lies in the window as well. -/
theorem lateChecks_inWindow {u : State} {f : Flight} {keys : List (Nat × Nat × Nat)} (h : inWindow u f.cmd f keys) :
    lateChecks u f false keys none false = none := by
  obtain ⟨h1, h2, h3, h4⟩ := h
  simp [lateChecks, Nat.not_lt.mpr h1, h3, Nat.not_le.mpr h4]
  intro _; omega

/-! ## Frames -/

/-- A completion changes the host interface and registers only. -/
theorem finish_frame (s : State) (f : Flight) (status result tick : Nat) (ok : Bool) :
    { finish s f status result tick ok with host := s.host, regs := s.regs } = s := by
  simp only [finish, countCfg, set64, setN, setR, wrapAdd, setF, setStage, leaveFlight, pushCpl]
  repeat' split
  all_goals rfl

/-- So does a rejection. -/
theorem reject_frame (s : State) (f : Flight) (status : Nat) : { reject s f status with host := s.host, regs := s.regs } = s :=
  finish_frame ..

/-! ## Accesses that may have to wait -/

/-- What needs no memory is done at once; what needs it reaches the port, and is done if the port then serves. -/
theorem throughPort_cases (uses : Bool) (k : State → State) (s : State) :
    (uses = false ∧ throughPort uses k s = k s)
    ∨ (uses = true ∧ portServes (disturbSr s) = true ∧ throughPort uses k s = k (disturbSr s))
    ∨ (uses = true ∧ portServes (disturbSr s) = false ∧ throughPort uses k s = disturbSr s) := by
  cases uses <;> cases h : portServes (disturbSr s) <;> simp [throughPort, h]

/-- A write of configuration space is carried out, or answered with a retry. -/
theorem writeConfig_cases (k : State → State) (s : State) :
    (pd2Ready s = true ∧ writeConfig s k = k s) ∨ (pd2Ready s = false ∧ writeConfig s k = emit s .configRetry) := by
  cases h : pd2Ready s <;> simp [writeConfig, h]

/-! ## One cycle -/

theorem foldl_or (l : List (Nat × Nat)) (m : Nat) : l.foldl (fun m x => m ||| x.2) m = m ||| l.foldl (fun m x => m ||| x.2) 0 := by
  induction l generalizing m with
  | nil => simp
  | cons x l ih => rw [List.foldl_cons, List.foldl_cons, ih, ih (0 ||| x.2), Nat.zero_or, Nat.or_assoc]

/-- The bits that the device sets in a cycle are held in their word from then on. -/
theorem heldMask_holdBits (s : State) (f : Fld) : heldMask (holdBits s f) f.reg.addr = f.mask ||| heldMask s f.reg.addr := by
  simp only [heldMask, holdBits, List.filter_cons, decide_true, if_true, List.foldl_cons, Nat.zero_or]
  exact foldl_or ..

/-- No other word is held. -/
theorem heldMask_holdBits_other (s : State) (f : Fld) (a : Nat) (h : f.reg.addr ≠ a) : heldMask (holdBits s f) a = heldMask s a := by
  simp [heldMask, holdBits, h]

end Sys2Proof.Machine
end

