-- ==== Sys2Proof/Laws/Lines.lean ====
section
/-!
SUPPORT. The descrambler undoes the scrambler: bit by bit, then block by block along a lane (spec/10_bxl_protocol.md R309).
-/
namespace Sys2Proof.Machine

/-- Every line bit is the data bit and the line bits 39 and 58 places back. -/
theorem scramble_bits (p d : BitVec 64) :
    scramble p d ^^^ (scramble p d <<< 39) ^^^ (scramble p d <<< 58) = d ^^^ scramblerTail p := by
  ext i hi
  simp only [scramble, BitVec.getElem_xor, BitVec.getElem_shiftLeft, BitVec.getElem_and]
  interval_cases i <;> simp <;> grind

theorem descramble_scramble (p d : BitVec 64) : descramble p (scramble p d) = d := by
  rw [descramble, scramble_bits, BitVec.xor_assoc, BitVec.xor_self, BitVec.xor_zero]

theorem leNat_lt (l : List Byte) : leNat l < 2 ^ (8 * l.length) := by
  induction l with
  | nil => simp [leNat]
  | cons b l ih =>
    have := b.isLt
    simp only [leNat, List.length_cons, Nat.mul_add, Nat.pow_add]
    omega

theorem leBytes_leNat (l : List Byte) : leBytes l.length (leNat l) = l := by
  induction l with
  | nil => rfl
  | cons b l ih =>
    have := b.isLt
    simp only [leNat, List.length_cons, leBytes]
    congr 1
    · apply BitVec.eq_of_toNat_eq
      simp
      omega
    · rw [show (b.toNat + 256 * leNat l) / 256 = leNat l by omega, ih]

theorem blockBytes_blockBits {l : List Byte} (h : l.length = 8) : blockBytes (blockBits l) = l := by
  have k := leNat_lt l
  rw [h] at k
  rw [blockBytes, blockBits, BitVec.toNat_ofNat, Nat.mod_eq_of_lt k, ← h, leBytes_leNat]

/-- What a lane sends comes back as it was: the headers and the bytes of its blocks (R309). -/
theorem fromLines_toLines (x : LineBlock) (l : List Block) (h : ∀ b ∈ l, b.bytes.length = 8) :
    fromLines (x :: toLines x.line l) = l.map fun b => (syncHeader b.control, b.bytes) := by
  induction l generalizing x with
  | nil => rfl
  | cons b l ih =>
    rw [toLines, fromLines, ih _ fun c hc => h c (.tail _ hc)]
    simp [toLine, descramble_scramble, blockBytes_blockBits (h b (.head _))]

end Sys2Proof.Machine
end

