-- ==== Sys2Proof/Laws/Striping.lean ====
section
/-!
SUPPORT. The receiver gathers back what the sender deals over a set of lanes (spec/10_bxl_protocol.md R310).
-/
namespace Sys2Proof.Machine

theorem gather_map {α β : Type} (f : α → β) (n : Nat) (set : List Nat) (k : Nat) (lanes : List (List α)) :
    gather n set k (lanes.map (·.map f)) = (gather n set k lanes).map f := by
  induction n generalizing k lanes with
  | zero => rfl
  | succ n ih =>
    have e : (lanes.map (·.map f)).getD (set.getD (k % set.length) 16) [] = (lanes.getD (set.getD (k % set.length) 16) []).map f := by
      rw [List.getD_eq_getElem?_getD, List.getElem?_map, List.getD_eq_getElem?_getD (l := lanes)]
      cases lanes[set.getD (k % set.length) 16]? <;> rfl
    simp only [gather, e]
    cases lanes.getD (set.getD (k % set.length) 16) [] with
    | nil => simp
    | cons b l =>
      simp only [List.map_cons]
      rw [← ih, List.map_set]

theorem deal_cons (set : List Nat) (k : Nat) (b : Block) (l : List Block) :
    deal set k (b :: l) =
      (List.range 16).map fun i => (if set.getD (k % set.length) 16 = i then [b] else []) ++ (deal set (k + 1) l).getD i [] := by
  apply List.ext_getElem?
  intro i
  by_cases h : i < 16
  · have e : (List.zipIdx l 1).filter (fun x => decide (set.getD ((k + x.2) % set.length) 16 = i)) =
        ((List.zipIdx l).filter fun x => decide (set.getD ((k + 1 + x.2) % set.length) 16 = i)).map fun x => (x.1, x.2 + 1) := by
      rw [List.zipIdx_succ, List.filter_map]
      simp only [Function.comp_def, Nat.add_assoc, Nat.add_comm 1]
    simp only [deal, List.getElem?_map, List.getElem?_range h, Option.map_some, List.zipIdx_cons, List.filter_cons, Nat.add_zero,
      List.getD_eq_getElem?_getD, Option.getD_some]
    by_cases g : set[k % set.length]?.getD 16 = i
    · simp only [List.getD_eq_getElem?_getD] at e
      simp [g, e, Function.comp_def]
    · simp only [List.getD_eq_getElem?_getD] at e
      simp [g, e, Function.comp_def]
  · simp [deal, Nat.le_of_not_lt h]

theorem take_first (j : Nat) (b : Block) (lanes : List (List Block)) (h : lanes.length = 16) (hj : j < 16) :
    ((List.range 16).map fun i => (if j = i then [b] else []) ++ lanes.getD i []).getD j [] = b :: lanes.getD j []
    ∧ ((List.range 16).map fun i => (if j = i then [b] else []) ++ lanes.getD i []).set j (lanes.getD j []) = lanes := by
  constructor
  · rw [List.getD_eq_getElem?_getD, List.getElem?_map, List.getElem?_range hj]
    simp
  · apply List.ext_getElem?
    intro i
    by_cases g : i < 16
    · by_cases e : j = i
      · subst e
        rw [List.getElem?_set_self (by simpa using hj), List.getD_eq_getElem?_getD, List.getElem?_eq_getElem (by omega)]
        rfl
      · rw [List.getElem?_set_ne e, List.getElem?_map, List.getElem?_range g, Option.map_some, if_neg e, List.nil_append,
          List.getD_eq_getElem?_getD, List.getElem?_eq_getElem (by omega)]
        rfl
    · rw [List.getElem?_eq_none (by simp; omega), List.getElem?_eq_none (by omega)]

theorem gather_deal (n : Nat) (set : List Nat) (k : Nat) (l : List Block) (h0 : set ≠ []) (h : ∀ i ∈ set, i < 16) (hn : l.length ≤ n) :
    gather n set k (deal set k l) = l := by
  induction l generalizing n k with
  | nil =>
    cases n with
    | zero => rfl
    | succ n =>
      have e : (deal set k []).getD (set.getD (k % set.length) 16) [] = [] := by
        rw [List.getD_eq_getElem?_getD, deal, List.getElem?_map]
        cases (List.range 16)[set.getD (k % set.length) 16]? <;> rfl
      rw [gather, e]
  | cons b l ih =>
    cases n with
    | zero => simp at hn
    | succ n =>
      have hi : set.getD (k % set.length) 16 < 16 := by
        have hk : k % set.length < set.length := Nat.mod_lt _ (List.length_pos_iff.2 h0)
        rw [List.getD_eq_getElem?_getD, List.getElem?_eq_getElem hk]
        exact h _ (List.getElem_mem hk)
      have e := take_first _ b (deal set (k + 1) l) (by simp [deal]) hi
      rw [gather, deal_cons, e.1]
      simp only [e.2]
      rw [ih n (k + 1) (by simpa using hn)]

theorem dealt_once (j : Nat) (b : Block) (l : List Nat) (f : Nat → List Block) :
    (l.map fun i => (if j = i then [b] else []).length + (f i).length).sum = l.count j + (l.map fun i => (f i).length).sum := by
  induction l with
  | nil => rfl
  | cons i l ih =>
    simp only [List.map_cons, List.sum_cons, ih, List.count_cons]
    by_cases e : j = i
    · simp [e]
      omega
    · simp [e, Ne.symm e]
      omega

/-- Every block is dealt to one lane. -/
theorem deal_sum (set : List Nat) (k : Nat) (l : List Block) (h0 : set ≠ []) (h : ∀ i ∈ set, i < 16) :
    ((deal set k l).map (·.length)).sum = l.length := by
  induction l generalizing k with
  | nil => simp [deal]
  | cons b l ih =>
    have hi : set.getD (k % set.length) 16 < 16 := by
      have hk : k % set.length < set.length := Nat.mod_lt _ (List.length_pos_iff.2 h0)
      rw [List.getD_eq_getElem?_getD, List.getElem?_eq_getElem hk]
      exact h _ (List.getElem_mem hk)
    have e : deal set (k + 1) l = (List.range 16).map fun i => (deal set (k + 1) l).getD i [] := by
      apply List.ext_getElem
      · simp [deal]
      · intro i h1 h2
        simp [List.getElem?_eq_getElem h1]
    have r := ih (k + 1)
    rw [e, List.map_map] at r
    rw [deal_cons, List.map_map]
    simp only [Function.comp_def, List.length_append] at r ⊢
    rw [dealt_once, r, List.count_eq_one_of_mem List.nodup_range (by simpa using hi), List.length_cons, Nat.add_comm]

end Sys2Proof.Machine
end

