-- ==== Sys2Proof/Laws/Tame.lean ====
section
/-!
SUPPORT. The operations that write a memory: they keep its canonical form, and leave alone what `Calm` operations leave alone.
-/
namespace Sys2Proof.Machine

/-- As `Calm`, for operations that may write a memory: its canonical form is kept. -/
def Tame (b s : State) : Prop :=
  s.pending = b.pending ∧ s.part = b.part ∧ b.time.now ≤ s.time.now ∧ (b.memWf = true → s.memWf = true)
    ∧ (b.acts.length ≤ 512 → s.acts.length ≤ 512)
    ∧ s.trust.customer = b.trust.customer ∧ s.trust.policy = b.trust.policy ∧ s.trust.epochs = b.trust.epochs

theorem Calm.tame {b s : State} (h : Calm b s) : Tame b s := by
  obtain ⟨h1, h2, h3, h4, h5, h6⟩ := h
  exact ⟨h1, h2, h3, by simp [State.memWf, h4, h5], h6⟩

theorem Tame.trans {b s v : State} (h : Tame b s) (k : Tame s v) : Tame b v := by
  obtain ⟨h1, h2, h3, h4, h5, h6, h7, h8⟩ := h
  obtain ⟨k1, k2, k3, k4, k5, k6, k7, k8⟩ := k
  exact ⟨k1.trans h1, k2.trans h2, Nat.le_trans h3 k3, k4 ∘ h4, k5 ∘ h5, k6.trans h6, k7.trans h7, k8.trans h8⟩

theorem tame_store {s : State} (m : List Host.Cell) (hm : s.memWf = true → Memory.wf m = true) : Tame s { s with store := m } :=
  ⟨rfl, rfl, Nat.le_refl _, fun h => by
    simp only [State.memWf, Bool.and_eq_true] at h ⊢; exact ⟨hm (by simp [State.memWf, h]), h.2⟩, id, rfl, rfl, rfl⟩

theorem tame_dram {s : State} (m : List Host.Cell) (hm : s.memWf = true → Memory.wf m = true) : Tame s { s with dram := m } :=
  ⟨rfl, rfl, Nat.le_refl _, fun h => by
    simp only [State.memWf, Bool.and_eq_true] at h ⊢; exact ⟨h.1, hm (by simp [State.memWf, h])⟩, id, rfl, rfl, rfl⟩

theorem State.memWf_store {s : State} (h : s.memWf = true) : Memory.wf s.store = true := by
  simp only [State.memWf, Bool.and_eq_true] at h; exact h.1
theorem State.memWf_dram {s : State} (h : s.memWf = true) : Memory.wf s.dram = true := by
  simp only [State.memWf, Bool.and_eq_true] at h; exact h.2

theorem tame_writeStore (s : State) (a : Nat) (l : List Byte) : Tame s { s with store := memWrite s.store a l } :=
  tame_store _ fun h => memWrite_wf (State.memWf_store h) _ _
theorem tame_writeDram (s : State) (a : Nat) (l : List Byte) : Tame s { s with dram := memWrite s.dram a l } :=
  tame_dram _ fun h => memWrite_wf (State.memWf_dram h) _ _

theorem tame_logWrite (s : State) (block : List Byte) : Tame s (logWrite s block) := by
  unfold logWrite
  dsimp only
  split
  · exact (tame_writeStore s _ _).trans (calm_setF _ _ (Calm.refl _)).tame
  · exact ((calm_disturbSr (Calm.refl s)).tame.trans (tame_writeDram _ _ _)).trans (calm_setF _ _ (Calm.refl _)).tame
  · exact (calm_setF _ _ (calm_hostWrite _ _ _ (Calm.refl _))).tame

theorem tame_requestSwap (s : State) (path kind bin n : Nat) (coarse : Bool) (data : List Byte) :
    Tame s (requestSwap s path kind bin n coarse data).1 := by
  unfold requestSwap
  have k := (calm_noteRequest (Calm.refl s)).tame
  refine k.trans ?_
  dsimp only
  generalize noteRequest s = s
  generalize (if kind = 0 then 57 else if kind = 1 then 35 else 33, path, bin) = key
  split
  · exact (Calm.refl s).tame
  · split
    · exact (calm_post _ _ (Calm.refl _)).tame
    · split
      · exact (calm_postAt _ _ _ (Calm.refl _)).tame
      · exact (calm_postAt _ _ _ (Calm.refl _)).tame.trans (tame_logWrite _ _)

theorem tame_bringRecords (s : State) (i : Nat) (data : List Byte) : Tame s (bringRecords s i data) := by
  unfold bringRecords
  split
  · exact (Calm.refl s).tame
  · split
    · exact tame_writeStore s _ _
    · exact (Calm.refl s).tame

theorem tame_writeNext (s : State) (c : Nat) (dst : Nat × Nat) (bytes : List Byte) : Tame s (writeNext s c dst bytes) := by
  unfold writeNext
  dsimp only
  split
  · exact (calm_setDone _ _ (calm_modCh _ _ (calm_hostBytes _ _ (Calm.refl _)))).tame
  · exact (tame_writeStore s _ _).trans (calm_setDone _ _ (Calm.refl _)).tame
  · exact (tame_writeDram s _ _).trans (calm_setDone _ _ (Calm.refl _)).tame

theorem tame_runBurst (s : State) (c : Nat) (i : DmaInstr) (n : Nat) (src dst : List Byte) : Tame s (runBurst s c i n src dst) := by
  cases i with
  | move a b d e f g h =>
    rw [runBurst]
    split
    · exact ((tame_bringRecords s _ _).trans (calm_takeBytes _ _ _ (Calm.refl _)).tame).trans (tame_writeNext _ _ _ _)
    · exact tame_writeNext _ _ _ _
    · exact (Calm.refl s).tame
  | fill a b d e f =>
    rw [runBurst]
    split
    · exact tame_writeNext _ _ _ _
    · exact (Calm.refl s).tame
  | cmp a b d e f g h k l m =>
    rw [runBurst]
    split
    · exact (calm_setDone _ _ (calm_modCh _ _ (Calm.refl _))).tame
    · exact (Calm.refl s).tame
  | _ => exact (Calm.refl s).tame

theorem tame_writeRecords (s : State) (x : Capture) (data : List Byte) (skip : Nat) : Tame s (writeRecords s x data skip) := by
  unfold writeRecords
  repeat' split
  all_goals first
    | exact (Calm.refl s).tame
    | exact tame_writeStore s _ _
    | exact tame_writeDram s _ _
    | exact (calm_hostWrite _ _ _ (Calm.refl _)).tame

theorem memWrites_wf {α : Type} (f : α → Nat) (g : α → List Byte) (l : List α) {m : List Host.Cell} (h : Memory.wf m = true) :
    Memory.wf (l.foldl (fun m y => memWrite m (f y) (g y)) m) = true := by
  induction l generalizing m with
  | nil => exact h
  | cons y l ih => exact ih (memWrite_wf h _ _)

theorem tame_putSample (s : State) (a : Nat) (bytes : List Byte) : Tame s (putSample s a bytes) := by
  unfold putSample
  dsimp only
  generalize insertBy _ _ _ = recs
  generalize (_ ++ [65536 * getF s F.PMC_SAMP_BASE_BASE + 16 * getF s F.PMC_SAMP_WR_WR]) = more
  generalize (if samplesFull s = true then _ else more) = slots
  refine Tame.trans (tame_store _ fun h =>
    memWrites_wf (fun y : Nat × Nat × List Byte => y.1) (fun y => y.2.2) (slots.zip recs) (State.memWf_store h)) (Calm.tame ?_)
  repeat' first
    | with_reducible exact Calm.refl _
    | with_reducible apply calm_modPmc
    | with_reducible apply calm_satAdd
    | with_reducible apply calm_wrapAdd
    | with_reducible apply calm_setFlag
    | with_reducible apply calm_raiseFlag
    | with_reducible apply calm_setF
    | with_reducible apply calm_ite

theorem tame_wsLoadArrived (s : State) (f : Flight) (host : List Byte) : Tame s (wsLoadArrived s f host) := by
  rw [wsLoadArrived]
  have k := calm_dropLoad f.id (Calm.refl s)
  split
  · exact (calm_reject _ _ k).tame
  · split
    · exact (calm_reject _ _ k).tame
    · split
      · exact (calm_reject _ _ k).tame
      · refine Tame.trans k.tame (Tame.trans ?_ (Calm.tame (calm_complete _ _ (Calm.refl _))))
        generalize dropLoad s f.id = v
        split
        · exact tame_writeDram v _ _
        · exact (calm_showCols _ (calm_putSet _ _ (Calm.refl _))).tame

theorem tame_solveDone (s : State) (path bin : Nat) (better : Bool) (base : Option Coefs) (data : Coefs) :
    Tame s (solveDone s path bin better base data) := by
  rw [solveDone]
  split
  · exact (Calm.refl s).tame
  · generalize hv : setBase _ bin base = v
    have k : Tame s v := by
      subst hv; exact (calm_setBase bin base (s := { s with dpd := { s.dpd with solves := s.dpd.solves.erase (path, bin) } }) (Calm.refl s)).tame
    refine k.trans ?_
    dsimp only
    repeat' split
    all_goals first
      | exact (Calm.refl v).tame
      | exact (calm_satAdd _ _ (Calm.refl v)).tame
      | exact tame_requestSwap v _ _ _ _ _ _

theorem tame_requestGain (s : State) (path gain tick : Nat) : Tame s (requestGain s path gain tick) := by
  rw [requestGain]
  split
  · exact (Calm.refl s).tame
  · dsimp only
    split
    · exact (tame_requestSwap _ _ _ _ _ _ _).trans (calm_modRx _ _ (Calm.refl _)).tame
    · exact tame_requestSwap _ _ _ _ _ _ _

theorem tame_iteSwap (s : State) (q : Prop) [Decidable q] (path kind bin n : Nat) (coarse : Bool) (data : List Byte) :
    Tame s (if q then (s, false) else requestSwap s path kind bin n coarse data).1 := by
  split
  · exact (Calm.refl s).tame
  · exact tame_requestSwap _ _ _ _ _ _ _

theorem tame_measureDc (s : State) (path w : Nat) (sumI sumQ : Int) : Tame s (measureDc s path w sumI sumQ) := by
  rw [measureDc]
  refine Tame.trans ?_ (Calm.tame (calm_ite (calm_closeAcq _ _ (calm_modRx _ _ (calm_modRx _ _ (Calm.refl _)))) (calm_modRx _ _ (Calm.refl _))))
  exact tame_iteSwap _ _ _ _ _ _ _ _

theorem tame_endWindow (s : State) (path : Nat) : Tame s (endWindow s path) := by
  rw [endWindow]
  dsimp only
  split
  · exact (Calm.refl s).tame
  · split
    · exact (calm_modRx _ _ (calm_satAdd _ _ (Calm.refl s))).tame
    · exact tame_measureDc _ _ _ _ _

theorem tame_domainReady (s : State) (d : Nat) (cells : List Host.Cell) : Tame s (domainReady s d cells) := by
  rw [domainReady]
  refine (calm_setDomain d true (calm_settleInjectors (Calm.refl s))).tame.trans ?_
  generalize setDomain (settleInjectors s) d true = v
  split
  · refine (tame_dram _ fun h => ?_).trans (calm_modPower _ (Calm.refl _)).tame
    split
    · exact State.memWf_dram h
    · exact memCells_wf (State.memWf_dram h) _
  · refine Calm.tame ?_
    repeat' first
      | with_reducible exact Calm.refl _
      | with_reducible exact calm_restartCarriers _ (Calm.refl _)
      | with_reducible exact calm_resetPodDc _ (calm_resetPod _ (Calm.refl _))
      | with_reducible exact calm_loDomain _ (Calm.refl _)
      | with_reducible exact calm_orxIdle (Calm.refl _)
      | with_reducible exact calm_laneDomainChanged _ (Calm.refl _)
      | with_reducible exact calm_stopMonitors (calm_huskAll (Calm.refl _))
      | split

theorem tame_restoreSleep (s : State) (cells : List Host.Cell) : Tame s (restoreSleep s cells) := by
  rw [restoreSleep]
  generalize getN s A.PWR_WICK_RETAIN = keep
  refine (calm_settleInjectors (calm_settleAllPmc (Calm.refl s))).tame.trans ?_
  generalize s.power.back = back
  generalize s.power.source = replayed
  generalize settleInjectors (settleAllPmc s) = s
  generalize hv : ({ s with store := memCells s.store (cells.filter fun x =>
    decide (x.1 < storeSize) && !bitAt keep (x.1 / 524288)) } : State) = v
  have k : Tame s v := by subst hv; exact tame_store _ fun h => memCells_wf (State.memWf_store h) _
  refine k.trans (Calm.tame ?_)
  repeat' first
    | with_reducible exact Calm.refl _
    | with_reducible apply calm_post
    | with_reducible apply calm_postDomainState
    | with_reducible apply calm_driveUserRail
    | with_reducible apply calm_endWait
    | with_reducible apply calm_restartCarriers
    | with_reducible apply calm_laneDomainChanged
    | with_reducible refine calm_foldl (fun _ _ _ => ?_) ?_
    | with_reducible assumption
    | with_reducible apply calm_resetPodDc
    | with_reducible apply calm_loDomain
    | with_reducible apply calm_modPower
    | with_reducible apply calm_modMemc
    | with_reducible apply calm_leaveSr
    | with_reducible apply calm_ite
    | with_reducible apply calm_setFlag
    | with_reducible apply calm_setF
    | with_reducible apply calm_countCfg
    | split

theorem tame_startCold (s : State) (straps : Nat) (cells : List Host.Cell) : Tame s (startCold s straps cells) := by
  rw [startCold]
  generalize (if s.power.cold = true then 0 else getN s A.PWR_WICK_RETAIN) = keep
  generalize hv : ({ s with
    store := s.store.filter fun x => bitAt keep (x.1 / 524288)
    dram := if (s.power.retain && !s.power.cold) = true then s.dram else memCells s.dram cells } : State) = v
  have k : Tame s v := by
    subst hv
    refine ⟨rfl, rfl, Nat.le_refl _, fun h => ?_, id, rfl, rfl, rfl⟩
    simp only [State.memWf, Bool.and_eq_true]
    refine ⟨memory_filter_wf (State.memWf_store h) _, ?_⟩
    split
    · exact State.memWf_dram h
    · exact memCells_wf (State.memWf_dram h) _
  refine k.trans (Calm.tame ?_)
  repeat' first
    | with_reducible exact Calm.refl _
    | with_reducible apply calm_startBoot
    | with_reducible apply calm_driveUserRail
    | with_reducible apply calm_modPower
    | with_reducible apply calm_setF
    | with_reducible apply calm_ite

end Sys2Proof.Machine
end

