-- ==== Sys2Proof/Machine/Pins.lean ====
section
/-!
DEFINITION. Fixed tables beside the state, which no command reads: the ball map of the package, what each of the 54 × 54 balls carries
(spec/18_pins_and_electrical.md R479-R484), the I/O types of the signals (R485), the operating conditions of the rails (R487), and the identities that the PCIe configuration spaces report (spec/19_register_map.md R502).
-/
namespace Sys2Proof.Machine

/-- A ball: a supply, a signal with its index (0 where it has none), or unconnected. -/
inductive Ball where
  | supply (name : String)
  | signal (name : String) (index : Nat)
  | open'
deriving DecidableEq, Repr

def vss : Ball := .supply "VSS"

/-- Tile row `r` of the column of path `n` (R480). -/
def pathBall (n r : Nat) : Ball :=
  match r with
  | 1 => .signal "TX_P" n
  | 2 => .signal "TX_N" n
  | 4 => .signal "RXI_P" n
  | 5 => .signal "RXI_N" n
  | 7 => .signal "FB" n
  | 8 => .signal "FE_A" n
  | 9 => .signal "FE_B" n
  | 10 => .signal "GB" n
  | 11 => .signal "IS" n
  | _ => vss

/-- Tile row `r`, column c0 + `j` of the tile of pod `p` (R480). -/
def tileBall (p j r : Nat) : Ball :=
  if j < 8 then pathBall (8 * p + j) r
  else if j = 8 then (if r = 1 then .signal "AUX" (2 * p) else if r = 2 then .signal "AUX" (2 * p + 1) else .supply "VDD_RF")
  else if j = 10 then .supply "VDD_ANA"
  else vss

/-- The signal balls of pods that the part lacks are unconnected; their supplies stay (R7, R484). -/
def podBall (part : Part) (p j r : Nat) : Ball :=
  match part, tileBall p j r with
  | .iza6448, .signal n i => if p < 6 then .signal n i else .open'
  | _, b => b

/-- The columns of the lane ports, rows 12-43; none for a column of the core (R481). -/
def laneBall (row col : Nat) : Option Ball :=
  let l := (row - 12) / 2
  let pair := fun (p n : String) => some (Ball.signal (if row % 2 = 0 then p else n) l)
  match col with
  | 1 => pair "PRX_P" "PRX_N"
  | 3 => pair "PTX_P" "PTX_N"
  | 5 => pair "FRX_P" "FRX_N"
  | 7 => pair "FTX_P" "FTX_N"
  | 54 => pair "CRX_P" "CRX_N"
  | 52 => pair "CTX_P" "CTX_N"
  | 2 | 4 | 6 | 8 | 51 | 53 => some vss
  | 9 | 50 => some (.supply (if row < 28 then "VDD_SER" else "VDD_SERH"))
  | _ => none

/-- A run of shared signals: row, first column, names with their indexes. -/
structure BallRun where
  row : Nat
  col : Nat
  names : List (String × Nat)

def indexed (name : String) (n : Nat) : List (String × Nat) := (List.range n).map fun i => (name, i)
def pairs (p n : String) (k : Nat) : List (String × Nat) := (List.range k).flatMap fun i => [(p, i), (n, i)]
def single (l : List String) : List (String × Nat) := l.map fun n => (n, 0)

/-- The shared signals (R482). -/
def sharedRuns : List BallRun :=
  [⟨12, 28, single ["CAL_IO"]⟩, ⟨12, 40, single ["FESCK_A", "FESDO_A", "FESDI_A", "FECS_A"]⟩,
    ⟨43, 40, single ["FESCK_B", "FESDO_B", "FESDI_B", "FECS_B"]⟩, ⟨14, 12, pairs "PCIE_TX_P" "PCIE_TX_N" 4⟩,
    ⟨16, 12, pairs "PCIE_RX_P" "PCIE_RX_N" 4⟩, ⟨18, 12, single ["PCIE_REFCLK_P", "PCIE_REFCLK_N", "PERST_N"]⟩,
    ⟨20, 12, single ["REFCLK_P", "REFCLK_N"]⟩, ⟨20, 15, single ["SYNC_IN_P", "SYNC_IN_N"]⟩, ⟨20, 18, single ["SYNC_OUT_P", "SYNC_OUT_N"]⟩,
    ⟨22, 12, single ["RESET_N", "WAKE_N", "ALERT_N"] ++ indexed "CASC_ROLE" 2 ++ indexed "BOOT_SEL" 2 ++ [("LDB_IN", 0)]⟩,
    ⟨24, 12, single ["QSPI_SCK", "QSPI_CS_N"] ++ indexed "QSPI_IO" 4⟩, ⟨24, 19, single ["TCK", "TMS", "TDI", "TDO", "TRST_N"]⟩,
    ⟨26, 12, single ["COEX_REQ_O", "COEX_PRI_O", "COEX_GNT_I", "COEX_REQ_I", "COEX_GNT_O"]⟩, ⟨28, 12, indexed "EN_RAIL" 8⟩,
    ⟨30, 12, indexed "PG" 8⟩, ⟨39, 38, single ["LP5_RESET_N"]⟩, ⟨42, 38, single ["LP5_ZQ"]⟩, ⟨43, 30, indexed "AIN" 8⟩,
    ⟨43, 38, [("VSS_MON", 0), ("VSS_MON", 1)]⟩]

/-- The LP5 channels; the index of a signal counts on from channel 0 to channel 1 (R482). -/
def memoryRuns (ch : Nat) : List BallRun :=
  let own := fun (n : String) (k : Nat) => (List.range k).map fun i => (n, k * ch + i)
  let two := fun (p n : String) => (List.range 2).flatMap fun i => [(p, 2 * ch + i), (n, 2 * ch + i)]
  [⟨38 + 3 * ch, 12, own "DQ" 16⟩, ⟨38 + 3 * ch, 28, own "DMI" 2⟩, ⟨38 + 3 * ch, 30, two "WCK_T" "WCK_C"⟩,
    ⟨38 + 3 * ch, 34, two "RDQS_T" "RDQS_C"⟩, ⟨39 + 3 * ch, 12, own "CA" 7 ++ own "CK_T" 1 ++ own "CK_C" 1 ++ own "CS" 1⟩]

/-- The signal of a shared ball. -/
def sharedBall (row col : Nat) : Option Ball :=
  (sharedRuns ++ memoryRuns 0 ++ memoryRuns 1).findSome? fun x =>
    if x.row = row && x.col ≤ col then x.names[col - x.col]?.map fun y => Ball.signal y.1 y.2 else none

/-- The core supplies, the first line of the table that contains the ball (R483). -/
def coreSupply (row col : Nat) : String :=
  if col ≤ 11 then "VDD_IO"
  else if row ≤ 19 then "VDD_SRAM"
  else if row ≤ 23 && 40 ≤ col then "VDD_RF"
  else if 24 ≤ row && row ≤ 27 && 40 ≤ col then "VDD_ANA"
  else if 32 ≤ row && row ≤ 35 && col ≤ 23 then "VDD_AON"
  else if 36 ≤ row && col ≤ 38 then "VDD_LP5Q"
  else "VDD_CORE"

/-- Rows 12-43, columns 10-49 (R482, R483). -/
def coreBall (row col : Nat) : Ball :=
  (sharedBall row col).getD (if (row + col) % 2 = 1 then vss else .supply (coreSupply row col))

/-- The ball at row/column, 1 to 54 each (R23, R479-R484). -/
def ballAt (part : Part) (row col : Nat) : Ball :=
  if row < 12 || 43 < row then
    if col < 4 || 51 < col then vss
    else
      let r := if row < 12 then row else 55 - row
      podBall part ((col - 4) / 12 + (if row < 12 then 0 else 4)) ((col - 4) % 12) r
  else (laneBall row col).getD (coreBall row col)

/-! ## Signal types and operating conditions (R485, R487) -/

/-- The I/O types of the table "I/O types" (R485). -/
inductive IoType where
  /-- RF output, 100 Ω differential. -/
  | rfOut
  /-- RF input, 100 Ω differential. -/
  | rfIn
  /-- RF, 50 Ω single-ended. -/
  | rf50 (bidirectional : Bool)
  /-- Digital output of so many mA. -/
  | output (milliamps : Nat)
  /-- Digital input with a Schmitt trigger and an internal 50 kΩ pull, if any. -/
  | input (pull : Option Bool)
  /-- Open drain of 4 mA. -/
  | openDrain
  /-- Digital, bidirectional. -/
  | bidirectional
  /-- Analogue output, 0 to 2.4 V. -/
  | analogueOut
  /-- Analogue input, 0 to 1.2 V full scale. -/
  | analogueIn
  /-- Differential input, 100 Ω on die. -/
  | diffIn
  | lvdsOut
  | cml
  /-- As JESD209-5 requires. -/
  | lp5
deriving DecidableEq, Repr

/-- The groups of the table "I/O types" (R485): the signals of each, and their type. -/
def ioTypes : List (List String × IoType) :=
  [(["TX_P", "TX_N"], .rfOut), (["RXI_P", "RXI_N"], .rfIn), (["FB"], .rf50 false), (["CAL_IO"], .rf50 true),
    (["FE_A", "FE_B", "FESCK_A", "FESDO_A", "FECS_A", "FESCK_B", "FESDO_B", "FECS_B", "COEX_REQ_O", "COEX_PRI_O", "COEX_GNT_O",
      "QSPI_SCK", "QSPI_CS_N", "TDO"], .output 8), (["EN_RAIL"], .output 2),
    (["FESDI_A", "FESDI_B", "COEX_GNT_I", "COEX_REQ_I", "PG", "LDB_IN", "TCK", "TMS", "TDI", "TRST_N", "PERST_N"], .input none),
    (["CASC_ROLE", "BOOT_SEL"], .input (some false)), (["RESET_N", "WAKE_N"], .input (some true)), (["ALERT_N"], .openDrain),
    (["QSPI_IO"], .bidirectional), (["GB", "AUX"], .analogueOut), (["IS", "AIN"], .analogueIn),
    (["REFCLK_P", "REFCLK_N", "SYNC_IN_P", "SYNC_IN_N"], .diffIn), (["SYNC_OUT_P", "SYNC_OUT_N"], .lvdsOut),
    (["PRX_P", "PRX_N", "PTX_P", "PTX_N", "FRX_P", "FRX_N", "FTX_P", "FTX_N", "CRX_P", "CRX_N", "CTX_P", "CTX_N", "PCIE_TX_P", "PCIE_TX_N",
      "PCIE_RX_P", "PCIE_RX_N", "PCIE_REFCLK_P", "PCIE_REFCLK_N"], .cml),
    (["DQ", "DMI", "WCK_T", "WCK_C", "RDQS_T", "RDQS_C", "CA", "CK_T", "CK_C", "CS", "LP5_RESET_N", "LP5_ZQ"], .lp5)]

/-- The I/O type of a ball; none of a supply, of the monitor units' ground and of an unconnected ball. -/
def ioType : Ball → Option IoType
  | .signal name _ => (ioTypes.find? fun x => x.1.contains name).map (·.2)
  | _ => none

/-- A single-ended digital pin: a 1.8 V CMOS pin on VDD_IO, which the boundary-scan register covers; it covers no other (R485). -/
def scanned (b : Ball) : Bool :=
  match ioType b with
  | some (.output _) | some (.input _) | some .openDrain | some .bidirectional => true
  | _ => false

/-- A rail's operating conditions: nominal voltage and range in mV, the typical current and the regulator's rating in mA. -/
structure RailRow where
  rail : String
  nominal : Nat
  low : Nat
  high : Nat
  typical : Nat
  rating : Nat
deriving DecidableEq, Repr

/-- The table "Operating conditions" (R487). -/
def operating : List RailRow :=
  [⟨"VDD_CORE", 750, 728, 773, 21000, 30000⟩, ⟨"VDD_SRAM", 800, 776, 824, 2000, 3000⟩, ⟨"VDD_AON", 800, 776, 824, 20, 50⟩,
    ⟨"VDD_SER", 850, 825, 876, 6000, 8000⟩, ⟨"VDD_SERH", 1200, 1164, 1236, 2600, 3500⟩, ⟨"VDD_ANA", 950, 922, 979, 9000, 12000⟩,
    ⟨"VDD_RF", 1800, 1746, 1854, 6500, 8000⟩, ⟨"VDD_IO", 1800, 1710, 1890, 100, 300⟩, ⟨"VDD_LP5Q", 500, 485, 515, 400, 1000⟩]

/-! ## PCIe identities (R502) -/

/-- What the configuration space of a function reports. -/
structure PcieIdentity where
  vendor : Nat
  device : Nat
  revision : Nat
  classCode : Nat
  subVendor : Nat
  subId : Nat
deriving DecidableEq, Repr

/-- The identity of PF0 (`pf1` false) or PF1 (R502). -/
def pcieIdentity (part : Part) (pf1 : Bool) : PcieIdentity :=
  let device := match part with
    | .iza6490 => if pf1 then 0x6491 else 0x6490
    | .iza6448 => if pf1 then 0x6449 else 0x6448
  { vendor := 0x1F2C, device := device, revision := 0x21, classCode := if pf1 then 0x110100 else 0x118000, subVendor := 0x1F2C, subId := device }

end Sys2Proof.Machine
end

