-- ==== Sys2Proof/WellFormed.lean ====
section
/-!
DEFINITION. Which commands are well formed: an index lies in the range of its table, a field fits its width, an access names bytes of its
window. A meaning is total on every command; an ill-formed one names nothing that the block has.
-/
namespace Sys2Proof

/-- The fields of an entry fit the widths of R76. -/
def Cmd.wellFormed (c : Cmd) : Bool :=
  decide (c.ring < 16) && decide (c.opcode < 2 ^ 8) && decide (c.flags < 2 ^ 8) && decide (c.tag < 2 ^ 16) && decide (c.handle < 2 ^ 32)
    && decide (c.actTick < 2 ^ 64)

/-- An access names at least one byte, lies within 64 MiB (R57), and brings no more data than it has bytes. -/
def Access.wellFormed (x : Access) : Bool :=
  decide (0 < x.len) && decide (x.addr + x.len ≤ 2 ^ 26) && decide (x.data < 2 ^ (8 * x.len))

/-- A register write names a word of W0 with 32-bit data; a read request size is one that PCI Express has (R57, R58). -/
def RegTarget.wellFormed : RegTarget → Bool
  | .w0 addr data => decide (addr < 0x400000) && decide (addr % 4 = 0) && decide (data < 2 ^ 32)
  | .w4 addr data => decide (addr < 0x2000) && decide (addr % 4 = 0) && decide (data < 2 ^ 32)
  | .pcie _ _ _ size value aspm => [128, 256, 512, 1024, 2048, 4096].contains size && decide (value < 16) && decide (aspm < 4)
  | .msix _ _ => true
  | .aer clear cor => decide (clear < 2 ^ 32) && decide (cor < 2 ^ 32)
  | .aerControl mask severity cor => decide (mask < 2 ^ 32) && decide (severity < 2 ^ 32) && decide (cor < 2 ^ 32)
  | .powerState fn state => decide (fn < 2) && (state == 0 || state == 3)
  | .reporting enables => decide (enables < 16)
  | .retrain speed width => decide (1 ≤ speed) && decide (speed ≤ 4) && [1, 2, 4].contains width

/-- A well-formed command. -/
def Instr.wellFormed : Instr → Bool
  | .nop _ c => c.wellFormed
  | .fence _ c => c.wellFormed
  | .cancel _ c => c.wellFormed
  | .cfgDigest _ c => c.wellFormed
  | .attest _ c => c.wellFormed
  | .storeClaim _ c => c.wellFormed
  | .storeRelease _ c => c.wellFormed
  | .carrierCreate _ c => c.wellFormed
  | .carrierSet _ c => c.wellFormed
  | .carrierDestroy _ c => c.wellFormed
  | .streamCreate _ c => c.wellFormed
  | .streamDestroy _ c => c.wellFormed
  | .wsCreate _ c => c.wellFormed
  | .wsLoad _ c => c.wellFormed
  | .wsActivate _ c => c.wellFormed
  | .wsDestroy _ c => c.wellFormed
  | .pathCorr _ c => c.wellFormed
  | .rxGain _ c => c.wellFormed
  | .cfrSet _ c => c.wellFormed
  | .dcLoad _ c => c.wellFormed
  | .loTune _ c => c.wellFormed
  | .loCal _ c => c.wellFormed
  | .podState _ c => c.wellFormed
  | .fesbWrite _ c => c.wellFormed
  | .tddSwap _ c => c.wellFormed
  | .calCreate _ c => c.wellFormed
  | .calStart _ c => c.wellFormed
  | .calDestroy _ c => c.wellFormed
  | .capCreate _ c => c.wellFormed
  | .capStart _ c => c.wellFormed
  | .capDestroy _ c => c.wellFormed
  | .dpdPolicy _ c => c.wellFormed
  | .dpdCoefLoad _ c => c.wellFormed
  | .dpdDump _ c => c.wellFormed
  | .biasSet _ c => c.wellFormed
  | .biasStrobe _ c => c.wellFormed
  | .monScan _ c => c.wellFormed
  | .monUrgent _ c => c.wellFormed
  | .pwrDomain _ c => c.wellFormed
  | .laneState _ c => c.wellFormed
  | .cascDiscover _ c => c.wellFormed
  | .fiSet _ c => c.wellFormed
  | .fiClear _ c => c.wellFormed
  | .dmaCreate _ c => c.wellFormed
  | .dmaStart _ c => c.wellFormed
  | .dmaStop _ c => c.wellFormed
  | .dmaDestroy _ c => c.wellFormed
  | .partnerDestroy _ c => c.wellFormed
  | .scheduledActivation _ => true
  | .carrierRestart _ carrier => decide (carrier < 8)
  | .ulCarrierRestart _ carrier => decide (carrier < 8)
  | .ringPoll _ => true
  | .kick _ => true
  | .piReadComplete _ ring pi => decide (ring < 16) && decide (pi < 2 ^ 32)
  | .entryFetchComplete _ ring _ entries => decide (ring < 16) && decide (entries.length % 64 = 0)
  | .ciReadComplete _ kind ring ci => decide (kind < 3) && decide (ring < 16) && decide (ci < 2 ^ 32)
  | .readCompletionTimeout _ _ _ => true
  | .completionWrite _ cq => decide (cq < 16)
  | .completionBacklogDrain _ ring => decide (ring < 16)
  | .eventQueueDrain _ ring => decide (ring < 4)
  | .msixModerationExpiry _ kind ring => decide (kind < 3) && decide (ring < 16)
  | .ringCtrlWrite _ kind ring data => decide (kind < 3) && decide (ring < 16) && decide (data < 2 ^ 32)
  | .functionLevelReset _ => true
  | .pf1FunctionLevelReset _ => true
  | .malformedAccess _ access => access.wellFormed
  | .w2Access _ access => access.wellFormed
  | .pf1Read _ access => access.wellFormed
  | .registerWrite _ target => target.wellFormed
  | .rootEnWrite _ data => decide (data < 2 ^ 32)
  | .laneEnWrite _ data => decide (data < 2 ^ 32)
  | .rootPllLock _ => true
  | .lanePllLock _ => true
  | .clockUnlock _ pll => decide (pll < 2)
  | .pllRelock _ pll => decide (pll < 2)
  | .syncArm _ data => decide (data < 2 ^ 32)
  | .syncEvent _ => true
  | .syncApplied _ => true
  | .syncCheck _ => true
  | .syncOutScheduled _ => true
  | .patternTableStart _ => true
  | .patternTableStop _ => true
  | .tddEntryWrite _ bank entry data => decide (bank < 2) && decide (entry < 64) && decide (data < 2 ^ 32)
  | .frameBoundary _ => true
  | .adaptiveSwapRequest _ path _ _ _ _ _ _ _ => decide (path < 64)
  | .adaptiveSwap _ => true
  | .prefetchStart _ carrier dir => decide (carrier < 8) && decide (dir < 2)
  | .prefetchComplete _ carrier dir => decide (carrier < 8) && decide (dir < 2)
  | .dramPrefetchLate _ carrier dir => decide (carrier < 8) && decide (dir < 2)
  | .stagedCopyStart _ carrier dir => decide (carrier < 8) && decide (dir < 2)
  | .weightSetSwap _ carrier dir => decide (carrier < 8) && decide (dir < 2)
  | .oldSetFreed _ carrier dir => decide (carrier < 8) && decide (dir < 2)
  | .corrWrite _ path dir word data => decide (path < 64) && decide (dir < 2) && decide (word < 2) && decide (data < 2 ^ 32)
  | .dlPacketArrival _ => true
  | .slotDecided _ stream _ => decide (stream < 128)
  | .echoRecord _ stream _ => decide (stream < 128)
  | .echo _ => true
  | .txpCtrlWrite _ path data => decide (path < 64) && decide (data < 2 ^ 32)
  | .rxpCtrlWrite _ path data => decide (path < 64) && decide (data < 2 ^ 32)
  | .gainControlStep _ path _ _ => decide (path < 64)
  | .dcWindowEnd _ path => decide (path < 64)
  | .dcReset _ path => decide (path < 64)
  | .ulPacketQueued _ stream _ => decide (stream < 128)
  | .packetSend _ port => decide (port < 3)
  | .packetOverrun _ port => decide (port < 3)
  | .dpdTermWrite _ k data => decide (k < 48) && decide (data < 2 ^ 32)
  | .dpdSlotStart _ orx => decide (orx < 4)
  | .dpdCaptureStart _ orx => decide (orx < 4)
  | .dpdCaptureEnd _ orx => decide (orx < 4)
  | .dpdSolveDone _ path _ _ _ _ => decide (path < 64)
  | .spectrumMonitorCapture _ orx path _ _ => decide (orx < 4) && decide (path < 64)
  | .captureStart _ job => decide (job < 32)
  | .captureDone _ job _ => decide (job < 32)
  | .loLocked _ synth => decide (synth < 3)
  | .loLossOfLock _ synth => decide (synth < 3)
  | .loCalDone _ synth _ => decide (synth < 3)
  | .calibrationGapStart _ => true
  | .ladderStepEnd _ => true
  | .patternTurnaround _ => true
  | .fePinEdge _ pod => decide (pod < 8)
  | .fesbFrameStart _ half => decide (half < 2)
  | .fesbFrameEnd _ half _ => decide (half < 2)
  | .coexGntISeen _ _ => true
  | .coexReqISeen _ _ => true
  | .grantWaitExpiry _ job => decide (job < 16)
  | .calEmissionStart _ job => decide (job < 16)
  | .calStepEnd _ job _ => decide (job < 16)
  | .calDone _ job => decide (job < 16)
  | .orxImageCalEnd _ job _ => decide (job < 16)
  | .slip _ port lane data => decide (port < 3) && decide (lane < 16) && decide (data < 2 ^ 32)
  | .restart _ port lane data => decide (port < 3) && decide (lane < 16) && decide (data < 2 ^ 32)
  | .blockLock _ port lane _ => decide (port < 3) && decide (lane < 16)
  | .blockLockLoss _ port lane _ _ => decide (port < 3) && decide (lane < 16)
  | .laneDead _ port lane _ => decide (port < 3) && decide (lane < 16)
  | .markerSend _ port => decide (port < 3)
  | .markerReceive _ port lane _ _ => decide (port < 3) && decide (lane < 16)
  | .lanePowerEntry _ port lane => decide (port < 3) && decide (lane < 16)
  | .lanePowerExitEnd _ port lane => decide (port < 3) && decide (lane < 16)
  | .laneDownEnd _ port slot => decide (port < 3) && decide (slot < 8)
  | .equaliserAdaptStep _ port lane _ => decide (port < 3) && decide (lane < 16)
  | .laneLoopWrite _ port lane data => decide (port < 3) && lane.all (fun l => decide (l < 16)) && decide (data < 2 ^ 32)
  | .packetReceive _ port _ _ => decide (port < 3)
  | .hello _ => true
  | .keepaliveReceive _ => true
  | .leaseAck _ => true
  | .bye _ => true
  | .partnerTimeReceive _ => true
  | .keepalive _ => true
  | .timeSend _ => true
  | .partnerLost _ partner => decide (partner < 32)
  | .orphanTimeout _ stream => decide (stream < 128)
  | .reorderHoldExpiry _ port slot => decide (port < 3) && decide (slot < 8)
  | .cascAssign _ => true
  | .cascReport _ => true
  | .cascAssignPeriodic _ => true
  | .chainEReached _ => true
  | .cascDiscoverDone _ => true
  | .cascSumOriginate _ stream _ => decide (stream < 128)
  | .cascSumLate _ => true
  | .cascSumPass _ => true
  | .cascCombine _ stream _ => decide (stream < 128)
  | .cascadeTimeReceive _ => true
  | .move _ channel => decide (channel < 64)
  | .fill _ channel => decide (channel < 64)
  | .cmp _ channel => decide (channel < 64)
  | .loop _ channel => decide (channel < 64)
  | .wait _ channel => decide (channel < 64)
  | .waitEnd _ channel => decide (channel < 64)
  | .signal _ channel => decide (channel < 64)
  | .link _ channel => decide (channel < 64)
  | .halt _ channel => decide (channel < 64)
  | .instructionFetchComplete _ channel _ => decide (channel < 64)
  | .peripheralBurst _ channel => decide (channel < 64)
  | .stepBudget _ channel => decide (channel < 64)
  | .dmaFault _ channel => decide (channel < 64)
  | .dmaPcWrite _ channel word data => decide (channel < 64) && decide (word < 2) && decide (data < 2 ^ 32)
  | .evtSetWrite _ w data => decide (w < 2) && decide (data < 2 ^ 32)
  | .train _ data => decide (data < 2 ^ 32)
  | .trainingStepEnd _ _ channel _ => decide (channel < 2)
  | .retrainingDue _ => true
  | .gatheringEnd _ => true
  | .pauseStart _ => true
  | .pauseEnd _ _ _ => true
  | .selfRefreshEntry _ => true
  | .selfRefreshCommit _ => true
  | .dramRequest _ _ _ _ _ _ => true
  | .selfRefreshExitEnd _ => true
  | .rateWrite _ data => decide (data < 2 ^ 32)
  | .rateChangeStart _ => true
  | .rateChangeEnd _ => true
  | .huskSet _ data => decide (data < 2 ^ 32)
  | .huskRelease _ data => decide (data < 2 ^ 32)
  | .anaPowerGoodFall _ _ => true
  | .strobe _ data => decide (data < 2 ^ 32)
  | .ldbInEdge _ => true
  | .slewStep _ dac => decide (dac < 80)
  | .monitorWindowEnd _ unit => decide (unit < 4)
  | .monitorResult _ unit _ _ => decide (unit < 4)
  | .firmwareUrgentRequest _ unit input => decide (unit < 4) && decide (input < 24)
  | .domainReady _ domain _ => decide (domain < 19)
  | .modeWriteActiveIdle _ data => decide (data < 2 ^ 32)
  | .modeWriteSleepDeep _ data => decide (data < 2 ^ 32)
  | .entryBegin _ => true
  | .entryDrainEnd _ => true
  | .commitPoint _ => true
  | .entryComplete _ => true
  | .entryCancel _ => true
  | .wakeN _ _ => true
  | .wickWakeReq _ data => decide (data < 2 ^ 32)
  | .wickTimerExpiry _ => true
  | .wakeStepCondition _ => true
  | .wakeStepDelayEnd _ => true
  | .wakeStepTimeout _ => true
  | .wakeSequenceEnd _ straps _ _ => decide (straps < 16)
  | .powerOnReset _ => true
  | .resetNLow _ => true
  | .resetNRelease _ => true
  | .chip _ data => decide (data < 2 ^ 32)
  | .chipResetEnd _ => true
  | .perstN _ => true
  | .imageLoadDone _ _ _ => true
  | .hostLen _ data => decide (data < 2 ^ 32)
  | .verificationDone _ => true
  | .ready _ => true
  | .stageWrite _ data => decide (data < 2 ^ 32)
  | .verify _ data => decide (data < 2 ^ 32)
  | .activate _ data => decide (data < 2 ^ 32)
  | .fwActivated _ => true
  | .firmwareStartTimeout _ => true
  | .go _ data => decide (data < 2 ^ 32)
  | .fuseProgrammingDone _ _ => true
  | .clear _ ap data => decide (ap < 4) && decide (data < 2 ^ 32)
  | .counterWrite _ ap _ data => decide (ap < 4) && decide (data < 2 ^ 32)
  | .sampleRecord _ ap _ _ => decide (ap < 4)
  | .msixUnmask _ vec => decide (vec < 32)
  | .laneEnableChange _ port lane data => decide (port < 3) && lane.all (fun l => decide (l < 16)) && decide (data < 2 ^ 32)
  | .missingMarker _ port lane => decide (port < 3) && decide (lane < 16)
  | .brownOut _ => true
  | .dmaBurstComplete _ channel _ _ => decide (channel < 64)
  | .sourceDataReadComplete _ ring tag _ => decide (ring < 16) && decide (tag < 65536)
  | .keccakJobDone _ => true
  | .wakeStepRetry _ => true

end Sys2Proof
end

