-- ==== Sys2Proof/Tests/Slice0.lean ====
section
/-!
SUPPORT. The model's own tests: an ill-formed command for each check of WellFormed, small states, and worked examples of the spec with
the numbers it prints.
-/
namespace Sys2Proof.Tests
open Sys2Proof Sys2Proof.Machine

/-! ## Well-formed commands -/

/-- A well-formed entry and a well-formed access. -/
def good : Cmd := { ring := 0, opcode := 0, flags := 0, tag := 0, handle := 0, actTick := 0, params := 0 }
def goodAccess : Access := { w4 := false, write := false, addr := 0, len := 4, enables := true, data := 0 }

theorem test_wellFormed_entry :
    [{ good with opcode := 256 }, { good with flags := 256 }, { good with tag := 2 ^ 16 }, { good with handle := 2 ^ 32 },
     { good with actTick := 2 ^ 64 }].all (fun c => !c.wellFormed) = true := by decide
theorem test_wellFormed_access :
    [{ goodAccess with len := 0 }, { goodAccess with addr := 2 ^ 26 }, { goodAccess with data := 2 ^ 32 }].all (fun x => !x.wellFormed) = true := by
  decide
theorem test_wellFormed_target :
    ([.w0 0x400000 0, .w0 2 0, .w0 0 (2 ^ 32), .w4 0x2000 0, .w4 2 0, .w4 0 (2 ^ 32), .pcie true false false 64 0 0,
      .pcie true false false 128 16 0, .pcie true false false 128 0 4, .aer (2 ^ 32) 0, .aer 0 (2 ^ 32),
      .aerControl (2 ^ 32) 0 0, .aerControl 0 (2 ^ 32) 0, .aerControl 0 0 (2 ^ 32), .powerState 2 0, .powerState 0 1, .retrain 0 1, .retrain 5 1,
      .retrain 1 3] : List RegTarget).all (fun x => !x.wellFormed) = true := by decide

theorem test_wellFormed_refuses_a :
    ([.nop 0 { good with ring := 16 }, .fence 0 { good with ring := 16 }, .cancel 0 { good with ring := 16 },
     .cfgDigest 0 { good with ring := 16 }, .attest 0 { good with ring := 16 }, .storeClaim 0 { good with ring := 16 },
     .storeRelease 0 { good with ring := 16 }, .carrierCreate 0 { good with ring := 16 }, .carrierSet 0 { good with ring := 16 },
     .carrierDestroy 0 { good with ring := 16 }, .streamCreate 0 { good with ring := 16 }, .streamDestroy 0 { good with ring := 16 },
     .wsCreate 0 { good with ring := 16 }, .wsLoad 0 { good with ring := 16 }, .wsActivate 0 { good with ring := 16 },
     .wsDestroy 0 { good with ring := 16 }, .pathCorr 0 { good with ring := 16 }, .rxGain 0 { good with ring := 16 },
     .cfrSet 0 { good with ring := 16 }, .dcLoad 0 { good with ring := 16 }, .loTune 0 { good with ring := 16 },
     .loCal 0 { good with ring := 16 }, .podState 0 { good with ring := 16 }, .fesbWrite 0 { good with ring := 16 },
     .tddSwap 0 { good with ring := 16 }, .calCreate 0 { good with ring := 16 }, .calStart 0 { good with ring := 16 },
     .calDestroy 0 { good with ring := 16 }, .capCreate 0 { good with ring := 16 }, .capStart 0 { good with ring := 16 },
     .capDestroy 0 { good with ring := 16 }, .dpdPolicy 0 { good with ring := 16 }, .dpdCoefLoad 0 { good with ring := 16 },
     .dpdDump 0 { good with ring := 16 }, .biasSet 0 { good with ring := 16 }, .biasStrobe 0 { good with ring := 16 },
     .monScan 0 { good with ring := 16 }, .monUrgent 0 { good with ring := 16 }, .pwrDomain 0 { good with ring := 16 },
     .laneState 0 { good with ring := 16 }] : List Instr).all (fun i => !i.wellFormed) = true := by decide +kernel

theorem test_wellFormed_refuses_b :
    ([.cascDiscover 0 { good with ring := 16 }, .fiSet 0 { good with ring := 16 }, .fiClear 0 { good with ring := 16 },
     .dmaCreate 0 { good with ring := 16 }, .dmaStart 0 { good with ring := 16 }, .dmaStop 0 { good with ring := 16 },
     .dmaDestroy 0 { good with ring := 16 }, .partnerDestroy 0 { good with ring := 16 }, .carrierRestart 0 8, .ulCarrierRestart 0 8,
     .piReadComplete 0 16 0, .piReadComplete 0 0 (2 ^ 32), .entryFetchComplete 0 16 0 [], .entryFetchComplete 0 0 0 [0],
     .ciReadComplete 0 3 0 0, .ciReadComplete 0 0 16 0, .ciReadComplete 0 0 0 (2 ^ 32), .completionWrite 0 16,
     .completionBacklogDrain 0 16, .eventQueueDrain 0 4, .msixModerationExpiry 0 3 0, .msixModerationExpiry 0 0 16, .ringCtrlWrite 0 3 0 0,
     .ringCtrlWrite 0 0 16 0, .ringCtrlWrite 0 0 0 (2 ^ 32), .malformedAccess 0 { goodAccess with len := 0 },
     .w2Access 0 { goodAccess with len := 0 }, .pf1Read 0 { goodAccess with len := 0 }, .registerWrite 0 (.w0 2 0),
     .rootEnWrite 0 (2 ^ 32), .laneEnWrite 0 (2 ^ 32), .clockUnlock 0 2, .pllRelock 0 2, .syncArm 0 (2 ^ 32), .tddEntryWrite 0 2 0 0,
     .tddEntryWrite 0 0 64 0, .tddEntryWrite 0 0 0 (2 ^ 32), .adaptiveSwapRequest 0 64 0 0 0 0 false none [], .prefetchStart 0 8 0,
     .prefetchStart 0 0 2] : List Instr).all (fun i => !i.wellFormed) = true := by decide +kernel

theorem test_wellFormed_refuses_c :
    ([.prefetchComplete 0 8 0, .prefetchComplete 0 0 2, .dramPrefetchLate 0 8 0, .dramPrefetchLate 0 0 2, .stagedCopyStart 0 8 0,
     .stagedCopyStart 0 0 2, .weightSetSwap 0 8 0, .weightSetSwap 0 0 2, .oldSetFreed 0 8 0, .oldSetFreed 0 0 2, .corrWrite 0 64 0 0 0,
     .corrWrite 0 0 2 0 0, .corrWrite 0 0 0 2 0, .corrWrite 0 0 0 0 (2 ^ 32), .slotDecided 0 128 0, .echoRecord 0 128 0,
     .txpCtrlWrite 0 64 0, .txpCtrlWrite 0 0 (2 ^ 32), .rxpCtrlWrite 0 64 0, .rxpCtrlWrite 0 0 (2 ^ 32), .gainControlStep 0 64 0 0,
     .dcWindowEnd 0 64, .dcReset 0 64, .ulPacketQueued 0 128 0, .packetSend 0 3, .packetOverrun 0 3, .dpdTermWrite 0 48 0,
     .dpdTermWrite 0 0 (2 ^ 32), .dpdSlotStart 0 4, .dpdCaptureStart 0 4, .dpdCaptureEnd 0 4, .dpdSolveDone 0 64 0 false none [],
     .spectrumMonitorCapture 0 4 0 0 0, .spectrumMonitorCapture 0 0 64 0 0, .captureStart 0 32, .captureDone 0 32 0, .loLocked 0 3,
     .loLossOfLock 0 3, .loCalDone 0 3 false, .fePinEdge 0 8] : List Instr).all (fun i => !i.wellFormed) = true := by decide +kernel

theorem test_wellFormed_refuses_d :
    ([.fesbFrameStart 0 2, .fesbFrameEnd 0 2 0, .grantWaitExpiry 0 16, .calEmissionStart 0 16, .calStepEnd 0 16 [], .calDone 0 16,
     .orxImageCalEnd 0 16 [], .slip 0 3 0 0, .slip 0 0 16 0, .slip 0 0 0 (2 ^ 32), .restart 0 3 0 0, .restart 0 0 16 0,
     .restart 0 0 0 (2 ^ 32), .blockLock 0 3 0 0, .blockLock 0 0 16 0, .blockLockLoss 0 3 0 0 false, .blockLockLoss 0 0 16 0 false,
     .laneDead 0 3 0 false, .laneDead 0 0 16 false, .markerSend 0 3, .markerReceive 0 3 0 0 0, .markerReceive 0 0 16 0 0,
     .lanePowerEntry 0 3 0, .lanePowerEntry 0 0 16, .lanePowerExitEnd 0 3 0, .lanePowerExitEnd 0 0 16, .laneDownEnd 0 3 0,
     .laneDownEnd 0 0 8, .equaliserAdaptStep 0 3 0 false, .equaliserAdaptStep 0 0 16 false, .laneLoopWrite 0 3 none 0,
     .laneLoopWrite 0 0 (some 16) 0, .laneLoopWrite 0 0 none (2 ^ 32), .packetReceive 0 3 0 [], .partnerLost 0 32, .orphanTimeout 0 128,
     .reorderHoldExpiry 0 3 0, .reorderHoldExpiry 0 0 8, .cascSumOriginate 0 128 0, .cascCombine 0 128 0] : List Instr).all (fun i => !i.wellFormed) = true := by decide +kernel

theorem test_wellFormed_refuses_e :
    ([.move 0 64, .fill 0 64, .cmp 0 64, .loop 0 64, .wait 0 64, .waitEnd 0 64, .signal 0 64, .link 0 64, .halt 0 64,
     .instructionFetchComplete 0 64 [], .peripheralBurst 0 64, .stepBudget 0 64, .dmaFault 0 64, .dmaPcWrite 0 64 0 0, .dmaPcWrite 0 0 2 0,
     .dmaPcWrite 0 0 0 (2 ^ 32), .evtSetWrite 0 2 0, .evtSetWrite 0 0 (2 ^ 32), .train 0 (2 ^ 32), .trainingStepEnd 0 false 2 0,
     .rateWrite 0 (2 ^ 32), .huskSet 0 (2 ^ 32), .huskRelease 0 (2 ^ 32), .strobe 0 (2 ^ 32), .slewStep 0 80, .monitorWindowEnd 0 4,
     .monitorResult 0 4 (0, 0) false, .firmwareUrgentRequest 0 4 0, .firmwareUrgentRequest 0 0 24, .domainReady 0 19 [],
     .modeWriteActiveIdle 0 (2 ^ 32), .modeWriteSleepDeep 0 (2 ^ 32), .wickWakeReq 0 (2 ^ 32), .wakeSequenceEnd 0 16 [] [],
     .chip 0 (2 ^ 32), .hostLen 0 (2 ^ 32), .stageWrite 0 (2 ^ 32), .verify 0 (2 ^ 32), .activate 0 (2 ^ 32), .go 0 (2 ^ 32)] : List Instr).all (fun i => !i.wellFormed) = true := by decide +kernel

theorem test_wellFormed_refuses_f :
    ([.clear 0 4 0, .clear 0 0 (2 ^ 32), .counterWrite 0 4 0 0, .counterWrite 0 0 0 (2 ^ 32), .sampleRecord 0 4 0 0, .msixUnmask 0 32,
     .laneEnableChange 0 3 none 0, .laneEnableChange 0 0 (some 16) 0, .laneEnableChange 0 0 none (2 ^ 32), .missingMarker 0 3 0,
     .missingMarker 0 0 16, .dmaBurstComplete 0 64 [] [], .sourceDataReadComplete 0 16 0 [], .sourceDataReadComplete 0 0 65536 []] : List Instr).all (fun i => !i.wellFormed) = true := by decide +kernel

theorem test_wellFormed_accepts_a :
    ([.nop 0 good, .fence 0 good, .cancel 0 good, .cfgDigest 0 good, .attest 0 good, .storeClaim 0 good, .storeRelease 0 good,
     .carrierCreate 0 good, .carrierSet 0 good, .carrierDestroy 0 good, .streamCreate 0 good, .streamDestroy 0 good, .wsCreate 0 good,
     .wsLoad 0 good, .wsActivate 0 good, .wsDestroy 0 good, .pathCorr 0 good, .rxGain 0 good, .cfrSet 0 good, .dcLoad 0 good,
     .loTune 0 good, .loCal 0 good, .podState 0 good, .fesbWrite 0 good, .tddSwap 0 good, .calCreate 0 good, .calStart 0 good,
     .calDestroy 0 good, .capCreate 0 good, .capStart 0 good, .capDestroy 0 good, .dpdPolicy 0 good, .dpdCoefLoad 0 good, .dpdDump 0 good,
     .biasSet 0 good, .biasStrobe 0 good, .monScan 0 good, .monUrgent 0 good, .pwrDomain 0 good, .laneState 0 good, .cascDiscover 0 good,
     .fiSet 0 good, .fiClear 0 good, .dmaCreate 0 good, .dmaStart 0 good, .dmaStop 0 good, .dmaDestroy 0 good, .partnerDestroy 0 good,
     .carrierRestart 0 0, .ulCarrierRestart 0 0, .piReadComplete 0 0 0, .entryFetchComplete 0 0 0 [], .ciReadComplete 0 0 0 0,
     .completionWrite 0 0, .completionBacklogDrain 0 0, .eventQueueDrain 0 0, .msixModerationExpiry 0 0 0, .ringCtrlWrite 0 0 0 0,
     .malformedAccess 0 goodAccess, .w2Access 0 goodAccess] : List Instr).all Instr.wellFormed = true := by decide +kernel

theorem test_wellFormed_accepts_b :
    ([.pf1Read 0 goodAccess, .registerWrite 0 (.w0 0 0), .rootEnWrite 0 0, .laneEnWrite 0 0, .clockUnlock 0 0, .pllRelock 0 0, .syncArm 0 0,
     .tddEntryWrite 0 0 0 0, .adaptiveSwapRequest 0 0 0 0 0 0 false none [], .prefetchStart 0 0 0, .prefetchComplete 0 0 0,
     .dramPrefetchLate 0 0 0, .stagedCopyStart 0 0 0, .weightSetSwap 0 0 0, .oldSetFreed 0 0 0, .corrWrite 0 0 0 0 0, .slotDecided 0 0 0,
     .echoRecord 0 0 0, .txpCtrlWrite 0 0 0, .rxpCtrlWrite 0 0 0, .gainControlStep 0 0 0 0, .dcWindowEnd 0 0, .dcReset 0 0,
     .ulPacketQueued 0 0 0, .packetSend 0 0, .packetOverrun 0 0, .dpdTermWrite 0 0 0, .dpdSlotStart 0 0, .dpdCaptureStart 0 0,
     .dpdCaptureEnd 0 0, .dpdSolveDone 0 0 0 false none [], .spectrumMonitorCapture 0 0 0 0 0, .captureStart 0 0, .captureDone 0 0 0,
     .loLocked 0 0, .loLossOfLock 0 0, .loCalDone 0 0 false, .fePinEdge 0 0, .fesbFrameStart 0 0, .fesbFrameEnd 0 0 0,
     .grantWaitExpiry 0 0, .calEmissionStart 0 0, .calStepEnd 0 0 [], .calDone 0 0, .orxImageCalEnd 0 0 [], .slip 0 0 0 0,
     .restart 0 0 0 0, .blockLock 0 0 0 0, .blockLockLoss 0 0 0 0 false, .laneDead 0 0 0 false, .markerSend 0 0, .markerReceive 0 0 0 0 0,
     .lanePowerEntry 0 0 0, .lanePowerExitEnd 0 0 0, .laneDownEnd 0 0 0, .equaliserAdaptStep 0 0 0 false, .laneLoopWrite 0 0 none 0,
     .packetReceive 0 0 0 [], .partnerLost 0 0, .orphanTimeout 0 0] : List Instr).all Instr.wellFormed = true := by decide +kernel

theorem test_wellFormed_accepts_c :
    ([.reorderHoldExpiry 0 0 0, .cascSumOriginate 0 0 0, .cascCombine 0 0 0, .move 0 0, .fill 0 0, .cmp 0 0, .loop 0 0, .wait 0 0,
     .waitEnd 0 0, .signal 0 0, .link 0 0, .halt 0 0, .instructionFetchComplete 0 0 [], .peripheralBurst 0 0, .stepBudget 0 0,
     .dmaFault 0 0, .dmaPcWrite 0 0 0 0, .evtSetWrite 0 0 0, .train 0 0, .trainingStepEnd 0 false 0 0, .rateWrite 0 0, .huskSet 0 0,
     .huskRelease 0 0, .strobe 0 0, .slewStep 0 0, .monitorWindowEnd 0 0, .monitorResult 0 0 (0, 0) false, .firmwareUrgentRequest 0 0 0,
     .domainReady 0 0 [], .modeWriteActiveIdle 0 0, .modeWriteSleepDeep 0 0, .wickWakeReq 0 0, .wakeSequenceEnd 0 0 [] [], .chip 0 0,
     .hostLen 0 0, .stageWrite 0 0, .verify 0 0, .activate 0 0, .go 0 0, .clear 0 0 0, .counterWrite 0 0 0 0, .sampleRecord 0 0 0 0,
     .msixUnmask 0 0, .laneEnableChange 0 0 none 0, .missingMarker 0 0 0, .dmaBurstComplete 0 0 [] [], .sourceDataReadComplete 0 0 0 []] : List Instr).all Instr.wellFormed = true := by decide +kernel

/-! ## Small states -/

/-- PARAMS with the given (byte, value) pairs. -/
def params (l : List (Nat × Nat)) : Params := BitVec.ofNat 384 (l.foldl (fun n x => n + x.2 * 2 ^ (8 * (x.1 - 16))) 0)

/-- An entry of command ring 0 with TAG 5. -/
def cmd (op flags handle tick : Nat) (l : List (Nat × Nat)) : Cmd :=
  { ring := 0, opcode := op, flags := flags, tag := 5, handle := handle, actTick := tick, params := params l }

/-- It in flight, read at tick 9,830,400. -/
def fly (c : Cmd) : Flight :=
  { id := 0, cmd := c, arrival := 9830400, tickOk := true, stage := .waiting, source := (0, 0), readAt := none, reads := 0,
    rest := (0, 0), got := [] }

/-- A state with register fields set. -/
def put (s : State) (l : List (Fld × Nat)) : State := l.foldl (fun s x => setF s x.1 x.2) s

/-- The block in ACTIVE at tick 9,830,400, every domain on, both PLLs in lock, firmware running. -/
def live : State :=
  put { State.reset with
      time := { now := 9830400, tick := 9830400, counting := true, laneUp := true, origin := 0, syncs := [], tddLog := [] }
      power := { PowerSt.start 0 with phase := .run, link := true } }
    [(F.TIME_CLK_STATUS_TICK_VALID, 1), (F.TIME_CLK_CTRL_ROOT_EN, 1), (F.TIME_CLK_CTRL_LANE_EN, 1), (F.TIME_CLK_STATUS_ROOT_LOCK, 1),
     (F.TIME_CLK_STATUS_LANE_LOCK, 1), (F.PWR_DOMAIN_ON, 2 ^ 19 - 1), (F.TRUST_BOOT_FW_RUN, 1), (F.PWR_MODE_STATE, 0)]

/-- A state with one command in flight. -/
def withCmd (s : State) (c : Cmd) : State := { s with host := { s.host with flight := [fly c] } }

/-- An activation tick well ahead. -/
def later : Nat := 10878976

/-- A carrier of both directions in slot 0, a stream and a partner. -/
def car : Carrier :=
  { gen := 1, dir := 0, sLog2 := 0, k := 1, resp := 0, cicN := 0, cicM := 1, nco := 0, phaseAt := (0, 0), grid := 0, ulSpans := [],
    dlSpans := [], ulZero := [], ulRestart := [], dlFrom := 0, ulFrom := 0, dlRestarted := [], dlDue := [], was := [] }
def str (dir : Nat) : Stream :=
  { gen := 1, carrier := 0, dir := dir, layer := 0, format := 0, partner := mkHandle 6 1 0, acked := true, grant := (1, 0, 0),
    orphan := none, orphanEnd := none, newest := none, slots := [], firstAccepted := none, badSlots := 0, firstBad := 0, echoes := [],
    ulNext := 0, ulOld := [], ulSeq := 0, newOrigin := false }
def mate : Partner :=
  { gen := 1, ident := 7, session := 1, verMin := 1, verMax := 2, formats := 7, ver := 2, lost := false, lossAt := 9000000, welcome := 0,
    seq := 0, timePayload := 0, timeArrival := 0 }

/-- With carrier 0, with a partner as well, with a stream of a direction as well. -/
def withCar (s : State) : State := { s with carriers := [(0, car)] }
def withMate (s : State) : State := { withCar s with partners := [(0, mate)] }
def withStr (s : State) (dir : Nat) : State := { withMate s with streams := [(64 * dir, str dir)] }

/-- A weight set of one layer, in slot 0 (library) or 8192 (on chip). -/
def wset (bank : Option Nat) : WeightSet :=
  { gen := 1, dir := 0, l := 1, sLog2 := 0, carrier := mkHandle 1 1 0, bank := bank, data := [] }
def withSet (s : State) (slot : Nat) (bank : Option Nat) : State :=
  { withCar s with beam := { s.beam with sets := [(slot, wset bank)] } }

/-- TDD bank 0: downlink, a guard with a calibration gap, uplink, a guard. -/
def tdd (s : State) : State :=
  put s
    [(F.TIME_TDD_PERIOD_PERIOD 0, 983040), (F.TIME_TDD_ENTRY_VALID 0 0, 1), (F.TIME_TDD_ENTRY_KIND 0 0, 1),
     (F.TIME_TDD_ENTRY_VALID 0 1, 1), (F.TIME_TDD_ENTRY_OFFSET 0 1, 300000), (F.TIME_TDD_ENTRY_CAL 0 1, 1),
     (F.TIME_TDD_ENTRY_VALID 0 2, 1), (F.TIME_TDD_ENTRY_KIND 0 2, 2), (F.TIME_TDD_ENTRY_OFFSET 0 2, 700000),
     (F.TIME_TDD_ENTRY_VALID 0 3, 1), (F.TIME_TDD_ENTRY_OFFSET 0 3, 900000)]

/-- With the swap log in the store and event ring 0 enabled. -/
def logged (s : State) : State :=
  put s [(F.TIME_SWAP_LOG_CTRL_SIZE, 16), (F.TIME_SWAP_LOG_CTRL_LOC, 1), (F.HOST_EVR_CTRL_ENABLE 0, 1), (F.HOST_EVR_CTRL_LOG2_SIZE 0, 8)]

/-- With the ports changed, at another time, with other command rings. -/
def withPorts (s : State) (a b c : PortSt) : State := { s with ports := [a, b, c] }
def at' (s : State) (n : Nat) : State := { s with time := { s.time with now := n, tick := n } }
def withRing (s : State) (x : CmdRing) : State := { s with host := { s.host with cmdRings := List.replicate 15 default ++ [x] } }

/-- A DATA_UL packet, and it queued. -/
def pack (type : Nat) : Packet := { ver := 2, type := type, flags := 0, handle := 0, tick := 0, format := 0, seq := 0, pip := 0, payload := [] }
def queued (type tick : Nat) : Queued := { pkt := pack type, since := tick, ctrl := false, index := 0, q := none, stomp := false }

/-- A message on a port, and the state that awaits its effect. -/
def mail (port type handle : Nat) (payload : List Byte) : Inbox :=
  { port := port, tick := 9830400, pkt := { pack type with handle := handle, payload := payload } }
def withMail (s : State) (m : Inbox) : State := { s with inbox := [m] }

/-- A running calibration job of four paths. -/
def job (kind banks : Nat) (run : Option CalRun) : CalJob :=
  { gen := 1, kind := kind, prio := 0, grantWait := 1, bank := 0, banks := banks, txMask := 1, rxMask := 2, run := run }
def running (phase : CalPhase) (step : Nat) : CalRun :=
  { start := 7864320, phase := phase, grantAt := none, emitAt := 9700000, step := step, records := 0, bad := false }
def withJob (s : State) (j : CalJob) : State := { s with cals := [(0, j)] }

/-- A capture that waits for its first sample. -/
def capt (source : Nat) (first : Option Nat) : Capture :=
  { job := 0, handle := mkHandle 4 1 0, source := source, index := 3, dest := 1, length := 16, base := 0, carrier := 0, layer := (0, 0), rates := [], tick := 9830400,
    first := first, stop := none }

/-- A lane of port 2 that runs: lane 15. -/
def laned (s : State) (l : List (Fld × Nat)) : State := put s ([(F.LN_PORT_CTRL_EN 2, 1), (F.LANE_CTRL_EN 2 15, 1)] ++ l)
def lane15 (s : State) (x : LaneSt) : State :=
  withPorts s PortSt.start PortSt.start { PortSt.start with lanes := List.replicate 15 default ++ [x] }

/-- An injector. -/
def inject (kind arg1 : Nat) (held : Option Held) : Injector :=
  { kind := kind, lane := 0, arg1 := arg1, arg2 := 0, pattern := 0, start := 0, seen := 0, events := 0, held := held, units := 0, upTo := 0 }

/-- A pair whose second part is `true`. -/
theorem pair_true {α : Type} {a : α × Bool} (h : a.2 = true) : a = (a.1, true) := by rw [← h]

/-- A solve of path 63 in a mode with the swaps made so far; and the state when it is done. -/
def solvingIn (mode : Nat) (swapped : List (Nat × Nat)) : State :=
  { put live [(F.DPD_PATH_POLICY_MODE 63, mode), (F.DPD_PATH_POLICY_MAX_RATE 63, 1000)] with
      dpd := { live.dpd with solves := [(63, 15)], swapped := swapped } }
def solvedOf (s : State) : State := setBase { s with dpd := { s.dpd with solves := s.dpd.solves.erase (63, 15) } } 15 none

/-- Processor 3 samples every occurrence, and one has occurred. -/
def sampling : State :=
  put { live with pmc := { live.pmc with upTo := List.replicate 4 9830400, sampled := [0, 0, 0, 1] } }
    [(F.PMC_SAMP_EN 3, 1), (F.PMC_SAMP_EVENT 3, 1), (F.PMC_SAMP_N_N 3, 1)]

/-- DMA channel 63 in a state, with the line at address 0 of the store that holds the word `w`, at which its program counter stands. -/
def chan (st w : Nat) (f : DmaCh → DmaCh) (s : State) : State :=
  put (setPc { s with dmas := [(63, f { (default : DmaCh) with gen := 1, line := some (1, 0, leBytes 64 w) })] } 63 1 0)
    [(F.DMA_CH_STATE_STATE 63, st)]

/-- The program words, written from the layouts of R376. -/
def wMove : Nat := 1 + 2 ^ 8 + 2 ^ 10 + 2 ^ 12 * 16 + 2 ^ 80 * 64
def wFill : Nat := 2 + 2 ^ 10 + 2 ^ 12 * 16 + 2 ^ 80 * 64
def wCmp : Nat := 3 + 2 ^ 8 + 2 ^ 10 + 2 ^ 12 * 16 + 2 ^ 80 * 64
def wLoop : Nat := 4 + 2 ^ 16 * 2 + 2 ^ 32 * 0xFFFF
def wWait (kind : Nat) : Nat := 5 + 2 ^ 4 * kind + (if kind = 0 then 2 ^ 8 * 63 else if kind = 1 then 2 ^ 64 * 9830400 else 2 ^ 16 * 0x20)
def wSignal : Nat := 6 + 2 ^ 8 * 63
def wLink : Nat := 7 + 2 ^ 8 + 2 ^ 32 * 128
def wHalt : Nat := 8

/-- The DRAM port trained over 2 GiB. -/
def dramUp (s : State) : State := put { s with dramSize := 2 ^ 31 } [(F.MEMC_STATUS_TRAINED, 1)]

/-- The supervisory channel parked; power changed. -/
def parked (s : State) : State := put (chan 4 wHalt id s) [(F.DMA_CH_STATE_SUPERVISORY 63, 1), (F.PWR_MODE_TARGET, 2)]
def powered (s : State) (f : PowerSt → PowerSt) : State := { s with power := f s.power }
def seqAt (step stage since : Nat) (again : Bool) : State :=
  powered live fun p => { p with phase := .wake, seq := { step := step, stage := stage, since := since, again := again } }

/-- A firmware image without sections. -/
def blank : FwImage := { first := 0, total := 256, major := 0, minor := 0, patch := 0, feature := 0, epoch := 0, digest := [] }
def header : List Byte := leBytes 4 0x49465A49 ++ leBytes 4 256 ++ leBytes 4 256 ++ List.replicate 244 0

/-! ## Worked examples of the spec -/

/-- Register addresses (spec/19_register_map.md, Worked example). -/
theorem test_register_addresses :
    (A.HOST_CQR_STATUS 3).addr = 0x205D8 ∧ (A.DMA_CH_CMP_1 12).addr = 0x30C34 ∧ (A.TIME_TDD_ENTRY 1 3).addr = 0x1020C
      ∧ (A.TXP_CTRL 50).addr = 0x8C800 := by decide

/-- Carrier 1 of the beam engine's example: K = 4, S = 8, response 0 (spec/05_transmit_path.md and 06_receive_path.md, Worked example). -/
def carrier1 : Carrier := { car with sLog2 := 3, k := 4 }

/-- D_DL is 628 ticks, 632 with DELAY 100; D_UL is 508 ticks, 405 with response 48. -/
theorem test_delays :
    dDl carrier1 0 = 628 ∧ dDl carrier1 100 = 632 ∧ dUl carrier1 0 = 508 ∧ dUl { carrier1 with resp := 48 } 0 = 405 := by decide

/-- The acceptance window of the packet at 1,000,067,072: from 1,000,007,625 to 1,000,065,420. -/
theorem test_acceptance_window :
    bufferCap 4 = 15728 ∧ packetTest live carrier1 (str 0) 1000067072 1000007624 = 2 ∧ packetTest live carrier1 (str 0) 1000067072 1000007625 = 0
      ∧ packetTest live carrier1 (str 0) 1000067072 1000065420 = 0 ∧ packetTest live carrier1 (str 0) 1000067072 1000065800 = 3
      ∧ slotReadOut carrier1 1000067072 = 1000070536 := by decide +kernel

/-- A four-chip chain combines slot 1,006,997,504 at 1,007,011,176 (spec/11_cascade.md, Worked example). -/
theorem test_combine_tick :
    slotDone carrier1 1006997504 = 1007002120
      ∧ combineTick (put live [(F.CAS_UL_ALLOW_ALLOW, 8192), (F.CAS_CTRL_DEPTH, 3)]) carrier1 1006997504 = 1007011176 := by decide +kernel

/-- The engine part of the four carriers' delays, in samples: 163, 83, 43, 23 (spec/04_beam_engine.md, Worked example). -/
theorem test_engine_delays :
    [(4, 2), (3, 4), (2, 8), (1, 16)].map (fun x => sliceDelay { car with sLog2 := x.1, k := x.2 } + ceilDiv 64 x.2 + 4) = [163, 83, 43, 23] := by
  decide

/-- Library activations keep 122,880 ticks apart or share a tick: after 1,000,050,000 the next is at 1,000,172,880 (R129). -/
theorem test_library_spacing :
    libApart 1000050000 1000050000 = true ∧ libApart 1000050000 1000172880 = true ∧ libApart 1000050000 1000172879 = false := by decide

/-- With 80 % share slot 500 is a monitor slot and slot 501 a DPD slot (spec/07_predistortion.md, Worked example). -/
theorem test_dpd_slots : isDpdSlot 80 500 = false ∧ isDpdSlot 80 501 = true := by decide

/-- SLIP_DWELL 28h is 10,240 ticks (spec/09_serial_lanes.md, Worked example). -/
theorem test_slip_dwell : dwellTicks (put live [(F.LN_PORT_SLIP_DWELL_DWELL 0, 0x28)]) 0 = 10240 := by decide +kernel

/-- The program words of the capture example, and the default budget (spec/12_dma_programs.md, Worked example). -/
theorem test_program_words :
    decodeDma (1 + 2 ^ 8 * 3 + 2 ^ 12 * 65536 + 2 ^ 32 * 3 + 2 ^ 80 * 0x2080000104) = some (.move false false 3 0 65536 3 0x2080000104)
      ∧ decodeDma (6 + 2 ^ 4 + 2 ^ 16 * 5) = some (.signal 1 0 5 0 0)
      ∧ decodeDma (1 + 2 ^ 5 + 2 ^ 8 * 3 + 2 ^ 12 * 65536 + 2 ^ 32 * 3) = some (.move false true 3 0 65536 3 0)
      ∧ decodeDma (4 + 2 ^ 16 * 7 + 2 ^ 32 * 0xFFFE) = some (.loop 7 2) ∧ decodeDma 8 = some (.halt false)
      ∧ budgetOf live 0 = 65536 := by decide +kernel

/-- A write from 104h is cut after 252 bytes (spec/12_dma_programs.md, Worked example). -/
theorem test_first_cut : ((cut512 601 0x20_8000_0104 (List.replicate 600 0)).map fun x => (x.1 % 512, x.2.length)) = [(260, 252), (0, 348)] := by
  decide +kernel

/-- The port enters self-refresh after 98,304 idle ticks at reset; a window of a fetch is [T - 49,152, T - 4,096) (spec/13_dram.md). -/
theorem test_idle_ticks : idleTicks live = 98304 ∧ 1000200000 - 49152 = fillStart 0 1000200000 ∧ fillStart 0 1000200000 = 1000150848 := by
  decide +kernel

/-- The wake of the power example: steps 6 and 7 pass 2 w after their condition, step 11 1 w, step 12 ends after 16 w from SLEEP. -/
theorem test_wake_delays :
    stepDelay false 6 = 2 ∧ stepDelay false 7 = 2 ∧ stepDelay false 11 = 1 ∧ stepDelay false 12 = 16 ∧ stepLimit 7 = 164 := by decide

/-- A DAC slews to 2,133 in 134 steps of 16, the last from 2,128 (spec/14_bias_and_monitor.md, Worked example). -/
theorem test_slew : (List.range 134).foldl (fun x _ => stepTo x 2133 16) 0 = 2133 ∧ (List.range 133).foldl (fun x _ => stepTo x 2133 16) 0 = 2128 := by
  decide +kernel

/-- A poll interval of 983 periods is 1,966 ticks (spec/02_host_rings.md, Worked example). -/
theorem test_poll_interval : pollTicks live = 1966 := by decide +kernel

/-- A handle spells its type, generation and index (R86). -/
theorem test_handle : handleType (mkHandle 5 1023 63) = 5 ∧ handleGen (mkHandle 5 1023 63) = 1023 ∧ handleIdx (mkHandle 5 1023 63) = 63 := by decide

/-! ## The fixed interface -/

/-- The command at the front of the queue runs; an empty queue lets a period pass. -/
theorem test_step_runs : (match step { live with pending := [.kick 9830400] } with | .next s => s.host.kick && s.pending.isEmpty | _ => false) = true := by
  decide +kernel
theorem test_step_idles : (match step live with | .next s => decide (s.time.tick = 9830401) | _ => false) = true := by decide +kernel
/-- The table gives no row bits: no word spells a command. -/
theorem test_no_word : decodeTableWord 64 5 = none := by decide

/-- Worked example of spec/18_pins_and_electrical.md: balls of path 37 and parent lane 3. -/
theorem test_balls_of_path_37 :
    [54, 53, 51, 50, 48, 47, 46, 45, 44, 52, 43].map (fun r => ballAt .iza6490 r 9)
      = [.signal "TX_P" 37, .signal "TX_N" 37, .signal "RXI_P" 37, .signal "RXI_N" 37, .signal "FB" 37, .signal "FE_A" 37, .signal "FE_B" 37,
         .signal "GB" 37, .signal "IS" 37, vss, .supply "VDD_SERH"]
    ∧ [(18, 1), (19, 1), (18, 3), (19, 3)].map (fun x => ballAt .iza6490 x.1 x.2)
      = [.signal "PRX_P" 3, .signal "PRX_N" 3, .signal "PTX_P" 3, .signal "PTX_N" 3] := by decide +kernel

/-- The mean of two codes is rounded half away from zero (R429). -/
theorem test_mean_rounds : (meanCode 1 2, meanCode (-1) (-2), meanCode 524287 524286) = (2, -2, 524287) := by decide

/-- The capacity of a port with 15 lanes: 360 units in NRZ, 720 in PAM4; layer-units in halves, 22.5 and 32 (the table of R300). -/
theorem test_capacity_of_15_lanes :
    let s := put State.reset [(F.LN_PORT_STATUS_IN_USE 2, 2 ^ 15 - 1)]
    let p := put s [(F.LN_PORT_CTRL_PAM4 2, 1)]
    (capacity s 2 1, capacity p 2 1, capacity s 2 5, capacity p 2 5) = (360, 720, 45, 64) := by decide +kernel

/-- Every signal ball but the analogue ground has an I/O type; the boundary-scan register covers RESET_N and no lane pin (R485). -/
theorem test_io_types :
    (ballAt .iza6490 22 12, ioType (ballAt .iza6490 22 12), scanned (ballAt .iza6490 22 12), scanned (ballAt .iza6490 18 1))
      = (.signal "RESET_N" 0, some (.input (some true)), true, false)
    ∧ ((sharedRuns ++ memoryRuns 0).all fun x => x.names.all fun y => y.1 == "VSS_MON" || (ioType (.signal y.1 y.2)).isSome) = true := by
  decide +kernel

/-- The typical currents make 46.2 W at nominal voltage (R487). -/
theorem test_typical_power : (operating.map fun r => r.nominal * r.typical).sum / 100000 = 462 := by decide +kernel

end Sys2Proof.Tests
end

