-- ==== Sys2Proof/Tests/Witnesses.lean ====
section
/-!
SUPPORT. For each clause of each statement of Certificates/Slice0/Obligations.lean with hypotheses, a concrete state and operands that meet
all of them, at a boundary of their ranges where they have one: witness_<statement>_<clause>.
-/
namespace Sys2Proof.Tests
open Sys2Proof Sys2Proof.Machine

set_option Elab.async false

/-- Every state is its own state at time 0, so that the premise `u = advance t s` of a statement is met by t = 0 and s = u. -/
theorem witness_advance (u : State) : u = advance 0 u := by
  unfold advance; split
  · rw [if_neg (by omega)]; simp [moveTime]
  · simp [moveTime]

theorem witness_StepRunsTheFrontCommand_1 : ∃ s : State, ∃ i : Instr, ∃ rest : List Instr, s.pending = i :: rest :=
  ⟨{ live with pending := [.nop 0 (cmd 0 0 0 0 [])] }, .nop 0 (cmd 0 0 0 0 []), [], by decide +kernel⟩

theorem witness_IdleStepLetsOnePeriodPass_1 : ∃ s : State, s.pending = [] ∧ s.power.chipAt ≠ some (s.time.now + 1) :=
  ⟨live, by decide +kernel⟩

theorem witness_IdleStepLetsOnePeriodPass_2 : ∃ s : State, s.pending = [] ∧ s.power.chipAt = some (s.time.now + 1) :=
  ⟨{ State.reset with power := { State.reset.power with chipAt := some 1 } }, by decide +kernel⟩

theorem witness_ResetIsQuiet_1 : ∃ r, r < 16 :=
  ⟨15, by decide +kernel⟩

theorem witness_ResetIsQuiet_2 : ∃ r, r < 4 :=
  ⟨3, by decide +kernel⟩

theorem witness_ResetIsQuiet_3 : ∃ r : Reg, r.addr ≠ 0x200124 :=
  ⟨⟨0x200120, 0⟩, by decide +kernel⟩

theorem witness_StepKeepsMemoriesCanonical_1 : ∃ (s s' : State), s.memWf = true ∧ step s = .next s' :=
  ⟨live, (advance 9830401 live), by decide +kernel, rfl⟩

theorem witness_StepKeepsQueueWithin512_1 : ∃ (s s' : State), s.acts.length ≤ 512 ∧ step s = .next s' :=
  ⟨live, (advance 9830401 live), by decide +kernel, rfl⟩

theorem witness_OnlyTheseCommandsWriteMemories_1 : ∃ i : Instr, ∃ (s s' : State), writesMemory i = false ∧ exec i s = .next s' :=
  ⟨.kick 0, live, { live with host := { live.host with kick := true } }, rfl, rfl⟩

theorem witness_WaitingAndRejectedCommands_1 : ∃ i : Instr, ∃ (t op : Nat), ∃ c : Cmd, ∃ more : List (Nat × Nat), ∃ u : State,
    ringRow u i = some (t, c, op, more) ∧ c.opcode = op ∧ turn u c = none :=
  ⟨.nop 0 (cmd 0 0 0 0 []), 0, 0, (cmd 0 0 0 0 []), [], live, by decide +kernel⟩

theorem witness_WaitingAndRejectedCommands_2 : ∃ i : Instr, ∃ (t op : Nat), ∃ c : Cmd, ∃ more : List (Nat × Nat), ∃ u : State,
    ∃ f : Flight, ∃ st : Nat, ringRow u i = some (t, c, op, more) ∧ c.opcode = op ∧ turn u c = some f ∧ earlyChecks u c more = some st :=
  ⟨.nop 0 (cmd 0 0 0 0 [(16, 1)]), 0, 0, (cmd 0 0 0 0 [(16, 1)]), [], (withCmd live (cmd 0 0 0 0 [(16, 1)])), (fly (cmd 0 0 0 0 [(16, 1)])),
   0x10, by decide +kernel⟩

theorem witness_ChecksInOrder_1 : ∃ c : Cmd, opcodeRow c.opcode = none :=
  ⟨(cmd 0x07 0 0 0 []), by decide +kernel⟩

theorem witness_ChecksInOrder_2 : ∃ c : Cmd, ∃ mode : Machine.Mode, ∃ cfg : Bool, ∃ type : Nat, let form := c.flags < 8 ∧ (mode = .i → sched c = false) ∧ (mode = .s → sched c = true) ∧ reservedZero c (layoutOf c.opcode) = true ∧ (type = 0 → c.handle = 0); opcodeRow c.opcode = some (mode, cfg, type) ∧ ¬form :=
  ⟨(cmd 0x10 1 0 0 []), .i, true, 0, by decide +kernel⟩

theorem witness_ChecksInOrder_3 : ∃ u : State, ∃ c : Cmd, ∃ mode : Machine.Mode, ∃ cfg : Bool, ∃ type : Nat, let form := c.flags < 8 ∧ (mode = .i → sched c = false) ∧ (mode = .s → sched c = true) ∧ reservedZero c (layoutOf c.opcode) = true ∧ (type = 0 → c.handle = 0); let time := sched c = true → tickValid u = true; opcodeRow c.opcode = some (mode, cfg, type) ∧ form ∧ ¬time :=
  ⟨State.reset, (cmd 0x21 1 0 0 []), .s, true, 0, by decide +kernel⟩

theorem witness_ChecksInOrder_4 : ∃ u : State, ∃ c : Cmd, ∃ more : List (Nat × Nat), ∃ mode : Machine.Mode, ∃ cfg : Bool, ∃ type : Nat, let form := c.flags < 8 ∧ (mode = .i → sched c = false) ∧ (mode = .s → sched c = true) ∧ reservedZero c (layoutOf c.opcode) = true ∧ (type = 0 → c.handle = 0); let time := sched c = true → tickValid u = true; let names := (type ≠ 0 → handleLive u type c.handle = true) ∧ ∀ h ∈ more, handleLive u h.1 h.2 = true; opcodeRow c.opcode = some (mode, cfg, type) ∧ form ∧ time ∧ ¬names :=
  ⟨live, (cmd 0x12 0 (mkHandle 1 1 0) 0 []), [], .i, true, 1, by decide +kernel⟩

theorem witness_ChecksInOrder_5 : ∃ u : State, ∃ c : Cmd, ∃ more : List (Nat × Nat), ∃ mode : Machine.Mode, ∃ cfg : Bool, ∃ type : Nat, let form := c.flags < 8 ∧ (mode = .i → sched c = false) ∧ (mode = .s → sched c = true) ∧ reservedZero c (layoutOf c.opcode) = true ∧ (type = 0 → c.handle = 0); let time := sched c = true → tickValid u = true; let names := (type ≠ 0 → handleLive u type c.handle = true) ∧ ∀ h ∈ more, handleLive u h.1 h.2 = true; opcodeRow c.opcode = some (mode, cfg, type) ∧ form ∧ time ∧ names :=
  ⟨(withCar live), (cmd 0x12 0 (mkHandle 1 1 0) 0 []), [], .i, true, 1, by decide +kernel⟩

theorem witness_ChecksInOrder_6 : ∃ bad : Bool, bad = true :=
  ⟨true, by decide +kernel⟩

theorem witness_ChecksInOrder_7 : ∃ f : Flight, ∃ bad : Bool, bad = false ∧ sched f.cmd = true ∧ f.cmd.actTick < f.arrival + leadOf f.cmd :=
  ⟨(fly (cmd 0x21 1 0 (9830400 + 24575) [])), false, by decide +kernel⟩

theorem witness_ChecksInOrder_8 : ∃ f : Flight, ∃ bad : Bool, bad = false ∧ sched f.cmd = true ∧ f.arrival + leadOf f.cmd ≤ f.cmd.actTick ∧
    f.arrival + 2 ^ 34 ≤ f.cmd.actTick :=
  ⟨(fly (cmd 0x21 1 0 (9830400 + 2 ^ 34) [])), false, by decide +kernel⟩

theorem witness_ChecksInOrder_9 : ∃ u : State, ∃ f : Flight, ∃ bad : Bool, ∃ keys : List (Nat × Nat × Nat), bad = false ∧
    sched f.cmd = true ∧ f.arrival + leadOf f.cmd ≤ f.cmd.actTick ∧ f.cmd.actTick < f.arrival + 2 ^ 34 ∧
    conflicts u f.cmd.actTick keys = true :=
  ⟨{ live with acts := [{ id := 1, cmd := cmd 0x21 1 0 later [], tick := later, keys := [(0x21, 0, 0)], src := [] }] },
   (fly (cmd 0x21 1 0 later [])), false, [(0x21, 0, 0)], by decide +kernel⟩

theorem witness_ChecksInOrder_10 : ∃ u : State, ∃ f : Flight, ∃ bad : Bool, ∃ keys : List (Nat × Nat × Nat), ∃ res : Option Nat, ∃ st,
    bad = false ∧ sched f.cmd = true ∧ f.arrival + leadOf f.cmd ≤ f.cmd.actTick ∧ f.cmd.actTick < f.arrival + 2 ^ 34 ∧
    conflicts u f.cmd.actTick keys = false ∧ res = some st :=
  ⟨live, (fly (cmd 0x21 1 0 (9830400 + 24576) [])), false, [], some 0x06, 0x06, by decide +kernel⟩

theorem witness_ChecksInOrder_11 : ∃ u : State, ∃ f : Flight, ∃ bad : Bool, ∃ keys : List (Nat × Nat × Nat), ∃ res : Option Nat,
    bad = false ∧ sched f.cmd = true ∧ f.arrival + leadOf f.cmd ≤ f.cmd.actTick ∧ f.cmd.actTick < f.arrival + 2 ^ 34 ∧
    conflicts u f.cmd.actTick keys = false ∧ res = none ∧ 512 ≤ queueUse u :=
  ⟨{ live with acts := List.replicate 512 default }, (fly (cmd 0x21 1 0 (9830400 + 2 ^ 34 - 1) [])), false, [], none, by decide +kernel⟩

theorem witness_ChecksInOrder_12 : ∃ u : State, ∃ f : Flight, ∃ bad : Bool, ∃ keys : List (Nat × Nat × Nat), ∃ res : Option Nat,
    bad = false ∧ sched f.cmd = true ∧ f.arrival + leadOf f.cmd ≤ f.cmd.actTick ∧ f.cmd.actTick < f.arrival + 2 ^ 34 ∧
    conflicts u f.cmd.actTick keys = false ∧ res = none ∧ queueUse u < 512 :=
  ⟨{ live with acts := List.replicate 511 default }, (fly (cmd 0x21 1 0 (9830400 + 24576) [])), false, [], none, by decide +kernel⟩

theorem witness_ChecksInOrder_13 : ∃ f : Flight, ∃ bad : Bool, bad = false ∧ sched f.cmd = false :=
  ⟨(fly (cmd 0 0 0 0 [])), false, by decide +kernel⟩

theorem witness_CompletionIsRecorded_1 : ∃ st : Nat, st ≠ 0 :=
  ⟨2, by decide +kernel⟩

theorem witness_CompletionIsRecorded_2 : ∃ u : State, ∃ p : Pending, let v := endFill u p.id;
    let w := showQueue { v with acts := v.acts.filter fun q => q.id != p.id }; flightOf w p.id = none :=
  ⟨live, { id := 1, cmd := cmd 0x21 1 0 later [], tick := later, keys := [], src := [] }, by decide +kernel⟩

theorem witness_CompletionIsRecorded_3 : ∃ u : State, ∃ p : Pending, ∃ st : Nat, ∃ f, let v := endFill u p.id;
    let w := showQueue { v with acts := v.acts.filter fun q => q.id != p.id }; flightOf w p.id = some f ∧ st ≠ 0 ∧ st ≠ 2 :=
  ⟨(withCmd live (cmd 0x21 1 0 later [])), { id := 0, cmd := cmd 0x21 1 0 later [], tick := later, keys := [], src := [] }, 9,
   (fly (cmd 0x21 1 0 later [])), by decide +kernel⟩

theorem witness_CompletionIsRecorded_4 : ∃ u : State, ∃ p : Pending, ∃ n : Nat, ∃ f, let v := endFill u p.id;
    let w := showQueue { v with acts := v.acts.filter fun q => q.id != p.id }; flightOf w p.id = some f ∧ w.time.tick = n :=
  ⟨(withCmd live (cmd 0x21 1 0 later [])), { id := 0, cmd := cmd 0x21 1 0 later [], tick := later, keys := [], src := [] }, 9830400,
   (fly (cmd 0x21 1 0 later [])), by decide +kernel⟩

theorem witness_CompletionIsRecorded_5 : ∃ f : Flight, isCfg f.cmd.opcode = false :=
  ⟨(fly (cmd 0 0 0 0 [])), by decide +kernel⟩

theorem witness_CompletionIsRecorded_6 : ∃ f : Flight, isCfg f.cmd.opcode = true :=
  ⟨(fly (cmd 0x10 0 0 0 [])), by decide +kernel⟩

theorem witness_CompletionIsRecorded_7 : ∃ u : State, ∃ f : Flight, ∃ r : Nat, ∃ g, quiet f.cmd = true ∧ g ∈ (complete u f r).host.flight :=
  ⟨{ live with host := { live.host with flight := [fly (cmd 0x10 4 0 0 []), { fly (cmd 0 0 0 0 []) with id := 1 }] } },
   (fly (cmd 0x10 4 0 0 [])), 0, { fly (cmd 0 0 0 0 []) with id := 1 }, by decide +kernel⟩

theorem witness_CompletionIsRecorded_8 : ∃ f : Flight, quiet f.cmd = false :=
  ⟨(fly (cmd 0 0 0 0 [])), by decide +kernel⟩

theorem witness_AcceptanceQueuesTheActivation_1 : ∃ u : State, u.acts.length < 512 :=
  ⟨{ live with acts := List.replicate 511 default }, by decide +kernel⟩

theorem witness_AcceptanceQueuesTheActivation_2 : ∃ r : Reg, r.addr ≠ A.TIME_QUEUE.addr :=
  ⟨⟨0, 0⟩, by decide +kernel⟩

theorem witness_SleepDiscardsWrites_1 : ∃ i : Instr, ∃ t : Nat, ∃ u : State, writeTime i = some t ∧ asleep u = true ∧ u.power.link = false :=
  ⟨.train 0 1, 0, State.reset, by decide +kernel⟩

theorem witness_SleepDiscardsWrites_2 : ∃ i : Instr, ∃ t : Nat, ∃ u : State, writeTime i = some t ∧ asleep u = true ∧ u.power.link = true :=
  ⟨.train 0 1, 0, (powered State.reset fun p => { p with phase := .low, link := true }), by decide +kernel⟩

theorem witness_SleepDiscardsWrites_3 : ∃ u : State, asleep u = true ∧ u.power.link = false :=
  ⟨(powered live fun p => { p with phase := .low, link := false }), by decide +kernel⟩

theorem witness_SleepDiscardsWrites_4 : ∃ u : State, asleep u = true ∧ u.power.link = false :=
  ⟨(powered live fun p => { p with phase := .low, link := false }), by decide +kernel⟩

theorem witness_SleepDiscardsWrites_5 : ∃ u : State, asleep u = true ∧ u.power.link = true :=
  ⟨(powered live fun p => { p with phase := .low, link := true }), by decide +kernel⟩

theorem witness_SleepDiscardsWrites_6 : ∃ u : State, ∃ a, asleep u = true ∧ u.power.link = true ∧ a % 4 = 0 ∧ a < 0x400000 ∧
    isWick a = false :=
  ⟨(powered live fun p => { p with phase := .low, link := true }), 0x3FFFFC, by decide +kernel⟩

theorem witness_SleepDiscardsWrites_7 : ∃ x : Sys2Proof.Access, ∃ u : State, asleep u = true ∧ u.power.link = true ∧ x.w4 = false ∧
    (malformed x = true ∨ (x.len = 4 ∧ isWick x.addr = false ∧ x.addr ≠ A.HOST_KICK.addr)) :=
  ⟨{ write := true, w4 := false, addr := 0x3FFFFC, len := 4, enables := true, data := 1 }, (powered live fun p => { p with phase := .low, link := true }),
   by decide +kernel⟩

theorem witness_WritesReadBack_1 : ∃ f : Fld, ∃ g : Fld, f.lo + f.width ≤ 32 ∧ g.lo + g.width ≤ 32 :=
  ⟨⟨⟨0, 0⟩, 31, 1⟩, ⟨⟨0, 0⟩, 0, 32⟩, by decide +kernel⟩

theorem witness_WritesReadBack_2 : ∃ f : Fld, ∃ g : Fld, f.lo + f.width ≤ 32 ∧ g.lo + g.width ≤ 32 ∧ g.reg.addr ≠ f.reg.addr :=
  ⟨⟨⟨0, 0⟩, 0, 32⟩, ⟨⟨4, 0⟩, 0, 32⟩, by decide +kernel⟩

theorem witness_WritesReadBack_3 : ∃ f : Fld, ∃ g : Fld, f.lo + f.width ≤ 32 ∧ g.lo + g.width ≤ 32 ∧ g.reg = f.reg ∧
    (g.lo + g.width ≤ f.lo ∨ f.lo + f.width ≤ g.lo) :=
  ⟨⟨⟨0, 0⟩, 16, 16⟩, ⟨⟨0, 0⟩, 0, 16⟩, by decide +kernel⟩

theorem witness_WritesReadBack_4 : ∃ m : List Host.Cell, Memory.wf m = true :=
  ⟨[(5, 1), (6, 255)], by decide +kernel⟩

theorem witness_GeneralCommandsComplete_1 : ∃ c : Cmd, ∃ u : State, ∃ f : Flight, opcodeRow c.opcode = none ∧ turn u c = some f :=
  ⟨(cmd 0x07 0 0 0 []), (withCmd live (cmd 0x07 0 0 0 [])), (fly (cmd 0x07 0 0 0 [])), by decide +kernel⟩

theorem witness_GeneralCommandsComplete_2 : ∃ c : Cmd, ∃ u : State, ∃ f : Flight, mayRun u 0x00 c [] f :=
  ⟨(cmd 0x00 0 0 0 []), (withCmd live (cmd 0x00 0 0 0 [])), (fly (cmd 0x00 0 0 0 [])), by decide +kernel⟩

theorem witness_GeneralCommandsComplete_3 : ∃ c : Cmd, ∃ u : State, ∃ f : Flight, mayRun u 0x01 c [] f :=
  ⟨(cmd 0x01 0 0 0 [(16, 0xFFFF)]), (withCmd live (cmd 0x01 0 0 0 [(16, 0xFFFF)])), (fly (cmd 0x01 0 0 0 [(16, 0xFFFF)])), by decide +kernel⟩

theorem witness_GeneralCommandsComplete_4 : ∃ c : Cmd, ∃ u : State, ∃ f : Flight, mayRun u 0x05 c [] f ∧ maskOwned u (p32 c 16) = false :=
  ⟨(cmd 0x05 0 0 0 [(16, 0x80000001)]), (withCmd live (cmd 0x05 0 0 0 [(16, 0x80000001)])), (fly (cmd 0x05 0 0 0 [(16, 0x80000001)])),
   by decide +kernel⟩

theorem witness_GeneralCommandsComplete_5 : ∃ c : Cmd, ∃ u : State, ∃ f : Flight, mayRun u 0x05 c [] f ∧ maskOwned u (p32 c 16) = true :=
  ⟨(cmd 0x05 0 0 0 [(16, 0x80000000)]), (withCmd { live with owners := (List.replicate 31 0) ++ [mkHandle 4 1 0] } (cmd 0x05 0 0 0 [(16, 0x80000000)])),
   (fly (cmd 0x05 0 0 0 [(16, 0x80000000)])), by decide +kernel⟩

theorem witness_GeneralCommandsComplete_6 : ∃ c : Cmd, ∃ u : State, ∃ f : Flight, mayRun u 0x06 c [] f ∧ maskOwned u (p32 c 16) = false :=
  ⟨(cmd 0x06 0 0 0 [(16, 0x80000000)]), (withCmd live (cmd 0x06 0 0 0 [(16, 0x80000000)])), (fly (cmd 0x06 0 0 0 [(16, 0x80000000)])),
   by decide +kernel⟩

theorem witness_GeneralCommandsComplete_7 : ∃ c : Cmd, ∃ u : State, ∃ f : Flight, mayRun u 0x06 c [] f ∧ maskOwned u (p32 c 16) = true :=
  ⟨(cmd 0x06 0 0 0 [(16, 0x80000000)]), (withCmd { live with owners := (List.replicate 31 0) ++ [mkHandle 4 1 0] } (cmd 0x06 0 0 0 [(16, 0x80000000)])),
   (fly (cmd 0x06 0 0 0 [(16, 0x80000000)])), by decide +kernel⟩

theorem witness_GeneralCommandsComplete_8 : ∃ c : Cmd, ∃ u : State, ∃ f : Flight, mayRun u 0x03 c [] f ∧ p64 c 16 % 64 = 0 ∧
    p64 c 16 + 64 ≤ 2 ^ 48 :=
  ⟨(cmd 0x03 0 0 0 [(16, 2 ^ 48 - 64)]), (withCmd live (cmd 0x03 0 0 0 [(16, 2 ^ 48 - 64)])), (fly (cmd 0x03 0 0 0 [(16, 2 ^ 48 - 64)])),
   by decide +kernel⟩

theorem witness_GeneralCommandsComplete_9 : ∃ c : Cmd, ∃ u : State, ∃ f : Flight, mayRun u 0x04 c [] f ∧ p64 c 16 % 64 = 0 ∧
    p64 c 16 + 8192 ≤ 2 ^ 48 :=
  ⟨(cmd 0x04 0 0 0 [(16, 2 ^ 48 - 8192)]), (withCmd live (cmd 0x04 0 0 0 [(16, 2 ^ 48 - 8192)])), (fly (cmd 0x04 0 0 0 [(16, 2 ^ 48 - 8192)])),
   by decide +kernel⟩

theorem witness_GeneralCommandsComplete_10 : ∃ u : State, ∃ f : Flight, ∃ cfg, ∃ rest, u.trust.jobs = .digest f.id cfg :: rest ∧
    flightOf u f.id = some f :=
  ⟨{ withCmd live (cmd 0x03 0 0 0 []) with trust := { live.trust with jobs := [.digest 0 [1]] } }, (fly (cmd 0x03 0 0 0 [])), [1], [],
   by decide +kernel⟩

theorem witness_GeneralCommandsComplete_11 : ∃ u : State, ∃ f : Flight, ∃ cfg, ∃ writes, ∃ rest,
    u.trust.jobs = .attest f.id cfg writes :: rest ∧ flightOf u f.id = some f :=
  ⟨{ withCmd live (cmd 0x03 0 0 0 []) with trust := { live.trust with jobs := [.attest 0 [1] 3] } }, (fly (cmd 0x03 0 0 0 [])), [1], 3, [],
   by decide +kernel⟩

theorem witness_CancelRemovesWhatItNames_1 : ∃ c : Cmd, ∃ u : State, ∃ f : Flight, mayRun u 0x02 c [] f ∧ p8 c 16 ≤ 15 :=
  ⟨(cmd 0x02 0 0 0 [(16, 15), (18, 5), (24, later)]), (withCmd live (cmd 0x02 0 0 0 [(16, 15), (18, 5), (24, later)])),
   (fly (cmd 0x02 0 0 0 [(16, 15), (18, 5), (24, later)])), by decide +kernel⟩

theorem witness_CancelRemovesWhatItNames_2 : ∃ c : Cmd, ∃ u : State, ∃ f : Flight, mayRun u 0x02 c [] f ∧ p8 c 16 ≤ 15 ∧ cancelled u c = [] :=
  ⟨(cmd 0x02 0 0 0 [(16, 15), (18, 5), (24, later)]), (withCmd live (cmd 0x02 0 0 0 [(16, 15), (18, 5), (24, later)])),
   (fly (cmd 0x02 0 0 0 [(16, 15), (18, 5), (24, later)])), by decide +kernel⟩

theorem witness_CancelRemovesWhatItNames_3 : ∃ c : Cmd, ∃ u : State, ∃ f : Flight, mayRun u 0x02 c [] f ∧ p8 c 16 ≤ 15 ∧
    (∃ p ∈ cancelled u c, p.tick < f.arrival + leadOf p.cmd) :=
  ⟨(cmd 0x02 0 0 0 [(16, 15), (18, 5), (24, 9830400 + 24575)]), (withCmd { live with acts := [{ id := 1, cmd := { cmd 0x21 1 0 (9830400 + 24575) [] with ring := 15 }, tick := (9830400 + 24575), keys := [], src := [] }] } (cmd 0x02 0 0 0 [(16, 15), (18, 5), (24, 9830400 + 24575)])),
   (fly (cmd 0x02 0 0 0 [(16, 15), (18, 5), (24, 9830400 + 24575)])), by decide +kernel⟩

theorem witness_CancelRemovesWhatItNames_4 : ∃ c : Cmd, ∃ u : State, ∃ f : Flight, mayRun u 0x02 c [] f ∧ p8 c 16 ≤ 15 ∧
    cancelled u c ≠ [] ∧ (∀ p ∈ cancelled u c, f.arrival + leadOf p.cmd ≤ p.tick) :=
  ⟨(cmd 0x02 0 0 0 [(16, 15), (18, 5), (24, 9830400 + 24576)]), (withCmd { live with acts := [{ id := 1, cmd := { cmd 0x21 1 0 (9830400 + 24576) [] with ring := 15 }, tick := (9830400 + 24576), keys := [], src := [] }] } (cmd 0x02 0 0 0 [(16, 15), (18, 5), (24, 9830400 + 24576)])),
   (fly (cmd 0x02 0 0 0 [(16, 15), (18, 5), (24, 9830400 + 24576)])), by decide +kernel⟩

theorem witness_CarriersComplete_1 : ∃ c : Cmd, ∃ u : State, ∃ f : Flight, ∃ i, mayRun u 0x10 c [] f ∧ p8 c 16 ≤ 2 ∧ p8 c 17 ≤ 4 ∧
    settingsGood (p8 c 16) (p16 c 18) (p8 c 20) (bitsOf (p8 c 21) 0 3) = true ∧ lowestFree u.carriers 8 = some i :=
  ⟨(cmd 0x10 0 0 0 [(16, 2), (17, 4), (18, 4096), (20, 56), (21, 3)]), (withCmd { live with carriers := (List.range 7).map fun i => (i, car) } (cmd 0x10 0 0 0 [(16, 2), (17, 4), (18, 4096), (20, 56), (21, 3)])),
   (fly (cmd 0x10 0 0 0 [(16, 2), (17, 4), (18, 4096), (20, 56), (21, 3)])), 7, by decide +kernel⟩

theorem witness_CarriersComplete_2 : ∃ c : Cmd, ∃ u : State, ∃ f : Flight, mayRun u 0x10 c [] f ∧ p8 c 16 ≤ 2 ∧ p8 c 17 ≤ 4 ∧
    settingsGood (p8 c 16) (p16 c 18) (p8 c 20) (bitsOf (p8 c 21) 0 3) = true ∧ lowestFree u.carriers 8 = none :=
  ⟨(cmd 0x10 0 0 0 [(16, 2), (17, 4), (18, 4096), (20, 56), (21, 3)]), (withCmd { live with carriers := (List.range 8).map fun i => (i, car) } (cmd 0x10 0 0 0 [(16, 2), (17, 4), (18, 4096), (20, 56), (21, 3)])),
   (fly (cmd 0x10 0 0 0 [(16, 2), (17, 4), (18, 4096), (20, 56), (21, 3)])), by decide +kernel⟩

theorem witness_CarriersComplete_3 : ∃ c : Cmd, ∃ u : State, ∃ f : Flight, mayRun u 0x12 c [] f ∧ (∀ x ∈ u.streams,
    x.2.carrier ≠ handleIdx c.handle) ∧ (∀ x ∈ u.beam.sets, x.2.carrier ≠ c.handle) :=
  ⟨(cmd 0x12 0 (mkHandle 1 1 0) 0 []), (withCmd (withCar live) (cmd 0x12 0 (mkHandle 1 1 0) 0 [])), (fly (cmd 0x12 0 (mkHandle 1 1 0) 0 [])),
   by decide +kernel⟩

theorem witness_CarriersComplete_4 : ∃ c : Cmd, ∃ u : State, ∃ f : Flight, mayRun u 0x12 c [] f ∧ ((∃ x ∈ u.streams,
    x.2.carrier = handleIdx c.handle) ∨ (∃ x ∈ u.beam.sets, x.2.carrier = c.handle)) :=
  ⟨(cmd 0x12 0 (mkHandle 1 1 0) 0 []), (withCmd (withStr live 0) (cmd 0x12 0 (mkHandle 1 1 0) 0 [])),
   (fly (cmd 0x12 0 (mkHandle 1 1 0) 0 [])), by decide +kernel⟩

theorem witness_CarriersComplete_5 : ∃ c : Cmd, ∃ u : State, ∃ f : Flight, ∃ x : Carrier, mayRun u 0x11 c [] f ∧
    carrierAt u (handleIdx c.handle) = some x ∧ setGood u x c (if sched c then c.actTick else u.time.tick) = true ∧
    (bitAt (p8 c 16) 1 = true → ∀ d, d < 2 → budgetsHold u d (directionLoad u d (handleIdx c.handle) (p16 c 18)) = true) ∧
    (sched c = true → inWindow u c f (carrierSetKeys c)) :=
  ⟨(cmd 0x11 1 (mkHandle 1 1 0) later [(16, 7), (18, 8)]), (withCmd (withCar live) (cmd 0x11 1 (mkHandle 1 1 0) later [(16, 7), (18, 8)])),
   (fly (cmd 0x11 1 (mkHandle 1 1 0) later [(16, 7), (18, 8)])), car, by decide +kernel⟩

theorem witness_CarriersComplete_6 : ∃ c : Cmd, ∃ u : State, ∃ f : Flight, ∃ x : Carrier, mayRun u 0x11 c [] f ∧
    carrierAt u (handleIdx c.handle) = some x ∧ setGood u x c (if sched c then c.actTick else u.time.tick) = false :=
  ⟨(cmd 0x11 0 (mkHandle 1 1 0) 0 [(16, 2), (18, 0)]), (withCmd (withCar live) (cmd 0x11 0 (mkHandle 1 1 0) 0 [(16, 2), (18, 0)])),
   (fly (cmd 0x11 0 (mkHandle 1 1 0) 0 [(16, 2), (18, 0)])), car, by decide +kernel⟩

theorem witness_CarriersComplete_7 : ∃ u : State, ∃ x : Carrier, ∃ i, ∃ d, carrierAt u i = some x ∧
    x.dlDue.find? (fun y => decide (y.2.1 ≤ u.time.tick + 160)) = some d :=
  ⟨{ live with carriers := [(0, { car with dlDue := [(9830400, 9830560, default)] })] }, { car with dlDue := [(9830400, 9830560, default)] },
   0, (9830400, 9830560, default), by decide +kernel⟩

theorem witness_CarriersComplete_8 : ∃ u : State, ∃ x : Carrier, ∃ i, ∃ p, ∃ y, carrierAt u i = some x ∧ (∀ d ∈ x.dlDue,
    u.time.tick + 160 < d.2.1) ∧ dueRestart u i x = some (p, y) :=
  ⟨{ withCar live with acts := [{ id := 1, cmd := cmd 0x11 1 (mkHandle 1 1 0) 9830400 [(16, 2), (18, 2)], tick := 9830400, keys := [], src := [] }] },
   car, 0, { id := 1, cmd := cmd 0x11 1 (mkHandle 1 1 0) 9830400 [(16, 2), (18, 2)], tick := 9830400, keys := [], src := [] },
   (((dueRestart ({ withCar live with acts := [{ id := 1, cmd := cmd 0x11 1 (mkHandle 1 1 0) 9830400 [(16, 2), (18, 2)], tick := 9830400, keys := [], src := [] }] }) 0 car).map (·.2)).getD car),
   by decide +kernel⟩

theorem witness_CarriersComplete_9 : ∃ u : State, ∃ x : Carrier, ∃ i, ∃ d, carrierAt u i = some x ∧
    x.ulRestart.find? (fun y => decide (y.1 ≤ u.time.tick)) = some d :=
  ⟨{ live with carriers := [(0, { car with ulRestart := [(9830400, 1, 2)] })] }, { car with ulRestart := [(9830400, 1, 2)] }, 0, (9830400, 1,
   2), by decide +kernel⟩

theorem witness_PathCorrectionComplete_1 : ∃ c : Cmd, ∃ u : State, ∃ f : Flight, mayRun u 0x20 c [] f ∧ pathPresent u (p8 c 16) = true ∧
    p8 c 17 ≤ 1 ∧ p16 c 22 ≤ 4095 ∧ (sched c = true → inWindow u c f [(0x20, p8 c 16, p8 c 17)]) :=
  ⟨(cmd 0x20 1 0 later [(16, 63), (17, 1), (18, 65535), (20, 65535), (22, 4095)]), (withCmd live (cmd 0x20 1 0 later [(16, 63), (17, 1), (18, 65535), (20, 65535), (22, 4095)])),
   (fly (cmd 0x20 1 0 later [(16, 63), (17, 1), (18, 65535), (20, 65535), (22, 4095)])), by decide +kernel⟩

theorem witness_PathCorrectionComplete_2 : ∃ u : State, ∃ n, ∃ d, ∃ w, asleep u = false ∧ pathPresent u n = true ∧ d < 2 ∧ w < 2 :=
  ⟨live, 63, 1, 1, by decide +kernel⟩

theorem witness_PathCorrectionComplete_3 : ∃ u : State, ∃ n, asleep u = false ∧ pathPresent u n = false :=
  ⟨{ live with part := .iza6448 }, 48, by decide +kernel⟩

theorem witness_PathCorrectionComplete_4 : ∃ n, ∃ d, ∃ taper, ∃ phase, ∃ delay, n < 64 ∧ d < 2 ∧ taper < 2 ^ 16 ∧ phase < 2 ^ 16 ∧
    delay < 2 ^ 12 :=
  ⟨63, 1, 65535, 65535, 4095, by decide +kernel⟩

theorem witness_PathCorrectionComplete_5 : ∃ n, ∃ d, ∃ taper, ∃ phase, ∃ delay, ∃ m, ∃ e, n < 64 ∧ d < 2 ∧ taper < 2 ^ 16 ∧
    phase < 2 ^ 16 ∧ delay < 2 ^ 12 ∧ m < 64 ∧ e < 2 ∧ (m, e) ≠ (n, d) :=
  ⟨63, 1, 65535, 65535, 4095, 63, 0, by decide +kernel⟩

theorem witness_StreamCommandsComplete_1 : ∃ c : Cmd, ∃ u : State, ∃ f : Flight, ∃ x : Carrier, ∃ p : Partner, ∃ j : Nat,
    let y : Stream := { gen := nextGen u 2 j, carrier := handleIdx c.handle, dir := p8 c 16, layer := p8 c 17, format := p8 c 18, partner := p32 c 20, acked := false, grant := (x.k, x.grid, 0), orphan := none, orphanEnd := none, newest := none, slots := [], firstAccepted := none, badSlots := 0, firstBad := 0, echoes := [], ulNext := slotFrom x u.time.tick, ulOld := [], ulSeq := 0, newOrigin := false };
    let fits := budgetsHold u (p8 c 16) ((smallestK u (handleIdx c.handle) x,
    p8 c 18) :: directionLoad u (p8 c 16) (handleIdx c.handle) (smallestK u (handleIdx c.handle) x)); p8 c 16 ≤ 1 ∧ p8 c 17 ≤ 63 ∧
    p8 c 18 ≤ 2 ∧ carrierAt u (handleIdx c.handle) = some x ∧ carries x (p8 c 16) = true ∧ (∀ y ∈ u.streams,
    ¬(y.2.carrier = handleIdx c.handle ∧ y.2.dir = p8 c 16 ∧ y.2.layer = p8 c 17)) ∧ freeStream u (p8 c 16) = some j ∧ mayRun u 0x14 c [(6, p32 c 20)] f ∧
    isMember u = false ∧ partnerAt u (handleIdx (p32 c 20)) = some p ∧ bitAt p.formats (p8 c 18) = true ∧ (p.ver = 1 → p8 c 18 ≠ 2) ∧
    fits = true ∧ p.lost = false :=
  ⟨(cmd 0x14 0 (mkHandle 1 1 0) 0 [(16, 1), (17, 63), (18, 2), (20, mkHandle 6 1 0)]),
   (withCmd (withMate live) (cmd 0x14 0 (mkHandle 1 1 0) 0 [(16, 1), (17, 63), (18, 2), (20, mkHandle 6 1 0)])),
   (fly (cmd 0x14 0 (mkHandle 1 1 0) 0 [(16, 1), (17, 63), (18, 2), (20, mkHandle 6 1 0)])), car, mate, 64, by decide +kernel⟩

theorem witness_StreamCommandsComplete_2 : ∃ c : Cmd, ∃ u : State, ∃ f : Flight, ∃ x : Carrier, ∃ p : Partner, ∃ j : Nat,
    let y : Stream := { gen := nextGen u 2 j, carrier := handleIdx c.handle, dir := p8 c 16, layer := p8 c 17, format := p8 c 18, partner := p32 c 20, acked := false, grant := (x.k, x.grid, 0), orphan := none, orphanEnd := none, newest := none, slots := [], firstAccepted := none, badSlots := 0, firstBad := 0, echoes := [], ulNext := slotFrom x u.time.tick, ulOld := [], ulSeq := 0, newOrigin := false };
    let fits := budgetsHold u (p8 c 16) ((smallestK u (handleIdx c.handle) x,
    p8 c 18) :: directionLoad u (p8 c 16) (handleIdx c.handle) (smallestK u (handleIdx c.handle) x)); p8 c 16 ≤ 1 ∧ p8 c 17 ≤ 63 ∧
    p8 c 18 ≤ 2 ∧ carrierAt u (handleIdx c.handle) = some x ∧ carries x (p8 c 16) = true ∧ (∀ y ∈ u.streams,
    ¬(y.2.carrier = handleIdx c.handle ∧ y.2.dir = p8 c 16 ∧ y.2.layer = p8 c 17)) ∧ freeStream u (p8 c 16) = some j ∧ mayRun u 0x14 c [(6, p32 c 20)] f ∧
    isMember u = false ∧ partnerAt u (handleIdx (p32 c 20)) = some p ∧ bitAt p.formats (p8 c 18) = true ∧ (p.ver = 1 → p8 c 18 ≠ 2) ∧
    fits = true ∧ p.lost = true :=
  ⟨(cmd 0x14 0 (mkHandle 1 1 0) 0 [(16, 1), (17, 63), (18, 2), (20, mkHandle 6 1 0)]), (withCmd { withCar live with partners := [(0, { mate with lost := true })] } (cmd 0x14 0 (mkHandle 1 1 0) 0 [(16, 1), (17, 63), (18, 2), (20, mkHandle 6 1 0)])),
   (fly (cmd 0x14 0 (mkHandle 1 1 0) 0 [(16, 1), (17, 63), (18, 2), (20, mkHandle 6 1 0)])), car, { mate with lost := true }, 64,
   by decide +kernel⟩

theorem witness_StreamCommandsComplete_3 : ∃ c : Cmd, ∃ u : State, ∃ f : Flight, ∃ x : Carrier, ∃ p : Partner, ∃ j : Nat,
    let y : Stream := { gen := nextGen u 2 j, carrier := handleIdx c.handle, dir := p8 c 16, layer := p8 c 17, format := p8 c 18, partner := p32 c 20, acked := false, grant := (x.k, x.grid, 0), orphan := none, orphanEnd := none, newest := none, slots := [], firstAccepted := none, badSlots := 0, firstBad := 0, echoes := [], ulNext := slotFrom x u.time.tick, ulOld := [], ulSeq := 0, newOrigin := false };
    let fits := budgetsHold u (p8 c 16) ((smallestK u (handleIdx c.handle) x,
    p8 c 18) :: directionLoad u (p8 c 16) (handleIdx c.handle) (smallestK u (handleIdx c.handle) x)); p8 c 16 ≤ 1 ∧ p8 c 17 ≤ 63 ∧
    p8 c 18 ≤ 2 ∧ carrierAt u (handleIdx c.handle) = some x ∧ carries x (p8 c 16) = true ∧ (∀ y ∈ u.streams,
    ¬(y.2.carrier = handleIdx c.handle ∧ y.2.dir = p8 c 16 ∧ y.2.layer = p8 c 17)) ∧ freeStream u (p8 c 16) = some j ∧ mayRun u 0x14 c [(6, p32 c 20)] f ∧
    isMember u = false ∧ partnerAt u (handleIdx (p32 c 20)) = some p ∧ bitAt p.formats (p8 c 18) = true ∧ (p.ver = 1 → p8 c 18 ≠ 2) ∧
    fits = false :=
  ⟨(cmd 0x14 0 (mkHandle 1 1 0) 0 [(16, 1), (17, 63), (18, 2), (20, mkHandle 6 1 0)]),
   (withCmd { withMate live with streams := (List.range 63).map fun i => (64 + i, { str 1 with layer := i }) } (cmd 0x14 0 (mkHandle 1 1 0) 0 [(16, 1), (17, 63), (18, 2), (20, mkHandle 6 1 0)])),
   (fly (cmd 0x14 0 (mkHandle 1 1 0) 0 [(16, 1), (17, 63), (18, 2), (20, mkHandle 6 1 0)])), car, mate, 127, by decide +kernel⟩

theorem witness_StreamCommandsComplete_4 : ∃ c : Cmd, ∃ u : State, ∃ f : Flight, ∃ x : Carrier, ∃ j : Nat,
    let y : Stream := { gen := nextGen u 2 j, carrier := handleIdx c.handle, dir := p8 c 16, layer := p8 c 17, format := p8 c 18, partner := p32 c 20, acked := false, grant := (x.k, x.grid, 0), orphan := none, orphanEnd := none, newest := none, slots := [], firstAccepted := none, badSlots := 0, firstBad := 0, echoes := [], ulNext := slotFrom x u.time.tick, ulOld := [], ulSeq := 0, newOrigin := false };
    let fits := budgetsHold u (p8 c 16) ((smallestK u (handleIdx c.handle) x,
    p8 c 18) :: directionLoad u (p8 c 16) (handleIdx c.handle) (smallestK u (handleIdx c.handle) x)); p8 c 16 ≤ 1 ∧ p8 c 17 ≤ 63 ∧
    p8 c 18 ≤ 2 ∧ carrierAt u (handleIdx c.handle) = some x ∧ carries x (p8 c 16) = true ∧ (∀ y ∈ u.streams,
    ¬(y.2.carrier = handleIdx c.handle ∧ y.2.dir = p8 c 16 ∧ y.2.layer = p8 c 17)) ∧ freeStream u (p8 c 16) = some j ∧
    mayRun u 0x14 c [] f ∧ isMember u = true ∧ p32 c 20 = 0 ∧ fits = true :=
  ⟨(cmd 0x14 0 (mkHandle 1 1 0) 0 [(16, 1), (17, 63), (18, 2)]), (withCmd (withCar (put live [(F.CAS_STATUS_ROLE, 2)])) (cmd 0x14 0 (mkHandle 1 1 0) 0 [(16, 1), (17, 63), (18, 2)])),
   (fly (cmd 0x14 0 (mkHandle 1 1 0) 0 [(16, 1), (17, 63), (18, 2)])), car, 64, by decide +kernel⟩

theorem witness_StreamCommandsComplete_5 : ∃ c : Cmd, ∃ u : State, ∃ f : Flight, ∃ y, ∃ q, mayRun u 0x15 c [] f ∧
    streamAt u (handleIdx c.handle) = some y ∧ y.orphan = none ∧ streamPartner u y = some q :=
  ⟨(cmd 0x15 0 (mkHandle 2 1 0) 0 []), (withCmd (withStr live 0) (cmd 0x15 0 (mkHandle 2 1 0) 0 [])),
   (fly (cmd 0x15 0 (mkHandle 2 1 0) 0 [])), (str 0), 0, by decide +kernel⟩

theorem witness_StreamCommandsComplete_6 : ∃ c : Cmd, ∃ u : State, ∃ f : Flight, ∃ y, mayRun u 0x15 c [] f ∧
    streamAt u (handleIdx c.handle) = some y ∧ y.orphan = none ∧ streamPartner u y = none :=
  ⟨(cmd 0x15 0 (mkHandle 2 1 0) 0 []), (withCmd { withStr live 0 with partners := [], streams := [(0, { str 0 with partner := 0 })] } (cmd 0x15 0 (mkHandle 2 1 0) 0 [])),
   (fly (cmd 0x15 0 (mkHandle 2 1 0) 0 [])), { str 0 with partner := 0 }, by decide +kernel⟩

theorem witness_StreamCommandsComplete_7 : ∃ c : Cmd, ∃ u : State, ∃ f : Flight, ∃ y, mayRun u 0x15 c [] f ∧
    streamAt u (handleIdx c.handle) = some y ∧ y.orphan.isSome = true :=
  ⟨(cmd 0x15 0 (mkHandle 2 1 0) 0 []), (withCmd { withMate live with streams := [(0, { str 0 with orphan := some 9830000 })] } (cmd 0x15 0 (mkHandle 2 1 0) 0 [])),
   (fly (cmd 0x15 0 (mkHandle 2 1 0) 0 [])), { str 0 with orphan := some 9830000 }, by decide +kernel⟩

theorem witness_StreamCommandsComplete_8 : ∃ c : Cmd, ∃ u : State, ∃ f : Flight, ∃ p : Partner, mayRun u 0x68 c [] f ∧
    partnerAt u (handleIdx c.handle) = some p ∧ p.lost = false :=
  ⟨(cmd 0x68 0 (mkHandle 6 1 0) 0 []), (withCmd (withMate live) (cmd 0x68 0 (mkHandle 6 1 0) 0 [])), (fly (cmd 0x68 0 (mkHandle 6 1 0) 0 [])),
   mate, by decide +kernel⟩

theorem witness_StreamCommandsComplete_9 : ∃ c : Cmd, ∃ u : State, ∃ f : Flight, ∃ p : Partner, mayRun u 0x68 c [] f ∧
    partnerAt u (handleIdx c.handle) = some p ∧ p.lost = true :=
  ⟨(cmd 0x68 0 (mkHandle 6 1 0) 0 []), (withCmd { withCar live with partners := [(0, { mate with lost := true })] } (cmd 0x68 0 (mkHandle 6 1 0) 0 [])),
   (fly (cmd 0x68 0 (mkHandle 6 1 0) 0 [])), { mate with lost := true }, by decide +kernel⟩

theorem witness_WeightSetCommandsComplete_1 : ∃ c : Cmd, ∃ u : State, ∃ f : Flight, ∃ x : Carrier, mayRun u 0x18 c [(1, p32 c 24)] f ∧
    p16 c 16 ≤ 8255 ∧ p8 c 18 ≤ 1 ∧ 1 ≤ p8 c 19 ∧ p8 c 19 ≤ 64 ∧ p8 c 20 ≤ 4 ∧ p8 c 19 * 2 ^ p8 c 20 ≤ 512 ∧
    carrierAt u (handleIdx (p32 c 24)) = some x ∧ x.sLog2 = p8 c 20 ∧ carries x (p8 c 18) = true ∧ (p16 c 16 < 8192 →
    p16 c 16 < getF u F.BEAM_LIB_CTRL_SLOTS) ∧ setAt u (p16 c 16) = none :=
  ⟨(cmd 0x18 0 0 0 [(16, 8255), (18, 1), (19, 64), (20, 0), (24, mkHandle 1 1 0)]), (withCmd (withCar live) (cmd 0x18 0 0 0 [(16, 8255), (18, 1), (19, 64), (20, 0), (24, mkHandle 1 1 0)])),
   (fly (cmd 0x18 0 0 0 [(16, 8255), (18, 1), (19, 64), (20, 0), (24, mkHandle 1 1 0)])), car, by decide +kernel⟩

theorem witness_WeightSetCommandsComplete_2 : ∃ c : Cmd, ∃ u : State, ∃ f : Flight, ∃ w : WeightSet, ∃ b, mayRun u 0x19 c [] f ∧
    setAt u (handleIdx c.handle) = some w ∧ (8192 ≤ handleIdx c.handle → stagedFor u (handleIdx c.handle) w = some b) ∧ p64 c 24 % 4 = 0 ∧
    regionBad (p8 c 16) (p64 c 24) (bytesOf w) = false ∧ regionDown u (p8 c 16) (p64 c 24) (bytesOf w) = false ∧
    (handleIdx c.handle < 8192 → regionDown u 2 (libAddr u (handleIdx c.handle)) (bytesOf w) = false) ∧
    inActive u (handleIdx c.handle) = false ∧ inShadow u (handleIdx c.handle) = false ∧ (∀ y ∈ u.beam.fills, y.slot ≠ handleIdx c.handle) :=
  ⟨(cmd 0x19 0 (mkHandle 3 1 8192) 0 [(16, 0), (24, 2 ^ 48 - 256)]), (withCmd (withSet live 8192 none) (cmd 0x19 0 (mkHandle 3 1 8192) 0 [(16, 0), (24, 2 ^ 48 - 256)])),
   (fly (cmd 0x19 0 (mkHandle 3 1 8192) 0 [(16, 0), (24, 2 ^ 48 - 256)])), (wset none), 0, by decide +kernel⟩

theorem witness_WeightSetCommandsComplete_3 : ∃ u : State, ∃ f : Flight, ∃ w : WeightSet, ∃ v : State, ∃ data : List Byte,
    ∃ bytes : List Byte, asleep u = false ∧ sourceFlight u f.cmd.ring f.cmd.tag = some f ∧ f.cmd.opcode = 0x19 ∧ f.rest.2 = 0 ∧
    (p8 f.cmd 16 = 2 ∨ handleIdx f.cmd.handle < 8192 → dramTrained u = true ∧ v = disturbSr u ∧ portServes v = true) ∧ (p8 f.cmd 16 ≠ 2 →
    8192 ≤ handleIdx f.cmd.handle → v = u) ∧ setAt v (handleIdx f.cmd.handle) = some w ∧ w.gen = handleGen f.cmd.handle ∧
    bytes = (if p8 f.cmd 16 = 0 then (f.got ++ data).take (bytesOf w) else if p8 f.cmd 16 = 1 then memRead v.store (p64 f.cmd 24) (bytesOf w) else memRead v.dram (p64 f.cmd 24) (bytesOf w)) ∧
    handleIdx f.cmd.handle < 8192 :=
  ⟨{ withSet (dramUp live) 0 none with host := { live.host with flight := [{ fly (cmd 0x19 0 (mkHandle 3 1 0) 0 []) with stage := .running, source := (0, 256), readAt := some 0, reads := 1 }] } },
   { fly (cmd 0x19 0 (mkHandle 3 1 0) 0 []) with stage := .running, source := (0, 256), readAt := some 0, reads := 1 }, (wset none),
   (disturbSr ({ withSet (dramUp live) 0 none with host := { live.host with flight := [{ fly (cmd 0x19 0 (mkHandle 3 1 0) 0 []) with stage := .running, source := (0, 256), readAt := some 0, reads := 1 }] } })),
   [1], [1], by decide +kernel, by decide +kernel, by decide +kernel, by decide +kernel, fun _ => ⟨by decide +kernel, rfl, by decide +kernel⟩,
   by decide +kernel, by decide +kernel, by decide +kernel, by decide +kernel, by decide +kernel⟩

theorem witness_WeightSetCommandsComplete_4 : ∃ u : State, ∃ f : Flight, ∃ w : WeightSet, ∃ v : State, ∃ data : List Byte,
    ∃ bytes : List Byte, asleep u = false ∧ sourceFlight u f.cmd.ring f.cmd.tag = some f ∧ f.cmd.opcode = 0x19 ∧ f.rest.2 = 0 ∧
    (p8 f.cmd 16 = 2 ∨ handleIdx f.cmd.handle < 8192 → dramTrained u = true ∧ v = disturbSr u ∧ portServes v = true) ∧ (p8 f.cmd 16 ≠ 2 →
    8192 ≤ handleIdx f.cmd.handle → v = u) ∧ setAt v (handleIdx f.cmd.handle) = some w ∧ w.gen = handleGen f.cmd.handle ∧
    bytes = (if p8 f.cmd 16 = 0 then (f.got ++ data).take (bytesOf w) else if p8 f.cmd 16 = 1 then memRead v.store (p64 f.cmd 24) (bytesOf w) else memRead v.dram (p64 f.cmd 24) (bytesOf w)) ∧
    8192 ≤ handleIdx f.cmd.handle :=
  ⟨{ withSet live 8192 none with host := { live.host with flight := [{ fly (cmd 0x19 0 (mkHandle 3 1 8192) 0 []) with stage := .running, source := (0, 256), readAt := some 0, reads := 1 }] } },
   { fly (cmd 0x19 0 (mkHandle 3 1 8192) 0 []) with stage := .running, source := (0, 256), readAt := some 0, reads := 1 }, (wset none),
   { withSet live 8192 none with host := { live.host with flight := [{ fly (cmd 0x19 0 (mkHandle 3 1 8192) 0 []) with stage := .running, source := (0, 256), readAt := some 0, reads := 1 }] } },
   [1], [1], by decide +kernel, by decide +kernel, by decide +kernel, by decide +kernel, fun h => absurd h (by decide +kernel),
   fun _ _ => rfl, by decide +kernel, by decide +kernel, by decide +kernel, by decide +kernel⟩

theorem witness_WeightSetCommandsComplete_5 : ∃ u : State, ∃ f : Flight, asleep u = false ∧ sourceFlight u f.cmd.ring f.cmd.tag = some f ∧
    f.cmd.opcode = 0x19 ∧ 0 < f.rest.2 :=
  ⟨{ withSet live 8192 none with host := { live.host with flight := [{ fly (cmd 0x19 0 (mkHandle 3 1 8192) 0 []) with stage := .running, source := (0, 256), readAt := some 0, reads := 1, rest := (0, 256) }] } },
   { fly (cmd 0x19 0 (mkHandle 3 1 8192) 0 []) with stage := .running, source := (0, 256), readAt := some 0, reads := 1, rest := (0, 256) },
   by decide +kernel⟩

theorem witness_WeightSetCommandsComplete_6 : ∃ u : State, ∃ f : Flight, asleep u = false ∧ sourceFlight u f.cmd.ring f.cmd.tag = some f ∧
    f.cmd.opcode = 0x19 ∧ f.rest.2 = 0 ∧ dramTrained u = true ∧ (p8 f.cmd 16 = 2 ∨ handleIdx f.cmd.handle < 8192) ∧
    portServes (disturbSr u) = false :=
  ⟨{ withSet ({ dramUp live with memc := { live.memc with pause := some 9830400 } }) 0 none with host := { live.host with flight := [{ fly (cmd 0x19 0 (mkHandle 3 1 0) 0 []) with stage := .running, source := (0, 256), readAt := some 0, reads := 1 }] } },
   { fly (cmd 0x19 0 (mkHandle 3 1 0) 0 []) with stage := .running, source := (0, 256), readAt := some 0, reads := 1 }, by decide +kernel⟩

theorem witness_WeightSetCommandsComplete_7 : ∃ u : State, asleep u = true :=
  ⟨(powered live fun p => { p with phase := .low, link := true }), by decide +kernel⟩

theorem witness_WeightSetCommandsComplete_8 : ∃ u : State, ∃ f : Flight, ∃ w : WeightSet, asleep u = false ∧
    sourceFlight u f.cmd.ring f.cmd.tag = some f ∧ f.cmd.opcode = 0x19 ∧ f.rest.2 = 0 ∧ (p8 f.cmd 16 = 2 ∨ handleIdx f.cmd.handle < 8192 →
    dramTrained u = false) ∧ (∀ w, setAt u (handleIdx f.cmd.handle) = some w → w.gen ≠ handleGen f.cmd.handle) :=
  ⟨{ live with host := { live.host with flight := [{ fly (cmd 0x19 0 (mkHandle 3 1 8192) 0 []) with stage := .running, source := (0, 256), readAt := some 0, reads := 1 }] } },
   { fly (cmd 0x19 0 (mkHandle 3 1 8192) 0 []) with stage := .running, source := (0, 256), readAt := some 0, reads := 1 }, (wset none),
   by decide +kernel, by decide +kernel, by decide +kernel, by decide +kernel, by decide +kernel,
   fun _ h => absurd (show none = some _ from h) (fun h => nomatch h)⟩

theorem witness_WeightSetCommandsComplete_9 : ∃ u : State, ∃ f : Flight, ∃ w : WeightSet, asleep u = false ∧
    sourceFlight u f.cmd.ring f.cmd.tag = some f ∧ f.cmd.opcode = 0x19 ∧ f.rest.2 = 0 ∧ (p8 f.cmd 16 = 2 ∨ handleIdx f.cmd.handle < 8192 →
    dramTrained u = false) ∧ setAt u (handleIdx f.cmd.handle) = some w ∧ w.gen = handleGen f.cmd.handle ∧
    (p8 f.cmd 16 = 2 ∨ handleIdx f.cmd.handle < 8192) :=
  ⟨{ withSet live 0 none with host := { live.host with flight := [{ fly (cmd 0x19 0 (mkHandle 3 1 0) 0 []) with stage := .running, source := (0, 256), readAt := some 0, reads := 1 }] } },
   { fly (cmd 0x19 0 (mkHandle 3 1 0) 0 []) with stage := .running, source := (0, 256), readAt := some 0, reads := 1 }, (wset none),
   by decide +kernel⟩

theorem witness_WeightSetCommandsComplete_10 : ∃ c : Cmd, ∃ u : State, ∃ f : Flight, ∃ w : WeightSet, mayRun u 0x1A c [] f ∧
    setAt u (handleIdx c.handle) = some w ∧ (8192 ≤ handleIdx c.handle → w.bank.isSome = true) ∧ inWindow u c f [(0x1A, handleIdx w.carrier, w.dir)] ∧
    activateFits u (handleIdx c.handle) (handleIdx w.carrier) w.dir (colsOf w) c.actTick = true ∧ (handleIdx c.handle < 8192 →
    changeBars u c.actTick = false) :=
  ⟨(cmd 0x1A 1 (mkHandle 3 1 8192) later []), (withCmd (withSet live 8192 (some 0)) (cmd 0x1A 1 (mkHandle 3 1 8192) later [])),
   (fly (cmd 0x1A 1 (mkHandle 3 1 8192) later [])), (wset (some 0)), by decide +kernel⟩

theorem witness_WeightSetCommandsComplete_11 : ∃ c : Cmd, ∃ u : State, ∃ f : Flight, ∃ w : WeightSet, mayRun u 0x1A c [] f ∧
    setAt u (handleIdx c.handle) = some w ∧ (8192 ≤ handleIdx c.handle → w.bank.isSome = true) ∧ inWindow u c f [(0x1A, handleIdx w.carrier, w.dir)] ∧
    activateFits u (handleIdx c.handle) (handleIdx w.carrier) w.dir (colsOf w) c.actTick = false :=
  ⟨(cmd 0x1A 1 (mkHandle 3 1 8192) later []),
   (withCmd { withSet live 8192 (some 0) with beam := { (withSet live 8192 (some 0)).beam with active := [{ carrier := 1, dir := 0, slot := 9000, cols := 512, layers := 64, mapped := none, mapAt := none, data := [] }] } } (cmd 0x1A 1 (mkHandle 3 1 8192) later [])),
   (fly (cmd 0x1A 1 (mkHandle 3 1 8192) later [])), (wset (some 0)), by decide +kernel⟩

theorem witness_WeightSetCommandsComplete_12 : ∃ c : Cmd, ∃ u : State, ∃ f : Flight, mayRun u 0x1B c [] f ∧
    inActive u (handleIdx c.handle) = false ∧ inShadow u (handleIdx c.handle) = false :=
  ⟨(cmd 0x1B 0 (mkHandle 3 1 8192) 0 []), (withCmd (withSet live 8192 (some 0)) (cmd 0x1B 0 (mkHandle 3 1 8192) 0 [])),
   (fly (cmd 0x1B 0 (mkHandle 3 1 8192) 0 [])), by decide +kernel⟩

theorem witness_WeightSetCommandsComplete_13 : ∃ c : Cmd, ∃ u : State, ∃ f : Flight, mayRun u 0x1B c [] f ∧
    (inActive u (handleIdx c.handle) = true ∨ inShadow u (handleIdx c.handle) = true) :=
  ⟨(cmd 0x1B 0 (mkHandle 3 1 8192) 0 []),
   (withCmd { withSet live 8192 (some 0) with beam := { (withSet live 8192 (some 0)).beam with active := [{ carrier := 0, dir := 0, slot := 8192, cols := 1, layers := 1, mapped := none, mapAt := none, data := [] }] } } (cmd 0x1B 0 (mkHandle 3 1 8192) 0 [])),
   (fly (cmd 0x1B 0 (mkHandle 3 1 8192) 0 [])), by decide +kernel⟩

theorem witness_WsCreateInAFullSlotIsRefused_1 : ∃ c : Cmd, ∃ u : State, ∃ f : Flight, ∃ x : Carrier, mayRun u 0x18 c [(1, p32 c 24)] f ∧
    p16 c 16 ≤ 8255 ∧ p8 c 18 ≤ 1 ∧ 1 ≤ p8 c 19 ∧ p8 c 19 ≤ 64 ∧ p8 c 20 ≤ 4 ∧ p8 c 19 * 2 ^ p8 c 20 ≤ 512 ∧
    carrierAt u (handleIdx (p32 c 24)) = some x ∧ x.sLog2 = p8 c 20 ∧ carries x (p8 c 18) = true ∧ (p16 c 16 < 8192 →
    p16 c 16 < getF u F.BEAM_LIB_CTRL_SLOTS) ∧ (assocGet u.beam.sets (p16 c 16)).isSome = true :=
  ⟨(cmd 0x18 0 0 0 [(16, 8192), (18, 0), (19, 1), (20, 0), (24, mkHandle 1 1 0)]), (withCmd (withSet live 8192 none) (cmd 0x18 0 0 0 [(16, 8192), (18, 0), (19, 1), (20, 0), (24, mkHandle 1 1 0)])),
   (fly (cmd 0x18 0 0 0 [(16, 8192), (18, 0), (19, 1), (20, 0), (24, mkHandle 1 1 0)])), car, by decide +kernel⟩

theorem witness_WeightSetFillsComplete_1 : ∃ (i d : Nat), ∃ u : State, ∃ x : Fill,
    u.beam.fills.find? (fun y => y.carrier = i && y.dir = d && (isLib y.slot && !y.started && decide (y.tick ≤ u.time.tick + 49152))) = some x :=
  ⟨0, 0, { live with beam := { (live).beam with fills := [{ id := 0, slot := 8191, carrier := 0, dir := 0, cols := 1, tick := (9830400 + 49152), started := false, done := false, failed := false, down := false, data := [] }] } },
   { id := 0, slot := 8191, carrier := 0, dir := 0, cols := 1, tick := (9830400 + 49152), started := false, done := false, failed := false, down := false, data := [] },
   by decide +kernel⟩

theorem witness_WeightSetFillsComplete_2 : ∃ (i d : Nat), ∃ u : State, ∃ x : Fill, let v := disturbSr u;
    u.beam.fills.find? (fun y => y.carrier = i && y.dir = d && fetchOpen u y) = some x ∧ dramTrained u = true ∧ portServes v = true :=
  ⟨0, 0, { (put live [(F.MEMC_STATUS_TRAINED, 1)]) with beam := { ((put live [(F.MEMC_STATUS_TRAINED, 1)])).beam with fills := [{ id := 0, slot := 8191, carrier := 0, dir := 0, cols := 1, tick := (9830400 + 4096), started := true, done := false, failed := false, down := false, data := [] }] } },
   { id := 0, slot := 8191, carrier := 0, dir := 0, cols := 1, tick := (9830400 + 4096), started := true, done := false, failed := false, down := false, data := [] },
   by decide +kernel⟩

theorem witness_WeightSetFillsComplete_3 : ∃ (i d : Nat), ∃ u : State, ∃ x : Fill, let v := disturbSr u;
    u.beam.fills.find? (fun y => y.carrier = i && y.dir = d && fetchOpen u y) = some x ∧ dramTrained u = true ∧ portServes v = false :=
  ⟨0, 0, { ({ (put live [(F.MEMC_STATUS_TRAINED, 1)]) with beam := { ((put live [(F.MEMC_STATUS_TRAINED, 1)])).beam with fills := [{ id := 0, slot := 8191, carrier := 0, dir := 0, cols := 1, tick := (9830400 + 4096), started := true, done := false, failed := false, down := false, data := [] }] } } : State) with memc := { live.memc with pause := some 9830400 } },
   { id := 0, slot := 8191, carrier := 0, dir := 0, cols := 1, tick := (9830400 + 4096), started := true, done := false, failed := false, down := false, data := [] },
   by decide +kernel⟩

theorem witness_WeightSetFillsComplete_4 : ∃ (i d : Nat), ∃ u : State, ∃ x : Fill, ∃ w,
    u.beam.fills.find? (fun y => y.carrier = i && y.dir = d && (isLib y.slot && !y.done && !y.failed && decide (y.tick ≤ u.time.tick + 4096))) = some x ∧
    setAt u x.slot = some w :=
  ⟨0, 0, { (withSet live 0 none) with beam := { ((withSet live 0 none)).beam with fills := [{ id := 0, slot := 0, carrier := 0, dir := 0, cols := 1, tick := (9830400 + 4096), started := true, done := false, failed := false, down := false, data := [] }] } },
   { id := 0, slot := 0, carrier := 0, dir := 0, cols := 1, tick := (9830400 + 4096), started := true, done := false, failed := false, down := false, data := [] },
   (wset none), by decide +kernel⟩

theorem witness_WeightSetFillsComplete_5 : ∃ (i d : Nat), ∃ u : State, ∃ x : Fill, ∃ w,
    u.beam.fills.find? (fun y => y.carrier = i && y.dir = d && (!isLib y.slot && !y.started && decide (y.tick ≤ u.time.tick + 4096))) = some x ∧
    setAt u x.slot = some w :=
  ⟨0, 0, { (withSet live 8192 (some 0)) with beam := { ((withSet live 8192 (some 0))).beam with fills := [{ id := 0, slot := 8192, carrier := 0, dir := 0, cols := 1, tick := (9830400 + 4096), started := false, done := false, failed := false, down := false, data := [] }] } },
   { id := 0, slot := 8192, carrier := 0, dir := 0, cols := 1, tick := (9830400 + 4096), started := false, done := false, failed := false, down := false, data := [] },
   (wset (some 0)), by decide +kernel⟩

theorem witness_WeightSetFillsComplete_8 : ∃ i : Nat, ∃ u : State, ∃ c, ∃ a : ActiveSet, ∃ n, carrierAt u i = some c ∧ c.was = [] ∧
    a.carrier = i ∧ a.mapAt = some n :=
  ⟨0, (withCar live), car, { carrier := 0, dir := 0, slot := 0, cols := 1, layers := 1, mapped := none, mapAt := some 0, data := [] }, 0,
   by decide +kernel⟩

theorem witness_WeightSetFillsComplete_9 : ∃ i : Nat, ∃ u : State, ∃ c, ∃ a : ActiveSet, ∃ n, ∃ y : Leaving, carrierAt u i = some c ∧
    c.was = [] ∧ a.carrier = i ∧ a.mapAt = some n ∧ y.carrier = i ∧ y.after = n :=
  ⟨0, (withCar live), car, { carrier := 0, dir := 0, slot := 0, cols := 1, layers := 1, mapped := none, mapAt := some 0, data := [] }, 0,
   { carrier := 0, dir := 0, slot := 0, cols := 1, after := 0 }, by decide +kernel⟩

theorem witness_PathControlComplete_1 : ∃ c : Cmd, ∃ u : State, ∃ f : Flight, mayRun u 0x22 c [] f ∧ p64 c 16 < 2 ^ nPaths u ∧
    p8 c 24 ≤ 1 ∧ 65 ≤ p16 c 26 ∧ p16 c 26 ≤ 95 ∧ (sched c = true → inWindow u c f ((bitsSet (p64 c 16) 64).map fun n => (0x22, n, 0))) :=
  ⟨(cmd 0x22 1 0 later [(16, 2 ^ 64 - 1), (24, 1), (26, 95)]), (withCmd live (cmd 0x22 1 0 later [(16, 2 ^ 64 - 1), (24, 1), (26, 95)])),
   (fly (cmd 0x22 1 0 later [(16, 2 ^ 64 - 1), (24, 1), (26, 95)])), by decide +kernel⟩

theorem witness_PathControlComplete_2 : ∃ c : Cmd, ∃ u : State, ∃ f : Flight, mayRun u 0x21 c [] f ∧ pathPresent u (p8 c 16) = true ∧
    p8 c 17 ≤ 30 ∧ inWindow u c f [(0x21, p8 c 16, 0)] :=
  ⟨(cmd 0x21 1 0 later [(16, 63), (17, 30)]), (withCmd live (cmd 0x21 1 0 later [(16, 63), (17, 30)])), (fly (cmd 0x21 1 0 later [(16, 63), (17, 30)])),
   by decide +kernel⟩

theorem witness_PathControlComplete_3 : ∃ c : Cmd, ∃ u : State, ∃ f : Flight, mayRun u 0x23 c [] f ∧ pathPresent u (p8 c 16) = true ∧
    -64 ≤ signed 8 (p8 c 17) ∧ signed 8 (p8 c 17) ≤ 63 ∧ -64 ≤ signed 8 (p8 c 18) ∧ signed 8 (p8 c 18) ≤ 63 ∧
    -4095 ≤ signed 16 (p16 c 20) ∧ signed 16 (p16 c 20) ≤ 4095 ∧ -4095 ≤ signed 16 (p16 c 22) ∧ signed 16 (p16 c 22) ≤ 4095 ∧
    inWindow u c f [(0x23, p8 c 16, 0)] :=
  ⟨(cmd 0x23 1 0 later [(16, 63), (17, 63), (18, 192), (20, 4095), (22, 65536 - 4095)]), (withCmd live (cmd 0x23 1 0 later [(16, 63), (17, 63), (18, 192), (20, 4095), (22, 65536 - 4095)])),
   (fly (cmd 0x23 1 0 later [(16, 63), (17, 63), (18, 192), (20, 4095), (22, 65536 - 4095)])), by decide +kernel⟩

theorem witness_PathControlComplete_4 : ∃ (n data : Nat), ∃ u : State, asleep u = false ∧ pathPresent u n = true ∧
    getF (countCfg u 1) (F.TXP_CTRL_EN n) ≠ data % 2 :=
  ⟨63, 1, live, by decide +kernel⟩

theorem witness_PathControlComplete_5 : ∃ (n data : Nat), ∃ u : State, asleep u = false ∧ pathPresent u n = true ∧
    getF (countCfg u 1) (F.TXP_CTRL_EN n) = data % 2 :=
  ⟨63, 0, live, by decide +kernel⟩

theorem witness_PathControlComplete_6 : ∃ n : Nat, ∃ u : State, asleep u = false ∧ pathPresent u n = false :=
  ⟨64, live, by decide +kernel⟩

theorem witness_PathControlComplete_7 : ∃ (n data : Nat), ∃ u : State, asleep u = false ∧ pathPresent u n = true ∧
    flag (countCfg u 1) (F.RXP_CTRL_EN n) = bitAt data 0 :=
  ⟨63, 0, live, by decide +kernel⟩

theorem witness_PathControlComplete_8 : ∃ (n data : Nat), ∃ u : State, asleep u = false ∧ pathPresent u n = true ∧
    flag (countCfg u 1) (F.RXP_CTRL_EN n) = false ∧ bitAt data 0 = true :=
  ⟨63, 1, live, by decide +kernel⟩

theorem witness_PathControlComplete_9 : ∃ (n data : Nat), ∃ u : State, asleep u = false ∧ pathPresent u n = true ∧
    flag (countCfg u 1) (F.RXP_CTRL_EN n) = true ∧ bitAt data 0 = false :=
  ⟨63, 0, (put live [(F.RXP_CTRL_EN 63, 1)]), by decide +kernel⟩

theorem witness_ReceiveLoopsComplete_1 : ∃ n : Nat, ∃ u : State, ∃ w, ∃ a, w = dcWindow u n ∧ a = u.time.tick - w ∧ rxRuns u n = true ∧
    (rxPath u n).resetAt = none ∧ u.time.origin + w ≤ u.time.tick ∧ (a - u.time.origin) % w = 0 ∧ (rxPath u n).windowFrom ≤ a ∧
    (frozenIn u n a u.time.tick = true ∨ ∃ m ∈ (rxPath u n).spoilt, a < m ∧ m < u.time.tick) :=
  ⟨63, (put live [(F.RXP_CTRL_EN 63, 1), (F.RXP_DC_CTRL_FREEZE 63, 2)]), 32768, (9830400 - 32768), by decide +kernel⟩

theorem witness_ReceiveLoopsComplete_2 : ∃ n : Nat, ∃ u : State, ∃ w, ∃ a, w = dcWindow u n ∧ a = u.time.tick - w ∧ rxRuns u n = true ∧
    (rxPath u n).resetAt = none ∧ u.time.origin + w ≤ u.time.tick ∧ (a - u.time.origin) % w = 0 ∧ (rxPath u n).windowFrom ≤ a ∧
    frozenIn u n a u.time.tick = false ∧ (∀ m ∈ (rxPath u n).spoilt, m ≤ a ∨ u.time.tick ≤ m) :=
  ⟨63, (put live [(F.RXP_CTRL_EN 63, 1), (F.RXP_DC_CTRL_FREEZE 63, 1)]), 32768, (9830400 - 32768), by decide +kernel⟩

theorem witness_ReceiveLoopsComplete_3 : ∃ n : Nat, ∃ u : State, ∃ w, (rxPath u n).resetAt = some w ∧ w ≤ u.time.tick :=
  ⟨63, { live with rx := List.replicate 63 default ++ [{ (default : RxPath) with resetAt := some 9830400 }] }, 9830400, by decide +kernel⟩

theorem witness_ReceiveLoopsComplete_4 : ∃ n : Nat, ∃ u : State, ∃ gain, ∃ tick, pathPresent u n = true ∧
    flag u (F.RXP_GAIN_AUTO n) = true ∧ fwRunning u = true ∧ gain ≤ 30 ∧ gainTickGood u n tick = true :=
  ⟨63, (put (logged live) [(F.RXP_CTRL_EN 63, 1), (F.RXP_GAIN_AUTO 63, 1)]), 30, later, by decide +kernel⟩

theorem witness_DownlinkPacketIsTested_1 : ∃ (u v : State), ∃ p : DlArrival, ∃ rest : List DlArrival, ∃ x : Stream, ∃ c0 : Carrier,
    ∃ c : Carrier, v = { u with arrivals := rest } ∧ u.arrivals = p :: rest ∧ streamAt u p.stream = some x ∧
    carrierAt u x.carrier = some c0 ∧ c = settingsFor v x.carrier c0 p.first ∧ packetTest v c x p.first p.arrival = 1 :=
  ⟨{ withMate live with streams := [(0, { str 0 with slots := [] })], arrivals := [{ stream := 0, first := 1023, arrival := 0, data := [] }] },
   { ({ withMate live with streams := [(0, { str 0 with slots := [] })], arrivals := [{ stream := 0, first := 1023, arrival := 0, data := [] }] }) with arrivals := [] },
   { stream := 0, first := 1023, arrival := 0, data := [] }, [], { str 0 with slots := [] }, car, car, rfl, by decide +kernel⟩

theorem witness_DownlinkPacketIsTested_2 : ∃ (u v : State), ∃ p : DlArrival, ∃ rest : List DlArrival, ∃ x : Stream, ∃ c0 : Carrier,
    ∃ c : Carrier, v = { u with arrivals := rest } ∧ u.arrivals = p :: rest ∧ streamAt u p.stream = some x ∧
    carrierAt u x.carrier = some c0 ∧ c = settingsFor v x.carrier c0 p.first ∧ packetTest v c x p.first p.arrival = 2 :=
  ⟨{ withMate live with streams := [(0, { str 0 with slots := [] })], arrivals := [{ stream := 0, first := 1073741824, arrival := 0, data := [] }] },
   { ({ withMate live with streams := [(0, { str 0 with slots := [] })], arrivals := [{ stream := 0, first := 1073741824, arrival := 0, data := [] }] }) with arrivals := [] },
   { stream := 0, first := 1073741824, arrival := 0, data := [] }, [], { str 0 with slots := [] }, car, car, rfl, by decide +kernel⟩

theorem witness_DownlinkPacketIsTested_3 : ∃ (u v : State), ∃ p : DlArrival, ∃ rest : List DlArrival, ∃ x : Stream, ∃ c0 : Carrier,
    ∃ c : Carrier, v = { u with arrivals := rest } ∧ u.arrivals = p :: rest ∧ streamAt u p.stream = some x ∧
    carrierAt u x.carrier = some c0 ∧ c = settingsFor v x.carrier c0 p.first ∧ packetTest v c x p.first p.arrival = 3 :=
  ⟨{ withMate live with streams := [(0, { str 0 with slots := [] })], arrivals := [{ stream := 0, first := 0, arrival := 9830400, data := [] }] },
   { ({ withMate live with streams := [(0, { str 0 with slots := [] })], arrivals := [{ stream := 0, first := 0, arrival := 9830400, data := [] }] }) with arrivals := [] },
   { stream := 0, first := 0, arrival := 9830400, data := [] }, [], { str 0 with slots := [] }, car, car, rfl, by decide +kernel⟩

theorem witness_DownlinkPacketIsTested_4 : ∃ (u v : State), ∃ p : DlArrival, ∃ rest : List DlArrival, ∃ x : Stream, ∃ c0 : Carrier,
    ∃ c : Carrier, v = { u with arrivals := rest } ∧ u.arrivals = p :: rest ∧ streamAt u p.stream = some x ∧
    carrierAt u x.carrier = some c0 ∧ c = settingsFor v x.carrier c0 p.first ∧ packetTest v c x p.first p.arrival = 4 :=
  ⟨{ withMate live with streams := [(0, { str 0 with slots := [{ first := 2048, k := 1, grid := 0, written := true, late := false, dropped := false, decided := none, required := 0, echoed := false, data := [] }] })], arrivals := [{ stream := 0, first := 2048, arrival := 0, data := [] }] },
   { ({ withMate live with streams := [(0, { str 0 with slots := [{ first := 2048, k := 1, grid := 0, written := true, late := false, dropped := false, decided := none, required := 0, echoed := false, data := [] }] })], arrivals := [{ stream := 0, first := 2048, arrival := 0, data := [] }] }) with arrivals := [] },
   { stream := 0, first := 2048, arrival := 0, data := [] }, [], { str 0 with slots := [{ first := 2048, k := 1, grid := 0, written := true, late := false, dropped := false, decided := none, required := 0, echoed := false, data := [] }] },
   car, car, rfl, by decide +kernel⟩

theorem witness_DownlinkPacketIsTested_5 : ∃ (u v : State), ∃ p : DlArrival, ∃ rest : List DlArrival, ∃ x : Stream, ∃ c0 : Carrier,
    ∃ c : Carrier, v = { u with arrivals := rest } ∧ u.arrivals = p :: rest ∧ streamAt u p.stream = some x ∧
    carrierAt u x.carrier = some c0 ∧ c = settingsFor v x.carrier c0 p.first ∧ packetTest v c x p.first p.arrival = 0 :=
  ⟨{ withMate live with streams := [(0, { str 0 with slots := [] })], arrivals := [{ stream := 0, first := 2048, arrival := 0, data := [] }] },
   { ({ withMate live with streams := [(0, { str 0 with slots := [] })], arrivals := [{ stream := 0, first := 2048, arrival := 0, data := [] }] }) with arrivals := [] },
   { stream := 0, first := 2048, arrival := 0, data := [] }, [], { str 0 with slots := [] }, car, car, rfl, by decide +kernel⟩

theorem witness_SlotEventsComplete_1 : ∃ (j n : Nat), ∃ u : State, ∃ x : Stream, ∃ c0 : Carrier, ∃ c : Carrier, streamAt u j = some x ∧
    carrierAt u x.carrier = some c0 ∧ c = (carrierAhead u x.carrier c0).atTick n ∧ x.dir = 0 ∧ x.orphan = none ∧
    skippedSlot (carrierAhead u x.carrier c0) c n = false ∧ (slotAt x c n).decided = none ∧ c.grid ≤ n ∧ (n - c.grid) % (1024 * c.k) = 0 ∧
    slotReadOut c n ≤ u.time.tick :=
  ⟨0, 0, (withStr live 0), (str 0), car, car, by decide +kernel⟩

theorem witness_SlotEventsComplete_2 : ∃ (j n : Nat), ∃ u : State, ∃ x : Stream, ∃ c0 : Carrier, ∃ c : Carrier, ∃ y,
    streamAt u j = some x ∧ carrierAt u x.carrier = some c0 ∧ c = (carrierAhead u x.carrier c0).atTick n ∧ x.orphan = none ∧
    x.slots.find? (fun z => z.first = n && echoDue u z) = some y :=
  ⟨0, 0, { withStr live 0 with streams := [(0, { str 0 with slots := [{ first := 0, k := 1, grid := 0, written := true, late := false, dropped := false, decided := some 0, required := 1, echoed := false, data := [] }] })] },
   { str 0 with slots := [{ first := 0, k := 1, grid := 0, written := true, late := false, dropped := false, decided := some 0, required := 1, echoed := false, data := [] }] },
   car, car, { first := 0, k := 1, grid := 0, written := true, late := false, dropped := false, decided := some 0, required := 1, echoed := false, data := [] },
   by decide +kernel⟩

theorem witness_SlotEventsComplete_3 : ∃ (j n : Nat), ∃ u : State, ∃ x : Stream, ∃ c0 : Carrier, ∃ c : Carrier, streamAt u j = some x ∧
    carrierAt u x.carrier = some c0 ∧ c = (carrierAhead u x.carrier c0).atTick n ∧ u.time.tick % 9830400 = 0 :=
  ⟨0, 0, (withStr live 0), (str 0), car, car, by decide +kernel⟩

theorem witness_SlotEventsComplete_4 : ∃ (j n : Nat), ∃ u : State, ∃ x : Stream, ∃ c0 : Carrier, ∃ c : Carrier, streamAt u j = some x ∧
    carrierAt u x.carrier = some c0 ∧ c = (carrierAhead u x.carrier c0).atTick n ∧ (u.time.tick - u.time.origin) % 16384 = 0 ∧
    isActive u = true :=
  ⟨0, 0, (withStr live 0), (str 0), car, car, by decide +kernel⟩

theorem witness_UplinkAndSendingComplete_1 : ∃ (j n : Nat), ∃ u : State, ∃ x : Stream, ∃ c : Carrier, ∃ (pip q : Nat), ∃ reduced : Bool,
    ∃ data : List Sample, streamAt u j = some x ∧ ulCarrier u x n = some c ∧ isMember u = false ∧ x.orphan = none ∧
    (streamPartner u x).isSome = true ∧ slotReady u x c n q = true ∧ (combines u = false → q = slotDone c n ∧
    u.casc.combined.find? (fun y => y.stream = j && y.slot = n) = none ∧ pip = ulPips u x c n ∧ reduced = false ∧
    data = slotSamples u x c n fun r => ulLayer u x.carrier c x.layer r) ∧ (combines u = true → (∃ y,
    u.casc.combined.find? (fun y => y.stream = j && y.slot = n) = some y ∧ q = y.queueAt ∧ pip = y.pip ∧ reduced = y.reduced) ∧
    data = slotSamples u x c n fun r => arrayLayer u j x.carrier c x.layer n r) :=
  ⟨64, 0, { withStr live 1 with carriers := [(0, { car with dir := 2 })] }, (str 1), { car with dir := 2 },
   (ulPips ({ withStr live 1 with carriers := [(0, { car with dir := 2 })] }) (str 1) { car with dir := 2 } 0),
   (slotDone { car with dir := 2 } 0), false, (slotSamples ({ withStr live 1 with carriers := [(0, { car with dir := 2 })] }) (str 1) { car with dir := 2 } 0 fun r => ulLayer ({ withStr live 1 with carriers := [(0, { car with dir := 2 })] }) 0 { car with dir := 2 } 0 r),
   by decide +kernel⟩

theorem witness_UplinkAndSendingComplete_2 : ∃ u : State, ∃ q, ∃ x, portUp u q = true ∧
    nextQueued (Sys2Proof.Machine.port u q).queue = some x ∧ mayStart u q x.pkt = true ∧ u.time.now ≤ x.since + 32768 ∧ x.q = none ∧
    x.pkt.type ≠ 4 :=
  ⟨(put (withPorts live { PortSt.start with queue := [(queued 2 (9830400 - 32768))] } PortSt.start PortSt.start) [(F.LN_PORT_STATUS_UP 0, 1), (F.LN_PORT_STATUS_IN_USE 0, 1)]),
   0, (queued 2 (9830400 - 32768)), by decide +kernel⟩

theorem witness_UplinkAndSendingComplete_3 : ∃ u : State, ∃ q, ∃ x, portUp u q = true ∧
    nextQueued (Sys2Proof.Machine.port u q).queue = some x ∧ mayStart u q x.pkt = true ∧ u.time.now ≤ x.since + 32768 ∧ x.q = none ∧
    x.pkt.type = 4 :=
  ⟨(put (withPorts live { PortSt.start with queue := [(queued 4 (9830400 - 32768))] } PortSt.start PortSt.start) [(F.LN_PORT_STATUS_UP 0, 1), (F.LN_PORT_STATUS_IN_USE 0, 1)]),
   0, (queued 4 (9830400 - 32768)), by decide +kernel⟩

theorem witness_UplinkAndSendingComplete_4 : ∃ u : State, ∃ q, ∃ x, ∃ m, portUp u q = true ∧
    nextQueued (Sys2Proof.Machine.port u q).queue = some x ∧ mayStart u q x.pkt = true ∧ u.time.now ≤ x.since + 32768 ∧ x.q = some m ∧
    u.time.now ≤ m + ulAllow u ∧ x.pkt.type ≠ 4 :=
  ⟨(put (withPorts live { PortSt.start with queue := [{ queued 5 (9830400 - 32768) with q := some 9830400 }] } PortSt.start PortSt.start) [(F.LN_PORT_STATUS_UP 0, 1), (F.LN_PORT_STATUS_IN_USE 0, 1)]),
   0, { queued 5 (9830400 - 32768) with q := some 9830400 }, 9830400, by decide +kernel⟩

theorem witness_UplinkAndSendingComplete_5 : ∃ u : State, ∃ q, ∃ x,
    (Sys2Proof.Machine.port u q).queue.find? (fun y => decide (y.since + 32768 < u.time.now)) = some x :=
  ⟨(withPorts live { PortSt.start with queue := [queued 2 (9830400 - 32769)] } PortSt.start PortSt.start), 0, (queued 2 (9830400 - 32769)),
   by decide +kernel⟩

theorem witness_ActivationsAndSwapsTakeEffect_1 : ∃ u : State, ∃ p, u.power.phase = .run ∧ dueAct u = some p :=
  ⟨{ live with acts := [{ id := 1, cmd := cmd 0x21 1 0 9830400 [], tick := 9830400, keys := [], src := [] }] }, { id := 1, cmd := cmd 0x21 1 0 9830400 [], tick := 9830400, keys := [], src := [] },
   by decide +kernel⟩

theorem witness_ActivationsAndSwapsTakeEffect_2 : ∃ u : State, u.power.phase ≠ .run :=
  ⟨(powered live fun p => { p with phase := .low, link := true }), by decide +kernel⟩

theorem witness_ActivationsAndSwapsTakeEffect_3 : ∃ p : Pending, ∃ q : Pending, p.cmd.opcode < 256 ∧ (p.keys.headD (0, 0,
    0)).2.1 < 2 ^ 32 ∧ (p.keys.headD (0, 0, 0)).2.2 < 2 ^ 16 ∧ p.tick < q.tick :=
  ⟨{ id := 1, cmd := cmd 0x21 1 0 later [], tick := 1, keys := [], src := [] }, { id := 1, cmd := cmd 0x21 1 0 later [], tick := later, keys := [], src := [] },
   by decide +kernel⟩

theorem witness_ActivationsAndSwapsTakeEffect_4 : ∃ u : State, ∃ x,
    (sortBy (fun y => y.tick) (u.swaps.filter fun y => y.tick ≤ u.time.tick)).head? = some x ∧ x.kind = 0 :=
  ⟨{ live with swaps := [{ coarse := false, path := 0, kind := 0, bin := 0, tick := 9830400, seq := 0, block := [] }] }, { coarse := false, path := 0, kind := 0, bin := 0, tick := 9830400, seq := 0, block := [] },
   by decide +kernel⟩

theorem witness_ActivationsAndSwapsTakeEffect_5 : ∃ u : State, ∃ x,
    (sortBy (fun y => y.tick) (u.swaps.filter fun y => y.tick ≤ u.time.tick)).head? = some x ∧ x.kind ≠ 0 :=
  ⟨{ live with swaps := [{ coarse := false, path := 0, kind := 2, bin := 0, tick := 9830400, seq := 0, block := [] }] }, { coarse := false, path := 0, kind := 2, bin := 0, tick := 9830400, seq := 0, block := [] },
   by decide +kernel⟩

theorem witness_ActivationsAndSwapsTakeEffect_7 : ∃ u : State, ∃ path, ∃ gain, ∃ tick, pathPresent u path = true ∧
    flag u (F.RXP_GAIN_AUTO path) = true ∧ fwRunning u = true ∧ gain ≤ 30 ∧ gainTickGood u path tick = true ∧ tickValid u = true ∧
    u.time.tick + 24576 ≤ tick ∧ tick < u.time.tick + 2 ^ 34 ∧ conflicts u tick [(0x21, path, 0)] = false ∧ logRefusal u = none ∧
    adaptEventRoom u = true :=
  ⟨(put (logged live) [(F.RXP_CTRL_EN 63, 1), (F.RXP_GAIN_AUTO 63, 1)]), 63, 30, (9830400 + 24576), by decide +kernel⟩

theorem witness_ClocksComplete_1 : ∃ u : State, asleep u = false :=
  ⟨live, by decide +kernel⟩

theorem witness_ClocksComplete_2 : ∃ data : Nat, ∃ u : State, asleep u = false ∧ flag (countCfg u 1) F.TIME_CLK_CTRL_ROOT_EN = true ∧
    bitAt data 0 = false ∧ bitAt data 1 = true :=
  ⟨2, live, by decide +kernel⟩

theorem witness_ClocksComplete_3 : ∃ u : State, flag u F.TIME_CLK_CTRL_ROOT_EN = true ∧ u.time.counting = false ∧ asleep u = false :=
  ⟨{ live with time := { live.time with counting := false } }, by decide +kernel⟩

theorem witness_ClocksComplete_4 : ∃ u : State, flag u F.TIME_CLK_CTRL_LANE_EN = true ∧ u.time.counting = true ∧ u.time.laneUp = false :=
  ⟨{ live with time := { live.time with laneUp := false } }, by decide +kernel⟩

theorem witness_ClocksComplete_5 : ∃ u : State, flag u F.TIME_CLK_STATUS_ROOT_LOCK = true :=
  ⟨live, by decide +kernel⟩

theorem witness_ClocksComplete_6 : ∃ u : State, flag u F.TIME_CLK_STATUS_LANE_LOCK = true :=
  ⟨live, by decide +kernel⟩

theorem witness_ClocksComplete_7 : ∃ u : State, u.time.counting = true ∧ flag u F.TIME_CLK_CTRL_ROOT_EN = true :=
  ⟨live, by decide +kernel⟩

theorem witness_ClocksComplete_8 : ∃ u : State, u.time.laneUp = true ∧ flag u F.TIME_CLK_CTRL_LANE_EN = true :=
  ⟨live, by decide +kernel⟩

theorem witness_SyncCommandsComplete_1 : ∃ u : State, asleep u = false :=
  ⟨live, by decide +kernel⟩

theorem witness_SyncCommandsComplete_2 : ∃ u : State, u.time.counting = true ∧ onRefclk u = true ∧ getF u F.TIME_SYNC_CTRL_OUT_MODE ≠ 1 :=
  ⟨(put live [(F.TIME_SYNC_CTRL_MODE, 1), (F.TIME_SYNC_CTRL_ARMED, 1)]), by decide +kernel⟩

theorem witness_SyncCommandsComplete_3 : ∃ u : State, u.time.counting = true ∧ onRefclk u = true ∧ getF u F.TIME_SYNC_CTRL_OUT_MODE = 1 :=
  ⟨(put live [(F.TIME_SYNC_CTRL_OUT_MODE, 1)]), by decide +kernel⟩

theorem witness_SyncCommandsComplete_4 : ∃ u : State, u.time.counting = false :=
  ⟨{ live with time := { live.time with counting := false } }, by decide +kernel⟩

theorem witness_SyncCommandsComplete_5 : ∃ u : State, ∃ c, dueSync u false = some c :=
  ⟨{ live with time := { live.time with syncs := [{ check := false, value := 5, loadAt := 9830400 }] } }, { check := false, value := 5, loadAt := 9830400 },
   by decide +kernel⟩

theorem witness_SyncCommandsComplete_6 : ∃ u : State, ∃ c,
    let diff : Int := (c.value : Int) - ((u.time.tick : Int) - ((u.time.now - c.loadAt : Nat) : Int)); dueSync u true = some c ∧ diff = 0 :=
  ⟨{ live with time := { live.time with syncs := [{ check := true, value := 9830400, loadAt := 9830400 }] } }, { check := true, value := 9830400, loadAt := 9830400 },
   by decide +kernel⟩

theorem witness_SyncCommandsComplete_7 : ∃ u : State, ∃ c,
    let diff : Int := (c.value : Int) - ((u.time.tick : Int) - ((u.time.now - c.loadAt : Nat) : Int)); dueSync u true = some c ∧ diff ≠ 0 :=
  ⟨{ live with time := { live.time with syncs := [{ check := true, value := 9830401, loadAt := 9830400 }] } }, { check := true, value := 9830401, loadAt := 9830400 },
   by decide +kernel⟩

theorem witness_SyncCommandsComplete_8 : ∃ u : State, u.time.counting = true ∧ getF u F.TIME_SYNC_CTRL_OUT_MODE = 2 ∧
    u.time.tick = get64 u A.TIME_SYNC_OUT_TICK A.TIME_SYNC_OUT_TICK_1 ∧ u.time.tick < 2 ^ 64 - 1 :=
  ⟨(set64 (put live [(F.TIME_SYNC_CTRL_OUT_MODE, 2)]) A.TIME_SYNC_OUT_TICK A.TIME_SYNC_OUT_TICK_1 9830400), by decide +kernel⟩

theorem witness_AppliedSyncStartsAnew_1 : ∃ (value old : Nat), value < 2 ^ 64 ∧ old < 2 ^ 64 :=
  ⟨2 ^ 64 - 1, 2 ^ 64 - 1, by decide +kernel⟩

theorem witness_AppliedSyncStartsAnew_2 : ∃ u : State, ∃ (value old : Nat), ∃ x, let v := applySync u value old 0; value < 2 ^ 64 ∧
    old < 2 ^ 64 ∧ x ∈ v.streams :=
  ⟨(withStr live 0), 2 ^ 64 - 1, 2 ^ 64 - 1, ((applySync (withStr live 0) (2 ^ 64 - 1) (2 ^ 64 - 1) 0).streams.getD 0 (0, str 0)),
   by decide +kernel⟩

theorem witness_AppliedSyncStartsAnew_3 : ∃ u : State, ∃ (value old : Nat), ∃ x, let v := applySync u value old 0; value < 2 ^ 64 ∧
    old < 2 ^ 64 ∧ x ∈ v.carriers :=
  ⟨(withStr live 0), 2 ^ 64 - 1, 2 ^ 64 - 1, ((applySync (withStr live 0) (2 ^ 64 - 1) (2 ^ 64 - 1) 0).carriers.getD 0 (0, car)),
   by decide +kernel⟩

theorem witness_PatternCommandsComplete_1 : ∃ c : Cmd, ∃ u : State, ∃ f : Flight, mayRun u 0x2D c [] f ∧ p8 c 16 ≤ 1 ∧
    tddSwapGood u (p8 c 16) c.actTick = true ∧ inWindow u c f [(0x2D, 0, 0)] :=
  ⟨(cmd 0x2D 1 0 (9830400 + 983040) [(16, 0)]), (withCmd (tdd live) (cmd 0x2D 1 0 (9830400 + 983040) [(16, 0)])),
   (fly (cmd 0x2D 1 0 (9830400 + 983040) [(16, 0)])), by decide +kernel⟩

theorem witness_PatternCommandsComplete_2 : ∃ c : Cmd, ∃ u : State, ∃ f : Flight, mayRun u 0x2D c [] f ∧
    tddSwapGood u (p8 c 16) c.actTick = false :=
  ⟨(cmd 0x2D 1 0 (9830400 + 983041) [(16, 0)]), (withCmd (tdd live) (cmd 0x2D 1 0 (9830400 + 983041) [(16, 0)])),
   (fly (cmd 0x2D 1 0 (9830400 + 983041) [(16, 0)])), by decide +kernel⟩

theorem witness_PatternCommandsComplete_3 : ∃ u : State, flag u F.TIME_TDD_CTRL_ENABLE = true ∧ tickValid u = true ∧
    flag u F.TIME_TDD_CTRL_RUNNING = false ∧ bankValid u 0 = true ∧ u.time.tick % period u 0 = 0 :=
  ⟨(put (tdd live) [(F.TIME_TDD_CTRL_ENABLE, 1)]), by decide +kernel⟩

theorem witness_PatternCommandsComplete_4 : ∃ u : State, ∃ b, runningBank u = some b ∧
    (flag u F.TIME_TDD_CTRL_ENABLE && tickValid u && bankValid u b) = false :=
  ⟨(put (tdd live) [(F.TIME_TDD_CTRL_RUNNING, 1)]), 0, by decide +kernel⟩

theorem witness_PatternCommandsComplete_6 : ∃ u : State, ∃ b, ∃ e, asleep u = false ∧ b < 2 ∧ e < 64 :=
  ⟨live, 1, 63, by decide +kernel⟩

theorem witness_CommandRingEventsComplete_1 : ∃ u : State, u.power.phase = .run ∧ pollRuns u = false ∧
    (u.host.kick = true ∨ u.host.lastPoll + pollTicks u ≤ u.time.now) :=
  ⟨{ live with host := { live.host with kick := true } }, rfl, by decide +kernel, .inl rfl⟩

theorem witness_CommandRingEventsComplete_2 : ∃ u : State, u.power.phase = .run :=
  ⟨live, by decide +kernel⟩

theorem witness_CommandRingEventsComplete_3 : ∃ r : Nat, ∃ u : State, ∃ pi, cmdEnabled u r = true ∧ (cmdRing u r).piOut = true ∧
    (cmdRing u r).piStale = false ∧ pi < 2 ^ 32 ∧
    (pi + 2 ^ 32 - (cmdRing (modCmdRing u r fun g => { g with piOut := false }) r).ci) % 2 ^ 32 ≤ cmdSize u r :=
  ⟨15, (put (withRing live { (default : CmdRing) with piOut := true, ci := 2 ^ 32 - 1 }) [(F.HOST_CMDR_CTRL_ENABLE 15, 1), (F.HOST_CMDR_CTRL_LOG2_SIZE 15, 6)]),
   63, by decide +kernel⟩

theorem witness_CommandRingEventsComplete_4 : ∃ r : Nat, ∃ u : State, ∃ pi, cmdEnabled u r = true ∧ (cmdRing u r).piOut = true ∧
    (cmdRing u r).piStale = false ∧ pi < 2 ^ 32 ∧
    cmdSize u r < (pi + 2 ^ 32 - (cmdRing (modCmdRing u r fun g => { g with piOut := false }) r).ci) % 2 ^ 32 :=
  ⟨15, (put (withRing live { (default : CmdRing) with piOut := true, ci := 2 ^ 32 - 1 }) [(F.HOST_CMDR_CTRL_ENABLE 15, 1), (F.HOST_CMDR_CTRL_LOG2_SIZE 15, 6)]),
   64, by decide +kernel⟩

theorem witness_CommandRingEventsComplete_5 : ∃ r : Nat, ∃ u : State, (cmdRing u r).piOut = true ∧
    (cmdRing u r).piStale = true ∨ cmdEnabled u r = false :=
  ⟨15, (put (withRing live { (default : CmdRing) with piOut := true, piStale := true }) [(F.HOST_CMDR_CTRL_ENABLE 15, 1), (F.HOST_CMDR_CTRL_LOG2_SIZE 15, 6)]),
   by decide +kernel⟩

theorem witness_CommandRingEventsComplete_6 : ∃ r : Nat, ∃ u : State, ∃ l : List Byte, ∃ index, ∃ f,
    (cmdRing u r).fetches.find? (fun x => x.index = index && 64 * x.count = l.length) = some f ∧ f.discard = false :=
  ⟨15, (put (withRing live { (default : CmdRing) with fetches := [{ index := 2 ^ 32 - 1, count := 1, discard := false, at' := 9830400 }] }) [(F.HOST_CMDR_CTRL_ENABLE 15, 1), (F.HOST_CMDR_CTRL_LOG2_SIZE 15, 6)]),
   (List.replicate 64 0), (2 ^ 32 - 1), { index := 2 ^ 32 - 1, count := 1, discard := false, at' := 9830400 }, by decide +kernel⟩

theorem witness_CommandRingEventsComplete_7 : ∃ r : Nat, ∃ u : State, ∃ l : List Byte, ∃ index, ∃ f,
    (cmdRing u r).fetches.find? (fun x => x.index = index && 64 * x.count = l.length) = some f ∧ f.discard = true :=
  ⟨15, (put (withRing live { (default : CmdRing) with fetches := [{ index := 7, count := 0, discard := true, at' := 9830400 }] }) [(F.HOST_CMDR_CTRL_ENABLE 15, 1), (F.HOST_CMDR_CTRL_LOG2_SIZE 15, 6)]),
   [], 7, { index := 7, count := 0, discard := true, at' := 9830400 }, by decide +kernel⟩

theorem witness_OutputRingEventsComplete_1 : ∃ u : State, ∃ (type n data : Nat), ∃ r : Nat, ∃ e : Ev,
    r = bitsOf (getN u A.HOST_EVT_ROUTE) (2 * (type / 16)) 2 ∧ e = { ring := r, seq := (outRing u 2 r).seq, type := type, cls := type / 16, tick := n, tickOk := tickValid u, data := data } ∧
    outEnabled u 2 r = false :=
  ⟨live, 0x31, 0, 0, 0, { ring := 0, seq := 0, type := 0x31, cls := 3, tick := 0, tickOk := true, data := 0 }, by decide +kernel⟩

theorem witness_OutputRingEventsComplete_2 : ∃ u : State, ∃ (type n data : Nat), ∃ r : Nat, ∃ e : Ev,
    let waits := outFull u 2 r = true ∨ ∃ x ∈ u.host.evq, x.ring = r; r = bitsOf (getN u A.HOST_EVT_ROUTE) (2 * (type / 16)) 2 ∧
    e = { ring := r, seq := (outRing u 2 r).seq, type := type, cls := type / 16, tick := n, tickOk := tickValid u, data := data } ∧
    outEnabled u 2 r = true ∧ r < u.host.evRings.length ∧ (outRing u 2 r).lost = 0 ∧ ¬waits :=
  ⟨(put live [(F.HOST_EVR_CTRL_ENABLE 0, 1), (F.HOST_EVR_CTRL_LOG2_SIZE 0, 8)]), 0x31, 0, 0, 0, { ring := 0, seq := 0, type := 0x31, cls := 3, tick := 0, tickOk := true, data := 0 },
   by decide +kernel⟩

theorem witness_OutputRingEventsComplete_3 : ∃ u : State, ∃ (type n data : Nat), ∃ r : Nat, ∃ e : Ev,
    let waits := outFull u 2 r = true ∨ ∃ x ∈ u.host.evq, x.ring = r; r = bitsOf (getN u A.HOST_EVT_ROUTE) (2 * (type / 16)) 2 ∧
    e = { ring := r, seq := (outRing u 2 r).seq, type := type, cls := type / 16, tick := n, tickOk := tickValid u, data := data } ∧
    outEnabled u 2 r = true ∧ r < u.host.evRings.length ∧ (outRing u 2 r).lost = 0 ∧ waits ∧ u.host.evq.length < 256 :=
  ⟨{ ((put live [(F.HOST_EVR_CTRL_ENABLE 0, 1), (F.HOST_EVR_CTRL_LOG2_SIZE 0, 8)]) : State) with host := { ((put live [(F.HOST_EVR_CTRL_ENABLE 0, 1), (F.HOST_EVR_CTRL_LOG2_SIZE 0, 8)]) : State).host with evq := [{ ring := 0, seq := 0, type := 0x31, cls := 3, tick := 0, tickOk := true, data := 0 }] } },
   0x31, 0, 0, 0, { ring := 0, seq := 0, type := 0x31, cls := 3, tick := 0, tickOk := true, data := 0 }, by decide +kernel⟩

theorem witness_OutputRingEventsComplete_4 : ∃ u : State, ∃ (type n data : Nat), ∃ r : Nat, ∃ e : Ev,
    let waits := outFull u 2 r = true ∨ ∃ x ∈ u.host.evq, x.ring = r; r = bitsOf (getN u A.HOST_EVT_ROUTE) (2 * (type / 16)) 2 ∧
    e = { ring := r, seq := (outRing u 2 r).seq, type := type, cls := type / 16, tick := n, tickOk := tickValid u, data := data } ∧
    outEnabled u 2 r = true ∧ r < u.host.evRings.length ∧ (outRing u 2 r).lost = 0 ∧ waits ∧ 256 ≤ u.host.evq.length :=
  ⟨{ ((put live [(F.HOST_EVR_CTRL_ENABLE 0, 1), (F.HOST_EVR_CTRL_LOG2_SIZE 0, 8)]) : State) with host := { ((put live [(F.HOST_EVR_CTRL_ENABLE 0, 1), (F.HOST_EVR_CTRL_LOG2_SIZE 0, 8)]) : State).host with evq := (List.replicate 256 { ring := 0, seq := 0, type := 0x31, cls := 3, tick := 0, tickOk := true, data := 0 }) } },
   0x31, 0, 0, 0, { ring := 0, seq := 0, type := 0x31, cls := 3, tick := 0, tickOk := true, data := 0 }, by decide +kernel⟩

theorem witness_OutputRingEventsComplete_5 : ∃ u : State, ∃ (type n data : Nat), ∃ r : Nat, ∃ e : Ev,
    let waits := outFull u 2 r = true ∨ ∃ x ∈ u.host.evq, x.ring = r; r = bitsOf (getN u A.HOST_EVT_ROUTE) (2 * (type / 16)) 2 ∧
    e = { ring := r, seq := (outRing u 2 r).seq, type := type, cls := type / 16, tick := n, tickOk := tickValid u, data := data } ∧
    outEnabled u 2 r = true ∧ r < u.host.evRings.length ∧ 0 < (outRing u 2 r).lost ∧ waits ∧ 256 ≤ u.host.evq.length :=
  ⟨{ ((modOutRing (put live [(F.HOST_EVR_CTRL_ENABLE 0, 1), (F.HOST_EVR_CTRL_LOG2_SIZE 0, 8)]) 2 0 fun o => { o with lost := 1 }) : State) with host := { ((modOutRing (put live [(F.HOST_EVR_CTRL_ENABLE 0, 1), (F.HOST_EVR_CTRL_LOG2_SIZE 0, 8)]) 2 0 fun o => { o with lost := 1 }) : State).host with evq := (List.replicate 256 { ring := 0, seq := 0, type := 0x31, cls := 3, tick := 0, tickOk := true, data := 0 }) } },
   0x31, 0, 0, 0, { ring := 0, seq := 0, type := 0x31, cls := 3, tick := 0, tickOk := true, data := 0 }, by decide +kernel⟩

theorem witness_OutputRingEventsComplete_6 : ∃ u : State, ∃ (type n data : Nat), ∃ r : Nat, ∃ e : Ev,
    let waits := outFull u 2 r = true ∨ ∃ x ∈ u.host.evq, x.ring = r; let x : Ev := { e with type := 0x0002, cls := 0, tick := u.time.tick, data := evData [(16, 4, (outRing u 2 r).lost), (20, 1, r)] };
    r = bitsOf (getN u A.HOST_EVT_ROUTE) (2 * (type / 16)) 2 ∧ e = { ring := r, seq := (outRing u 2 r).seq, type := type, cls := type / 16, tick := n, tickOk := tickValid u, data := data } ∧
    outEnabled u 2 r = true ∧ r < u.host.evRings.length ∧ 0 < (outRing u 2 r).lost ∧ (¬waits ∨ u.host.evq.length < 256) :=
  ⟨(modOutRing (put live [(F.HOST_EVR_CTRL_ENABLE 0, 1), (F.HOST_EVR_CTRL_LOG2_SIZE 0, 8)]) 2 0 fun o => { o with lost := 1 }), 0x31, 0, 0, 0,
   { ring := 0, seq := 0, type := 0x31, cls := 3, tick := 0, tickOk := true, data := 0 }, by decide +kernel⟩

theorem witness_OutputRingEventsComplete_7 : ∃ r : Nat, ∃ u : State, ∃ ci, outEnabled u 1 r = true ∧ (outRing u 1 r).ciOut = true ∧
    (outRing u 1 r).ciStale = false ∧ ci < 2 ^ 32 :=
  ⟨15,
   (put { live with host := { live.host with cplRings := List.replicate 15 default ++ [{ (default : OutRing) with ciOut := true }] } } [(F.HOST_CQR_CTRL_ENABLE 15, 1)]),
   2 ^ 32 - 1, by decide +kernel⟩

theorem witness_OutputRingEventsComplete_8 : ∃ r : Nat, ∃ u : State, ∃ ci, outEnabled u 2 r = true ∧ (outRing u 2 r).ciOut = true ∧
    (outRing u 2 r).ciStale = false ∧ ci < 2 ^ 32 :=
  ⟨3,
   (put { live with host := { live.host with evRings := List.replicate 3 default ++ [{ (default : OutRing) with ciOut := true }] } } [(F.HOST_EVR_CTRL_ENABLE 3, 1)]),
   (2 ^ 32 - 1), by decide +kernel⟩

theorem witness_OutputRingEventsComplete_9 : ∃ r : Nat, ∃ u : State, ∃ c, u.host.due.find? (fun x => x.cq = r) = some c :=
  ⟨15, { live with host := { live.host with due := [{ id := 0, ring := 0, cq := 15, tag := 0, status := 0, final := true, result := 0, tick := 0, tickOk := true }] } },
   { id := 0, ring := 0, cq := 15, tag := 0, status := 0, final := true, result := 0, tick := 0, tickOk := true }, by decide +kernel⟩

theorem witness_OutputRingEventsComplete_10 : ∃ r : Nat, ∃ u : State, outEnabled u 1 r = true :=
  ⟨15, (put live [(F.HOST_CQR_CTRL_ENABLE 15, 1)]), by decide +kernel⟩

theorem witness_OutputRingEventsComplete_11 : ∃ r : Nat, ∃ u : State, outEnabled u 2 r = true :=
  ⟨3, (put live [(F.HOST_EVR_CTRL_ENABLE 3, 1)]), by decide +kernel⟩

theorem witness_OutputRingEventsComplete_12 : ∃ (k r : Nat), ∃ u : State, outEnabled u k r = true ∧ outIrqEn u k r = true ∧
    0 < (outRing u k r).unsignalled ∧ (outRing u k r).firstAt + outModDelay u k r ≤ u.time.now :=
  ⟨2, 3, (put { live with host := { live.host with evRings := List.replicate 3 default ++ [{ (default : OutRing) with unsignalled := 1, firstAt := 9830400 }] } } [(F.HOST_EVR_CTRL_ENABLE 3, 1), (F.HOST_EVR_CTRL_IRQ_EN 3, 1), (F.HOST_EVR_MOD_MOD_DELAY 3, 0)]),
   by decide +kernel⟩

theorem witness_OutputRingEventsComplete_13 : ∃ r : Nat, ∃ u : State, r < 32 ∧ bitAt u.host.msixPend r = true ∧ u.host.msixOn = true ∧
    u.host.msixFunc = false :=
  ⟨31, { live with host := { live.host with msixPend := 2 ^ 31, msixOn := true } }, by decide +kernel⟩

theorem witness_OutputRingEventsComplete_14 : ∃ r : Nat, ∃ u : State, r < 32 ∧
    (bitAt u.host.msixPend r = false ∨ u.host.msixOn = false ∨ u.host.msixFunc = true) :=
  ⟨31, { live with host := { live.host with msixPend := 0, msixOn := true } }, by decide +kernel⟩

theorem witness_PhaseTogglesAtEachWrap_1 : ∃ size, 0 < size :=
  ⟨1, by decide +kernel⟩

theorem witness_PhaseTogglesAtEachWrap_2 : ∃ i, ∃ size, 0 < size ∧ i < size :=
  ⟨0, 1, by decide +kernel⟩

theorem witness_PhaseTogglesAtEachWrap_3 : ∃ u : State, ∃ c : Cpl, c.tag < 2 ^ 16 ∧ c.status < 2 ^ 8 ∧ outBase u 1 c.cq % 64 = 0 :=
  ⟨live, { id := 0, ring := 0, cq := 15, tag := 65535, status := 255, final := true, result := 0, tick := 0, tickOk := true },
   by decide +kernel⟩

theorem witness_PhaseTogglesAtEachWrap_4 : ∃ u : State, ∃ e : Ev, e.type < 2 ^ 16 ∧ outBase u 2 e.ring % 64 = 0 :=
  ⟨live, { ring := 0, seq := 0, type := 65535, cls := 0, tick := 0, tickOk := true, data := 0 }, by decide +kernel⟩

theorem witness_RingControlComplete_1 : ∃ r : Nat, ∃ u : State, asleep u = false ∧ r < 16 :=
  ⟨15, live, by decide +kernel⟩

theorem witness_RingControlComplete_2 : ∃ r : Nat, ∃ u : State, asleep u = false ∧ r < 4 :=
  ⟨3, live, by decide +kernel⟩

theorem witness_RingControlComplete_3 : ∃ u : State, pcieUp u = true ∧ pd2Ready u = true :=
  ⟨live, by decide +kernel⟩

theorem witness_RingControlComplete_4 : ∃ u : State, pcieUp u = true ∧ pd2Ready u = false :=
  ⟨(powered live fun p => { p with phase := .wake, deep := true, passed := 0, link := true }), by decide +kernel⟩

theorem witness_RingControlComplete_5 : ∃ u : State, pcieUp u = false :=
  ⟨(powered live fun p => { p with phase := .low, link := false }), by decide +kernel⟩

theorem witness_RingControlComplete_6 : ∃ r : Nat, ∃ u : State, ∃ abort, cmdEnabled u r = true ∧ (cmdRing u r).piOut = true ∧
    (cmdRing u r).piStale = false ∧ readFailed u abort (cmdRing u r).piAt = true :=
  ⟨15, (put (withRing live { (default : CmdRing) with piOut := true }) [(F.HOST_CMDR_CTRL_ENABLE 15, 1), (F.HOST_CMDR_CTRL_LOG2_SIZE 15, 6)]),
   true, by decide +kernel⟩

theorem witness_RingControlComplete_7 : ∃ r : Nat, ∃ u : State, ∃ f, ∃ tag, ∃ abort, sourceFlight u r tag = some f ∧ f.source.2 ≠ 0 ∧
    readFailed u abort (f.readAt.getD u.time.now) = true ∧ f.cmd.opcode = 0x39 :=
  ⟨0, { live with host := { live.host with flight := [{ fly (cmd 0x39 1 0 later []) with stage := .running, source := (0, 256), readAt := some 0, reads := 1 }] } },
   { fly (cmd 0x39 1 0 later []) with stage := .running, source := (0, 256), readAt := some 0, reads := 1 }, 5, true, by decide +kernel⟩

theorem witness_RingControlComplete_8 : ∃ r : Nat, ∃ u : State, ∃ f, ∃ tag, ∃ abort, sourceFlight u r tag = some f ∧ f.source.2 ≠ 0 ∧
    readFailed u abort (f.readAt.getD u.time.now) = true ∧ f.cmd.opcode = 0x19 :=
  ⟨0, { live with host := { live.host with flight := [{ fly (cmd 0x19 1 0 later []) with stage := .running, source := (0, 256), readAt := some 0, reads := 1 }] } },
   { fly (cmd 0x19 1 0 later []) with stage := .running, source := (0, 256), readAt := some 0, reads := 1 }, 5, true, by decide +kernel⟩

theorem witness_HostAccessesComplete_1 : ∃ x : Sys2Proof.Access, ∃ u : State, pcieUp u = true ∧ asleep u = false ∧ x.w4 = false ∧
    malformed x = true ∧ x.write = true :=
  ⟨{ write := true, w4 := false, addr := 2, len := 4, enables := true, data := 1 }, live, by decide +kernel⟩

theorem witness_HostAccessesComplete_2 : ∃ x : Sys2Proof.Access, ∃ u : State, pcieUp u = true ∧ asleep u = false ∧ x.w4 = false ∧
    malformed x = true ∧ x.write = false :=
  ⟨{ write := false, w4 := false, addr := 0, len := 12, enables := true, data := 1 }, live, by decide +kernel⟩

theorem witness_HostAccessesComplete_3 : ∃ x : Sys2Proof.Access, ∃ u : State, pcieUp u = true ∧ asleep u = false ∧ x.w4 = false ∧
    malformed x = false ∧ x.len = 4 ∧ x.write = true :=
  ⟨{ write := true, w4 := false, addr := 0x3FFFFC, len := 4, enables := true, data := 1 }, live, by decide +kernel⟩

theorem witness_HostAccessesComplete_4 : ∃ x : Sys2Proof.Access, ∃ u : State, pcieUp u = true ∧ asleep u = false ∧ x.w4 = false ∧
    malformed x = false ∧ x.len = 8 ∧ x.write = true ∧ x.data < 2 ^ 64 :=
  ⟨{ write := true, w4 := false, addr := 0x1000, len := 8, enables := true, data := 1 }, live, by decide +kernel⟩

theorem witness_HostAccessesComplete_5 : ∃ u : State, ∃ a, pcieUp u = true ∧ asleep u = false ∧ a ≠ A.HOST_KICK.addr :=
  ⟨live, 0, by decide +kernel⟩

theorem witness_HostAccessesComplete_6 : ∃ x : Sys2Proof.Access, ∃ u : State, pcieUp u = true ∧ asleep u = false ∧ x.w4 = false ∧
    malformed x = false ∧ x.len = 4 ∧ x.write = false :=
  ⟨{ write := false, w4 := false, addr := 0x3FFFFC, len := 4, enables := true, data := 1 }, live, by decide +kernel⟩

theorem witness_HostAccessesComplete_7 : ∃ x : Sys2Proof.Access, ∃ u : State, pcieUp u = true ∧ asleep u = false ∧ x.w4 = false ∧
    malformed x = false ∧ x.len = 8 ∧ x.write = false ∧ asleep (readWord u x.addr).1 = false :=
  ⟨{ write := false, w4 := false, addr := 0x1000, len := 8, enables := true, data := 1 }, live, by decide +kernel⟩

theorem witness_HostAccessesComplete_8 : ∃ x : Sys2Proof.Access, ∃ u : State, pcieUp u = true ∧ asleep u = false ∧ x.w4 = true ∧
    malformed x = true :=
  ⟨{ write := true, w4 := true, addr := 0x1001, len := 4, enables := true, data := 1 }, live, by decide +kernel⟩

theorem witness_HostAccessesComplete_9 : ∃ x : Sys2Proof.Access, ∃ u : State, pcieUp u = true ∧ asleep u = false ∧ x.w4 = true ∧
    malformed x = false ∧ x.len = 4 :=
  ⟨{ write := true, w4 := true, addr := 0x1000, len := 4, enables := true, data := 1 }, live, by decide +kernel⟩

theorem witness_HostAccessesComplete_10 : ∃ x : Sys2Proof.Access, ∃ u : State, pcieUp u = true ∧ asleep u = false ∧ x.w4 = true ∧
    malformed x = false ∧ x.len = 8 :=
  ⟨{ write := true, w4 := true, addr := 0x1000, len := 8, enables := true, data := 1 }, live, by decide +kernel⟩

theorem witness_HostAccessesComplete_11 : ∃ u : State, ∃ a, pcieUp u = true ∧ asleep u = false ∧ a % 4 = 0 ∧ a < 0x400000 ∧
    a ≠ A.HOST_KICK.addr :=
  ⟨live, 0x3FFFFC, by decide +kernel⟩

theorem witness_HostAccessesComplete_12 : ∃ u : State, pcieUp u = true ∧ asleep u = false :=
  ⟨live, by decide +kernel⟩

theorem witness_HostAccessesComplete_13 : ∃ u : State, pcieUp u = true ∧ asleep u = false :=
  ⟨live, by decide +kernel⟩

theorem witness_HostAccessesComplete_14 : ∃ u : State, pcieUp u = true ∧ asleep u = false :=
  ⟨live, by decide +kernel⟩

theorem witness_HostAccessesComplete_15 : ∃ u : State, pcieUp u = true ∧ asleep u = false :=
  ⟨live, by decide +kernel⟩

theorem witness_HostAccessesComplete_16 : ∃ u : State, pcieUp u = true ∧ asleep u = false :=
  ⟨live, by decide +kernel⟩

theorem witness_HostAccessesComplete_17 : ∃ u : State, pcieUp u = true ∧ asleep u = false :=
  ⟨live, by decide +kernel⟩

theorem witness_HostAccessesComplete_18 : ∃ u : State, pcieUp u = true ∧ asleep u = false :=
  ⟨live, by decide +kernel⟩

theorem witness_HostAccessesComplete_19 : ∃ u : State, pcieUp u = true ∧ asleep u = false :=
  ⟨live, by decide +kernel⟩

theorem witness_HostAccessesComplete_20 : ∃ x : Sys2Proof.Access, ∃ u : State, pcieUp u = true ∧ asleep u = false ∧ x.write = false :=
  ⟨{ write := false, w4 := false, addr := 0x142E, len := 4, enables := true, data := 1 }, live, by decide +kernel⟩

theorem witness_HostAccessesComplete_21 : ∃ u : State, pcieUp u = true ∧ asleep u = false ∧ flag u F.HOST_IF_CTRL_COUNTER_EXPOSE = true :=
  ⟨(put live [(F.HOST_IF_CTRL_COUNTER_EXPOSE, 1)]), by decide +kernel⟩

theorem witness_HostAccessesComplete_22 : ∃ x : Sys2Proof.Access, ∃ u : State, pcieUp u = true ∧ asleep u = false ∧ x.addr < 0x1000000 ∧
    x.write = true :=
  ⟨{ write := true, w4 := false, addr := 0xFFFFFC, len := 4, enables := true, data := 1 }, live, by decide +kernel⟩

theorem witness_HostAccessesComplete_23 : ∃ x : Sys2Proof.Access, ∃ u : State, pcieUp u = true ∧ asleep u = false ∧ x.addr < 0x1000000 ∧
    x.write = false :=
  ⟨{ write := false, w4 := false, addr := 0xFFFFFC, len := 4, enables := true, data := 1 }, live, by decide +kernel⟩

theorem witness_HostAccessesComplete_24 : ∃ x : Sys2Proof.Access, ∃ u : State, pcieUp u = true ∧ asleep u = false ∧ 0x1000000 ≤ x.addr ∧
    (dramTrained u = false ∨ u.dramSize < 2 ^ 20 * getF u F.HOST_DRAM_WINDOW_BASE_MIB + (x.addr - 0x1000000) + x.len) :=
  ⟨{ write := false, w4 := false, addr := 0x1000000, len := 4, enables := true, data := 1 }, live, by decide +kernel⟩

theorem witness_HostAccessesComplete_25 : ∃ x : Sys2Proof.Access, ∃ u : State, let v := disturbSr u; pcieUp u = true ∧ asleep u = false ∧
    0x1000000 ≤ x.addr ∧ dramTrained u = true ∧ 2 ^ 20 * getF u F.HOST_DRAM_WINDOW_BASE_MIB + (x.addr - 0x1000000) + x.len ≤ u.dramSize ∧
    flag v F.MEMC_STATUS_SR = false ∧ x.write = true :=
  ⟨{ write := true, w4 := false, addr := 0x1000000, len := 4, enables := true, data := 1 },
   (put { live with dramSize := 2 ^ 31 } [(F.MEMC_STATUS_TRAINED, 1)]), by decide +kernel⟩

theorem witness_HostAccessesComplete_26 : ∃ x : Sys2Proof.Access, ∃ u : State, let v := disturbSr u; pcieUp u = true ∧ asleep u = false ∧
    0x1000000 ≤ x.addr ∧ dramTrained u = true ∧ 2 ^ 20 * getF u F.HOST_DRAM_WINDOW_BASE_MIB + (x.addr - 0x1000000) + x.len ≤ u.dramSize ∧
    flag v F.MEMC_STATUS_SR = false ∧ x.write = false ∧ portServes v = true :=
  ⟨{ write := false, w4 := false, addr := 0x1000000, len := 4, enables := true, data := 1 }, (dramUp live), by decide +kernel⟩

theorem witness_HostAccessesComplete_27 : ∃ x : Sys2Proof.Access, ∃ u : State, let v := disturbSr u; pcieUp u = true ∧ asleep u = false ∧
    0x1000000 ≤ x.addr ∧ dramTrained u = true ∧ 2 ^ 20 * getF u F.HOST_DRAM_WINDOW_BASE_MIB + (x.addr - 0x1000000) + x.len ≤ u.dramSize ∧
    flag v F.MEMC_STATUS_SR = false ∧ x.write = false ∧ portServes v = false :=
  ⟨{ write := false, w4 := false, addr := 0x1000000, len := 4, enables := true, data := 1 },
   { dramUp live with memc := { live.memc with pause := some 9830400 } }, by decide +kernel⟩

theorem witness_HostAccessesComplete_28 : ∃ x : Sys2Proof.Access, ∃ u : State, let v := disturbSr u; pcieUp u = true ∧ asleep u = false ∧
    0x1000000 ≤ x.addr ∧ dramTrained u = true ∧ 2 ^ 20 * getF u F.HOST_DRAM_WINDOW_BASE_MIB + (x.addr - 0x1000000) + x.len ≤ u.dramSize ∧
    flag v F.MEMC_STATUS_SR = true :=
  ⟨{ write := true, w4 := false, addr := 0x1000000, len := 4, enables := true, data := 1 },
   (put { dramUp live with memc := { live.memc with exit := some 9830400 } } [(F.MEMC_STATUS_SR, 1)]), by decide +kernel⟩

theorem witness_Pf1ReadsZeroUnlessExposed_1 : ∃ x : Sys2Proof.Access, x.write = true :=
  ⟨{ write := true, w4 := false, addr := 0, len := 4, enables := true, data := 1 }, by decide +kernel⟩

theorem witness_Pf1ReadsZeroUnlessExposed_2 : ∃ x : Sys2Proof.Access, ∃ u : State, x.write = false ∧ pcieUp u = true ∧
    flag u F.HOST_IF_CTRL_COUNTER_EXPOSE = false :=
  ⟨{ write := false, w4 := false, addr := 0, len := 4, enables := true, data := 1 }, live, by decide +kernel⟩

theorem witness_Pf1ReadsZeroUnlessExposed_3 : ∃ x : Sys2Proof.Access, ∃ u : State, ∃ b, x.write = false ∧ pcieUp u = true ∧
    flag u F.HOST_IF_CTRL_COUNTER_EXPOSE = true ∧ asleep u = false ∧ x.addr % 4 = 0 ∧ x.len = 4 ∧ pf1Source x.addr = some b :=
  ⟨{ write := false, w4 := false, addr := 0x142C, len := 4, enables := true, data := 1 }, (put live [(F.HOST_IF_CTRL_COUNTER_EXPOSE, 1)]),
   0x1D001C, by decide +kernel⟩

theorem witness_Pf1ReadsZeroUnlessExposed_4 : ∃ x : Sys2Proof.Access, ∃ u : State, x.write = false ∧ pcieUp u = true ∧
    flag u F.HOST_IF_CTRL_COUNTER_EXPOSE = true ∧ asleep u = false ∧ x.addr % 4 = 0 ∧ x.len = 4 ∧ pf1Source x.addr = none :=
  ⟨{ write := false, w4 := false, addr := 0x1430, len := 4, enables := true, data := 1 }, (put live [(F.HOST_IF_CTRL_COUNTER_EXPOSE, 1)]),
   by decide +kernel⟩

theorem witness_LanePowerComplete_1 : ∃ c : Cmd, ∃ u : State, ∃ f : Flight, mayRun u 0x49 c [] f ∧ p8 c 16 ≤ 2 ∧ p8 c 20 ≤ 2 ∧
    (sched c = true → inWindow u c f ((bitsSet (p16 c 18) 16).map fun i => (0x49, p8 c 16, i))) :=
  ⟨(cmd 0x49 1 0 later [(16, 2), (18, 65535), (20, 2)]), (withCmd live (cmd 0x49 1 0 later [(16, 2), (18, 65535), (20, 2)])),
   (fly (cmd 0x49 1 0 later [(16, 2), (18, 65535), (20, 2)])), by decide +kernel⟩

theorem witness_LanePowerComplete_2 : ∃ (q l : Nat), ∃ u : State, ∃ st, (lane u q l).leave = some (st, 0) :=
  ⟨2, 15, (lane15 live { (default : LaneSt) with leave := some (1, 0) }), 1, by decide +kernel⟩

theorem witness_LanePowerComplete_3 : ∃ (q l : Nat), ∃ u : State, ∃ n, (lane u q l).exit = some (n, 1) ∧ n ≤ u.time.now :=
  ⟨2, 15, (lane15 live { (default : LaneSt) with exit := some (9830400, 1) }), 9830400, by decide +kernel⟩

theorem witness_LanePowerComplete_4 : ∃ (q l : Nat), ∃ u : State, ∃ n, (lane u q l).exit = some (n, 2) ∧ n ≤ u.time.now :=
  ⟨2, 15, (lane15 live { (default : LaneSt) with exit := some (9830400, 2) }), 9830400, by decide +kernel⟩

theorem witness_LanePowerComplete_5 : ∃ (q l : Nat), ∃ u : State, laneRuns u q l = true ∧ flag u (F.LANE_CTRL_ADAPT q l) = true ∧
    getF u (F.LANE_STATUS_PSTATE q l) ≠ 2 ∧ (lane u q l).stepAt + 983040 ≤ u.time.now :=
  ⟨2, 15, (laned (lane15 live { (default : LaneSt) with stepAt := 9830400 - 983040 }) [(F.LANE_CTRL_ADAPT 2 15, 1)]), by decide +kernel⟩

theorem witness_LanePowerComplete_6 : ∃ (q l : Nat), ∃ u : State, asleep u = false ∧ q < 3 ∧ l < 16 :=
  ⟨2, 15, live, by decide +kernel⟩

theorem witness_LaneEventsComplete_1 : ∃ (q l : Nat), ∃ u : State, laneReceives u q l = true ∧ isLocked u q l = false ∧
    isDead u q l = false ∧ (nearEnd u q l = true → laneSends u q l = true) :=
  ⟨2, 15, (laned live []), by decide +kernel⟩

theorem witness_LaneEventsComplete_2 : ∃ (q l : Nat), ∃ u : State, isLocked u q l = true :=
  ⟨2, 15, (laned live [(F.LANE_STATUS_BLOCK_LOCK 2 15, 1)]), by decide +kernel⟩

theorem witness_LaneEventsComplete_3 : ∃ (q l : Nat), ∃ u : State, ∃ n, (lane u q l).search = some n ∧ (lane u q l).pausedAt = none ∧
    isLocked u q l = false ∧ n + 66 * dwellTicks u q ≤ u.time.now :=
  ⟨2, 15, (lane15 live { (default : LaneSt) with search := some 0 }), 0, by decide +kernel⟩

theorem witness_LaneEventsComplete_4 : ∃ q : Nat, ∃ u : State, markerDue (settleHeaders u q) q = true :=
  ⟨2, (laned (withPorts live PortSt.start PortSt.start { PortSt.start with countFrom := 9830400 }) [(F.LN_PORT_CTRL_FIXED 2, 0)]),
   by decide +kernel⟩

theorem witness_LaneEventsComplete_5 : ∃ (q l : Nat), ∃ u : State, ∃ before : BitVec 64, ∃ line : BitVec 64,
    let v := loopBack (settleHeaders u q) q l u.time.now [{ header := syncHeader true, line := line }];
    let m := blockBytes (descramble before line); laneRuns (settleHeaders u q) q l = true ∧ isLocked (settleHeaders u q) q l = true ∧
    isDead (settleHeaders u q) q l = false ∧ q < 3 ∧ l < 16 ∧ canReceive (settleHeaders u q) q l [{ header := 0, line := before }, { header := syncHeader true, line := line }] = true ∧
    (headerHit v q l 1 (-1) = true ∨ markerValid m = false) :=
  ⟨2, 15, (laned live [(F.LANE_STATUS_BLOCK_LOCK 2 15, 1)]), 0, 0, by decide +kernel⟩

theorem witness_LaneEventsComplete_6 : ∃ (q l : Nat), ∃ u : State, ∃ before : BitVec 64, ∃ line : BitVec 64,
    let v := loopBack (settleHeaders u q) q l u.time.now [{ header := syncHeader true, line := line }];
    let m := blockBytes (descramble before line); laneRuns (settleHeaders u q) q l = true ∧ isLocked (settleHeaders u q) q l = true ∧
    isDead (settleHeaders u q) q l = false ∧ q < 3 ∧ l < 16 ∧ canReceive (settleHeaders u q) q l [{ header := 0, line := before }, { header := syncHeader true, line := line }] = true ∧
    headerHit v q l 1 (-1) = false ∧ markerValid m = true ∧ (m.getD 1 0).toNat = l :=
  ⟨2, 15, (laned live [(F.LANE_STATUS_BLOCK_LOCK 2 15, 1)]), 0, (scramble 0 (blockBits (markerBytes 2 15 0 0))), by decide +kernel⟩

theorem witness_LaneEventsComplete_7 : ∃ (q l : Nat), ∃ u : State, ∃ before : BitVec 64, ∃ line : BitVec 64,
    let v := loopBack (settleHeaders u q) q l u.time.now [{ header := syncHeader true, line := line }];
    let m := blockBytes (descramble before line); laneRuns (settleHeaders u q) q l = true ∧ isLocked (settleHeaders u q) q l = true ∧
    isDead (settleHeaders u q) q l = false ∧ q < 3 ∧ l < 16 ∧ canReceive (settleHeaders u q) q l [{ header := 0, line := before }, { header := syncHeader true, line := line }] = true ∧
    headerHit v q l 1 (-1) = false ∧ markerValid m = true ∧ (m.getD 1 0).toNat ≠ l :=
  ⟨2, 15, (laned live [(F.LANE_STATUS_BLOCK_LOCK 2 15, 1)]), 0, (scramble 0 (blockBits (markerBytes 2 14 0 0))), by decide +kernel⟩

theorem witness_LaneEventsComplete_8 : ∃ q : Nat, ∃ u : State, q < u.ports.length ∧ isFixed u q = true :=
  ⟨2, (put live [(F.LN_PORT_CTRL_FIXED 2, 1)]), by decide +kernel⟩

theorem witness_LaneEventsComplete_9 : ∃ (q l : Nat), ∃ u : State, laneRuns (settleHeaders u q) q l = true ∧
    isLocked (settleHeaders u q) q l = true ∧ isDead (settleHeaders u q) q l = false :=
  ⟨2, 15, (laned live [(F.LANE_STATUS_BLOCK_LOCK 2 15, 1)]), by decide +kernel⟩

theorem witness_LaneEventsComplete_10 : ∃ q : Nat, ∃ u : State, ∃ j, ∃ x, injAt u q j = some x ∧ x.kind = 5 ∧ x.arg1 ≠ 0 ∧
    x.start + 1024 * x.arg1 ≤ u.time.now :=
  ⟨2, (withPorts live PortSt.start PortSt.start { PortSt.start with inj := List.replicate 7 none ++ [some (inject 5 9600 none)] }), 7,
   (inject 5 9600 none), by decide +kernel⟩

theorem witness_InjectionAndReceiveComplete_1 : ∃ c : Cmd, ∃ u : State, ∃ f : Flight, mayRun u 0x58 c [] f ∧ p8 c 16 ≤ 2 ∧ p8 c 18 ≤ 6 ∧
    p8 c 19 ≤ 7 ∧ fiGood (p8 c 18) (p8 c 17) (p32 c 20) (p32 c 24) (p64 c 32) = true :=
  ⟨(cmd 0x58 0 0 0 [(16, 2), (17, 15), (18, 6), (19, 7), (20, 64)]), (withCmd live (cmd 0x58 0 0 0 [(16, 2), (17, 15), (18, 6), (19, 7), (20, 64)])),
   (fly (cmd 0x58 0 0 0 [(16, 2), (17, 15), (18, 6), (19, 7), (20, 64)])), by decide +kernel⟩

theorem witness_InjectionAndReceiveComplete_2 : ∃ c : Cmd, ∃ u : State, ∃ f : Flight, mayRun u 0x59 c [] f ∧ p8 c 16 ≤ 2 ∧ p8 c 19 ≤ 7 :=
  ⟨(cmd 0x59 0 0 0 [(16, 2), (19, 7)]), (withCmd live (cmd 0x59 0 0 0 [(16, 2), (19, 7)])), (fly (cmd 0x59 0 0 0 [(16, 2), (19, 7)])),
   by decide +kernel⟩

theorem witness_InjectionAndReceiveComplete_3 : ∃ c : Cmd, ∃ u : State, ∃ f : Flight, mayRun u 0x59 c [] f ∧ p8 c 16 ≤ 2 ∧ p8 c 19 = 0xFF :=
  ⟨(cmd 0x59 0 0 0 [(16, 2), (19, 255)]), (withCmd live (cmd 0x59 0 0 0 [(16, 2), (19, 255)])), (fly (cmd 0x59 0 0 0 [(16, 2), (19, 255)])),
   by decide +kernel⟩

theorem witness_InjectionAndReceiveComplete_4 : ∃ u : State, ∃ q, ∃ j, ∃ x, ∃ h, injAt u q j = some x ∧ x.held = some h ∧
    h.deadline ≤ u.time.now :=
  ⟨(withPorts live PortSt.start PortSt.start { PortSt.start with inj := List.replicate 7 none ++ [some (inject 4 1 (some { bytes := [1], corrupted := false, until' := 5, deadline := 9830400 }))] }),
   2, 7, (inject 4 1 (some { bytes := [1], corrupted := false, until' := 5, deadline := 9830400 })), { bytes := [1], corrupted := false, until' := 5, deadline := 9830400 },
   by decide +kernel⟩

theorem witness_InjectionAndReceiveComplete_5 : ∃ (t q first : Nat), ∃ lanes : List (List LineBlock), ∃ got : List (List LineBlock),
    ∃ (s u v : State), ∃ w : State, u = settleHeaders (advance t s) q ∧
    got = (lanes.zipIdx.map fun x => if canReceive u q x.2 x.1 then x.1 else []) ∧ v = loopLanes u q first got ∧ w = countHeaders v q got ∧
    portUp w q = false :=
  ⟨0, 0, 0, [{ header := 1, line := 0 } :: toLines 0 [idleBlock]], [{ header := 1, line := 0 } :: toLines 0 [idleBlock]],
   (put (withPorts live { PortSt.start with runs := [(live.time.now - 6 - rowTicks live 0 (0), 1)] } PortSt.start PortSt.start) [(F.LN_PORT_STATUS_UP 0, 0), (F.LN_PORT_CTRL_EN 0, 1), (F.LANE_CTRL_EN 0 0, 1), (F.LANE_STATUS_BLOCK_LOCK 0 0, 1)]),
   (put (withPorts live { PortSt.start with runs := [(live.time.now - 6 - rowTicks live 0 (0), 1)] } PortSt.start PortSt.start) [(F.LN_PORT_STATUS_UP 0, 0), (F.LN_PORT_CTRL_EN 0, 1), (F.LANE_CTRL_EN 0 0, 1), (F.LANE_STATUS_BLOCK_LOCK 0 0, 1)]),
   (put (withPorts live { PortSt.start with runs := [(live.time.now - 6 - rowTicks live 0 (0), 1)] } PortSt.start PortSt.start) [(F.LN_PORT_STATUS_UP 0, 0), (F.LN_PORT_CTRL_EN 0, 1), (F.LANE_CTRL_EN 0 0, 1), (F.LANE_STATUS_BLOCK_LOCK 0 0, 1)]),
   (countHeaders (put (withPorts live { PortSt.start with runs := [(live.time.now - 6 - rowTicks live 0 (0), 1)] } PortSt.start PortSt.start) [(F.LN_PORT_STATUS_UP 0, 0), (F.LN_PORT_CTRL_EN 0, 1), (F.LANE_CTRL_EN 0 0, 1), (F.LANE_STATUS_BLOCK_LOCK 0 0, 1)]) 0 [{ header := 1, line := 0 } :: toLines 0 [idleBlock]]),
   by decide +kernel, by decide +kernel, by decide +kernel, rfl, by decide +kernel⟩

theorem witness_InjectionAndReceiveComplete_6 : ∃ (t q first : Nat), ∃ lanes : List (List LineBlock), ∃ got : List (List LineBlock),
    ∃ (s u v : State), ∃ w : State, u = settleHeaders (advance t s) q ∧
    got = (lanes.zipIdx.map fun x => if canReceive u q x.2 x.1 then x.1 else []) ∧ v = loopLanes u q first got ∧ w = countHeaders v q got ∧
    portUp w q = true ∧ delivered w q first got = none :=
  ⟨0, 0, 0, [{ header := 1, line := 0 } :: toLines 0 [idleBlock]], [{ header := 1, line := 0 } :: toLines 0 [idleBlock]],
   (put (withPorts live { PortSt.start with runs := [(live.time.now - 6 - rowTicks live 0 (1), 1)] } PortSt.start PortSt.start) [(F.LN_PORT_STATUS_UP 0, 1), (F.LN_PORT_CTRL_EN 0, 1), (F.LANE_CTRL_EN 0 0, 1), (F.LANE_STATUS_BLOCK_LOCK 0 0, 1)]),
   (put (withPorts live { PortSt.start with runs := [(live.time.now - 6 - rowTicks live 0 (1), 1)] } PortSt.start PortSt.start) [(F.LN_PORT_STATUS_UP 0, 1), (F.LN_PORT_CTRL_EN 0, 1), (F.LANE_CTRL_EN 0 0, 1), (F.LANE_STATUS_BLOCK_LOCK 0 0, 1)]),
   (put (withPorts live { PortSt.start with runs := [(live.time.now - 6 - rowTicks live 0 (1), 1)] } PortSt.start PortSt.start) [(F.LN_PORT_STATUS_UP 0, 1), (F.LN_PORT_CTRL_EN 0, 1), (F.LANE_CTRL_EN 0 0, 1), (F.LANE_STATUS_BLOCK_LOCK 0 0, 1)]),
   (countHeaders (put (withPorts live { PortSt.start with runs := [(live.time.now - 6 - rowTicks live 0 (1), 1)] } PortSt.start PortSt.start) [(F.LN_PORT_STATUS_UP 0, 1), (F.LN_PORT_CTRL_EN 0, 1), (F.LANE_CTRL_EN 0 0, 1), (F.LANE_STATUS_BLOCK_LOCK 0 0, 1)]) 0 [{ header := 1, line := 0 } :: toLines 0 [idleBlock]]),
   by decide +kernel, by decide +kernel, by decide +kernel, rfl, by decide +kernel⟩

theorem witness_InjectionAndReceiveComplete_7 : ∃ (t q first : Nat), ∃ lanes : List (List LineBlock), ∃ got : List (List LineBlock),
    ∃ (s u v : State), ∃ w : State, ∃ l : List Block, u = settleHeaders (advance t s) q ∧
    got = (lanes.zipIdx.map fun x => if canReceive u q x.2 x.1 then x.1 else []) ∧ v = loopLanes u q first got ∧ w = countHeaders v q got ∧
    portUp w q = true ∧ delivered w q first got = some l :=
  ⟨0, 0, 0, [{ header := 1, line := 0 } :: toLines 0 [idleBlock]], [{ header := 1, line := 0 } :: toLines 0 [idleBlock]],
   (put (withPorts live { PortSt.start with runs := [(live.time.now - 6 - rowTicks live 0 (0), 1)] } PortSt.start PortSt.start) [(F.LN_PORT_STATUS_UP 0, 1), (F.LN_PORT_CTRL_EN 0, 1), (F.LANE_CTRL_EN 0 0, 1), (F.LANE_STATUS_BLOCK_LOCK 0 0, 1)]),
   (put (withPorts live { PortSt.start with runs := [(live.time.now - 6 - rowTicks live 0 (0), 1)] } PortSt.start PortSt.start) [(F.LN_PORT_STATUS_UP 0, 1), (F.LN_PORT_CTRL_EN 0, 1), (F.LANE_CTRL_EN 0 0, 1), (F.LANE_STATUS_BLOCK_LOCK 0 0, 1)]),
   (put (withPorts live { PortSt.start with runs := [(live.time.now - 6 - rowTicks live 0 (0), 1)] } PortSt.start PortSt.start) [(F.LN_PORT_STATUS_UP 0, 1), (F.LN_PORT_CTRL_EN 0, 1), (F.LANE_CTRL_EN 0 0, 1), (F.LANE_STATUS_BLOCK_LOCK 0 0, 1)]),
   (countHeaders (put (withPorts live { PortSt.start with runs := [(live.time.now - 6 - rowTicks live 0 (0), 1)] } PortSt.start PortSt.start) [(F.LN_PORT_STATUS_UP 0, 1), (F.LN_PORT_CTRL_EN 0, 1), (F.LANE_CTRL_EN 0 0, 1), (F.LANE_STATUS_BLOCK_LOCK 0 0, 1)]) 0 [{ header := 1, line := 0 } :: toLines 0 [idleBlock]]),
   [idleBlock], by decide +kernel, by decide +kernel, by decide +kernel, rfl, by decide +kernel⟩

theorem witness_InjectionAndReceiveComplete_8 : ∃ (t q first : Nat), ∃ lanes : List (List LineBlock), ∃ got : List (List LineBlock),
    ∃ (s u v : State), ∃ w : State, ∃ l : List Block, ∃ b : List Byte, u = settleHeaders (advance t s) q ∧
    got = (lanes.zipIdx.map fun x => if canReceive u q x.2 x.1 then x.1 else []) ∧ v = loopLanes u q first got ∧ w = countHeaders v q got ∧
    portUp w q = true ∧ delivered w q first got = some l ∧ framed b = true ∧ (Sys2Proof.Machine.port w q).opened = none ∧ l = packetBlocks b :=
  ⟨0, 0, 0, [{ header := 1, line := 0 } :: toLines 0 (packetBlocks (packetBytes (pack 2) false))], [{ header := 1, line := 0 } :: toLines 0 (packetBlocks (packetBytes (pack 2) false))],
   (put (withPorts live { PortSt.start with runs := [(live.time.now - 6 - rowTicks live 0 ((packetBlocks (packetBytes (pack 2) false)).length - 1), 1)] } PortSt.start PortSt.start) [(F.LN_PORT_STATUS_UP 0, 1), (F.LN_PORT_CTRL_EN 0, 1), (F.LANE_CTRL_EN 0 0, 1), (F.LANE_STATUS_BLOCK_LOCK 0 0, 1)]),
   (put (withPorts live { PortSt.start with runs := [(live.time.now - 6 - rowTicks live 0 ((packetBlocks (packetBytes (pack 2) false)).length - 1), 1)] } PortSt.start PortSt.start) [(F.LN_PORT_STATUS_UP 0, 1), (F.LN_PORT_CTRL_EN 0, 1), (F.LANE_CTRL_EN 0 0, 1), (F.LANE_STATUS_BLOCK_LOCK 0 0, 1)]),
   (put (withPorts live { PortSt.start with runs := [(live.time.now - 6 - rowTicks live 0 ((packetBlocks (packetBytes (pack 2) false)).length - 1), 1)] } PortSt.start PortSt.start) [(F.LN_PORT_STATUS_UP 0, 1), (F.LN_PORT_CTRL_EN 0, 1), (F.LANE_CTRL_EN 0 0, 1), (F.LANE_STATUS_BLOCK_LOCK 0 0, 1)]),
   (countHeaders (put (withPorts live { PortSt.start with runs := [(live.time.now - 6 - rowTicks live 0 ((packetBlocks (packetBytes (pack 2) false)).length - 1), 1)] } PortSt.start PortSt.start) [(F.LN_PORT_STATUS_UP 0, 1), (F.LN_PORT_CTRL_EN 0, 1), (F.LANE_CTRL_EN 0 0, 1), (F.LANE_STATUS_BLOCK_LOCK 0 0, 1)]) 0 [{ header := 1, line := 0 } :: toLines 0 (packetBlocks (packetBytes (pack 2) false))]),
   (packetBlocks (packetBytes (pack 2) false)), (packetBytes (pack 2) false), by decide +kernel, by decide +kernel, by decide +kernel, rfl,
   by decide +kernel⟩

theorem witness_InjectionAndReceiveComplete_9 : ∃ (t q first : Nat), ∃ lanes : List (List LineBlock), ∃ got : List (List LineBlock),
    ∃ (s u v : State), ∃ w : State, ∃ l : List Block, ∃ b : Block, ∃ o : List Byte, u = settleHeaders (advance t s) q ∧
    got = (lanes.zipIdx.map fun x => if canReceive u q x.2 x.1 then x.1 else []) ∧ v = loopLanes u q first got ∧ w = countHeaders v q got ∧
    portUp w q = true ∧ delivered w q first got = some l ∧ l = [b] ∧ b.control = true ∧ (Sys2Proof.Machine.port w q).opened = some o :=
  ⟨0, 0, 0, [{ header := 1, line := 0 } :: toLines 0 [idleBlock]], [{ header := 1, line := 0 } :: toLines 0 [idleBlock]],
   (put (withPorts live { PortSt.start with runs := [(live.time.now - 6 - rowTicks live 0 (0), 1)], opened := some [] } PortSt.start PortSt.start) [(F.LN_PORT_STATUS_UP 0, 1), (F.LN_PORT_CTRL_EN 0, 1), (F.LANE_CTRL_EN 0 0, 1), (F.LANE_STATUS_BLOCK_LOCK 0 0, 1)]),
   (put (withPorts live { PortSt.start with runs := [(live.time.now - 6 - rowTicks live 0 (0), 1)], opened := some [] } PortSt.start PortSt.start) [(F.LN_PORT_STATUS_UP 0, 1), (F.LN_PORT_CTRL_EN 0, 1), (F.LANE_CTRL_EN 0 0, 1), (F.LANE_STATUS_BLOCK_LOCK 0 0, 1)]),
   (put (withPorts live { PortSt.start with runs := [(live.time.now - 6 - rowTicks live 0 (0), 1)], opened := some [] } PortSt.start PortSt.start) [(F.LN_PORT_STATUS_UP 0, 1), (F.LN_PORT_CTRL_EN 0, 1), (F.LANE_CTRL_EN 0 0, 1), (F.LANE_STATUS_BLOCK_LOCK 0 0, 1)]),
   (countHeaders (put (withPorts live { PortSt.start with runs := [(live.time.now - 6 - rowTicks live 0 (0), 1)], opened := some [] } PortSt.start PortSt.start) [(F.LN_PORT_STATUS_UP 0, 1), (F.LN_PORT_CTRL_EN 0, 1), (F.LANE_CTRL_EN 0 0, 1), (F.LANE_STATUS_BLOCK_LOCK 0 0, 1)]) 0 [{ header := 1, line := 0 } :: toLines 0 [idleBlock]]),
   [idleBlock], idleBlock, [], by decide +kernel, by decide +kernel, by decide +kernel, rfl, by decide +kernel⟩

theorem witness_InjectionAndReceiveComplete_10 : ∃ (t q first : Nat), ∃ lanes : List (List LineBlock), ∃ got : List (List LineBlock),
    ∃ (s u v : State), ∃ w : State, u = settleHeaders (advance t s) q ∧
    got = (lanes.zipIdx.map fun x => if canReceive u q x.2 x.1 then x.1 else []) ∧ v = loopLanes u q first got ∧ w = countHeaders v q got ∧
    (∀ j, j < 8 → injAt w q j = none) :=
  ⟨0, 0, 0, [{ header := 1, line := 0 } :: toLines 0 [idleBlock]], [{ header := 1, line := 0 } :: toLines 0 [idleBlock]],
   (put (withPorts live { PortSt.start with runs := [(live.time.now - 6 - rowTicks live 0 (0), 1)] } PortSt.start PortSt.start) [(F.LN_PORT_STATUS_UP 0, 1), (F.LN_PORT_CTRL_EN 0, 1), (F.LANE_CTRL_EN 0 0, 1), (F.LANE_STATUS_BLOCK_LOCK 0 0, 1)]),
   (put (withPorts live { PortSt.start with runs := [(live.time.now - 6 - rowTicks live 0 (0), 1)] } PortSt.start PortSt.start) [(F.LN_PORT_STATUS_UP 0, 1), (F.LN_PORT_CTRL_EN 0, 1), (F.LANE_CTRL_EN 0 0, 1), (F.LANE_STATUS_BLOCK_LOCK 0 0, 1)]),
   (put (withPorts live { PortSt.start with runs := [(live.time.now - 6 - rowTicks live 0 (0), 1)] } PortSt.start PortSt.start) [(F.LN_PORT_STATUS_UP 0, 1), (F.LN_PORT_CTRL_EN 0, 1), (F.LANE_CTRL_EN 0 0, 1), (F.LANE_STATUS_BLOCK_LOCK 0 0, 1)]),
   (countHeaders (put (withPorts live { PortSt.start with runs := [(live.time.now - 6 - rowTicks live 0 (0), 1)] } PortSt.start PortSt.start) [(F.LN_PORT_STATUS_UP 0, 1), (F.LN_PORT_CTRL_EN 0, 1), (F.LANE_CTRL_EN 0 0, 1), (F.LANE_STATUS_BLOCK_LOCK 0 0, 1)]) 0 [{ header := 1, line := 0 } :: toLines 0 [idleBlock]]),
   by decide +kernel, by decide +kernel, by decide +kernel, rfl, by decide +kernel⟩

theorem witness_InjectionAndReceiveComplete_11 : ∃ (q first start : Nat), ∃ mask : Nat, ∃ rest : List (Nat × Nat), ∃ set : List Nat,
    ∃ blocks : List Block, ∃ u : State, (Sys2Proof.Machine.port u q).runs = (start, mask) :: rest ∧ set = bitsSet mask 16 ∧ set ≠ [] ∧
    blocks ≠ [] ∧ (∀ b ∈ blocks, b.bytes.length = 8) ∧ (∀ x ∈ (Sys2Proof.Machine.port u q).inj.filterMap id, x.kind = 6 →
    x.arg2 / 2 ^ 31 ≠ 1) ∧ (∀ l ∈ set, laneGives u q l = true) ∧ first + blocks.length ≤ 16383 * set.length ∧
    u.time.now = start + rowTicks u q ((first + blocks.length - 1) / set.length) + 6 :=
  ⟨0, 16383 * 16 - 1, live.time.now - 6 - rowTicks live 0 16382, 0xFFFF, [], (List.range 16), [idleBlock],
   (put (withPorts live { PortSt.start with runs := [(live.time.now - 6 - rowTicks live 0 16382, 0xFFFF)] } PortSt.start PortSt.start) ((F.LN_PORT_CTRL_EN 0,
   1) :: (List.range 16).flatMap fun l => [(F.LANE_CTRL_EN 0 l, 1), (F.LANE_STATUS_BLOCK_LOCK 0 l, 1)])), by decide +kernel⟩

theorem witness_PartnerMessagesComplete_1 : ∃ (u v : State), ∃ m : Inbox, ∃ rest : List Inbox, v = { u with inbox := rest } ∧
    u.inbox = m :: rest ∧ m.port = 0 ∧ isHello m.pkt = true ∧ body m.pkt 0 8 = 0 :=
  ⟨(withMail (live) (mail 0 3 0 ([1, 0, 0, 0] ++ leBytes 8 0))), { withMail (live) (mail 0 3 0 ([1, 0, 0, 0] ++ leBytes 8 0)) with inbox := [] },
   (mail 0 3 0 ([1, 0, 0, 0] ++ leBytes 8 0)), [], rfl, by decide +kernel⟩

theorem witness_PartnerMessagesComplete_2 : ∃ (u v : State), ∃ m : Inbox, ∃ rest : List Inbox, v = { u with inbox := rest } ∧
    u.inbox = m :: rest ∧ m.port = 0 ∧ isHello m.pkt = true ∧ body m.pkt 0 8 ≠ 0 ∧
    (joined v).find? (fun y => y.2.ident = body m.pkt 0 8) = none :=
  ⟨(withMail (live) (mail 0 3 0 ([1, 0, 0, 0] ++ leBytes 8 (2 ^ 64 - 1)))), { withMail (live) (mail 0 3 0 ([1, 0, 0, 0] ++ leBytes 8 (2 ^ 64 - 1))) with inbox := [] },
   (mail 0 3 0 ([1, 0, 0, 0] ++ leBytes 8 (2 ^ 64 - 1))), [], rfl, by decide +kernel⟩

theorem witness_PartnerMessagesComplete_3 : ∃ (u v : State), ∃ m : Inbox, ∃ rest : List Inbox, ∃ i, ∃ y, v = { u with inbox := rest } ∧
    u.inbox = m :: rest ∧ m.port = 0 ∧ isHello m.pkt = true ∧ body m.pkt 0 8 ≠ 0 ∧
    (joined v).find? (fun y => y.2.ident = body m.pkt 0 8) = some (i, y) :=
  ⟨(withMail (withMate live) (mail 0 3 0 ([1, 0, 0, 0] ++ leBytes 8 7))), { withMail (withMate live) (mail 0 3 0 ([1, 0, 0, 0] ++ leBytes 8 7)) with inbox := [] },
   (mail 0 3 0 ([1, 0, 0, 0] ++ leBytes 8 7)), [], 0, mate, rfl, by decide +kernel⟩

theorem witness_PartnerMessagesComplete_4 : ∃ (u v : State), ∃ m : Inbox, ∃ rest : List Inbox, ∃ i, v = { u with inbox := rest } ∧
    u.inbox = m :: rest ∧ m.port = 0 ∧ m.pkt.type = 3 ∧ msgOf m.pkt = 0x04 ∧ namedPartner v m.pkt = some i :=
  ⟨(withMail (withMate live) (mail 0 3 (mkHandle 6 1 0) [4, 0, 0, 0])), { withMail (withMate live) (mail 0 3 (mkHandle 6 1 0) [4, 0, 0, 0]) with inbox := [] },
   (mail 0 3 (mkHandle 6 1 0) [4, 0, 0, 0]), [], 0, rfl, by decide +kernel⟩

theorem witness_PartnerMessagesComplete_5 : ∃ (u v : State), ∃ m : Inbox, ∃ rest : List Inbox, ∃ i, ∃ x : Stream,
    let w := renew v i m.tick; let h := body m.pkt 0 4; v = { u with inbox := rest } ∧ u.inbox = m :: rest ∧ m.port = 0 ∧ m.pkt.type = 3 ∧
    msgOf m.pkt = 0x06 ∧ namedPartner v m.pkt = some i ∧ streamAt w (handleIdx h) = some x ∧ handleLive w 2 h = true ∧
    x.partner = partnerHandle w i :=
  ⟨(withMail (withStr live 0) (mail 0 3 (mkHandle 6 1 0) ([6, 0, 0, 0] ++ leBytes 4 (mkHandle 2 1 0)))),
   { withMail (withStr live 0) (mail 0 3 (mkHandle 6 1 0) ([6, 0, 0, 0] ++ leBytes 4 (mkHandle 2 1 0))) with inbox := [] },
   (mail 0 3 (mkHandle 6 1 0) ([6, 0, 0, 0] ++ leBytes 4 (mkHandle 2 1 0))), [], 0, (str 0), rfl, by decide +kernel⟩

theorem witness_PartnerMessagesComplete_6 : ∃ (u v : State), ∃ m : Inbox, ∃ rest : List Inbox, ∃ i, v = { u with inbox := rest } ∧
    u.inbox = m :: rest ∧ m.port = 0 ∧ m.pkt.type = 3 ∧ msgOf m.pkt = 0x09 ∧ namedPartner v m.pkt = some i :=
  ⟨(withMail (withMate live) (mail 0 3 (mkHandle 6 1 0) [9, 0, 0, 0])), { withMail (withMate live) (mail 0 3 (mkHandle 6 1 0) [9, 0, 0, 0]) with inbox := [] },
   (mail 0 3 (mkHandle 6 1 0) [9, 0, 0, 0]), [], 0, rfl, by decide +kernel⟩

theorem witness_PartnerMessagesComplete_7 : ∃ (u v : State), ∃ m : Inbox, ∃ rest : List Inbox, ∃ i, v = { u with inbox := rest } ∧
    u.inbox = m :: rest ∧ m.port = 0 ∧ m.pkt.type = 4 ∧ namedPartner v m.pkt = some i :=
  ⟨(withMail (withMate live) (mail 0 4 (mkHandle 6 1 0) [])), { withMail (withMate live) (mail 0 4 (mkHandle 6 1 0) []) with inbox := [] },
   (mail 0 4 (mkHandle 6 1 0) []), [], 0, rfl, by decide +kernel⟩

theorem witness_PartnerTimersComplete_2 : ∃ u : State, tickValid u = true ∧ u.time.tick % 983040 = 0 :=
  ⟨live, by decide +kernel⟩

theorem witness_PartnerTimersComplete_3 : ∃ u : State, ∃ i, ∃ p, partnerAt u i = some p ∧ p.lossAt ≤ u.time.now :=
  ⟨(withMate live), 0, mate, by decide +kernel⟩

theorem witness_PartnerTimersComplete_4 : ∃ u : State, ∃ j, ∃ x, ∃ n, streamAt u j = some x ∧ x.orphanEnd = some n ∧ n ≤ u.time.now :=
  ⟨{ withMate live with streams := [(0, { str 0 with orphanEnd := some 9830400 })] }, 0, { str 0 with orphanEnd := some 9830400 }, 9830400,
   by decide +kernel⟩

theorem witness_DiscoveryComplete_1 : ∃ c : Cmd, ∃ u : State, ∃ f : Flight, mayRun u 0x50 c [] f ∧ isMember u = true :=
  ⟨(cmd 0x50 0 0 0 []), (withCmd (put live [(F.CAS_STATUS_ROLE, 2)]) (cmd 0x50 0 0 0 [])), (fly (cmd 0x50 0 0 0 [])), by decide +kernel⟩

theorem witness_DiscoveryComplete_2 : ∃ c : Cmd, ∃ u : State, ∃ f : Flight, mayRun u 0x50 c [] f ∧ isMember u = false ∧ isLantern u = false :=
  ⟨(cmd 0x50 0 0 0 []), (withCmd live (cmd 0x50 0 0 0 [])), (fly (cmd 0x50 0 0 0 [])), by decide +kernel⟩

theorem witness_DiscoveryComplete_3 : ∃ c : Cmd, ∃ u : State, ∃ f : Flight, mayRun u 0x50 c [] f ∧ isLantern u = true ∧ tickValid u = false :=
  ⟨(cmd 0x50 0 0 0 []), (withCmd (put live [(F.CAS_STATUS_ROLE, 1), (F.TIME_CLK_STATUS_TICK_VALID, 0)]) (cmd 0x50 0 0 0 [])),
   (fly (cmd 0x50 0 0 0 [])), by decide +kernel⟩

theorem witness_DiscoveryComplete_4 : ∃ c : Cmd, ∃ u : State, ∃ f : Flight, mayRun u 0x50 c [] f ∧ isLantern u = true ∧ tickValid u = true :=
  ⟨(cmd 0x50 0 0 0 []), (withCmd (put live [(F.CAS_STATUS_ROLE, 1)]) (cmd 0x50 0 0 0 [])), (fly (cmd 0x50 0 0 0 [])), by decide +kernel⟩

theorem witness_DiscoveryComplete_5 : ∃ u : State, ∃ m, ∃ rest, u.inbox = m :: rest ∧ m.port = 1 ∧ m.pkt.type = 3 ∧ msgOf m.pkt = 0x10 ∧
    m.tick < body m.pkt 4 8 ∧ body m.pkt 0 1 ≤ body m.pkt 1 1 :=
  ⟨(withMail (put live [(F.CAS_STATUS_ROLE, 2)]) (mail 1 3 0 ([0x10, 0, 0, 0, 15, 15, 0, 0] ++ leBytes 8 9830401))), (mail 1 3 0 ([0x10, 0, 0, 0, 15, 15, 0, 0] ++ leBytes 8 9830401)),
   [], by decide +kernel⟩

theorem witness_DiscoveryComplete_6 : ∃ u : State, ∃ m, ∃ rest, u.inbox = m :: rest ∧ m.port = 2 ∧ m.pkt.type = 3 ∧ msgOf m.pkt = 0x11 :=
  ⟨(withMail (put live [(F.CAS_STATUS_ROLE, 2)]) (mail 2 3 0 [0x11, 0, 0, 0, 1, 0, 0, 0])), (mail 2 3 0 [0x11, 0, 0, 0, 1, 0, 0, 0]), [],
   by decide +kernel⟩

theorem witness_DiscoveryComplete_7 : ∃ u : State, u.casc.lastSent + 983040 ≤ u.time.now ∧ isLantern u = true ∧ chainE u ≠ 0 :=
  ⟨{ (set64 (put live [(F.CAS_STATUS_ROLE, 1)]) A.CAS_CHAIN_E A.CAS_CHAIN_E_1 9830400) with casc := { live.casc with lastSent := 9830400 - 983040 } },
   by decide +kernel⟩

theorem witness_DiscoveryComplete_8 : ∃ u : State, u.casc.lastSent + 983040 ≤ u.time.now ∧ isLantern u = false ∧ isMember u = true :=
  ⟨{ (put live [(F.CAS_STATUS_ROLE, 2)]) with casc := { live.casc with lastSent := 9830400 - 983040 } }, by decide +kernel⟩

theorem witness_DiscoveryComplete_9 : ∃ u : State, ∃ e : Nat, ∃ i : Option Nat, ∃ far : Option Nat,
    ∃ later : List (Nat × Option Nat × Option Nat), let v := set64 u A.CAS_CHAIN_E A.CAS_CHAIN_E_1 e;
    let w : State := { v with casc := { v.casc with next := later, cut := !portUp v 2, beyond := far } }; u.casc.next = (e, i,
    far) :: later ∧ e ≤ u.time.tick ∧ isLantern w = false :=
  ⟨{ (put live [(F.CAS_STATUS_ROLE, 2)]) with casc := { live.casc with next := [(9830400, some 3, none)] } }, 9830400, (some 3), none, [],
   by decide +kernel⟩

theorem witness_DiscoveryComplete_10 : ∃ u : State, ∃ e : Nat, ∃ i : Option Nat, ∃ far : Option Nat,
    ∃ later : List (Nat × Option Nat × Option Nat), let v := set64 u A.CAS_CHAIN_E A.CAS_CHAIN_E_1 e;
    let w : State := { v with casc := { v.casc with next := later, cut := !portUp v 2, beyond := far } }; u.casc.next = (e, i,
    far) :: later ∧ e ≤ u.time.tick ∧ isLantern w = true :=
  ⟨{ (put live [(F.CAS_STATUS_ROLE, 1)]) with casc := { live.casc with next := [(9830400, some 3, none)] } }, 9830400, (some 3), none, [],
   by decide +kernel⟩

theorem witness_DiscoveryComplete_11 : ∃ u : State, ∃ f : Flight, ∃ d, u.casc.discover = [d] ∧ (d.start + 983040 ≤ u.time.now ∨ ∃ x,
    d.last = some x ∧ x.2 + 98304 ≤ u.time.now) ∧ flightOf u d.id = some f :=
  ⟨{ withCmd (put live [(F.CAS_STATUS_ROLE, 1)]) (cmd 0x50 0 0 0 []) with casc := { live.casc with discover := [{ id := 0, start := 9830400 - 983040, e := 9830400, last := none }] } },
   (fly (cmd 0x50 0 0 0 [])), { id := 0, start := 9830400 - 983040, e := 9830400, last := none }, by decide +kernel⟩

theorem witness_PartialSumsComplete_1 : ∃ (j n : Nat), ∃ u : State, ∃ x : Stream, ∃ c : Carrier, streamAt u j = some x ∧
    ulCarrier u x n = some c ∧ isMember u = true ∧ flag u F.CAS_STATUS_LAST = true ∧ slotReady u x c n u.time.tick = true ∧
    u.time.tick = slotDone c n :=
  ⟨64, 0, (at' { withStr (put live [(F.CAS_STATUS_ROLE, 2), (F.CAS_STATUS_LAST, 1)]) 1 with carriers := [(0, { car with dir := 2 })] } (slotDone { car with dir := 2 } 0)),
   (str 1), { car with dir := 2 }, by decide +kernel⟩

theorem witness_PartialSumsComplete_2 : ∃ u : State, ∃ y,
    (Sys2Proof.Machine.port u 1).queue.find? (fun z => match z.q with | some q => decide (q + ulAllow u < u.time.now) | none => false) = some y :=
  ⟨(withPorts live PortSt.start { PortSt.start with queue := [{ queued 5 0 with q := some 0 }] } PortSt.start),
   { queued 5 0 with q := some 0 }, by decide +kernel⟩

theorem witness_PartialSumsComplete_3 : ∃ u : State, ∃ y : CascSum, ∃ rest : List CascSum, isMember u = true ∧ isIndexed u = true ∧
    childInChain u = true ∧ u.casc.sums = y :: rest ∧ portUp u 1 = true ∧ passTick u y ≤ u.time.tick ∧ isActive u = false :=
  ⟨{ { withStr (put live [(F.CAS_STATUS_ROLE, 2), (F.CAS_STATUS_INDEXED, 1), (F.LN_PORT_STATUS_UP 1, 1), (F.LN_PORT_STATUS_UP 2, 1), (F.PWR_MODE_STATE, 1)]) 1 with carriers := [(0, { car with dir := 2 })] } with casc := { live.casc with beyond := some 2, sums := [{ key := 129, slot := 0, seq := 0, origin := 0, reduced := false, pip := 0, good := true, tick := 0, data := [] }] } },
   { key := 129, slot := 0, seq := 0, origin := 0, reduced := false, pip := 0, good := true, tick := 0, data := [] }, [], by decide +kernel⟩

theorem witness_PartialSumsComplete_4 : ∃ u : State, ∃ x : Stream, ∃ c : Carrier, ∃ y : CascSum, ∃ rest : List CascSum, ∃ i,
    let v : State := { u with casc := { u.casc with sums := rest } }; isMember u = true ∧ isIndexed u = true ∧ childInChain u = true ∧
    u.casc.sums = y :: rest ∧ portUp u 1 = true ∧ passTick u y ≤ u.time.tick ∧ isActive u = true ∧ keyStream v y.key = some (i, x) ∧
    slotCarrier v x y.slot = some c :=
  ⟨{ { withStr (put live [(F.CAS_STATUS_ROLE, 2), (F.CAS_STATUS_INDEXED, 1), (F.LN_PORT_STATUS_UP 1, 1), (F.LN_PORT_STATUS_UP 2, 1)]) 1 with carriers := [(0, { car with dir := 2 })] } with casc := { live.casc with beyond := some 2, sums := [{ key := 128, slot := 0, seq := 0, origin := 0, reduced := false, pip := 0, good := true, tick := 0, data := [] }] } },
   (str 1), { car with dir := 2 }, { key := 128, slot := 0, seq := 0, origin := 0, reduced := false, pip := 0, good := true, tick := 0, data := [] },
   [], 64, by decide +kernel⟩

theorem witness_PartialSumsComplete_5 : ∃ u : State, ∃ y : CascSum, ∃ rest : List CascSum,
    let v : State := { u with casc := { u.casc with sums := rest } }; let w := satAdd v F.CAS_STAT2_NO_STREAM 1; isMember u = true ∧
    isIndexed u = true ∧ childInChain u = true ∧ u.casc.sums = y :: rest ∧ portUp u 1 = true ∧ passTick u y ≤ u.time.tick ∧
    isActive u = true ∧ keyStream v y.key = none ∧ portUp w 1 = true :=
  ⟨{ { withStr (put live [(F.CAS_STATUS_ROLE, 2), (F.CAS_STATUS_INDEXED, 1), (F.LN_PORT_STATUS_UP 1, 1), (F.LN_PORT_STATUS_UP 2, 1)]) 1 with carriers := [(0, { car with dir := 2 })] } with casc := { live.casc with beyond := some 2, sums := [{ key := 129, slot := 0, seq := 0, origin := 0, reduced := false, pip := 0, good := true, tick := 0, data := [] }] } },
   { key := 129, slot := 0, seq := 0, origin := 0, reduced := false, pip := 0, good := true, tick := 0, data := [] }, [], by decide +kernel⟩

theorem witness_PartialSumsComplete_6 : ∃ (j n : Nat), ∃ u : State, ∃ x : Stream, ∃ c : Carrier, ∃ got,
    got = u.casc.sums.find? (fun y => y.key = ulKey x && y.slot = n && y.good && decide (max y.tick (heldTick u y) ≤ combineTick u c n)) ∧
    streamAt u j = some x ∧ ulCarrier u x n = some c ∧ combines u = true ∧ slotReady u x c n (combineTick u c n) = true ∧
    (∀ y ∈ u.casc.combined, ¬(y.stream = j ∧ y.slot = n)) :=
  ⟨64, 0, { withStr (put live [(F.CAS_STATUS_ROLE, 1), (F.CAS_CTRL_DEPTH, 1)]) 1 with carriers := [(0, { car with dir := 2 })] }, (str 1),
   { car with dir := 2 }, none, rfl, by decide +kernel⟩

theorem witness_PartialSumsComplete_7 : ∃ u : State, ∃ m, ∃ rest, u.inbox = m :: rest ∧ m.port = 1 ∧ m.pkt.type = 4 ∧ isMember u = true :=
  ⟨(withMail (put live [(F.CAS_STATUS_ROLE, 2)]) (mail 1 4 0 [])), (mail 1 4 0 []), [], by decide +kernel⟩

theorem witness_SynthesisersAndPodsComplete_1 : ∃ c : Cmd, ∃ u : State, ∃ f : Flight, mayRun u 0x28 c [] f ∧ p8 c 16 ≤ 2 ∧
    freqGood (p8 c 16) (p64 c 24) = true ∧ (p8 c 16 = 1 → flag u F.RAD_LO_CFG_TDD_TIE = false) ∧ inWindow u c f [(0x28, p8 c 16, 0)] :=
  ⟨(cmd 0x28 1 0 later [(16, 2), (24, 8200000000)]), (withCmd live (cmd 0x28 1 0 later [(16, 2), (24, 8200000000)])),
   (fly (cmd 0x28 1 0 later [(16, 2), (24, 8200000000)])), by decide +kernel⟩

theorem witness_SynthesisersAndPodsComplete_2 : ∃ c : Cmd, ∃ u : State, ∃ f : Flight, mayRun u 0x29 c [] f ∧ p8 c 17 ≤ 1 ∧
    (∀ k ∈ bitsSet (p8 c 16) 3, loOn u k = true) ∧ (sched c = true → inWindow u c f ((bitsSet (p8 c 16) 3).map fun k => (0x29, k, 0))) :=
  ⟨(cmd 0x29 1 0 later [(16, 7), (17, 1)]), (withCmd (put live [(F.RAD_LO_STAT_ON 0, 1), (F.RAD_LO_STAT_ON 1, 1), (F.RAD_LO_STAT_ON 2, 1)]) (cmd 0x29 1 0 later [(16, 7), (17, 1)])),
   (fly (cmd 0x29 1 0 later [(16, 7), (17, 1)])), by decide +kernel⟩

theorem witness_SynthesisersAndPodsComplete_3 : ∃ i : Nat, ∃ u : State, ∃ x : LoCal, loCal u i = some x ∧ x.post = true ∧
    x.stop ≤ u.time.now :=
  ⟨2, { live with radio := { live.radio with los := [none, none, some { kind := 0, start := 0, stop := 9830400, table := true, post := true, queued := none, saved := false, pod := false }] } },
   { kind := 0, start := 0, stop := 9830400, table := true, post := true, queued := none, saved := false, pod := false }, by decide +kernel⟩

theorem witness_SynthesisersAndPodsComplete_4 : ∃ i : Nat, ∃ u : State, ∃ x : LoCal, ∃ k, loCal u i = some x ∧ x.post = true ∧
    x.stop ≤ u.time.now ∧ x.queued = some k :=
  ⟨2, { live with radio := { live.radio with los := [none, none, some { kind := 2, start := 0, stop := 9830400, table := true, post := true, queued := some 1, saved := false, pod := false }] } },
   { kind := 2, start := 0, stop := 9830400, table := true, post := true, queued := some 1, saved := false, pod := false }, 1,
   by decide +kernel⟩

theorem witness_SynthesisersAndPodsComplete_5 : ∃ i : Nat, ∃ (u v : State), v = settleLo u i ∧ i < 3 ∧ loOn v i = true ∧
    Sys2Proof.Machine.loLocked v i = false ∧ loBusy v i = false :=
  ⟨2, (put live [(F.RAD_LO_STAT_ON 0, 1), (F.RAD_LO_STAT_ON 1, 1), (F.RAD_LO_STAT_ON 2, 1)]), (settleLo (put live [(F.RAD_LO_STAT_ON 0, 1), (F.RAD_LO_STAT_ON 1, 1), (F.RAD_LO_STAT_ON 2, 1)]) 2),
   rfl, by decide +kernel⟩

theorem witness_SynthesisersAndPodsComplete_6 : ∃ i : Nat, ∃ u : State, Sys2Proof.Machine.loLocked u i = true ∧ (i ≠ 0 ∨ txPods u = 0) :=
  ⟨2, (put live [(F.RAD_LO_STAT_ON 0, 1), (F.RAD_LO_STAT_ON 1, 1), (F.RAD_LO_STAT_ON 2, 1), (F.RAD_LO_STAT_LOCK 2, 1)]), by decide +kernel⟩

theorem witness_SynthesisersAndPodsComplete_7 : ∃ i : Nat, ∃ u : State, Sys2Proof.Machine.loLocked u i = true ∧ i = 0 ∧ txPods u ≠ 0 :=
  ⟨0, (let x : State := put live [(F.RAD_LO_STAT_LOCK 0, 1)];
   { x with radio := { x.radio with pods := [{ (default : PodSt) with tx := .modulator }] } }), by decide +kernel⟩

theorem witness_SynthesisersAndPodsComplete_8 : ∃ u : State, ∃ b : Nat, ∃ g : Segment, bankAt u u.time.tick = some b ∧
    segmentAt u b u.time.tick = some g ∧ g.cal = true ∧ g.start = u.time.tick % period u b ∧ g.start + 393216 ≤ g.stop ∧
    (swapBetween u (u.time.tick + 1) (u.time.tick + 393215)).isNone = true :=
  ⟨(let x : State := (at' (put (tdd live) [(F.TIME_TDD_CTRL_RUNNING, 1)]) (9830400 + 300000));
   { x with time := { x.time with tddLog := [(9830400, 1)] } }), 0, { start := 300000, stop := 700000, kind := 0, cal := true },
   by decide +kernel⟩

theorem witness_SynthesisersAndPodsComplete_9 : ∃ c : Cmd, ∃ u : State, ∃ f : Flight, mayRun u 0x2A c [] f ∧
    maskWithin (p8 c 16) (nPods u) = true ∧ p8 c 17 ≤ 5 ∧ inWindow u c f ((bitsSet (p8 c 16) 8).map fun k => (0x2A, k, 0)) :=
  ⟨(cmd 0x2A 1 0 later [(16, 255), (17, 5)]), (withCmd live (cmd 0x2A 1 0 later [(16, 255), (17, 5)])), (fly (cmd 0x2A 1 0 later [(16, 255), (17, 5)])),
   by decide +kernel⟩

theorem witness_SynthesisersAndPodsComplete_10 : ∃ u : State, ∃ due,
    due = ((List.range (nPods u)).filter fun k => match (podSt u k).step with | some x => decide (x.stop ≤ u.time.now) | none => false) :=
  ⟨{ live with radio := { live.radio with pods := List.replicate 7 default ++ [{ (default : PodSt) with step := some { goal := 1, stop := 9830400, fdd := false } }] } },
   [7], by decide +kernel⟩

theorem witness_SynthesisersAndPodsComplete_11 : ∃ p : Nat, ∃ u : State, ∃ e,
    dueEdge u.time.now ((podSt u p).edges ++ earlyEdges u p) = some e ∧ e ∈ (podSt u p).edges :=
  ⟨7, (put { live with radio := { live.radio with pods := List.replicate 7 default ++ [{ (default : PodSt) with edges := [{ at' := 9830400, code := 1, exit := false }] }] } } [(F.PWR_DOMAIN_ON, 0)]),
   { at' := 9830400, code := 1, exit := false }, by decide +kernel⟩

theorem witness_SynthesisersAndPodsComplete_12 : ∃ p : Nat, ∃ u : State, ∃ e : FeEdge,
    dueEdge u.time.now ((podSt u p).edges ++ earlyEdges u p) = some e ∧ e ∉ (podSt u p).edges :=
  ⟨0, { put live [(F.RAD_POD_STATE_STATE 0, 3), (F.RAD_POD_STATE_TARGET 0, 3), (F.RAD_POD_FE_TIME_TXR_LEAD 0, 4095)] with acts := [{ id := 1, cmd := cmd 0x2A 1 0 9832959 [(16, 1), (17, 4)], tick := 9832959, keys := [], src := [] }] },
   ⟨9830400, 2, false⟩, by decide +kernel⟩

theorem witness_SynthesisersAndPodsComplete_14 : ∃ c : Cmd, ∃ u : State, ∃ f : Flight, let fr := fesbFrame u (fesbDiv u (p8 c 16)) c;
    mayRun u 0x2C c [] f ∧ p8 c 16 ≤ 1 ∧ 8 ≤ p8 c 17 ∧ p8 c 17 ≤ 32 ∧ p8 c 18 ≤ 3 ∧ (flag u (F.RAD_FE_PROF_PROFILE (p8 c 16)) = true →
    p8 c 18 ≤ 1 ∧ (p8 c 18 = 1 → flag u (F.RAD_FE_PROF_CS_EN (p8 c 16)) = true)) ∧ (∀ q ∈ fesbPending u (p8 c 16),
    (fesbSpan (fesbNow u q) q.tick).2 ≤ (fesbSpan fr c.actTick).1 ∨ (fesbSpan fr c.actTick).2 ≤ (fesbSpan (fesbNow u q) q.tick).1) ∧
    inWindow u c f [(0x2C, p8 c 16, 0)] :=
  ⟨(cmd 0x2C 1 0 later [(16, 1), (17, 32), (18, 3), (20, 2 ^ 32 - 1)]), (withCmd live (cmd 0x2C 1 0 later [(16, 1), (17, 32), (18, 3), (20, 2 ^ 32 - 1)])),
   (fly (cmd 0x2C 1 0 later [(16, 1), (17, 32), (18, 3), (20, 2 ^ 32 - 1)])), by decide +kernel⟩

theorem witness_SynthesisersAndPodsComplete_15 : ∃ p : Nat, ∃ u : State, ∃ q,
    ((fesbPending u p).find? fun x => !u.radio.frames.contains x.id && decide ((fesbSpan (fesbNow u x) x.tick).1 ≤ u.time.tick)) = some q :=
  ⟨1, { live with acts := [{ id := 1, cmd := cmd 0x2C 1 0 9830401 [(16, 1)], tick := 9830401, keys := [], src := [4, 35, 0] }] }, { id := 1, cmd := cmd 0x2C 1 0 9830401 [(16, 1)], tick := 9830401, keys := [], src := [4, 35, 0] },
   by decide +kernel⟩

theorem witness_SynthesisersAndPodsComplete_16 : ∃ p : Nat, ∃ u : State, ∃ q,
    ((fesbPending u p).find? fun x => u.radio.frames.contains x.id && decide (x.tick ≤ u.time.tick)) = some q :=
  ⟨1, { live with acts := [{ id := 1, cmd := cmd 0x2C 1 0 9830400 [(16, 1)], tick := 9830400, keys := [], src := [4, 35, 0] }], radio := { live.radio with frames := [1] } },
   { id := 1, cmd := cmd 0x2C 1 0 9830400 [(16, 1)], tick := 9830400, keys := [], src := [4, 35, 0] }, by decide +kernel⟩

theorem witness_CalibrationObjectsComplete_1 : ∃ c : Cmd, ∃ u : State, ∃ f : Flight, ∃ i, ∃ b, mayRun u 0x30 c [] f ∧ p8 c 16 ≤ 3 ∧
    p8 c 17 ≤ 1 ∧ p16 c 18 ≠ 0 ∧ p8 c 20 ≤ 8 ∧ calMasksGood u (p8 c 16) (p64 c 24) (p64 c 32) (p8 c 20) = true ∧
    lowestFree u.cals 16 = some i ∧ (p8 c 20 = 0 → b = 0) ∧ (p8 c 20 ≠ 0 → findRun u (p8 c 20) = some b) :=
  ⟨(cmd 0x30 0 0 0 [(16, 0), (17, 1), (18, 65535), (20, 8), (24, 2 ^ 63), (32, 1)]),
   (withCmd { live with cals := (List.range 15).map (fun i => (i, default)), owners := List.replicate 24 1 ++ List.replicate 8 0 } (cmd 0x30 0 0 0 [(16, 0), (17, 1), (18, 65535), (20, 8), (24, 2 ^ 63), (32, 1)])),
   (fly (cmd 0x30 0 0 0 [(16, 0), (17, 1), (18, 65535), (20, 8), (24, 2 ^ 63), (32, 1)])), 15, 24, by decide +kernel⟩

theorem witness_CalibrationObjectsComplete_2 : ∃ c : Cmd, ∃ u : State, ∃ f : Flight, ∃ j, mayRun u 0x31 c [] f ∧
    calAt u (handleIdx c.handle) = some j ∧ calClash u j c.actTick = false ∧ inWindow u c f [(0x31, c.handle, 0)] :=
  ⟨(cmd 0x31 1 (mkHandle 7 1 0) later []), (withCmd (withJob live (job 0 1 none)) (cmd 0x31 1 (mkHandle 7 1 0) later [])),
   (fly (cmd 0x31 1 (mkHandle 7 1 0) later [])), (job 0 1 none), by decide +kernel⟩

theorem witness_CalibrationObjectsComplete_3 : ∃ c : Cmd, ∃ u : State, ∃ f : Flight, ∃ j, mayRun u 0x31 c [] f ∧
    calAt u (handleIdx c.handle) = some j ∧ calClash u j c.actTick = true ∧ inWindow u c f [(0x31, c.handle, 0)] :=
  ⟨(cmd 0x31 1 (mkHandle 7 1 0) later []), (withCmd { withJob live (job 0 1 none) with cals := [(0, job 0 1 none), (1, { job 0 1 (some { start := later, phase := .asking, grantAt := none, emitAt := 0, step := 0, records := 0, bad := false }) with gen := 2 })] } (cmd 0x31 1 (mkHandle 7 1 0) later [])),
   (fly (cmd 0x31 1 (mkHandle 7 1 0) later [])), (job 0 1 none), by decide +kernel⟩

theorem witness_CalibrationObjectsComplete_4 : ∃ c : Cmd, ∃ u : State, ∃ f : Flight, ∃ j, mayRun u 0x32 c [] f ∧
    calAt u (handleIdx c.handle) = some j :=
  ⟨(cmd 0x32 0 (mkHandle 7 1 0) 0 []), (withCmd (withJob live (job 0 1 none)) (cmd 0x32 0 (mkHandle 7 1 0) 0 [])),
   (fly (cmd 0x32 0 (mkHandle 7 1 0) 0 [])), (job 0 1 none), by decide +kernel⟩

theorem witness_CalibrationRunsComplete_1 : ∃ (t i : Nat), ∃ j : CalJob, ∃ r : CalRun, ∃ (s u : State), u = settleCoex (advance t s) ∧
    calAt u i = some j ∧ j.run = some r ∧ r.phase = .asking ∧ r.start + grantTicks j ≤ u.time.tick :=
  ⟨0, 0, (job 0 1 (some (running .asking 0))), (running .asking 0), (withJob live (job 0 1 (some (running .asking 0)))),
   settleCoex (((withJob live (job 0 1 (some (running .asking 0)))))), rfl, by decide +kernel⟩

theorem witness_CalibrationRunsComplete_2 : ∃ (t i : Nat), ∃ j : CalJob, ∃ r : CalRun, ∃ (s u : State), u = settleCoex (advance t s) ∧
    calAt u i = some j ∧ j.run = some r ∧ r.phase = .granted ∧ r.emitAt ≤ u.time.tick ∧ u.radio.coex.gntO = false :=
  ⟨0, 0, (job 0 1 (some (running .granted 0))), (running .granted 0), (withJob live (job 0 1 (some (running .granted 0)))),
   settleCoex (((withJob live (job 0 1 (some (running .granted 0)))))), rfl, by decide +kernel⟩

theorem witness_CalibrationRunsComplete_3 : ∃ (t i : Nat), ∃ j : CalJob, ∃ r : CalRun, ∃ (s u : State), u = settleCoex (advance t s) ∧
    calAt u i = some j ∧ j.run = some r ∧ r.phase = .emitting ∧ r.step < stepsOf j ∧ r.emitAt + stepTicks u ≤ u.time.tick :=
  ⟨0, 0, (job 0 1 (some (running .emitting 0))), (running .emitting 0), (withJob live (job 0 1 (some (running .emitting 0)))),
   settleCoex (((withJob live (job 0 1 (some (running .emitting 0)))))), rfl, by decide +kernel⟩

theorem witness_CalibrationRunsComplete_4 : ∃ (t i : Nat), ∃ j : CalJob, ∃ r : CalRun, ∃ (s u : State), u = settleCoex (advance t s) ∧
    calAt u i = some j ∧ j.run = some r ∧ (r.phase = .emitting ∨ r.phase = .image) ∧ runSteps j ≤ r.step :=
  ⟨0, 0, (job 0 1 (some (running .emitting 1))), (running .emitting 1), (withJob live (job 0 1 (some (running .emitting 1)))),
   settleCoex (((withJob live (job 0 1 (some (running .emitting 1)))))), rfl, by decide +kernel⟩

theorem witness_CalibrationRunsComplete_5 : ∃ (t i : Nat), ∃ j : CalJob, ∃ r : CalRun, ∃ (s u : State), u = settleCoex (advance t s) ∧
    calAt u i = some j ∧ j.run = some r ∧ r.phase = .image ∧ r.step = 0 ∧ r.start + 1966080 ≤ u.time.tick :=
  ⟨0, 0, (job 2 1 (some (running .image 0))), (running .image 0), (withJob live (job 2 1 (some (running .image 0)))),
   settleCoex (((withJob live (job 2 1 (some (running .image 0)))))), rfl, by decide +kernel⟩

theorem witness_CalibrationRunsComplete_6 : ∃ (t i : Nat), ∃ j : CalJob, ∃ r : CalRun, ∃ (s u : State), u = settleCoex (advance t s) ∧
    calAt u i = some j ∧ j.run = some r ∧ r.phase = .granted ∧ u.radio.coex.gntO = true :=
  ⟨0, 0, (job 0 1 (some (running .granted 0))), (running .granted 0),
   { withJob (put live []) (job 0 1 (some (running .granted 0))) with radio := { live.radio with coex := { live.radio.coex with gntO := true, gntAt := 9830400 } } },
   settleCoex (({ withJob (put live []) (job 0 1 (some (running .granted 0))) with radio := { live.radio with coex := { live.radio.coex with gntO := true, gntAt := 9830400 } } })),
   rfl, by decide +kernel⟩

theorem witness_CalibrationRunsComplete_7 : ∃ (t i : Nat), ∃ j : CalJob, ∃ r : CalRun, ∃ (s u : State), u = settleCoex (advance t s) ∧
    calAt u i = some j ∧ j.run = some r ∧ coexEn u = true ∧ onHk u = true :=
  ⟨0, 0, (job 0 1 (some (running .asking 0))), (running .asking 0), (withJob (put live [(F.RAD_COEX_EN, 1)]) (job 0 1 (some (running .asking 0)))),
   settleCoex (((withJob (put live [(F.RAD_COEX_EN, 1)]) (job 0 1 (some (running .asking 0)))))), rfl, by decide +kernel⟩

theorem witness_CalibrationRunsComplete_8 : ∃ (t i : Nat), ∃ j : CalJob, ∃ r : CalRun, ∃ (s u : State), u = settleCoex (advance t s) ∧
    calAt u i = some j ∧ j.run = some r ∧ coexEn u = true ∧ onHk u = true :=
  ⟨0, 0, (job 0 1 (some (running .emitting 0))), (running .emitting 0), (withJob (put live [(F.RAD_COEX_EN, 1), (F.RAD_COEX_GNT_I, 1)]) (job 0 1 (some (running .emitting 0)))),
   settleCoex (((withJob (put live [(F.RAD_COEX_EN, 1), (F.RAD_COEX_GNT_I, 1)]) (job 0 1 (some (running .emitting 0)))))), rfl,
   by decide +kernel⟩

theorem witness_CalibrationRunsComplete_9 : ∃ (t i : Nat), ∃ j : CalJob, ∃ r : CalRun, ∃ (s u : State), u = settleCoex (advance t s) ∧
    calAt u i = some j ∧ j.run = some r ∧ coexEn u = true ∧ onHk u = true ∧ flag u F.RAD_COEX_REQ_I = false :=
  ⟨0, 0, (job 0 1 (some (running .emitting 0))), (running .emitting 0), (withJob (put live [(F.RAD_COEX_EN, 1)]) (job 0 1 (some (running .emitting 0)))),
   settleCoex (((withJob (put live [(F.RAD_COEX_EN, 1)]) (job 0 1 (some (running .emitting 0)))))), rfl, by decide +kernel⟩

theorem witness_CalibrationRunsComplete_10 : ∃ (t i : Nat), ∃ j : CalJob, ∃ r : CalRun, ∃ (s u : State), u = settleCoex (advance t s) ∧
    calAt u i = some j ∧ j.run = some r ∧ coexEn u = true ∧ onHk u = true ∧ flag u F.RAD_COEX_REQ_I = true ∧ u.radio.coex.gntO = false :=
  ⟨0, 0, (job 0 1 (some (running .asking 0))), (running .asking 0), { withJob (put live [(F.RAD_COEX_EN, 1), (F.RAD_COEX_REQ_I, 1)]) (job 0 1 (some (running .asking 0))) with radio := { live.radio with coex := { live.radio.coex with gntO := false } } },
   settleCoex (({ withJob (put live [(F.RAD_COEX_EN, 1), (F.RAD_COEX_REQ_I, 1)]) (job 0 1 (some (running .asking 0))) with radio := { live.radio with coex := { live.radio.coex with gntO := false } } })),
   rfl, by decide +kernel⟩

theorem witness_CalibrationRunsComplete_11 : ∃ (t i : Nat), ∃ j : CalJob, ∃ r : CalRun, ∃ (s u : State), u = settleCoex (advance t s) ∧
    calAt u i = some j ∧ j.run = some r ∧ coexEn u = true ∧ onHk u = true ∧ flag u F.RAD_COEX_REQ_I = true ∧ u.radio.coex.gntO = true ∧
    u.time.now ≤ u.radio.coex.gntAt :=
  ⟨0, 0, (job 0 1 (some (running .asking 0))), (running .asking 0), { withJob (put live [(F.RAD_COEX_EN, 1), (F.RAD_COEX_REQ_I, 1)]) (job 0 1 (some (running .asking 0))) with radio := { live.radio with coex := { live.radio.coex with gntO := true, gntAt := 9830432 } } },
   settleCoex (({ withJob (put live [(F.RAD_COEX_EN, 1), (F.RAD_COEX_REQ_I, 1)]) (job 0 1 (some (running .asking 0))) with radio := { live.radio with coex := { live.radio.coex with gntO := true, gntAt := 9830432 } } })),
   rfl, by decide +kernel⟩

theorem witness_CalibrationRunsComplete_12 : ∃ (t i : Nat), ∃ j : CalJob, ∃ r : CalRun, ∃ (s u : State), u = settleCoex (advance t s) ∧
    calAt u i = some j ∧ j.run = some r ∧ coexEn u = true ∧ onHk u = true ∧ flag u F.RAD_COEX_REQ_I = true ∧ u.radio.coex.gntO = true ∧
    u.radio.coex.gntAt < u.time.now :=
  ⟨0, 0, (job 0 1 (some (running .asking 0))), (running .asking 0), { withJob (put live [(F.RAD_COEX_EN, 1), (F.RAD_COEX_REQ_I, 1)]) (job 0 1 (some (running .asking 0))) with radio := { live.radio with coex := { live.radio.coex with gntO := true, gntAt := 9830368 } } },
   settleCoex (({ withJob (put live [(F.RAD_COEX_EN, 1), (F.RAD_COEX_REQ_I, 1)]) (job 0 1 (some (running .asking 0))) with radio := { live.radio with coex := { live.radio.coex with gntO := true, gntAt := 9830368 } } })),
   rfl, by decide +kernel⟩

theorem witness_CapturesComplete_1 : ∃ c : Cmd, ∃ u : State, ∃ f : Flight, ∃ i, ∃ b, ∃ n, mayRun u 0x34 c (if p8 c 16 = 3 then [(2, p32 c 32)] else []) f ∧
    p8 c 16 ≤ 3 ∧ 1 ≤ p8 c 18 ∧ p8 c 18 ≤ 3 ∧ 1 ≤ p32 c 20 ∧ p32 c 20 ≤ 2 ^ 28 ∧ (p8 c 16 = 0 → orxPresent u (p8 c 17) = true ∧
    p32 c 20 ≤ 65536) ∧ (p8 c 16 = 1 ∨ p8 c 16 = 2 → pathPresent u (p8 c 17) = true) ∧ (p8 c 18 ≠ 1 →
    regionBad (if p8 c 18 = 2 then 2 else 0) (p64 c 24) (8 * p32 c 20) = false) ∧ lowestFree u.caps 32 = some i ∧
    n = (if p8 c 18 = 1 then ceilDiv (8 * p32 c 20) 524288 else 0) ∧ (if n = 0 then some 0 else findRun u n) = some b :=
  ⟨(cmd 0x34 0 0 0 [(16, 0), (17, 3), (18, 1), (20, 65536)]), (withCmd { live with caps := (List.range 31).map (fun i => (i, default)), owners := List.replicate 31 1 ++ [0] } (cmd 0x34 0 0 0 [(16, 0), (17, 3), (18, 1), (20, 65536)])),
   (fly (cmd 0x34 0 0 0 [(16, 0), (17, 3), (18, 1), (20, 65536)])), 31, 31, 1, by decide +kernel⟩

theorem witness_CapturesComplete_2 : ∃ c : Cmd, ∃ u : State, ∃ f : Flight, mayRun u 0x35 c [] f ∧ (sched c = true → inWindow u c f [(0x35, c.handle, 0)]) :=
  ⟨(cmd 0x35 1 (mkHandle 4 1 0) later []), (withCmd { live with caps := [(0, { (default : CapJob) with gen := 1 })] } (cmd 0x35 1 (mkHandle 4 1 0) later [])),
   (fly (cmd 0x35 1 (mkHandle 4 1 0) later [])), by decide +kernel⟩

theorem witness_CapturesComplete_3 : ∃ c : Cmd, ∃ u : State, ∃ f : Flight, mayRun u 0x36 c [] f :=
  ⟨(cmd 0x36 0 (mkHandle 4 1 0) 0 []), (withCmd { live with caps := [(0, { (default : CapJob) with gen := 1 })] } (cmd 0x36 0 (mkHandle 4 1 0) 0 [])),
   (fly (cmd 0x36 0 (mkHandle 4 1 0) 0 [])), by decide +kernel⟩

theorem witness_CapturesComplete_4 : ∃ job : Nat, ∃ u : State, ∃ x,
    u.captures.find? (fun x => x.job = job && x.first.isNone && x.stop.isNone) = some x ∧ firstSample u x ≤ u.time.tick ∧ x.source ≠ 0 :=
  ⟨0, { live with captures := [capt 1 none] }, (capt 1 none), by decide +kernel⟩

theorem witness_CapturesComplete_5 : ∃ job : Nat, ∃ u : State, ∃ x, ∃ st,
    u.captures.find? (fun x => x.job = job && x.first.isNone && x.stop.isNone) = some x ∧ firstSample u x ≤ u.time.tick ∧ x.source = 0 ∧
    orxRefusal u x = some st :=
  ⟨0, { (put live []) with captures := [capt 0 none] }, (capt 0 none), stBusy, by decide +kernel⟩

theorem witness_CapturesComplete_6 : ∃ job : Nat, ∃ u : State, ∃ x,
    u.captures.find? (fun x => x.job = job && x.first.isNone && x.stop.isNone) = some x ∧ firstSample u x ≤ u.time.tick ∧ x.source = 0 ∧
    orxRefusal u x = none ∧ hostHolds u x.index = none :=
  ⟨0, { (put live [(F.ORX_CTRL_EN 3, 1)]) with captures := [capt 0 none] }, (capt 0 none), by decide +kernel⟩

theorem witness_CapturesComplete_7 : ∃ job : Nat, ∃ u : State, ∃ x : Capture, ∃ w,
    u.captures.find? (fun x => x.job = job && (captureResult u x w).isSome) = some x ∧ x.dest = 2 ∧ dramTrained u = true ∧
    portServes (disturbSr u) = false :=
  ⟨0, { ({ dramUp live with memc := { live.memc with pause := some 9830400 } }) with captures := [{ capt 1 none with dest := 2, stop := some (9830400, 1) }] },
   { capt 1 none with dest := 2, stop := some (9830400, 1) }, 0, by decide +kernel⟩

theorem witness_CapturesComplete_8 : ∃ job : Nat, ∃ u : State, ∃ x : Capture, ∃ n, ∃ st, ∃ w, ∃ y : State,
    u.captures.find? (fun x => x.job = job && (captureResult u x w).isSome) = some x ∧ (x.dest = 2 → dramTrained u = true →
    y = disturbSr u ∧ portServes y = true) ∧ (x.dest ≠ 2 ∨ dramTrained u = false → y = u) ∧ captureResult y x w = some (n, st) :=
  ⟨0, { live with captures := [{ capt 1 none with stop := some (9830400, 1) }] }, { capt 1 none with stop := some (9830400, 1) }, 0, 1, 0,
   { live with captures := [{ capt 1 none with stop := some (9830400, 1) }] }, by decide +kernel⟩

theorem witness_PredistortionComplete_1 : ∃ c : Cmd, ∃ u : State, ∃ f : Flight, mayRun u 0x38 c [] f ∧ p8 c 16 ≤ 3 ∧ p8 c 17 ≤ 100 ∧
    1 ≤ p16 c 22 ∧ p16 c 22 ≤ 1000 ∧ 1 ≤ p8 c 24 ∧ p8 c 24 ≤ 40 ∧ maskWithin (p64 c 32) (nPaths u) = true ∧ (sched c = true →
    inWindow u c f ((bitsSet (p64 c 32) 64).map fun n => (0x38, n, 0))) :=
  ⟨(cmd 0x38 1 0 later [(16, 3), (17, 100), (22, 1000), (24, 40), (32, 2 ^ 64 - 1)]), (withCmd live (cmd 0x38 1 0 later [(16, 3), (17, 100), (22, 1000), (24, 40), (32, 2 ^ 64 - 1)])),
   (fly (cmd 0x38 1 0 later [(16, 3), (17, 100), (22, 1000), (24, 40), (32, 2 ^ 64 - 1)])), by decide +kernel⟩

theorem witness_PredistortionComplete_2 : ∃ c : Cmd, ∃ u : State, ∃ f : Flight, mayRun u 0x39 c [] f ∧ pathPresent u (p8 c 16) = true ∧
    p8 c 17 ≤ 15 ∧ regionBad (p8 c 18) (p64 c 24) 256 = false ∧ inWindow u c f [(0x39, p8 c 16, p8 c 17)] ∧
    loadPending u (p8 c 16) (p8 c 17) = false ∧ modeOf u (p8 c 16) = 3 ∧ regionDown u (p8 c 18) (p64 c 24) 256 = false :=
  ⟨(cmd 0x39 1 0 later [(16, 63), (17, 15), (18, 0), (24, 2 ^ 48 - 256)]), (withCmd (put live [(F.DPD_PATH_POLICY_MODE 63, 3)]) (cmd 0x39 1 0 later [(16, 63), (17, 15), (18, 0), (24, 2 ^ 48 - 256)])),
   (fly (cmd 0x39 1 0 later [(16, 63), (17, 15), (18, 0), (24, 2 ^ 48 - 256)])), by decide +kernel⟩

theorem witness_PredistortionComplete_3 : ∃ c : Cmd, ∃ u : State, ∃ f : Flight, mayRun u 0x39 c [] f ∧ pathPresent u (p8 c 16) = true ∧
    p8 c 17 ≤ 15 ∧ regionBad (p8 c 18) (p64 c 24) 256 = false ∧ inWindow u c f [(0x39, p8 c 16, p8 c 17)] ∧
    loadPending u (p8 c 16) (p8 c 17) = false ∧ modeOf u (p8 c 16) ≠ 3 :=
  ⟨(cmd 0x39 1 0 later [(16, 63), (17, 15), (18, 1), (24, storeSize - 256)]), (withCmd live (cmd 0x39 1 0 later [(16, 63), (17, 15), (18, 1), (24, storeSize - 256)])),
   (fly (cmd 0x39 1 0 later [(16, 63), (17, 15), (18, 1), (24, storeSize - 256)])), by decide +kernel⟩

theorem witness_PredistortionComplete_4 : ∃ u : State, ∃ f : Flight, ∃ bytes : List Byte, ∃ whole : List Byte, asleep u = false ∧
    sourceFlight u f.cmd.ring f.cmd.tag = some f ∧ f.cmd.opcode = 0x39 ∧ p8 f.cmd 18 = 0 ∧ f.rest.2 = 0 ∧ whole = f.got ++ bytes ∧
    whole.length = 256 ∧ blockTagGood u whole = true ∧ u.acts.length < 512 :=
  ⟨{ live with host := { live.host with flight := [{ fly (cmd 0x39 1 0 later [(18, 0)]) with stage := .running, source := (0, 256), readAt := some 0, reads := 1 }] } },
   { fly (cmd 0x39 1 0 later [(18, 0)]) with stage := .running, source := (0, 256), readAt := some 0, reads := 1 },
   (List.replicate 250 0 ++ [1] ++ List.replicate 5 0), (List.replicate 250 0 ++ [1] ++ List.replicate 5 0), by decide +kernel⟩

theorem witness_PredistortionComplete_5 : ∃ u : State, ∃ f : Flight, ∃ bytes : List Byte, ∃ whole : List Byte, asleep u = false ∧
    sourceFlight u f.cmd.ring f.cmd.tag = some f ∧ f.cmd.opcode = 0x39 ∧ p8 f.cmd 18 = 0 ∧ f.rest.2 = 0 ∧ whole = f.got ++ bytes ∧
    whole.length = 256 ∧ blockTagGood u whole = false :=
  ⟨{ live with host := { live.host with flight := [{ fly (cmd 0x39 1 0 later [(18, 0)]) with stage := .running, source := (0, 256), readAt := some 0, reads := 1 }] } },
   { fly (cmd 0x39 1 0 later [(18, 0)]) with stage := .running, source := (0, 256), readAt := some 0, reads := 1 }, (List.replicate 256 0),
   (List.replicate 256 0), by decide +kernel⟩

theorem witness_PredistortionComplete_6 : ∃ c : Cmd, ∃ u : State, ∃ f : Flight, mayRun u 0x3A c [] f ∧ pathPresent u (p8 c 16) = true ∧
    p8 c 17 ≤ 15 ∧ regionBad (p8 c 18) (p64 c 24) 256 = false ∧ regionDown u (p8 c 18) (p64 c 24) 256 = false ∧ p8 c 18 = 0 :=
  ⟨(cmd 0x3A 0 0 0 [(16, 63), (17, 15), (18, 0), (24, 2 ^ 48 - 256)]), (withCmd live (cmd 0x3A 0 0 0 [(16, 63), (17, 15), (18, 0), (24, 2 ^ 48 - 256)])),
   (fly (cmd 0x3A 0 0 0 [(16, 63), (17, 15), (18, 0), (24, 2 ^ 48 - 256)])), by decide +kernel⟩

theorem witness_PredistortionComplete_7 : ∃ c : Cmd, ∃ u : State, ∃ f : Flight, mayRun u 0x3A c [] f ∧ pathPresent u (p8 c 16) = true ∧
    p8 c 17 ≤ 15 ∧ regionBad (p8 c 18) (p64 c 24) 256 = false ∧ regionDown u (p8 c 18) (p64 c 24) 256 = false ∧ p8 c 18 = 1 :=
  ⟨(cmd 0x3A 0 0 0 [(16, 63), (17, 15), (18, 1), (24, storeSize - 256)]), (withCmd live (cmd 0x3A 0 0 0 [(16, 63), (17, 15), (18, 1), (24, storeSize - 256)])),
   (fly (cmd 0x3A 0 0 0 [(16, 63), (17, 15), (18, 1), (24, storeSize - 256)])), by decide +kernel⟩

theorem witness_PredistortionComplete_8 : ∃ c : Cmd, ∃ u : State, ∃ f : Flight, mayRun u 0x3A c [] f ∧ pathPresent u (p8 c 16) = true ∧
    p8 c 17 ≤ 15 ∧ regionBad (p8 c 18) (p64 c 24) 256 = false ∧ regionDown u (p8 c 18) (p64 c 24) 256 = false ∧ p8 c 18 = 2 :=
  ⟨(cmd 0x3A 0 0 0 [(16, 63), (17, 15), (18, 2), (24, 2 ^ 31 - 256)]), (withCmd (put { live with dramSize := 2 ^ 31 } [(F.MEMC_STATUS_TRAINED, 1)]) (cmd 0x3A 0 0 0 [(16, 63), (17, 15), (18, 2), (24, 2 ^ 31 - 256)])),
   (fly (cmd 0x3A 0 0 0 [(16, 63), (17, 15), (18, 2), (24, 2 ^ 31 - 256)])), by decide +kernel⟩

theorem witness_PredistortionComplete_9 : ∃ k : Nat, ∃ u : State, asleep u = false ∧ k < 48 :=
  ⟨47, live, by decide +kernel⟩

theorem witness_PredistortionComplete_10 : ∃ k : Nat, ∃ u : State, ∃ o,
    let v := modOrx u k fun o => { o with slotQ := (orxSched u k).slotQ + 1, slotAt := u.time.tick + slotTicks u, slotLen := slotTicks u };
    o = orxSched u k ∧ orxPresent u k = true ∧ tickValid u = true ∧ u.time.tick = o.slotAt ∧ o.visit = none ∧ u.dpd.holdT ≠ 2 ∧
    u.dpd.holdO ≠ 2 ∧ getF u (F.ORX_STAT_USER k) ≠ 4 ∧ isDpdSlot (shareOf v k) o.slotQ = true :=
  ⟨3, { (put live [(F.DPD_ORX_SHARE_SHARE 3, 100)]) with dpd := { live.dpd with orx := List.replicate 3 default ++ [{ slotQ := 0, slotAt := 9830400, slotLen := 1, round := none, visit := none, kept := none, turn := 15 }] } },
   { slotQ := 0, slotAt := 9830400, slotLen := 1, round := none, visit := none, kept := none, turn := 15 }, by decide +kernel⟩

theorem witness_PredistortionComplete_11 : ∃ k : Nat, ∃ u : State, ∃ o,
    let v := modOrx u k fun o => { o with slotQ := (orxSched u k).slotQ + 1, slotAt := u.time.tick + slotTicks u, slotLen := slotTicks u };
    o = orxSched u k ∧ orxPresent u k = true ∧ tickValid u = true ∧ u.time.tick = o.slotAt ∧ o.visit = none ∧ u.dpd.holdT ≠ 2 ∧
    u.dpd.holdO ≠ 2 ∧ getF u (F.ORX_STAT_USER k) ≠ 4 ∧ isDpdSlot (shareOf v k) o.slotQ = false ∧ orxCaptures v k = true ∧
    getF v (F.ORX_STAT_USER k) = 0 :=
  ⟨3, { (put live [(F.DPD_ORX_SHARE_SHARE 3, 0), (F.ORX_CTRL_EN 3, 1)]) with dpd := { live.dpd with orx := List.replicate 3 default ++ [{ slotQ := 0, slotAt := 9830400, slotLen := 1, round := none, visit := none, kept := none, turn := 15 }] } },
   { slotQ := 0, slotAt := 9830400, slotLen := 1, round := none, visit := none, kept := none, turn := 15 }, by decide +kernel⟩

theorem witness_PredistortionComplete_12 : ∃ k : Nat, ∃ u : State, ∃ v, (orxSched u k).visit = some v ∧ v.started = false ∧
    u.time.tick = v.start ∧ calHolds u k = false ∧ hostHolds u k = none ∧ eligible u v.path = true ∧ orxCaptures u k = true :=
  ⟨3, { (put live [(F.DPD_PATH_POLICY_MODE 63, 1), (F.TXP_CTRL_EN 63, 1), (F.ORX_CTRL_EN 3, 1)]) with dpd := { live.dpd with orx := List.replicate 3 default ++ [{ slotQ := 0, slotAt := 0, slotLen := 1, round := none, visit := some { path := 63, pos := none, start := 9830400, stop := 9830400, started := false, bin := 0 }, kept := none, turn := 15 }] } },
   { path := 63, pos := none, start := 9830400, stop := 9830400, started := false, bin := 0 }, by decide +kernel⟩

theorem witness_PredistortionComplete_13 : ∃ k : Nat, ∃ u : State, ∃ v, (orxSched u k).visit = some v ∧ v.started = true ∧
    v.stop ≤ u.time.tick :=
  ⟨3, { live with dpd := { live.dpd with orx := List.replicate 3 default ++ [{ slotQ := 0, slotAt := 0, slotLen := 1, round := none, visit := some { path := 63, pos := none, start := 9830400, stop := 9830400, started := true, bin := 0 }, kept := none, turn := 15 }] } },
   { path := 63, pos := none, start := 9830400, stop := 9830400, started := true, bin := 0 }, by decide +kernel⟩

theorem witness_PredistortionComplete_14 : ∃ u : State, ∃ path, ∃ bin, ∃ better : Bool, ∃ base : Option Coefs, ∃ v : State, ∃ n : Nat,
    v = setBase { u with dpd := { u.dpd with solves := u.dpd.solves.erase (path, bin) } } bin base ∧ n = swapTick v ∧
    u.dpd.solves.contains (path, bin) = true ∧ fwRunning u = true ∧ mayswap v path better = false :=
  ⟨(solvingIn 0 []), 63, 15, false, none, (solvedOf (solvingIn 0 [])), (swapTick (solvedOf (solvingIn 0 []))), rfl, rfl, by decide +kernel⟩

theorem witness_PredistortionComplete_15 : ∃ u : State, ∃ path, ∃ bin, ∃ better : Bool, ∃ base : Option Coefs, ∃ v : State, ∃ n : Nat,
    v = setBase { u with dpd := { u.dpd with solves := u.dpd.solves.erase (path, bin) } } bin base ∧ n = swapTick v ∧
    u.dpd.solves.contains (path, bin) = true ∧ fwRunning u = true ∧ mayswap v path better = true ∧ (∀ m,
    assocGet v.dpd.swapped path = some m → m + swapSpacing v path ≤ n) :=
  ⟨(solvingIn 1 []), 63, 15, true, none, (solvedOf (solvingIn 1 [])), (swapTick (solvedOf (solvingIn 1 []))), rfl, rfl, by decide +kernel⟩

theorem witness_PredistortionComplete_16 : ∃ u : State, ∃ path, ∃ bin, ∃ better : Bool, ∃ base : Option Coefs, ∃ v : State, ∃ n : Nat, ∃ m,
    v = setBase { u with dpd := { u.dpd with solves := u.dpd.solves.erase (path, bin) } } bin base ∧ n = swapTick v ∧
    u.dpd.solves.contains (path, bin) = true ∧ fwRunning u = true ∧ mayswap v path better = true ∧ assocGet v.dpd.swapped path = some m ∧
    n < m + swapSpacing v path :=
  ⟨(solvingIn 1 [(63, 9830400)]), 63, 15, true, none, (solvedOf (solvingIn 1 [(63, 9830400)])), (swapTick (solvedOf (solvingIn 1 [(63, 9830400)]))),
   9830400, rfl, rfl, by decide +kernel⟩

theorem witness_PredistortionComplete_17 : ∃ k : Nat, ∃ u : State, ∃ path, orxPresent u k = true ∧ getF u (F.ORX_STAT_USER k) = 4 ∧
    path = 16 * k + (orxSched u k).turn ∧ orxCaptures u k = true :=
  ⟨3, (put { live with dpd := { live.dpd with orx := List.replicate 3 default ++ [{ slotQ := 0, slotAt := 0, slotLen := 1, round := none, visit := none, kept := none, turn := 15 }] } } [(F.ORX_STAT_USER 3, 4), (F.ORX_CTRL_EN 3, 1)]),
   63, by decide +kernel⟩

theorem witness_BiasAndMonitorComplete_1 : ∃ c : Cmd, ∃ u : State, ∃ f : Flight, ∃ v : State, v = settleHkTo u u.time.now ∧
    mayRun u 0x40 c [] f ∧ dacPresent v (p8 c 16) = true ∧ p16 c 18 ≤ 4095 ∧ 1 ≤ p8 c 20 ∧ 1 ≤ p16 c 22 ∧ p16 c 22 ≤ 4095 ∧
    (sched c = true → inWindow v c f [(0x40, p8 c 16, 0)]) :=
  ⟨(cmd 0x40 1 0 later [(16, 79), (18, 4095), (20, 1), (22, 4095)]), (withCmd live (cmd 0x40 1 0 later [(16, 79), (18, 4095), (20, 1), (22, 4095)])),
   (fly (cmd 0x40 1 0 later [(16, 79), (18, 4095), (20, 1), (22, 4095)])), settleHk (withCmd live (cmd 0x40 1 0 later [(16, 79), (18, 4095), (20, 1), (22, 4095)])),
   rfl, by decide +kernel⟩

theorem witness_BiasAndMonitorComplete_2 : ∃ c : Cmd, ∃ u : State, ∃ f : Flight, mayRun u 0x41 c [] f ∧
    maskWithin (p8 c 16) (nPods u) = true ∧ inWindow u c f ((bitsSet (p8 c 16) 8).map fun p => (0x41, p, 0)) :=
  ⟨(cmd 0x41 1 0 later [(16, 255)]), (withCmd live (cmd 0x41 1 0 later [(16, 255)])), (fly (cmd 0x41 1 0 later [(16, 255)])), by decide +kernel⟩

theorem witness_BiasAndMonitorComplete_3 : ∃ u : State, asleep u = false :=
  ⟨live, by decide +kernel⟩

theorem witness_BiasAndMonitorComplete_4 : ∃ u : State, hkmOn u = true :=
  ⟨live, by decide +kernel⟩

theorem witness_BiasAndMonitorComplete_5 : ∃ u : State, hkmOn u = false :=
  ⟨(put live [(F.PWR_DOMAIN_ON, 0)]), by decide +kernel⟩

theorem witness_BiasAndMonitorComplete_7 : ∃ u : State, ∃ d, ∃ e, (dacAt (settleHk u) d).next = some e ∧ e ≤ (settleHk u).time.now :=
  ⟨{ live with hkm := { live.hkm with dacs := List.replicate 79 default ++ [{ step := 255, interval := 1, next := some 9830400 }] } }, 79,
   9830400, by decide +kernel⟩

theorem witness_BiasAndMonitorComplete_8 : ∃ c : Cmd, ∃ u : State, ∃ f : Flight, mayRun u 0x42 c [] f ∧ hkmOn u = true ∧ p8 c 16 ≤ 3 ∧
    p8 c 17 ≤ 3 ∧ p8 c 18 ≤ 1 ∧ (bitsSet (p32 c 20 % 2 ^ 24) 24).all (inputPresent u (p8 c 16)) = true ∧ (p8 c 18 = 1 →
    (bitsSet (p32 c 20 % 2 ^ 24) 24).length = 1) :=
  ⟨(cmd 0x42 0 0 0 [(16, 3), (17, 3), (18, 1), (20, 2 ^ 23)]), (withCmd live (cmd 0x42 0 0 0 [(16, 3), (17, 3), (18, 1), (20, 2 ^ 23)])),
   (fly (cmd 0x42 0 0 0 [(16, 3), (17, 3), (18, 1), (20, 2 ^ 23)])), by decide +kernel⟩

theorem witness_BiasAndMonitorComplete_9 : ∃ c : Cmd, ∃ u : State, ∃ f : Flight, mayRun u 0x43 c [] f ∧ p8 c 16 ≤ 3 ∧
    inputPresent u (p8 c 16) (p8 c 17) = true ∧ (sched c = true → inWindow u c f [(0x43, p8 c 16, 0)]) :=
  ⟨(cmd 0x43 1 0 later [(16, 3), (17, 23)]), (withCmd live (cmd 0x43 1 0 later [(16, 3), (17, 23)])), (fly (cmd 0x43 1 0 later [(16, 3), (17, 23)])),
   by decide +kernel⟩

theorem witness_BiasAndMonitorComplete_10 : ∃ k : Nat, ∃ u : State, ∃ i, fwRunning u = true ∧ k < 4 ∧ inputPresent u k i = true ∧
    segmentStart u u.time.tick = true :=
  ⟨3, { tdd live with time := { live.time with tddLog := [(0, 1)] } }, 23, by decide +kernel⟩

theorem witness_BiasAndMonitorComplete_11 : ∃ k : Nat, ∃ u : State, let v := settleWindows u; let x := monUnit v k; x.running = true ∧
    u.time.counting = true ∧ x.queue = [] ∧ flag v (F.MON_SCAN_INTERLEAVE k) = false ∧ x.start + x.w ≤ u.time.now ∧ k < u.hkm.units.length :=
  ⟨3, { live with hkm := { live.hkm with units := List.replicate 3 default ++ [{ (default : MonUnit) with running := true, start := 0, w := 9830400 }] } },
   by decide +kernel⟩

theorem witness_BiasAndMonitorComplete_12 : ∃ k : Nat, ∃ u : State, ∃ d : MonDue, ∃ rest : List MonDue, ∃ loud, ∃ ovr,
    (monUnit u k).due = d :: rest ∧ d.stop + 64 ≤ u.time.now ∧ k < 4 ∧ (ovr = true ↔ loud = true ∧ d.input ≠ 16 ∧ d.input ≠ 17) :=
  ⟨3, { live with hkm := { live.hkm with units := List.replicate 3 default ++ [{ (default : MonUnit) with due := [{ stop := 9830400 - 64, tick := 0, input := 15, urgent := false, host := false, alt := false, part := 3 }] }] } },
   { stop := 9830400 - 64, tick := 0, input := 15, urgent := false, host := false, alt := false, part := 3 }, [], 0, false,
   by decide +kernel⟩

theorem witness_BiasAndMonitorComplete_13 : ∃ a : Int, ∃ b : Int, 0 ≤ a + b :=
  ⟨3, (-3), by decide +kernel⟩

theorem witness_DmaCommandsComplete_1 : ∃ c : Cmd, ∃ u : State, ∃ f : Flight, ∃ i, ∃ b, let x : DmaCh := { gen := nextGen u 5 i, loops := [], entry := (p8 c 16, p64 c 24), line := none, reading := false, busy := false, burst := none, kept := [], first := none, stop := none, want := false, reads := 0, readAt := 0 };
    mayRun u 0x60 c [] f ∧ p8 c 16 ≤ 2 ∧ p8 c 17 ≤ 1 ∧ p8 c 18 ≤ 8 ∧ p64 c 24 % 16 = 0 ∧ regionBad (p8 c 16) (p64 c 24) 16 = false ∧
    (p8 c 16 = 2 → p64 c 24 < u.dramSize) ∧ (p8 c 17 = 1 → ∀ x ∈ u.dmas, flag u (F.DMA_CH_STATE_SUPERVISORY x.1) = false) ∧
    lowestFree u.dmas 64 = some i ∧ (if p8 c 18 = 0 then some 0 else findRun u (p8 c 18)) = some b :=
  ⟨(cmd 0x60 0 0 0 [(16, 2), (17, 1), (18, 8), (24, 2 ^ 31 - 16)]), (withCmd { dramUp live with dmas := (List.range 63).map (fun i => (i, default)), owners := List.replicate 24 1 ++ List.replicate 8 0 } (cmd 0x60 0 0 0 [(16, 2), (17, 1), (18, 8), (24, 2 ^ 31 - 16)])),
   (fly (cmd 0x60 0 0 0 [(16, 2), (17, 1), (18, 8), (24, 2 ^ 31 - 16)])), 63, 24, by decide +kernel⟩

theorem witness_DmaCommandsComplete_2 : ∃ c : Cmd, ∃ u : State, ∃ f : Flight, mayRun u 0x61 c [] f ∧
    chBusy u (handleIdx c.handle) = false ∧ (sched c = true → inWindow u c f [(0x61, c.handle, 0)]) :=
  ⟨(cmd 0x61 1 (mkHandle 5 1 63) later []), (withCmd (chan 1 wHalt id live) (cmd 0x61 1 (mkHandle 5 1 63) later [])),
   (fly (cmd 0x61 1 (mkHandle 5 1 63) later [])), by decide +kernel⟩

theorem witness_DmaCommandsComplete_3 : ∃ c : Cmd, ∃ u : State, ∃ f : Flight, mayRun u 0x61 c [] f ∧ sched c = false ∧
    chBusy u (handleIdx c.handle) = true :=
  ⟨(cmd 0x61 0 (mkHandle 5 1 63) 0 []), (withCmd (chan 3 wHalt id live) (cmd 0x61 0 (mkHandle 5 1 63) 0 [])),
   (fly (cmd 0x61 0 (mkHandle 5 1 63) 0 [])), by decide +kernel⟩

theorem witness_DmaCommandsComplete_4 : ∃ c : Cmd, ∃ u : State, ∃ f : Flight, mayRun u 0x62 c [] f ∧
    (chState u (handleIdx c.handle) = chParked → entryRequested u = false) :=
  ⟨(cmd 0x62 0 (mkHandle 5 1 63) 0 []), (withCmd (chan 4 wHalt id live) (cmd 0x62 0 (mkHandle 5 1 63) 0 [])),
   (fly (cmd 0x62 0 (mkHandle 5 1 63) 0 [])), by decide +kernel⟩

theorem witness_DmaCommandsComplete_5 : ∃ c : Cmd, ∃ u : State, ∃ f : Flight, mayRun u 0x63 c [] f ∧ chBusy u (handleIdx c.handle) = false :=
  ⟨(cmd 0x63 0 (mkHandle 5 1 63) 0 []), (withCmd (chan 1 wHalt id live) (cmd 0x63 0 (mkHandle 5 1 63) 0 [])),
   (fly (cmd 0x63 0 (mkHandle 5 1 63) 0 [])), by decide +kernel⟩

theorem witness_DmaCommandsComplete_6 : ∃ u : State, ∃ ch, asleep u = false ∧ ch < 64 :=
  ⟨live, 63, by decide +kernel⟩

theorem witness_DmaCommandsComplete_7 : ∃ u : State, ∃ w, asleep u = false ∧ w < 2 :=
  ⟨live, 1, by decide +kernel⟩

theorem witness_DmaCommandsComplete_8 : ∃ c : Nat, ∃ data : List Byte, ∃ u : State, ∃ w, chState u c = chRunning ∧ (chAt u c).line = none ∧
    accessFault u c = none ∧ (chAt u c).reading = true ∧ ((chPc u c).1 = 0 → data.length = 64) ∧ ((chPc u c).1 ≠ 2 → w = u) ∧
    ((chPc u c).1 = 2 → w = disturbSr u ∧ portServes w = true) :=
  ⟨63, [], (setPc (chan 2 wHalt (fun x => { x with line := none, reading := true }) live) 63 1 0),
   (setPc (chan 2 wHalt (fun x => { x with line := none, reading := true }) live) 63 1 0), by decide +kernel⟩

theorem witness_DmaCommandsComplete_9 : ∃ c : Nat, ∃ data : List Byte, ∃ u : State, chState u c = chRunning ∧ (chAt u c).line = none ∧
    accessFault u c = none ∧ (chAt u c).reading = true ∧ ((chPc u c).1 = 0 → data.length = 64) ∧ (chPc u c).1 = 2 ∧
    portServes (disturbSr u) = false :=
  ⟨63, [], (setPc (chan 2 wHalt (fun x => { x with line := none, reading := true }) ({ dramUp live with memc := { live.memc with pause := some 9830400 } })) 63 2 0),
   by decide +kernel⟩

theorem witness_DmaCommandsComplete_10 : ∃ c : Nat, ∃ u : State, ∃ st, accessFault u c = some st :=
  ⟨63, (setPc (chan 2 wHalt (fun x => { x with line := none }) live) 63 2 0), stMemDown, by decide +kernel⟩

theorem witness_DmaInstructionsComplete_1 : ∃ c : Nat, ∃ i : DmaInstr, ∃ u : State, ∃ a, ∃ b, ∃ d, ∃ e, ∃ g, ∃ h, ∃ k,
    instrAtPc u c = some i ∧ poised u c = true ∧ spent u c = false ∧ i = .move a b d e g h k :=
  ⟨63, (.move false false 1 1 16 0 64), (chan 2 wMove id (live)), false, false, 1, 1, 16, 0, 64, by decide +kernel⟩

theorem witness_DmaInstructionsComplete_2 : ∃ c : Nat, ∃ i : DmaInstr, ∃ u : State, ∃ a, ∃ b, ∃ d, ∃ e, ∃ g, instrAtPc u c = some i ∧
    poised u c = true ∧ spent u c = false ∧ i = .fill a b d e g :=
  ⟨63, (.fill false 1 16 0 64), (chan 2 wFill id (live)), false, 1, 16, 0, 64, by decide +kernel⟩

theorem witness_DmaInstructionsComplete_3 : ∃ c : Nat, ∃ i : DmaInstr, ∃ u : State, ∃ a, ∃ b, ∃ d, ∃ e, ∃ g, ∃ h, ∃ k, ∃ l, ∃ m, ∃ n,
    instrAtPc u c = some i ∧ poised u c = true ∧ spent u c = false ∧ i = .cmp a b d e g h k l m n :=
  ⟨63, (.cmp false false false false 1 1 16 0 64 64), (chan 2 wCmp id (live)), false, false, false, false, 1, 1, 16, 0, 64, 64,
   by decide +kernel⟩

theorem witness_DmaInstructionsComplete_4 : ∃ c : Nat, ∃ i : DmaInstr, ∃ u : State, ∃ n, ∃ back, instrAtPc u c = some i ∧
    poised u c = true ∧ spent u c = false ∧ i = .loop n back :=
  ⟨63, (.loop 2 1), (chan 2 wLoop id (live)), 2, 1, by decide +kernel⟩

theorem witness_DmaInstructionsComplete_5 : ∃ c : Nat, ∃ i : DmaInstr, ∃ u : State, ∃ kind, ∃ clr, ∃ bit, ∃ periph, ∃ tick,
    instrAtPc u c = some i ∧ poised u c = true ∧ i = .wait kind clr bit periph tick :=
  ⟨63, (.wait 0 false 63 0 0), (chan 2 (wWait 0) id (live)), 0, false, 63, 0, 0, by decide +kernel⟩

theorem witness_DmaInstructionsComplete_6 : ∃ c : Nat, ∃ i : DmaInstr, ∃ u : State, ∃ clr, ∃ bit, ∃ periph, ∃ tick,
    instrAtPc u c = some i ∧ chState u c = chWaiting ∧ u.power.phase = .run ∧ i = .wait 1 clr bit periph tick ∧ tickValid u = true ∧
    tick ≤ u.time.tick :=
  ⟨63, (.wait 1 false 0 0 9830400), (chan 3 (wWait 1) id (live)), false, 0, 0, 9830400, by decide +kernel⟩

theorem witness_DmaInstructionsComplete_7 : ∃ c : Nat, ∃ i : DmaInstr, ∃ u : State, ∃ clr, ∃ bit, ∃ periph, ∃ tick,
    instrAtPc u c = some i ∧ chState u c = chWaiting ∧ u.power.phase = .run ∧ i = .wait 2 clr bit periph tick ∧
    periphRequest u periph = true :=
  ⟨63, (.wait 2 false 0 0x20 0), (chan 3 (wWait 2) id ({ live with periph := { live.periph with results := [List.replicate 8 0] } })), false,
   0, 0x20, 0, by decide +kernel⟩

theorem witness_DmaInstructionsComplete_8 : ∃ c : Nat, ∃ i : DmaInstr, ∃ u : State, ∃ clr, ∃ bit, ∃ periph, ∃ tick,
    instrAtPc u c = some i ∧ chState u c = chWaiting ∧ u.power.phase = .run ∧ i = .wait 0 clr bit periph tick :=
  ⟨63, (.wait 0 false 63 0 0), (chan 3 (wWait 0) id (live)), false, 63, 0, 0, by decide +kernel⟩

theorem witness_DmaInstructionsComplete_9 : ∃ c : Nat, ∃ i : DmaInstr, ∃ u : State, instrAtPc u c = some i ∧ chState u c = chWaiting ∧
    u.power.phase ≠ .run :=
  ⟨63, (.wait 1 false 0 0 9830400), (chan 3 (wWait 1) id (powered live fun p => { p with phase := .drain })), by decide +kernel⟩

theorem witness_DmaInstructionsComplete_10 : ∃ c : Nat, ∃ i : DmaInstr, ∃ u : State, ∃ kind, ∃ bit, ∃ vector, ∃ value, ∃ addr,
    instrAtPc u c = some i ∧ poised u c = true ∧ i = .signal kind bit vector value addr :=
  ⟨63, (.signal 0 63 0 0 0), (chan 2 wSignal id (live)), 0, 63, 0, 0, 0, by decide +kernel⟩

theorem witness_DmaInstructionsComplete_11 : ∃ c : Nat, ∃ i : DmaInstr, ∃ u : State, ∃ q, instrAtPc u c = some i ∧ poised u c = true ∧
    spent u c = false ∧ i = .halt q :=
  ⟨63, (.halt false), (chan 2 wHalt id (live)), false, by decide +kernel⟩

theorem witness_DmaInstructionsComplete_12 : ∃ c : Nat, ∃ i : DmaInstr, ∃ u : State, instrAtPc u c = some i ∧ poised u c = true ∧
    spent u c = true ∧ (∀ a b d e g, i ≠ .wait a b d e g) ∧ (∀ a b d e g, i ≠ .signal a b d e g) :=
  ⟨63, (.halt false), (setN (setN (chan 2 wHalt id live) (A.DMA_CH_BUDGET 63) 1) (A.DMA_CH_STEPS 63) 1), by decide +kernel, by decide +kernel,
   by decide +kernel, nofun, nofun⟩

theorem witness_DmaInstructionsComplete_13 : ∃ c : Nat, ∃ i : DmaInstr, ∃ u : State, ∃ n, ∃ data : List Byte, ∃ src : List Byte,
    ∃ dst : List Byte, ∃ w : State, instrAtPc u c = some i ∧ (chAt u c).burst = some n ∧ chState u c = chRunning ∧ accessFault u c = none ∧
    src = (match sourceOf u c i with | some (3, p) => if p < 32 then recordsToBring u p else data | _ => data) ∧
    bytesReady u c i n src dst = true ∧ ((spacesInUse u c).contains 2 = false → w = u) ∧ ((spacesInUse u c).contains 2 = true →
    w = disturbSr u ∧ portServes w = true) :=
  ⟨63, (.move false false 1 1 16 0 64), (chan 2 wMove (fun x => { x with busy := true, burst := some 16 }) (live)), 16, [], [], [],
   (chan 2 wMove (fun x => { x with busy := true, burst := some 16 }) (live)), by decide +kernel⟩

theorem witness_DmaInstructionsComplete_14 : ∃ c : Nat, ∃ i : DmaInstr, ∃ u : State, ∃ n, ∃ data : List Byte, ∃ src : List Byte,
    ∃ dst : List Byte, instrAtPc u c = some i ∧ (chAt u c).burst = some n ∧ chState u c = chRunning ∧ accessFault u c = none ∧
    src = (match sourceOf u c i with | some (3, p) => if p < 32 then recordsToBring u p else data | _ => data) ∧
    bytesReady u c i n src dst = true ∧ (spacesInUse u c).contains 2 = true ∧ portServes (disturbSr u) = false :=
  ⟨63, (.move false false 1 2 16 0 64), (chan 2 (1 + 2 ^ 8 + 2 ^ 10 * 2 + 2 ^ 12 * 16 + 2 ^ 80 * 64) (fun x => { x with busy := true, burst := some 16 }) ({ dramUp live with memc := { live.memc with pause := some 9830400 } })),
   16, [], [], [], by decide +kernel⟩

theorem witness_DmaInstructionsComplete_15 : ∃ c : Nat, ∃ i : DmaInstr, ∃ u : State, ∃ a, ∃ b, ∃ d, ∃ e, ∃ n, ∃ g, ∃ h, ∃ p,
    instrAtPc u c = some i ∧ i = .move a b d e n g h ∧ waitsOn u c = some p ∧ chState u c = chRunning ∧ periphRequest u p = true ∧
    (chAt u c).stop = none ∧ accessFault u c = none ∧ othersWant u c = true :=
  ⟨63, (.move false false 3 1 16 0x20 64),
   (let x : State := (chan 2 (wMove + 2 ^ 8 * 2 + 2 ^ 32 * 0x20) (fun x => { x with busy := true }) { live with periph := { live.periph with results := [List.replicate 8 0] } });
   { x with dmas := (3, { (default : DmaCh) with want := true }) :: x.dmas }), false, false, 3, 1, 16, 0x20, 64, 0x20, by decide +kernel,
   by decide +kernel, by decide +kernel, by decide +kernel, by decide +kernel, by decide +kernel, by decide +kernel, by decide +kernel⟩

theorem witness_DmaInstructionsComplete_16 : ∃ c : Nat, ∃ i : DmaInstr, ∃ u : State, ∃ a, ∃ b, ∃ d, ∃ e, ∃ n, ∃ g, ∃ h, ∃ p,
    instrAtPc u c = some i ∧ i = .move a b d e n g h ∧ waitsOn u c = some p ∧ chState u c = chRunning ∧ periphRequest u p = true ∧
    (chAt u c).stop = none ∧ accessFault u c = none ∧ othersWant u c = false ∧
    0 < min (min (periphLevel u p / periphUnit p * periphUnit p) (n - progress u c)) 512 :=
  ⟨63, (.move false false 3 1 16 0x20 64),
   (chan 2 (wMove + 2 ^ 8 * 2 + 2 ^ 32 * 0x20) (fun x => { x with busy := true }) { live with periph := { live.periph with results := [List.replicate 8 0] } }),
   false, false, 3, 1, 16, 0x20, 64, 0x20, by decide +kernel, by decide +kernel, by decide +kernel, by decide +kernel, by decide +kernel,
   by decide +kernel, by decide +kernel, by decide +kernel⟩

theorem witness_LinkContinuesFetchingElsewhere_1 : ∃ (c space addr : Nat), ∃ u : State, poised u c = true ∧ spent u c = false ∧
    instrAtPc u c = some (.link space addr) ∧ c < 64 ∧ (assocGet u.dmas c).isSome = true :=
  ⟨63, 1, 128, (chan 2 wLink id live), by decide +kernel⟩

theorem witness_LinkContinuesFetchingElsewhere_2 : ∃ (c space addr : Nat), ∃ u : State, poised u c = true ∧ spent u c = false ∧
    instrAtPc u c = some (.link space addr) ∧ c < 64 ∧ (assocGet u.dmas c).isSome = true ∧ regionDown u space addr 16 = false ∧
    (space = 0 → u.host.busMaster = true) ∧ addr < 2 ^ 48 ∧ space ≤ 2 ∧ addr % 16 = 0 ∧ regionBad space addr 16 = false :=
  ⟨63, 1, 128, (chan 2 wLink id live), by decide +kernel⟩

theorem witness_DramComplete_1 : ∃ (u w : State), w = settleDram u ∧ asleep u = false :=
  ⟨live, (settleDram (live)), rfl, by decide +kernel⟩

theorem witness_DramComplete_2 : ∃ (u w : State), ∃ k, ∃ start, w = settleDram u ∧ u.memc.step = some (k, start) ∧
    u.time.now ≤ start + stepTimeout k ∧ k ≠ 2 ∧ k ≠ 8 :=
  ⟨{ live with memc := { live.memc with step := some (1, 9830400 - 1966080) } },
   (settleDram ({ live with memc := { live.memc with step := some (1, 9830400 - 1966080) } })), 1, (9830400 - 1966080), rfl,
   by decide +kernel⟩

theorem witness_DramComplete_3 : ∃ (u w : State), ∃ start, ∃ size, w = settleDram u ∧ u.memc.step = some (2, start) ∧
    u.time.now ≤ start + 98304 ∧ 1 ≤ size ∧ size ≤ 3 :=
  ⟨{ live with memc := { live.memc with step := some (2, 9830400 - 98304) } },
   (settleDram ({ live with memc := { live.memc with step := some (2, 9830400 - 98304) } })), (9830400 - 98304), 3, rfl, by decide +kernel⟩

theorem witness_DramComplete_4 : ∃ (u w : State), ∃ start, w = settleDram u ∧ u.memc.step = some (8, start) ∧ u.time.now ≤ start + 1966080 :=
  ⟨{ live with memc := { live.memc with step := some (8, 9830400 - 1966080) } },
   (settleDram ({ live with memc := { live.memc with step := some (8, 9830400 - 1966080) } })), (9830400 - 1966080), rfl, by decide +kernel⟩

theorem witness_DramComplete_5 : ∃ (u w : State), ∃ k, ∃ start, w = settleDram u ∧ u.memc.step = some (k, start) :=
  ⟨{ live with memc := { live.memc with step := some (8, 0) } }, (settleDram ({ live with memc := { live.memc with step := some (8, 0) } })),
   8, 0, rfl, by decide +kernel⟩

theorem witness_DramComplete_6 : ∃ (u w : State), ∃ d, w = settleDram u ∧ w.memc.due = some d ∧ d ≤ w.time.now ∧ w.memc.gather = none ∧
    w.memc.ready = false ∧ w.memc.pause = none ∧ flag w F.MEMC_STATUS_SR = false ∧ w.memc.change = none :=
  ⟨{ live with memc := { live.memc with due := some 9830400 } }, (settleDram ({ live with memc := { live.memc with due := some 9830400 } })),
   9830400, rfl, by decide +kernel⟩

theorem witness_DramComplete_7 : ∃ (u w : State), ∃ d, w = settleDram u ∧ w.memc.due = some d ∧ d ≤ w.time.now ∧ w.memc.gather = none ∧
    w.memc.ready = false ∧ w.memc.pause = none ∧ (flag w F.MEMC_STATUS_SR = true ∨ w.memc.change.isSome = true) :=
  ⟨(put { dramUp live with memc := { live.memc with due := some 9830400 } } [(F.MEMC_STATUS_SR, 1)]),
   (settleDram ((put { dramUp live with memc := { live.memc with due := some 9830400 } } [(F.MEMC_STATUS_SR, 1)]))), 9830400, rfl,
   by decide +kernel⟩

theorem witness_DramComplete_8 : ∃ (u w : State), ∃ g, w = settleDram u ∧ w.memc.gather = some g ∧ g + 16384 ≤ w.time.now :=
  ⟨{ live with memc := { live.memc with gather := some (9830400 - 16384) } },
   (settleDram ({ live with memc := { live.memc with gather := some (9830400 - 16384) } })), (9830400 - 16384), rfl, by decide +kernel⟩

theorem witness_DramComplete_9 : ∃ (u w : State), w = settleDram u ∧ w.memc.ready = true ∧ spanFree w 2048 = true ∧ w.memc.change = none ∧
    asleepDram w = false :=
  ⟨{ live with memc := { live.memc with ready := true } }, (settleDram ({ live with memc := { live.memc with ready := true } })), rfl,
   by decide +kernel⟩

theorem witness_DramComplete_10 : ∃ (u w : State), ∃ p, ∃ fail0 : Bool, ∃ fail1 : Bool, w = settleDram u ∧ u.memc.pause = some p ∧
    u.time.now ≤ p + 1180 ∧ fail0 = false ∧ fail1 = false :=
  ⟨({ dramUp live with memc := { live.memc with pause := some 9830400 } }),
   (settleDram (({ dramUp live with memc := { live.memc with pause := some 9830400 } }))), 9830400, false, false, rfl, by decide +kernel⟩

theorem witness_DramComplete_11 : ∃ (u w : State), ∃ p, ∃ fail0 : Bool, ∃ fail1 : Bool, w = settleDram u ∧ u.memc.pause = some p ∧
    u.time.now ≤ p + 1180 ∧ (fail0 = true ∨ fail1 = true) :=
  ⟨({ dramUp live with memc := { live.memc with pause := some 9830400 } }),
   (settleDram (({ dramUp live with memc := { live.memc with pause := some 9830400 } }))), 9830400, true, false, rfl, by decide +kernel⟩

theorem witness_DramComplete_12 : ∃ (u w : State), ∃ p, w = settleDram u ∧ u.memc.pause = some p ∧ p + 1180 ≤ u.time.now :=
  ⟨({ dramUp live with memc := { live.memc with pause := some 9829220 } }),
   (settleDram (({ dramUp live with memc := { live.memc with pause := some 9829220 } }))), 9829220, rfl, by decide +kernel⟩

theorem witness_DramComplete_13 : ∃ (u w : State), ∃ p, w = settleDram u ∧ u.memc.pause = some p ∧ p + 1180 < u.time.now :=
  ⟨({ dramUp live with memc := { live.memc with pause := some 9829219 } }),
   (settleDram (({ dramUp live with memc := { live.memc with pause := some 9829219 } }))), 9829219, rfl, by decide +kernel⟩

theorem witness_DramComplete_14 : ∃ (u w : State), w = settleDram u ∧ dramTrained w = true ∧ asleepDram w = false ∧
    ((flag w F.MEMC_CTRL_SR_EN = true ∧ portIdle w = true) ∨ (w.power.phase = .store ∧ portQuiet w = true)) :=
  ⟨(put (dramUp live) [(F.MEMC_CTRL_SR_EN, 1)]), (settleDram ((put (dramUp live) [(F.MEMC_CTRL_SR_EN, 1)]))), rfl, by decide +kernel⟩

theorem witness_DramComplete_15 : ∃ (u w : State), ∃ e, w = settleDram u ∧ w.memc.entry = some e ∧ e + 48 ≤ w.time.now :=
  ⟨{ live with memc := { live.memc with entry := some (9830400 - 48) } },
   (settleDram ({ live with memc := { live.memc with entry := some (9830400 - 48) } })), (9830400 - 48), rfl, by decide +kernel⟩

theorem witness_DramComplete_16 : ∃ (u w : State), w = settleDram u ∧ u.memc.exit.isSome = true :=
  ⟨{ live with memc := { live.memc with exit := some 0 } }, (settleDram ({ live with memc := { live.memc with exit := some 0 } })), rfl,
   by decide +kernel⟩

theorem witness_DramComplete_17 : ∃ (u w : State), ∃ source, ∃ addr, ∃ len, w = settleDram u ∧ asleep u = false ∧ dramTrained u = true ∧
    source ≤ 5 ∧ 1 ≤ len ∧ addr % 64 + len ≤ 64 ∧ addr + len ≤ u.dramSize :=
  ⟨(dramUp live), (settleDram ((dramUp live))), 5, (2 ^ 31 - 64), 64, rfl, by decide +kernel⟩

theorem witness_DramComplete_18 : ∃ (u w : State), ∃ source, ∃ write : Bool, ∃ addr, ∃ len, ∃ drained : Nat,
    let v := disturbSr (if portServes w = true ∧ ((∀ x ∈ w.memc.waiting,
    x.write = true) ∨ 48 ≤ w.memc.queue.length) then writeBack w (w.memc.queue.take drained) else w);
    let x : DramReq := { source := source, write := write, addr := addr, len := len };
    let r := modMemc v fun m => { m with waiting := m.waiting ++ [x] }; w = settleDram u ∧ asleep u = false ∧ dramTrained u = true ∧
    source ≤ 5 ∧ 1 ≤ len ∧ addr % 64 + len ≤ 64 ∧ addr + len ≤ u.dramSize ∧ portServes r = false :=
  ⟨(put (dramUp live) [(F.MEMC_STATUS_SR, 1)]), (settleDram ((put (dramUp live) [(F.MEMC_STATUS_SR, 1)]))), 5, true, (2 ^ 31 - 64), 64, 0,
   rfl, by decide +kernel⟩

theorem witness_DramComplete_19 : ∃ (u w : State), ∃ source, ∃ write : Bool, ∃ addr, ∃ len, ∃ drained : Nat,
    let v := disturbSr (if portServes w = true ∧ ((∀ x ∈ w.memc.waiting,
    x.write = true) ∨ 48 ≤ w.memc.queue.length) then writeBack w (w.memc.queue.take drained) else w);
    let x : DramReq := { source := source, write := write, addr := addr, len := len };
    let r := modMemc v fun m => { m with waiting := m.waiting ++ [x] }; w = settleDram u ∧ asleep u = false ∧ dramTrained u = true ∧
    source ≤ 5 ∧ 1 ≤ len ∧ addr % 64 + len ≤ 64 ∧ addr + len ≤ u.dramSize ∧ portServes r = true ∧ v.memc.waiting = [] ∧ v.memc.w2 = [] :=
  ⟨(dramUp live), (settleDram ((dramUp live))), 5, true, (2 ^ 31 - 64), 64, 0, rfl, by decide +kernel⟩

theorem witness_DramComplete_20 : ∃ (u w : State), ∃ e, w = settleDram u ∧ u.memc.entry = some e ∧ u.memc.exit = none ∧
    u.memc.pause = none ∧ u.memc.change = none ∧ u.time.now ≤ e + 48 ∧ u.memc.owed = false :=
  ⟨{ dramUp live with memc := { live.memc with entry := some (9830400 - 48) } },
   (settleDram ({ dramUp live with memc := { live.memc with entry := some (9830400 - 48) } })), (9830400 - 48), rfl, by decide +kernel⟩

theorem witness_DramComplete_21 : ∃ (u w : State), ∃ e, w = settleDram u ∧ u.memc.entry = some e ∧ u.memc.exit = none ∧
    u.memc.pause = none ∧ u.memc.change = none ∧ e + 48 < u.time.now :=
  ⟨{ dramUp live with memc := { live.memc with entry := some (9830400 - 49) } },
   (settleDram ({ dramUp live with memc := { live.memc with entry := some (9830400 - 49) } })), (9830400 - 49), rfl, by decide +kernel⟩

theorem witness_DramComplete_22 : ∃ (u w : State), w = settleDram u ∧ flag w F.MEMC_STATUS_RATE_PENDING = true ∧ dramTrained w = true ∧
    asleep w = false ∧ w.memc.change = none ∧ w.memc.gather = none ∧ w.memc.ready = false ∧ w.memc.pause = none ∧ spanFree w 6143 = true :=
  ⟨(put (dramUp live) [(F.MEMC_STATUS_RATE_PENDING, 1)]), (settleDram ((put (dramUp live) [(F.MEMC_STATUS_RATE_PENDING, 1)]))), rfl,
   by decide +kernel⟩

theorem witness_DramComplete_23 : ∃ (u w : State), ∃ n, ∃ rate, w = settleDram u ∧ u.memc.change = some (n, rate) :=
  ⟨{ live with memc := { live.memc with change := some (0, 1) } }, (settleDram ({ live with memc := { live.memc with change := some (0, 1) } })),
   0, 1, rfl, by decide +kernel⟩

theorem witness_PowerEntryComplete_1 : ∃ c : Cmd, ∃ u : State, ∃ f : Flight, mayRun u 0x48 c [] f ∧ p8 c 20 ≤ 1 ∧ (u.part = .iza6448 →
    bitsOf (bitsOf (p32 c 16) 0 24) 12 2 = 0) ∧ (sched c = true → inWindow u c f ((bitsSet (bitsOf (p32 c 16) 0 24) 19).map fun d => (0x48,
    d, 0))) :=
  ⟨(cmd 0x48 1 0 later [(16, 0x7FFF8), (20, 1)]), (withCmd live (cmd 0x48 1 0 later [(16, 0x7FFF8), (20, 1)])), (fly (cmd 0x48 1 0 later [(16, 0x7FFF8), (20, 1)])),
   by decide +kernel⟩

theorem witness_PowerEntryComplete_2 : ∃ u : State, ∃ d, ∃ j, dueJob u d = some j ∧ (j.left.filter fun x => x.1 != d) = [] :=
  ⟨(powered live fun p => { p with jobs := [{ on := false, left := [(12, 9830400)] }] }), 12, { on := false, left := [(12, 9830400)] },
   by decide +kernel⟩

theorem witness_PowerEntryComplete_3 : ∃ u : State, asleep u = false :=
  ⟨live, by decide +kernel⟩

theorem witness_PowerEntryComplete_4 : ∃ u : State, u.power.phase = .run ∧ entryRequested u = true ∧ (parkedChannel u).isSome = true ∧
    u.trust.since = none ∧ u.power.wakeLow = false ∧ u.power.source = none :=
  ⟨(parked live), by decide +kernel⟩

theorem witness_PowerEntryComplete_5 : ∃ (u v : State), v = cancelActs u ∧ u.power.phase = .drain ∧
    (drained v = true ∨ u.power.entryAt + 983040 ≤ u.time.now) :=
  ⟨(powered live fun p => { p with phase := .drain }), (cancelActs (powered live fun p => { p with phase := .drain })), rfl,
   by decide +kernel, .inl (by decide +kernel)⟩

theorem witness_PowerEntryComplete_6 : ∃ u : State, u.power.phase = .store ∧ u.power.source = none ∧ u.power.wakeLow = false ∧
    memorySafe u = true :=
  ⟨(powered live fun p => { p with phase := .store }), by decide +kernel⟩

theorem witness_PowerEntryComplete_7 : ∃ u : State, u.power.phase = .settle ∧ u.power.source = none :=
  ⟨(powered live fun p => { p with phase := .settle }), by decide +kernel⟩

theorem witness_PowerEntryComplete_8 : ∃ u : State, ∃ n, u.power.phase = .settle ∧ u.power.source = some n :=
  ⟨(powered live fun p => { p with phase := .settle, source := some (4, 0) }), (4, 0), by decide +kernel⟩

theorem witness_PowerEntryComplete_9 : ∃ u : State, u.power.phase = .settle ∧ u.time.now = u.power.commitAt ∧ u.power.wakeLow = false :=
  ⟨(powered live fun p => { p with phase := .settle, commitAt := 9830400 }), by decide +kernel⟩

theorem witness_PowerEntryComplete_10 : ∃ u : State, ∃ ch,
    let v := satAdd (setF (stopEntry u) F.PWR_MODE_TARGET u.power.back) F.PWR_STAT_CANCELLED 1; entering u = true ∧
    (u.power.source.isSome = true ∨ u.power.wakeLow = true) ∧ parkedChannel v = some ch :=
  ⟨(powered (parked live) fun p => { p with phase := .drain, source := some (4, 0) }), 63, by decide +kernel⟩

theorem witness_PowerEntryComplete_11 : ∃ u : State, u.power.wakeLow = false :=
  ⟨live, by decide +kernel⟩

theorem witness_PowerEntryComplete_13 : ∃ data : Nat, ∃ u : State, bitAt data 0 = true ∧ asleep u = false :=
  ⟨1, live, by decide +kernel⟩

theorem witness_PowerEntryComplete_14 : ∃ data : Nat, ∃ u : State, bitAt data 0 = true ∧ asleep u = true ∧ u.power.link = true :=
  ⟨1, (powered live fun p => { p with phase := .low, link := true }), by decide +kernel⟩

theorem witness_PowerEntryComplete_15 : ∃ u : State, u.power.timer = true ∧ getN u A.PWR_WICK_WAKE_TIMER ≠ 0 ∧
    u.power.commitAt + wickMin * getN u A.PWR_WICK_WAKE_TIMER ≤ u.time.now :=
  ⟨(setN (powered live fun p => { p with phase := .low, commitAt := 9830400 - 30000, timer := true }) A.PWR_WICK_WAKE_TIMER 1),
   by decide +kernel⟩

theorem witness_PowerEntryComplete_16 : ∃ source, source = 3 :=
  ⟨3, by decide +kernel⟩

theorem witness_PowerEntryComplete_17 : ∃ source, source ≠ 3 :=
  ⟨1, by decide +kernel⟩

theorem witness_WakeSequenceComplete_1 : ∃ u : State, u.power.phase = .wake ∧ u.power.seq.stage = 0 ∧ u.power.seq.since ≤ u.time.now ∧
    u.power.seq.step = 11 :=
  ⟨(seqAt 11 0 9830400 false), by decide +kernel⟩

theorem witness_WakeSequenceComplete_2 : ∃ u : State, u.power.phase = .wake ∧ u.power.seq.stage = 0 ∧ u.power.seq.since ≤ u.time.now ∧
    (u.power.seq.step = 9 ∨ u.power.seq.step = 10 ∨ u.power.seq.step = 12) :=
  ⟨(seqAt 9 0 9830400 false), by decide +kernel⟩

theorem witness_WakeSequenceComplete_3 : ∃ u : State, u.power.phase = .wake :=
  ⟨(seqAt 9 0 9830400 false), by decide +kernel⟩

theorem witness_WakeSequenceComplete_4 : ∃ u : State, u.power.phase = .wake ∧ u.power.seq.stage = 0 ∧ u.power.seq.since ≤ u.time.now ∧
    u.power.seq.step ≤ 8 :=
  ⟨(seqAt 8 0 9830400 false), by decide +kernel⟩

theorem witness_WakeSequenceComplete_5 : ∃ u : State, u.power.phase = .wake ∧ u.power.seq.stage = 1 ∧ u.power.seq.step < 12 ∧
    u.power.seq.since + wickMin * stepDelay u.power.deep u.power.seq.step ≤ u.time.now :=
  ⟨(seqAt 11 1 (9830400 - 30000) false), by decide +kernel⟩

theorem witness_WakeSequenceComplete_6 : ∃ u : State, u.power.phase = .wake ∧ u.power.seq.stage = 0 ∧ u.power.seq.step < 12 ∧
    u.power.seq.again = false ∧ u.power.seq.since + wickMin * stepLimit u.power.seq.step ≤ u.time.now :=
  ⟨(seqAt 11 0 (9830400 - 1980000) false), by decide +kernel⟩

theorem witness_WakeSequenceComplete_7 : ∃ u : State, u.power.phase = .wake ∧ u.power.seq.stage = 0 ∧ u.power.seq.step < 12 ∧
    u.power.seq.again = true ∧ u.power.seq.since + wickMin * stepLimit u.power.seq.step ≤ u.time.now :=
  ⟨(seqAt 11 0 (9830400 - 1980000) true), by decide +kernel⟩

theorem witness_WakeSequenceComplete_8 : ∃ u : State, u.power.phase = .wake ∧ u.power.seq.stage = 2 ∧
    u.power.seq.since + 33 * wickMin ≤ u.time.now :=
  ⟨(seqAt 8 2 (9830400 - 990000) false), by decide +kernel⟩

theorem witness_WakeSequenceComplete_9 : ∃ u : State, u.power.phase = .wake ∧ u.power.seq.stage = 1 ∧ u.power.seq.step = 12 ∧
    u.power.seq.since + wickMin * stepDelay u.power.deep 12 ≤ u.time.now :=
  ⟨(seqAt 12 1 0 false), by decide +kernel⟩

theorem witness_ResetsComplete_1 : ∃ u : State, u.power.resetLow = false :=
  ⟨live, by decide +kernel⟩

theorem witness_ResetsComplete_2 : ∃ u : State, u.power.resetLow = true :=
  ⟨(powered live fun p => { p with resetLow := true }), by decide +kernel⟩

theorem witness_ResetsComplete_4 : ∃ data : Nat, ∃ u : State, asleep u = false ∧ bitAt data 0 = true :=
  ⟨1, live, by decide +kernel⟩

theorem witness_ResetsComplete_5 : ∃ t : Nat, ∃ s : State, ∃ n, ∃ w, w = moveTime n s ∧ s.power.chipAt = some n ∧ s.time.now < n ∧ n ≤ t :=
  ⟨9860400, (powered live fun p => { p with chipAt := some 9860400 }), 9860400,
   (moveTime 9860400 (powered live fun p => { p with chipAt := some 9860400 })), rfl, by decide +kernel⟩

theorem witness_ResetsComplete_6 : ∃ u : State, ∃ n, u.power.chipEnd = some n ∧ n ≤ u.time.now ∧ u.power.phase = .held ∧
    u.power.resetLow = false :=
  ⟨(powered live fun p => { p with phase := .held, chipEnd := some 9830400 }), 9830400, by decide +kernel⟩

theorem witness_ResetsComplete_8 : ∃ r : Reg, (r.addr < 0x200100 ∨ 0x200200 ≤ r.addr) :=
  ⟨⟨0x200200, 5⟩, by decide +kernel⟩

theorem witness_TrustComplete_1 : ∃ u : State, ∃ k, ∃ b, u.trust.boot = .load k ∧ 256 ≤ b.length ∧ headerMalformed b = false ∧
    b.length = imageTotal b :=
  ⟨{ live with trust := { live.trust with boot := .load 1 } }, 1, header, by decide +kernel⟩

theorem witness_TrustComplete_2 : ∃ u : State, ∃ k, ∃ b : List Byte, u.trust.boot = .load k ∧ 256 ≤ b.length ∧ headerMalformed b = true :=
  ⟨{ live with trust := { live.trust with boot := .load 1 } }, 1, (List.replicate 256 0), by decide +kernel⟩

theorem witness_TrustComplete_3 : ∃ u : State, ∃ k, u.trust.boot = .load k :=
  ⟨{ live with trust := { live.trust with boot := .load 1 } }, 1, by decide +kernel⟩

theorem witness_TrustComplete_4 : ∃ u : State, asleep u = false :=
  ⟨live, by decide +kernel⟩

theorem witness_TrustComplete_5 : ∃ u : State, ∃ rest, ∃ fuses, ∃ copy, u.trust.jobs = .boot fuses :: rest ∧ u.trust.boot = .verify copy :=
  ⟨{ live with trust := { live.trust with jobs := [.boot { customer := 0, policy := 0, epochs := 0 }], boot := .verify none } }, [],
   { customer := 0, policy := 0, epochs := 0 }, none, by decide +kernel⟩

theorem witness_TrustComplete_6 : ∃ u : State, ∃ rest, ∃ fuses, ∃ first, ∃ total, u.trust.jobs = .stage fuses first total :: rest :=
  ⟨{ live with trust := { live.trust with jobs := [.stage { customer := 0, policy := 0, epochs := 0 } 8 256] } }, [], { customer := 0, policy := 0, epochs := 0 },
   8, 256, by decide +kernel⟩

theorem witness_TrustComplete_7 : ∃ u : State, ∃ rest, ∃ first, ∃ total, u.trust.jobs = .activate first total :: rest :=
  ⟨{ live with trust := { live.trust with jobs := [.activate 8 256] } }, [], 8, 256, by decide +kernel⟩

theorem witness_TrustComplete_8 : ∃ u : State, u.trust.boot = .starting :=
  ⟨{ live with trust := { live.trust with boot := .starting } }, by decide +kernel⟩

theorem witness_TrustComplete_9 : ∃ u : State, ∃ n, ∃ x, u.trust.since = some n ∧ u.trust.new = some x ∧ u.time.now ≤ n + 196608000 :=
  ⟨{ live with trust := { live.trust with since := some 9830400, new := some blank } }, 9830400, blank, by decide +kernel⟩

theorem witness_TrustComplete_10 : ∃ u : State, ∃ n, u.trust.since = some n ∧ n + 196608000 ≤ u.time.now :=
  ⟨(at' { live with trust := { live.trust with since := some 0, new := some blank } } 196608000), 0, by decide +kernel⟩

theorem witness_TrustComplete_11 : ∃ u : State, ∃ v, u.trust.fuse = some (3, v) :=
  ⟨{ live with trust := { live.trust with fuse := some (3, 1) } }, 1, by decide +kernel⟩

theorem witness_FusesAreOnlyEverSet_1 : ∃ (s s' : State), step s = .next s' :=
  ⟨live, (advance 9830401 live), rfl⟩

theorem witness_CountersComplete_1 : ∃ a : Nat, ∃ u : State, asleep u = false ∧ a < 4 :=
  ⟨3, live, by decide +kernel⟩

theorem witness_CountersComplete_2 : ∃ a : Nat, ∃ (u w : State), ∃ k : Nat, w = settlePmc u a ∧ a < 4 ∧ flag w (F.PMC_SAMP_EN a) = true ∧
    apStarted w = true ∧ k = max (w.pmc.taken.getD a 0 / sampleEvery w a) (w.pmc.sampled.getD a 0 / sampleEvery w a) + 1 ∧
    sampleEvery w a * k ≤ w.pmc.sampled.getD a 0 + occurrences w a (getF w (F.PMC_SAMP_EVENT a)) u.time.now (u.time.now + 1) :=
  ⟨3, sampling, (settlePmc sampling 3), 2, rfl, by decide +kernel⟩

theorem witness_CountersComplete_3 : ∃ u : State, samplesFull u = true ∧ u.pmc.cycle.1 ≠ u.time.now :=
  ⟨(put live [(F.PMC_SAMP_WR_FULL, 1)]), by decide +kernel⟩

theorem witness_CountersComplete_4 : ∃ u : State, samplesFull u = false ∧ u.pmc.cycle.1 ≠ u.time.now :=
  ⟨live, by decide +kernel⟩

theorem witness_CountersComplete_5 : ∃ a : Nat, ∃ u : State, ∃ b, samplesFull u = false ∧ u.pmc.cycle.1 ≠ u.time.now ∧ b < a ∧
    getF u F.PMC_SAMP_WR_WR < 4095 :=
  ⟨3, live, 0, by decide +kernel⟩

end Sys2Proof.Tests
end

section
/-!
The PHASE bit of the entries that the device writes to completion and event rings (R80), and reads through PF1 (R60, R478).
-/
namespace Sys2Proof.Machine

/-! ## PHASE of an index (R80) -/

/-- PHASE is one bit wide. -/
theorem phaseOf_le_one (i size : Nat) : phaseOf i size ≤ 1 := Nat.sub_le _ _

theorem phaseOf_of_lt {i size : Nat} (h : i < size) : phaseOf i size = 1 := by
  simp [phaseOf, Nat.div_eq_of_lt h]

theorem phaseOf_add_size (i : Nat) {size : Nat} (h : 0 < size) : phaseOf (i + size) size = 1 - phaseOf i size := by
  have wrap : (i + size) / size = i / size + 1 := Nat.add_div_right i h
  unfold phaseOf
  omega

/-! ## The PHASE bit within an entry (R78, R82) -/

/-- Byte 3, bit 0: TAG and STATUS stay below the bit, and what stands above it is a multiple of its double. -/
theorem bitsOf_cplEntry_phase {c : Cpl} {phase : Nat} (htag : c.tag < 2 ^ 16) (hstatus : c.status < 2 ^ 8) (hphase : phase ≤ 1) :
    bitsOf (cplEntry c phase % 256 ^ 16) 24 1 = phase := by
  unfold cplEntry
  simp only [bitsOf, Nat.shiftLeft_eq, Nat.shiftRight_eq_div_pow]
  split <;> split <;> omega

/-- Byte 2, bit 0: TYPE stays below the bit, and what stands above it is a multiple of its double. -/
theorem bitsOf_evEntry_phase {e : Ev} {phase : Nat} (htype : e.type < 2 ^ 16) (hphase : phase ≤ 1) :
    bitsOf (evEntry e phase % 256 ^ 32) 16 1 = phase := by
  unfold evEntry
  simp only [bitsOf, Nat.shiftLeft_eq, Nat.shiftRight_eq_div_pow]
  split <;> omega

/-! ## What a written entry leaves in the record of outputs -/

theorem writeRequests_zero_len (n a v : Nat) : writeRequests n a 0 v = [] := by
  cases n <;> simp [writeRequests]

/-- A write that fits one payload and does not cross a 4 KiB boundary is one request (R56). -/
theorem writeRequests_single {n a len v : Nat} (hpos : 0 < len) (hlen : len ≤ 512) (hpage : a % 4096 + len ≤ 4096) :
    writeRequests (n + 1) a len v = [.hostWrite a len (v % 256 ^ len)] := by
  have whole : min len (min 512 (4096 - a % 4096)) = len := by omega
  simp [writeRequests, whole, Nat.ne_of_gt hpos, writeRequests_zero_len]

@[simp] theorem modOutRing_out (s : State) (kind r : Nat) (f : OutRing → OutRing) : (modOutRing s kind r f).out = s.out := by
  unfold modOutRing; split <;> rfl

@[simp] theorem leaveFlight_out (s : State) (id : Nat) : (leaveFlight s id).out = s.out := rfl

theorem mem_sendMsix_out {x : Nat × Output} {s : State} (vec : Nat) (h : x ∈ s.out) : x ∈ (sendMsix s vec).out := by
  unfold sendMsix
  split
  · exact List.mem_append_left _ h
  · exact h

theorem mem_noteWritten_out {x : Nat × Output} {s : State} (kind r : Nat) (h : x ∈ s.out) : x ∈ (noteWritten s kind r).out := by
  unfold noteWritten
  dsimp only
  split
  · exact mem_sendMsix_out _ (by simpa using h)
  · simpa using h

/-- The doorbell word and the message that follow an entry take nothing out of the record, so its requests stand there. -/
theorem mem_writeEntry_out {o : Output} {s : State} {kind r len val : Nat}
    (h : o ∈ writeRequests (len / 256 + 2) (outBase s kind r + len * ((outRing s kind r).pi % outSize s kind r)) len val) :
    (s.time.now, o) ∈ (writeEntry s kind r len val).out := by
  refine mem_noteWritten_out kind r ?_
  simp only [hostWrite_out, modOutRing_out]
  exact List.mem_append_left _ (List.mem_append_right _ (List.mem_map_of_mem h))

/-- An entry of 16 or 32 bytes of a ring whose base is 64-byte aligned (R68) goes out as one request. -/
theorem hostWrite_mem_writeEntry_out {s : State} {kind r len : Nat} (val : Nat) (hlen : len = 16 ∨ len = 32)
    (hbase : outBase s kind r % 64 = 0) :
    (s.time.now, Output.hostWrite (outBase s kind r + len * ((outRing s kind r).pi % outSize s kind r)) len (val % 256 ^ len))
      ∈ (writeEntry s kind r len val).out := by
  apply mem_writeEntry_out
  rw [writeRequests_single]
  · exact List.mem_singleton_self _
  · omega
  · omega
  · rcases hlen with rfl | rfl <;> omega

theorem writeCpl_out (s : State) (c : Cpl) :
    (writeCpl s c).out
      = (writeEntry s 1 c.cq 16 (cplEntry c (phaseOf (outRing s 1 c.cq).pi (outSize s 1 c.cq)))).out := by
  unfold writeCpl
  split <;> simp

/-! ## Reads through PF1 (R60, R478) -/

theorem pf1Word_hidden {s : State} (h : flag s F.HOST_IF_CTRL_COUNTER_EXPOSE = false) (a : Nat) : pf1Word s a = (s, 0) := by
  simp [pf1Word, h]

theorem pf1Words_hidden {s : State} (h : flag s F.HOST_IF_CTRL_COUNTER_EXPOSE = false) (a n : Nat) : pf1Words s a n = (s, 0) := by
  induction n generalizing a with
  | zero => rfl
  | succ n ih => simp [pf1Words, pf1Word_hidden h, ih]

theorem pf1Word_listed {s : State} {a b : Nat} (hexp : flag s F.HOST_IF_CTRL_COUNTER_EXPOSE = true) (hawake : asleep s = false)
    (hsrc : pf1Source a = some b) : pf1Word s a = viewWord s b false := by
  simp [pf1Word, hexp, hawake, hsrc]

theorem pf1Word_unlisted {s : State} {a : Nat} (hexp : flag s F.HOST_IF_CTRL_COUNTER_EXPOSE = true) (hawake : asleep s = false)
    (hsrc : pf1Source a = none) : pf1Word s a = (s, 0) := by
  simp [pf1Word, hexp, hawake, hsrc]

@[simp] theorem pf1Words_one (s : State) (a : Nat) : pf1Words s a 1 = pf1Word s a := by simp [pf1Words]

theorem exec_pf1Read_write (t : Nat) {x : Sys2Proof.Access} (s : State) (h : x.write = true) :
    exec (.pf1Read t x) s = .next (advance t s) := by
  show execPf1Read t x s = _
  simp [execPf1Read, h]

theorem exec_pf1Read_read {t : Nat} {x : Sys2Proof.Access} {s u : State} (hu : u = advance t s) (hread : x.write = false)
    (hup : pcieUp u = true) :
    exec (.pf1Read t x) s = .next
      (emit (pf1Words u (x.addr - x.addr % 4) (ceilDiv (x.addr % 4 + x.len) 4)).1
        (.readData ((pf1Words u (x.addr - x.addr % 4) (ceilDiv (x.addr % 4 + x.len) 4)).2 / 256 ^ (x.addr % 4) % 256 ^ x.len))) := by
  subst hu
  show execPf1Read t x s = _
  simp [execPf1Read, hread, hup]

/-- A read of one aligned word returns that word of PF1. -/
theorem exec_pf1Read_word {t : Nat} {x : Sys2Proof.Access} {s u : State} (hu : u = advance t s) (hread : x.write = false)
    (hup : pcieUp u = true) (halign : x.addr % 4 = 0) (hlen : x.len = 4) :
    exec (.pf1Read t x) s = .next (emit (pf1Word u x.addr).1 (.readData ((pf1Word u x.addr).2 % 2 ^ 32))) := by
  simp [exec_pf1Read_read hu hread hup, halign, hlen, ceilDiv]

end Sys2Proof.Machine
end

section
open Sys2Proof Sys2Proof.Machine

/-- Settles O34: on an aligned ring each entry is one request, whose value holds `phaseOf` of the ring's PI in its PHASE bit. -/
theorem phaseTogglesAtEachWrap : Obligations.PhaseTogglesAtEachWrap := by
  unfold Obligations.PhaseTogglesAtEachWrap
  refine ⟨fun i size hsize => ⟨rfl, phaseOf_of_lt, phaseOf_add_size i hsize⟩, ?_, ?_⟩
  · intro u c htag hstatus hbase
    rw [writeCpl_out]
    exact ⟨_, _, hostWrite_mem_writeEntry_out _ (.inl rfl) hbase, bitsOf_cplEntry_phase htag hstatus (phaseOf_le_one _ _)⟩
  · intro u e htype hbase
    exact ⟨_, _, hostWrite_mem_writeEntry_out _ (.inr rfl) hbase, bitsOf_evEntry_phase htype (phaseOf_le_one _ _)⟩

/-- Settles O37: every word of PF1 is 0 while nothing is exposed, and the word that the table of R478 names once it is. -/
theorem pf1ReadsZeroUnlessExposed : Obligations.Pf1ReadsZeroUnlessExposed := by
  unfold Obligations.Pf1ReadsZeroUnlessExposed
  intro t x s u hu
  refine ⟨fun hwrite => ?_, fun hread hup hhidden => ?_, fun hread hup hexp hawake halign hlen => ⟨fun b hsrc => ?_, fun hsrc => ?_⟩⟩
  · rw [exec_pf1Read_write t s hwrite, hu]
  · simp [exec_pf1Read_read hu hread hup, pf1Words_hidden hhidden]
  · rw [exec_pf1Read_word hu hread hup halign hlen, pf1Word_listed hexp hawake hsrc]
  · simp [exec_pf1Read_word hu hread hup halign hlen, pf1Word_unlisted hexp hawake hsrc]

end

section
/-!
CANCEL (R96): what the late checks of an immediate command answer, and with it the three ends of a CANCEL.
-/
namespace Sys2Proof.Machine

/-! ## The late checks of an immediate command (R98) -/

/-- The opcode's mode decides SCHED of every command that may run. -/
theorem sched_of_mayRun {u : State} {op : Nat} {c : Cmd} {more : List (Nat × Nat)} {f : Flight} {cfg : Bool} {type : Nat}
    (h : mayRun u op c more f) (hrow : opcodeRow op = some (.i, cfg, type)) : sched f.cmd = false := by
  obtain ⟨hop, hturn, hearly⟩ := h
  obtain ⟨-, hcmd, -⟩ := turn_some hturn
  rw [hcmd]
  exact earlyChecks_immediate hearly (hop ▸ hrow)

/-- A resource or object state that does not serve is the answer of a command whose parameters are in range. -/
theorem immediate_refused {u : State} {f : Flight} (hs : sched f.cmd = false) (st : Nat) (mem : Bool) (effect : State → State × Nat) :
    immediate u f false (some st) mem effect = reject u f st := by
  simp [immediate, lateChecks, hs]

theorem immediate_passed {u : State} {f : Flight} (hs : sched f.cmd = false) (effect : State → State × Nat) :
    immediate u f false none false effect = complete (effect u).1 f (effect u).2 := by
  simp [immediate, lateChecks_immediate hs]

/-! ## CANCEL -/

/-- The status with which a CANCEL that names the activations `l` is rejected, if it is (R47, R96). -/
def cancelAnswer (f : Flight) (l : List Pending) : Option Nat :=
  if l.isEmpty then some stNotFound
  else if l.any (fun p => p.tick < f.arrival + leadOf p.cmd) then some stLate else none

theorem cancelAnswer_nil (f : Flight) : cancelAnswer f [] = some stNotFound := rfl

theorem cancelAnswer_late {f : Flight} {l : List Pending} (h : ∃ p ∈ l, p.tick < f.arrival + leadOf p.cmd) :
    cancelAnswer f l = some stLate := by
  obtain ⟨p, hp, hlate⟩ := h
  have nonempty : l ≠ [] := List.ne_nil_of_mem hp
  have late : l.any (fun p => p.tick < f.arrival + leadOf p.cmd) = true := List.any_eq_true.mpr ⟨p, hp, by simpa using hlate⟩
  simp [cancelAnswer, nonempty, late]

theorem cancelAnswer_none {f : Flight} {l : List Pending} (hl : l ≠ []) (h : ∀ p ∈ l, f.arrival + leadOf p.cmd ≤ p.tick) :
    cancelAnswer f l = none := by
  have inTime : l.any (fun p => p.tick < f.arrival + leadOf p.cmd) = false := by simpa using h
  simp [cancelAnswer, hl, inTime]

/-- The activations that a CANCEL removes leave the queue one by one, each with its final completion. -/
def cancelEach (l : List Pending) (u : State) : State := l.foldl (fun v p => endAct v p stCancelled v.time.tick) u

/-- A CANCEL that may run is an immediate command whose state check is `cancelAnswer`; its RING is one of 16. -/
theorem exec_cancel {t : Nat} {c : Cmd} {s u : State} {f : Flight} (hu : u = advance t s) (hrun : mayRun u 0x02 c [] f) :
    exec (.cancel t c) s = .next
      (immediate u f (decide (15 < p8 c 16)) (cancelAnswer f (cancelled u c)) false fun v =>
        (cancelEach (cancelled u c) v, (cancelled u c).length)) := by
  show execCancel t c s = _
  unfold execCancel
  exact runCmd_of_mayRun (more := fun _ => []) hu hrun

end Sys2Proof.Machine
end

section
open Sys2Proof Sys2Proof.Machine

/-- Settles O15: `cancelAnswer` rejects with NOT_FOUND where no activation is named and with LATE where one fails its lead; otherwise
it lets the CANCEL end each of them and count them. -/
theorem cancelRemovesWhatItNames : Obligations.CancelRemovesWhatItNames := by
  unfold Obligations.CancelRemovesWhatItNames
  intro t c s u f hu hrun hring
  have hs : sched f.cmd = false := sched_of_mayRun hrun rfl
  have hbad : decide (15 < p8 c 16) = false := decide_eq_false (Nat.not_lt.mpr hring)
  rw [exec_cancel hu hrun, hbad]
  refine ⟨rfl, fun hnone => ?_, fun hlate => ?_, fun hsome htime => ?_⟩
  · rw [hnone, cancelAnswer_nil, immediate_refused hs]
  · rw [cancelAnswer_late hlate, immediate_refused hs]
  · rw [cancelAnswer_none hsome htime, immediate_passed hs, cancelEach]

end

section
/-!
WS_CREATE (R120): the parameters that its range check refuses, and the slot that already holds a set (R509).
-/
namespace Sys2Proof.Machine

/-- The range check of WS_CREATE: SLOT, DIR, L, S and the columns, the carrier that PARAMS names, and the slots of the library (R120). -/
def wsCreateBad (u : State) (c : Cmd) : Bool :=
  decide (8255 < p16 c 16) || decide (1 < p8 c 18) || decide (p8 c 19 < 1) || decide (64 < p8 c 19) || decide (4 < p8 c 20)
    || decide (512 < p8 c 19 * 2 ^ p8 c 20)
    || (match carrierAt u (handleIdx (p32 c 24)) with
        | some x => x.sLog2 != p8 c 20 || !carries x (p8 c 18)
        | none => true)
    || (isLib (p16 c 16) && decide (getF u F.BEAM_LIB_CTRL_SLOTS ≤ p16 c 16))

/-- The set that WS_CREATE makes holds no data and no staged bank yet; its handle has the next generation of the slot (R87, R120). -/
def createSet (c : Cmd) (u : State) : State × Nat :=
  (putSet (takeGen u 3 (p16 c 16)) (p16 c 16)
     { gen := nextGen u 3 (p16 c 16), dir := p8 c 18, l := p8 c 19, sLog2 := p8 c 20, carrier := p32 c 24, bank := none, data := [] },
    mkHandle 3 (nextGen u 3 (p16 c 16)) (p16 c 16))

/-- A WS_CREATE that may run is an immediate command whose resource check asks for an empty slot. -/
theorem exec_wsCreate {t : Nat} {c : Cmd} {s u : State} {f : Flight} (hu : u = advance t s) (hrun : mayRun u 0x18 c [(1, p32 c 24)] f) :
    exec (.wsCreate t c) s = .next
      (immediate u f (wsCreateBad u c) (if (setAt u (p16 c 16)).isSome then some stNoResource else none) false (createSet c)) := by
  show execWsCreate t c s = _
  unfold execWsCreate
  exact runCmd_of_mayRun (more := fun _ => [(1, p32 c 24)]) hu hrun

theorem wsCreateBad_eq_false {u : State} {c : Cmd} {x : Carrier} (hslot : p16 c 16 ≤ 8255) (hdir : p8 c 18 ≤ 1) (hl : 1 ≤ p8 c 19)
    (hl' : p8 c 19 ≤ 64) (hs : p8 c 20 ≤ 4) (hcols : p8 c 19 * 2 ^ p8 c 20 ≤ 512) (hx : carrierAt u (handleIdx (p32 c 24)) = some x)
    (hsub : x.sLog2 = p8 c 20) (hcarries : carries x (p8 c 18) = true)
    (hlib : p16 c 16 < 8192 → p16 c 16 < getF u F.BEAM_LIB_CTRL_SLOTS) : wsCreateBad u c = false := by
  have hlib' : (isLib (p16 c 16) && decide (getF u F.BEAM_LIB_CTRL_SLOTS ≤ p16 c 16)) = false := by
    simpa [isLib] using hlib
  simp [wsCreateBad, hx, hsub, hcarries, hlib', hslot, hdir, hl', hs, hcols, Nat.pos_iff_ne_zero.mp hl]

/-- A rejection leaves the beam engine as it was. -/
@[simp] theorem reject_beam (s : State) (f : Flight) (status : Nat) : (reject s f status).beam = s.beam :=
  (congrArg State.beam (reject_frame s f status) :)

end Sys2Proof.Machine
end

section
open Sys2Proof Sys2Proof.Machine

/-- Settles O20: the parameters pass the range check, so the occupied slot is what answers, and a rejection leaves the sets alone. -/
theorem wsCreateInAFullSlotIsRefused : Obligations.WsCreateInAFullSlotIsRefused := by
  unfold Obligations.WsCreateInAFullSlotIsRefused
  intro t c s u f x hu hrun hslot hdir hl hl' hs hcols hx hsub hcarries hlib hfull
  have immediateMode : sched f.cmd = false := sched_of_mayRun hrun rfl
  have inRange : wsCreateBad u c = false := wsCreateBad_eq_false hslot hdir hl hl' hs hcols hx hsub hcarries hlib
  have occupied : (setAt u (p16 c 16)).isSome = true := hfull
  refine ⟨reject u f stNoResource, ?_, rfl, reject_beam u f stNoResource⟩
  rw [exec_wsCreate hu hrun, inRange, if_pos occupied, immediate_refused immediateMode]

end

section
/-!
LINK (R382): where a channel stands after its program counter is set, and what its way to the next fetch leaves alone.
-/
namespace Sys2Proof.Machine

/-! ## Words that a channel's operations write -/

theorem getN_setN (s : State) (r : Reg) (v : Nat) : getN (setN s r v) r = v % 2 ^ 32 := by
  simp [getN, setN]

theorem getN_setR_of_ne (s : State) {r q : Reg} (w : Word) (h : q.addr ≠ r.addr) : getN (setR s r w) q = getN s q :=
  congrArg BitVec.toNat (getR_setR_of_ne s w h)

theorem getF_setR_of_ne (s : State) {r : Reg} {f : Fld} (w : Word) (h : f.reg.addr ≠ r.addr) : getF (setR s r w) f = getF s f :=
  congrArg (fun v : Word => bitsOf v.toNat f.lo f.width) (getR_setR_of_ne s w h)

theorem get64_set64 (s : State) {lo hi : Reg} {v : Nat} (h : lo.addr ≠ hi.addr) (hv : v < 2 ^ 64) :
    get64 (set64 s lo hi v) lo hi = v := by
  have low : getN (set64 s lo hi v) lo = v % 2 ^ 32 := by
    rw [set64, setN, getN_setR_of_ne _ _ h, getN_setN, Nat.mod_mod]
  have high : getN (set64 s lo hi v) hi = v / 2 ^ 32 := by
    rw [set64, getN_setN]; omega
  rw [get64, low, high]; omega

/-- A write outside MEMC.STATUS does not take a region of the DRAM away. -/
theorem regionDown_setR_of_ne (s : State) {r : Reg} (w : Word) (h : A.MEMC_STATUS.addr ≠ r.addr) (space addr len : Nat) :
    regionDown (setR s r w) space addr len = regionDown s space addr len := by
  have trained : dramTrained (setR s r w) = dramTrained s := by
    rw [dramTrained, dramTrained, flag, flag, getF_setR_of_ne s w (f := F.MEMC_STATUS_TRAINED) h]
  rw [regionDown, regionDown, trained, setR_dramSize]

/-! ## The program counter (R369, R370) -/

/-- PC holds a 48-bit address with its SPACE in bits [49:48]. -/
theorem chPc_setPc (s : State) (c : Nat) {space addr : Nat} (hspace : space < 4) (haddr : addr < 2 ^ 48) :
    chPc (setPc s c space addr) c = (space, addr) := by
  have stored : get64 (setPc s c space addr) (A.DMA_CH_PC c) (A.DMA_CH_PC_1 c) = addr + 2 ^ 48 * space := by
    rw [setPc, setSpaceAddr, Nat.mod_eq_of_lt haddr, Nat.mod_eq_of_lt hspace]
    exact get64_set64 s (by simp [A.DMA_CH_PC, A.DMA_CH_PC_1]) (by omega)
  rw [chPc, spaceAddr, stored]
  simp only [bitsOf, Nat.shiftRight_eq_div_pow, Prod.mk.injEq]
  omega

theorem chPc_setR_of_ne (s : State) {c : Nat} {r : Reg} (w : Word) (hlo : (A.DMA_CH_PC c).addr ≠ r.addr)
    (hhi : (A.DMA_CH_PC_1 c).addr ≠ r.addr) : chPc (setR s r w) c = chPc s c := by
  have kept : get64 (setR s r w) (A.DMA_CH_PC c) (A.DMA_CH_PC_1 c) = get64 s (A.DMA_CH_PC c) (A.DMA_CH_PC_1 c) := by
    rw [get64, get64, getN_setR_of_ne _ _ hlo, getN_setR_of_ne _ _ hhi]
  rw [chPc, chPc, spaceAddr, spaceAddr, kept]

@[simp] theorem setPc_host (s : State) (c space addr : Nat) : (setPc s c space addr).host = s.host := rfl

@[simp] theorem setDone_host (s : State) (c n : Nat) : (setDone s c n).host = s.host := rfl

@[simp] theorem chPc_setDone (s : State) (c n : Nat) : chPc (setDone s c n) c = chPc s c :=
  chPc_setR_of_ne s _ (by simp [A.DMA_CH_PC, F.DMA_CH_DONE_BYTES, A.DMA_CH_DONE])
    (by simp [A.DMA_CH_PC_1, F.DMA_CH_DONE_BYTES, A.DMA_CH_DONE])

/-! ## A changed channel -/

theorem modCh_of_none {s : State} {c : Nat} (h : assocGet s.dmas c = none) (f : DmaCh → DmaCh) : modCh s c f = s := by
  simp [modCh, h]

theorem modCh_of_some {s : State} {c : Nat} {x : DmaCh} (h : assocGet s.dmas c = some x) (f : DmaCh → DmaCh) :
    modCh s c f = setF { s with dmas := assocPut s.dmas c (f x) } (F.DMA_CH_STATE_LOOP_DEPTH c) (f x).loops.length := by
  simp [modCh, h]

theorem chAt_modCh {s : State} {c : Nat} (h : (assocGet s.dmas c).isSome = true) (f : DmaCh → DmaCh) :
    chAt (modCh s c f) c = f (chAt s c) := by
  obtain ⟨x, hx⟩ := Option.isSome_iff_exists.mp h
  simp [modCh_of_some hx, chAt, hx]

@[simp] theorem modCh_host (s : State) (c : Nat) (f : DmaCh → DmaCh) : (modCh s c f).host = s.host := by
  unfold modCh; split <;> rfl

@[simp] theorem chPc_modCh (s : State) (c : Nat) (f : DmaCh → DmaCh) : chPc (modCh s c f) c = chPc s c := by
  unfold modCh
  split
  · rfl
  · exact chPc_setR_of_ne { s with dmas := _ } _ (by simp [A.DMA_CH_PC, F.DMA_CH_STATE_LOOP_DEPTH, A.DMA_CH_STATE])
      (by simp [A.DMA_CH_PC_1, F.DMA_CH_STATE_LOOP_DEPTH, A.DMA_CH_STATE])

/-! ## Regions stay there while a channel's words change -/

@[simp] theorem regionDown_countStep (s : State) (c space addr len : Nat) :
    regionDown (countStep s c) space addr len = regionDown s space addr len :=
  regionDown_setR_of_ne s _ (by simp only [A.MEMC_STATUS, A.DMA_CH_STEPS]; omega) space addr len

@[simp] theorem regionDown_setDone (s : State) (c n space addr len : Nat) :
    regionDown (setDone s c n) space addr len = regionDown s space addr len :=
  regionDown_setR_of_ne s _ (by simp only [A.MEMC_STATUS, F.DMA_CH_DONE_BYTES, A.DMA_CH_DONE]; omega) space addr len

@[simp] theorem regionDown_setPc (s : State) (c sp a space addr len : Nat) :
    regionDown (setPc s c sp a) space addr len = regionDown s space addr len := by
  unfold setPc setSpaceAddr set64 setN
  rw [regionDown_setR_of_ne _ _ (by simp only [A.MEMC_STATUS, A.DMA_CH_PC_1]; omega),
    regionDown_setR_of_ne _ _ (by simp only [A.MEMC_STATUS, A.DMA_CH_PC]; omega)]

@[simp] theorem regionDown_modCh (s : State) (c : Nat) (f : DmaCh → DmaCh) (space addr len : Nat) :
    regionDown (modCh s c f) space addr len = regionDown s space addr len := by
  unfold modCh
  split
  · rfl
  · exact regionDown_setR_of_ne { s with dmas := _ } _
      (by simp only [A.MEMC_STATUS, F.DMA_CH_STATE_LOOP_DEPTH, A.DMA_CH_STATE]; omega) space addr len

/-! ## A channel that stands at a place with no line held -/

/-- The program counter is `pc`, the loop stack is `loops`, and no line is held: the next instruction is to be fetched (R384). -/
def AwaitsFetch (c : Nat) (pc : Nat × Nat) (loops : List (Nat × Nat × Nat)) (s : State) : Prop :=
  chPc s c = pc ∧ (chAt s c).loops = loops ∧ (chAt s c).line = none

section
variable {s : State} {c : Nat} {pc : Nat × Nat} {loops : List (Nat × Nat × Nat)}

theorem awaitsFetch_modCh {f : DmaCh → DmaCh} (h : AwaitsFetch c pc loops s) (hloops : ∀ x, (f x).loops = x.loops)
    (hline : ∀ x, x.line = none → (f x).line = none) : AwaitsFetch c pc loops (modCh s c f) := by
  obtain ⟨hpc, hl, hn⟩ := h
  rcases hx : assocGet s.dmas c with _ | x
  · rw [modCh_of_none hx]; exact ⟨hpc, hl, hn⟩
  · have changed : chAt (modCh s c f) c = f (chAt s c) := chAt_modCh (by simp [hx]) f
    exact ⟨(chPc_modCh s c f).trans hpc, changed ▸ (hloops _).trans hl, changed ▸ hline _ hn⟩

theorem awaitsFetch_emit {o : Output} (h : AwaitsFetch c pc loops s) : AwaitsFetch c pc loops (emit s o) := h

theorem awaitsFetch_tookTurn (h : AwaitsFetch c pc loops s) : AwaitsFetch c pc loops (tookTurn s c) := h

theorem awaitsFetch_waitTurn (h : AwaitsFetch c pc loops s) : AwaitsFetch c pc loops (waitTurn s c) :=
  awaitsFetch_modCh h (fun _ => rfl) fun _ hn => hn

/-- A turn only asks for the line; it comes with INSTRUCTION_FETCH_COMPLETE. -/
theorem awaitsFetch_fetchTurn (h : AwaitsFetch c pc loops s) : AwaitsFetch c pc loops (fetchTurn s c) := by
  unfold fetchTurn
  split
  · exact awaitsFetch_tookTurn (awaitsFetch_modCh h (fun _ => rfl) fun _ hn => hn)
  · split
    · exact awaitsFetch_tookTurn (awaitsFetch_emit (awaitsFetch_modCh h (fun _ => rfl) fun _ hn => hn))
    · exact awaitsFetch_waitTurn h

theorem wordAtPc_of_line_none (h : (chAt s c).line = none) : wordAtPc s c = none := by
  simp [wordAtPc, h]

/-- Where no fault lies, the channel asks for the line, or waits for its turn to do so. -/
theorem awaitsFetch_seek (h : AwaitsFetch c pc loops s) (hfault : pcFault (modCh s c fun x => { x with line := none }) c = none) :
    AwaitsFetch c pc loops (seek s c) := by
  have dropped : AwaitsFetch c pc loops (modCh s c fun x => { x with line := none }) := awaitsFetch_modCh h (fun _ => rfl) fun _ _ => rfl
  obtain ⟨-, -, hn⟩ := h
  simp only [seek, wordAtPc_of_line_none hn, hfault]
  split
  · exact awaitsFetch_waitTurn dropped
  · exact awaitsFetch_fetchTurn dropped

end

/-! ## LINK -/

theorem pcFault_eq_none {s : State} {c space addr : Nat} (hpc : chPc s c = (space, addr)) (halign : addr % 16 = 0)
    (hbad : regionBad space addr 16 = false) (hdown : regionDown s space addr 16 = false) (hhost : space = 0 → s.host.busMaster = true) :
    pcFault s c = none := by
  simpa [pcFault, hpc, hbad, hdown, halign] using hhost

/-- A jump to a place from which can be fetched ends with the channel there, its loop stack untouched and its line dropped (R382, R384). -/
theorem awaitsFetch_goTo {s : State} {c space addr : Nat} (hch : (assocGet s.dmas c).isSome = true) (haddr : addr < 2 ^ 48)
    (hspace : space ≤ 2) (halign : addr % 16 = 0) (hbad : regionBad space addr 16 = false) (hdown : regionDown s space addr 16 = false)
    (hhost : space = 0 → s.host.busMaster = true) : AwaitsFetch c (space, addr) (chAt s c).loops (goTo s c space addr true) := by
  have pcSet : chPc (setDone (setPc s c space addr) c 0) c = (space, addr) := by
    rw [chPc_setDone, chPc_setPc s c (by omega) haddr]
  have landed : AwaitsFetch c (space, addr) (chAt s c).loops
      (modCh (setDone (setPc s c space addr) c 0) c fun x => { x with busy := false, line := none }) := by
    have changed := chAt_modCh (s := setDone (setPc s c space addr) c 0) hch fun x => { x with busy := false, line := none }
    exact ⟨(chPc_modCh _ c _).trans pcSet, (congrArg DmaCh.loops changed :), congrArg DmaCh.line changed⟩
  have inRange : decide (2 ^ 48 ≤ addr) = false := by simpa using haddr
  simp only [goTo, inRange, if_true]
  refine awaitsFetch_seek landed (pcFault_eq_none (by simpa using pcSet) halign hbad (by simpa using hdown) fun h0 => ?_)
  simpa using hhost h0

theorem exec_link {t c space addr : Nat} {s u : State} (hu : u = advance t s) (hpoised : poised u c = true) (hspent : spent u c = false)
    (hinstr : instrAtPc u c = some (.link space addr)) :
    exec (.link t c) s = .next (goTo (countStep u c) c space addr true) := by
  subst hu
  show execLink t c s = _
  simp [execLink, hpoised, hspent, hinstr]

end Sys2Proof.Machine
end

section
open Sys2Proof Sys2Proof.Machine

/-- Settles O53: LINK is counted and jumps; the jump leaves both memories alone and ends at ADDR in SPACE with the line dropped. -/
theorem linkContinuesFetchingElsewhere : Obligations.LinkContinuesFetchingElsewhere := by
  unfold Obligations.LinkContinuesFetchingElsewhere
  intro t c space addr s u hu hpoised hspent hinstr _ hch
  have jumps := exec_link hu hpoised hspent hinstr
  refine ⟨jumps, fun hdown hhost haddr hspace halign hbad => ⟨_, jumps, ?_⟩⟩
  obtain ⟨-, -, -, store, dram, -⟩ := calm_goTo c space addr true (calm_countStep c (Calm.refl u))
  have down : regionDown (countStep u c) space addr 16 = false := by rw [regionDown_countStep, hdown]
  obtain ⟨pc, loops, line⟩ := awaitsFetch_goTo (s := countStep u c) hch haddr hspace halign hbad down hhost
  exact ⟨pc, loops, line, store, dram⟩

end

section
/-!
Where a command goes on, it goes on `Tame`ly (Laws/Tame): the predicate `TameNext` on outcomes, and its rules for the shapes that many commands
share (a command of the host with its checks, a write to a register, an access through the DRAM port). The next section gives the lemma of
each command; the one command it leaves out is the end of a fuse programming operation.
-/
namespace Sys2Proof.Machine

/-- Every state in which `o` goes on follows from `s` by `Tame` operations. -/
def TameNext (s : State) (o : Out) : Prop := ∀ v, o = .next v → Tame s v

theorem tameNext {s v : State} (h : Tame s v) : TameNext s (.next v) := by
  intro w e; cases e; exact h

theorem calmNext {s v : State} (h : Calm s v) : TameNext s (.next v) := tameNext h.tame

theorem Calm.thenTame {b s v : State} (h : Calm b s) (k : Tame s v) : Tame b v := h.tame.trans k

theorem Tame.thenCalm {b s v : State} (h : Tame b s) (k : Calm s v) : Tame b v := h.trans k.tame

theorem TameNext.of_calm {s u : State} {o : Out} (h : Calm s u) (ho : TameNext u o) : TameNext s o :=
  fun v e => h.thenTame (ho v e)

theorem tame_ite {b x y : State} {p : Prop} [Decidable p] (hx : Tame b x) (hy : Tame b y) : Tame b (if p then x else y) := by
  split <;> assumption

/-! ## Shared shapes of commands -/

/-- A command of the host is `TameNext` when its action, taken only once checks 1 to 3 let it through, is `Tame`. -/
theorem tameNext_runCmd {t op : Nat} {c : Cmd} {s : State} {more : List (Nat × Nat)} {k : State → Flight → State}
    (hk : ∀ u f, Calm s u → mayRun u op c more f → Tame s (k u f)) : TameNext s (runCmd t op c s more k) := by
  have h := calm_advance t (Calm.refl s)
  unfold runCmd
  dsimp only
  split
  · exact calmNext h
  next hop =>
    split
    · exact calmNext h
    next hturn =>
      split
      · exact calmNext (calm_reject _ _ h)
      next hearly => exact tameNext (hk _ _ h ⟨by simpa using hop, hturn, hearly⟩)

theorem calmNext_runCmd {t op : Nat} {c : Cmd} {s : State} {more : List (Nat × Nat)} {k : State → Flight → State}
    (hk : ∀ u f, Calm s u → Calm s (k u f)) : TameNext s (runCmd t op c s more k) :=
  tameNext_runCmd fun u f h _ => (hk u f h).tame

/-- A command that checks 1 to 3 let through is scheduled where its opcode may only be scheduled. -/
theorem sched_of_scheduledOnly {u : State} {op : Nat} {c : Cmd} {more : List (Nat × Nat)} {f : Flight} {cfg : Bool} {type : Nat}
    (hrun : mayRun u op c more f) (hrow : opcodeRow op = some (.s, cfg, type)) : sched f.cmd = true := by
  obtain ⟨hop, hturn, hearly⟩ := hrun
  obtain ⟨-, rfl, -⟩ := turn_some hturn
  exact earlyChecks_scheduled hearly (hop ▸ hrow)

theorem tame_immediate {b s : State} {f : Flight} {bad : Bool} {res : Option Nat} {mem : Bool} {effect : State → State × Nat}
    (h : Calm b s) (he : Tame b (effect s).1) : Tame b (immediate s f bad res mem effect) := by
  unfold immediate
  split
  · exact (calm_reject _ _ h).tame
  · exact he.thenCalm (calm_complete _ _ (Calm.refl _))

theorem calmNext_byWrite {t : Nat} {s : State} {k : State → State} (hk : ∀ u, Calm s u → Calm s (k u)) :
    TameNext s (byWrite t s k) :=
  have h := calm_advance t (Calm.refl s)
  calmNext (calm_ite (calm_blockWrite _ h) (hk _ (calm_countCfg _ h)))

theorem calmNext_byWickWrite {t : Nat} {s : State} {k : State → State} (hk : ∀ u, Calm s u → Calm s (k u)) :
    TameNext s (byWickWrite t s k) :=
  have h := calm_advance t (Calm.refl s)
  calmNext (calm_ite (calm_ite (hk _ (calm_modPower _ h)) h) (hk _ (calm_countCfg _ h)))

/-- A write to a lane or port control word; SLIP, RESTART, the loopback and the lane enables all go through it. -/
theorem tameNext_writeLanes {t q : Nat} {lane : Option Nat} {data : Nat} {s : State} : TameNext s (writeLanes t q lane data s) := by
  refine calmNext_byWrite fun u h => calm_ite h ?_
  split
  · exact calm_writePortCtrl _ _ h
  · exact calm_ite (calm_writeLaneCtrl _ _ _ h) h

theorem tame_throughPort {b s : State} {uses : Bool} {k : State → State} (h : Calm b s) (hk : ∀ u, Calm b u → Tame b (k u)) :
    Tame b (throughPort uses k s) := by
  have h2 := calm_disturbSr h
  obtain ⟨-, e⟩ | ⟨-, -, e⟩ | ⟨-, -, e⟩ := throughPort_cases uses k s <;> rw [e]
  · exact hk _ h
  · exact hk _ h2
  · exact h2.tame

theorem calm_throughPort {b s : State} {uses : Bool} {k : State → State} (h : Calm b s) (hk : ∀ u, Calm b u → Calm b (k u)) :
    Calm b (throughPort uses k s) :=
  have h2 := calm_disturbSr h
  calm_ite (hk _ h) (calm_ite (hk _ h2) h2)

theorem calm_writeConfig {b s : State} {k : State → State} (h : Calm b s) (hk : Calm b (k s)) : Calm b (writeConfig s k) :=
  calm_ite hk (calm_emit _ h)

/-- What an operation sends at an earlier time leaves the time as it is. -/
theorem calm_sentAt {b s : State} (n : Nat) {f : State → State} (h : Calm b s) (hf : ∀ u, Calm u (f u)) : Calm b (sentAt s n f) := by
  refine h.trans ?_
  obtain ⟨pending, part, -, rest⟩ := hf { s with time := { s.time with now := n } }
  exact ⟨pending, part, Nat.le_refl _, rest⟩

theorem tame_sourceWhole {b s : State} {f : Flight} {data : List Byte} (h : Calm b s) : Tame b (sourceWhole s f data) := by
  refine tame_throughPort h fun u hu => Tame.thenCalm (s := if f.cmd.opcode = 0x19 then _ else _) ?_ (calm_pumpShared (Calm.refl _))
  have k := calm_keepSource f [] hu
  exact tame_ite (k.thenTame (tame_wsLoadArrived _ _ _)) (calm_coefArrived _ _ k).tame

end Sys2Proof.Machine
end

section
/-!
Every command but the end of a fuse programming operation is `TameNext`, one lemma each, in the order of the model's files. Each proof follows
the branches of its command and composes the `calm_` and `tame_` rules of the operations on the way.
-/
namespace Sys2Proof.Machine

variable {s : State} {t : Nat} {c : Cmd}

/-! ## The TDD pattern -/

@[simp] theorem tameNext_execTddSwap : TameNext s (execTddSwap t c s) :=
  calmNext_runCmd fun _ _ h => calm_schedulable _ _ _ _ _ _ h h

/-! ## Carriers and path corrections -/

@[simp] theorem tameNext_execCarrierSet : TameNext s (execCarrierSet t c s) := by
  refine tameNext_runCmd (fun u f h hrun => ?_)
  obtain ⟨-, hturn, -⟩ := hrun
  obtain ⟨-, rfl, -⟩ := turn_some hturn
  dsimp only
  split
  · exact h.tame
  · split
    · exact (calm_reject _ _ h).tame
    next hlate =>
      refine Calm.tame ?_
      split
      next hs =>
        have k := calm_accept f (carrierSetKeys f.cmd) [] h (room_of_lateChecks hlate hs)
        exact calm_ite (calm_regrant _ _ _ k) k
      · exact calm_complete _ _ (calm_applyCarrierSet _ _ _ (calm_ite (calm_regrant _ _ _ h) h))

@[simp] theorem tameNext_execCarrierCreate : TameNext s (execCarrierCreate t c s) := by
  refine calmNext_runCmd fun _ _ h => ?_
  dsimp only
  split
  · exact calm_immediate _ _ _ _ _ h h
  · exact calm_immediate _ _ _ _ _ h (calm_putCarrier _ _ (calm_takeGen _ _ h))

@[simp] theorem tameNext_execCarrierDestroy : TameNext s (execCarrierDestroy t c s) :=
  calmNext_runCmd fun _ _ h => calm_immediate _ _ _ _ _ h (calm_cancelNaming _ h)

@[simp] theorem tameNext_execCarrierRestart {carrier : Nat} : TameNext s (execCarrierRestart t carrier s) := by
  have h := calm_advance t (Calm.refl s)
  unfold execCarrierRestart
  dsimp only
  split
  · exact calmNext h
  · split
    · exact calmNext (calm_modCarrier _ _ (calm_restartDl _ _ _ h))
    · exact calmNext (calm_modCarrier _ _ (calm_restartDl _ _ _ h))
    · exact calmNext h

@[simp] theorem tameNext_execUlCarrierRestart {carrier : Nat} : TameNext s (execUlCarrierRestart t carrier s) := by
  have h := calm_advance t (Calm.refl s)
  unfold execUlCarrierRestart
  dsimp only
  split
  · exact calmNext h
  · split
    · exact calmNext h
    · exact calmNext (calm_modCarrier _ _ h)

@[simp] theorem tameNext_execPathCorr : TameNext s (execPathCorr t c s) :=
  calmNext_runCmd fun _ _ h => calm_schedulable _ _ _ _ _ _ h (calm_applyCorr _ _ _ _ _ _ h)

@[simp] theorem tameNext_execCorrWrite {path dir word data : Nat} : TameNext s (execCorrWrite t path dir word data s) :=
  calmNext_byWrite fun _ h => calm_ite (calm_writeCorr _ _ _ _ h) h

/-! ## Performance counters -/

@[simp] theorem tameNext_execClear {ap data : Nat} : TameNext s (execClear t ap data s) :=
  calmNext_byWrite fun _ h => calm_ite (calm_writePmcCtl _ _ h) h

@[simp] theorem tameNext_execCounterWrite {ap addr data : Nat} : TameNext s (execCounterWrite t ap addr data s) :=
  calmNext_byWrite fun _ h => calm_ite (calm_writeCounter _ _ _ h) h

@[simp] theorem tameNext_execSampleRecord {ap addr latency : Nat} : TameNext s (execSampleRecord t ap addr latency s) :=
  have h := calm_settlePmc ap (calm_advance t (Calm.refl s))
  tameNext (tame_ite ((calm_modPmc _ h).thenTame (tame_putSample _ _ _)) h.tame)

/-! ## Captures -/

@[simp] theorem tameNext_execCapCreate : TameNext s (execCapCreate t c s) := by
  unfold execCapCreate
  dsimp only
  refine calmNext_runCmd (fun _ _ h => ?_)
  split
  · refine calm_immediate _ _ _ _ _ h (calm_ownBanks _ _ ?_)
    simp only [↓calm_mk']
    exact calm_takeGen _ _ h
  · exact calm_immediate _ _ _ _ _ h h

@[simp] theorem tameNext_execCapStart : TameNext s (execCapStart t c s) :=
  calmNext_runCmd fun _ _ h => calm_schedulable _ _ _ _ _ _ h (calm_startCapture _ _ h)

@[simp] theorem tameNext_execCapDestroy : TameNext s (execCapDestroy t c s) :=
  calmNext_runCmd fun _ _ h => calm_immediate _ _ _ _ _ h (calm_periphGone _ (calm_releaseBanks _ (calm_cancelNaming _ h)))

@[simp] theorem tameNext_execCaptureStart {job : Nat} : TameNext s (execCaptureStart t job s) := by
  have h := calm_advance t (Calm.refl s)
  unfold execCaptureStart
  dsimp only
  split
  · exact calmNext h
  · split
    · exact calmNext h
    · split
      · exact calmNext (calm_modCapture _ _ h)
      · split
        · exact calmNext (calm_modCapture _ _ h)
        · refine calmNext (calm_modCapture _ _ (calm_setF _ _ (calm_takeOrx _ _ ?_)))
          split
          · exact calm_modCapture _ _ h
          · exact h

/-! ## Predistortion -/

@[simp] theorem tameNext_execDpdTermWrite {k data : Nat} : TameNext s (execDpdTermWrite t k data s) :=
  calmNext_byWrite fun _ h => calm_ite (calm_writeTerm _ _ h) h

@[simp] theorem tameNext_execDpdPolicy : TameNext s (execDpdPolicy t c s) :=
  calmNext_runCmd fun _ _ h => calm_schedulable _ _ _ _ _ _ h (calm_applyPolicy _ h)

@[simp] theorem tameNext_execDpdCoefLoad : TameNext s (execDpdCoefLoad t c s) := by
  refine calmNext_runCmd fun _ _ h => ?_
  dsimp only
  split
  · exact calm_reject _ _ h
  · exact calm_ite (calm_readSource _ _ _ (calm_setStage _ _ h)) (calm_setStage _ _ h)

@[simp] theorem tameNext_execDpdDump : TameNext s (execDpdDump t c s) := by
  refine tameNext_runCmd (fun u f h _ => tame_immediate h ?_)
  dsimp only
  split
  · exact (calm_hostWrite _ _ _ h).tame
  · exact h.thenTame (tame_writeStore _ _ _)
  · exact (calm_disturbSr h).thenTame (tame_writeDram _ _ _)

@[simp] theorem tameNext_execDpdSlotStart {orx : Nat} : TameNext s (execDpdSlotStart t orx s) := by
  have h := calm_advance t (Calm.refl s)
  unfold execDpdSlotStart
  extract_lets u o q v _ x y z
  have hv : Calm s v := by
    unfold v
    split
    · exact calm_ite (calm_finishVisit _ _ h) (calm_dropVisit _ h)
    · exact h
  have hy : Calm s y := calm_modOrx (s := x) _ _ hv
  have hz : Calm s z := calm_ite (calm_setF _ _ hy) hy
  split
  · exact calmNext h
  · exact calmNext (calm_ite (calm_startDpdSlot _ hz) (calm_ite (calm_setF _ _ hz) hz))

@[simp] theorem tameNext_execDpdCaptureStart {orx : Nat} : TameNext s (execDpdCaptureStart t orx s) := by
  have h := calm_advance t (Calm.refl s)
  unfold execDpdCaptureStart
  dsimp only
  split
  · exact calmNext h
  · split
    · exact calmNext h
    · split
      · exact calmNext (calm_dropVisit _ h)
      · exact calmNext (calm_noteStart _ _ (calm_modOrx _ _ (calm_setF _ _ (calm_setF _ _ h))))

@[simp] theorem tameNext_execDpdCaptureEnd {orx : Nat} : TameNext s (execDpdCaptureEnd t orx s) := by
  have h := calm_advance t (Calm.refl s)
  unfold execDpdCaptureEnd
  dsimp only
  split
  · exact calmNext h
  · exact calmNext (calm_ite (calm_finishVisit _ _ h) h)

@[simp] theorem tameNext_execDpdSolveDone {path bin : Nat} {better : Bool} {base : Option Coefs} {data : Coefs} :
    TameNext s (execDpdSolveDone t path bin better base data s) :=
  tameNext ((calm_advance t (Calm.refl s)).thenTame (tame_solveDone _ _ _ _ _ _))

@[simp] theorem tameNext_execSpectrumMonitorCapture {orx path aclr evm : Nat} :
    TameNext s (execSpectrumMonitorCapture t orx path aclr evm s) := by
  have h := calm_advance t (Calm.refl s)
  refine calmNext (calm_ite ?_ h)
  simp only [↓calm_mk']
  exact calm_setF _ _ (calm_setF _ _ (calm_modOrx _ _ h))

/-! ## Synthesisers and front-end pods -/

@[simp] theorem tameNext_execLoTune : TameNext s (execLoTune t c s) :=
  calmNext_runCmd fun _ _ h => calm_schedulable _ _ _ _ _ _ h h

@[simp] theorem tameNext_execLoCal : TameNext s (execLoCal t c s) :=
  calmNext_runCmd fun _ _ h => calm_schedulable _ _ _ _ _ _ h (calm_applyLoCal _ h)

@[simp] theorem tameNext_execLoCalDone {synth : Nat} {failed : Bool} : TameNext s (execLoCalDone t synth failed s) := by
  have h := calm_advance t (Calm.refl s)
  refine calmNext ?_
  split
  · exact h
  · refine calm_ite h ?_
    extract_lets ended built
    have hended : Calm s ended := calm_setLoCal _ _ h
    have hbuilt : Calm s built := calm_ite (calm_tableBuilt _ _ hended) hended
    split
    · exact calm_beginCal _ _ _ (calm_post _ _ hbuilt)
    · exact calm_post _ _ hbuilt

@[simp] theorem tameNext_execLoLocked {synth : Nat} : TameNext s (execLoLocked t synth s) :=
  have h := calm_settleLo synth (calm_advance t (Calm.refl s))
  calmNext (calm_ite (calm_lockLo _ (calm_setLoCal _ _ h)) h)

@[simp] theorem tameNext_execLoLossOfLock {synth : Nat} : TameNext s (execLoLossOfLock t synth s) :=
  have h := calm_advance t (Calm.refl s)
  calmNext (calm_unlockLo _ h)

@[simp] theorem tameNext_execCalibrationGapStart : TameNext s (execCalibrationGapStart t s) := by
  have h := calm_advance t (Calm.refl s)
  refine calmNext ?_
  split
  · exact h
  · split
    · exact h
    · exact calm_ite (calm_foldl (fun _ _ k => calm_ite (calm_beginCal _ _ _ k) k) (calm_settleLos h)) h

@[simp] theorem tameNext_execPodState : TameNext s (execPodState t c s) :=
  calmNext_runCmd fun _ _ h => calm_schedulable _ _ _ _ _ _ h h

@[simp] theorem tameNext_execLadderStepEnd : TameNext s (execLadderStepEnd t s) :=
  have h := calm_advance t (Calm.refl s)
  calmNext (calm_foldl (fun _ _ k => calm_drivePod _ k) (calm_refreshLo _ (calm_refreshLo _ (calm_unlockedTx _ (calm_foldl (fun _ _ k
    => calm_endStep _ k) h)))))

@[simp] theorem tameNext_execPatternTurnaround : TameNext s (execPatternTurnaround t s) :=
  have h := calm_advance t (Calm.refl s)
  calmNext (calm_followPattern h)

@[simp] theorem tameNext_execPatternTableStart : TameNext s (execPatternTableStart t s) :=
  have h := calm_advance t (Calm.refl s)
  calmNext (calm_ite (calm_followPattern (calm_runBank _ _ h)) h)

@[simp] theorem tameNext_execPatternTableStop : TameNext s (execPatternTableStop t s) :=
  have h := calm_advance t (Calm.refl s)
  calmNext (calm_patternChanged h)

@[simp] theorem tameNext_execFePinEdge {pod : Nat} : TameNext s (execFePinEdge t pod s) := by
  have h := calm_advance t (Calm.refl s)
  refine calmNext ?_
  split
  · exact h
  · exact calm_ite (calm_setFeCode _ _ (calm_modPod _ _ h)) (calm_makeEarly _ _ h)

@[simp] theorem tameNext_execFesbWrite : TameNext s (execFesbWrite t c s) := by
  refine tameNext_runCmd (fun u f h hrun => ?_)
  have hs := sched_of_scheduledOnly hrun rfl
  refine Calm.tame ?_
  dsimp only
  split
  · exact calm_reject _ _ h
  next hlate => exact calm_accept _ _ _ h (room_of_lateChecks hlate hs)

@[simp] theorem tameNext_execFesbFrameStart {half : Nat} : TameNext s (execFesbFrameStart t half s) := by
  have h := calm_advance t (Calm.refl s)
  refine calmNext ?_
  split
  · exact h
  · exact calm_startFrame _ _ h

@[simp] theorem tameNext_execFesbFrameEnd {half bits : Nat} : TameNext s (execFesbFrameEnd t half bits s) := by
  have h := calm_advance t (Calm.refl s)
  refine calmNext ?_
  split
  · exact h
  · exact calm_endAct _ _ _ (calm_setN _ _ (calm_endFrame _ _ h))

/-! ## Calibration jobs -/

@[simp] theorem tameNext_execCalCreate : TameNext s (execCalCreate t c s) := by
  refine calmNext_runCmd fun _ _ h => ?_
  dsimp only
  split
  · refine calm_immediate _ _ _ _ _ h (calm_ownBanks _ _ ?_)
    simp only [↓calm_mk']
    exact calm_takeGen _ _ h
  · exact calm_immediate _ _ _ _ _ h h

@[simp] theorem tameNext_execCalStart : TameNext s (execCalStart t c s) :=
  calmNext_runCmd fun _ _ h => calm_schedulable _ _ _ _ _ _ h h

@[simp] theorem tameNext_execCalDestroy : TameNext s (execCalDestroy t c s) := by
  refine calmNext_runCmd fun _ _ h => calm_immediate _ _ _ _ _ h (calm_releaseBanks _ ?_)
  simp only [↓calm_mk']
  refine calm_cancelNaming _ ?_
  split
  · exact calm_ite (calm_abortRun _ _ h) h
  · exact h

@[simp] theorem tameNext_execCoexGntISeen {level : Bool} : TameNext s (execCoexGntISeen t level s) :=
  have h := calm_settleCoex (calm_advance t (Calm.refl s))
  calmNext (calm_ite h (calm_ite (calm_grantJobs _ (calm_setFlag _ _ h)) (calm_foldl (fun _ _ k => calm_abortRun _ _ k) (calm_askAgain
    _ (calm_setFlag _ _ h)))))

@[simp] theorem tameNext_execCoexReqISeen {level : Bool} : TameNext s (execCoexReqISeen t level s) := by
  have h := calm_settleCoex (calm_advance t (Calm.refl s))
  refine calmNext (calm_ite h ?_)
  extract_lets seen
  have k : Calm s seen := calm_setFlag _ _ h
  have dropped {f : CoexSt → CoexSt} := calm_noteHeld (calm_modCoex f (calm_driveCoex 2 false seen.time.now k))
  exact calm_ite (calm_ite (calm_settleCoex (calm_raiseGnt _ k)) k) (calm_ite (calm_grantJobs _ (calm_holdPeer k))
    (calm_ite (calm_grantJobs _ (calm_askAgain _ (calm_settleCoex (calm_modCoex _ (calm_post _ _ dropped))))) k))

@[simp] theorem tameNext_execGrantWaitExpiry {job : Nat} : TameNext s (execGrantWaitExpiry t job s) := by
  have h := calm_settleCoex (calm_advance t (Calm.refl s))
  refine calmNext ?_
  split
  · split
    · exact calm_ite (calm_doneRun _ _ h) h
    · exact h
  · exact h

@[simp] theorem tameNext_execCalEmissionStart {job : Nat} : TameNext s (execCalEmissionStart t job s) := by
  have h := calm_settleCoex (calm_advance t (Calm.refl s))
  refine calmNext ?_
  split
  · split
    · exact calm_ite (calm_ite (calm_abortRun _ _ (calm_modRun _ _ h)) (calm_modRun _ _ h)) h
    · exact h
  · exact h

@[simp] theorem tameNext_execCalStepEnd {job : Nat} {meas : List (Nat × Nat × Nat × Nat)} :
    TameNext s (execCalStepEnd t job meas s) := by
  have h := calm_settleCoex (calm_advance t (Calm.refl s))
  refine tameNext ?_
  split
  · split
    · exact tame_ite ((h.thenTame (tame_writeStore _ _ _)).thenCalm (calm_modRun _ _ (Calm.refl _))) h.tame
    · exact h.tame
  · exact h.tame

@[simp] theorem tameNext_execCalDone {job : Nat} : TameNext s (execCalDone t job s) := by
  have h := calm_settleCoex (calm_advance t (Calm.refl s))
  refine calmNext ?_
  split
  · split
    · exact calm_ite (calm_doneRun _ _ h) h
    · exact h
  · exact h

@[simp] theorem tameNext_execOrxImageCalEnd {job : Nat} {found : List (Nat × Nat)} : TameNext s (execOrxImageCalEnd t job found s) := by
  have h := calm_settleCoex (calm_advance t (Calm.refl s))
  refine calmNext ?_
  split
  · split
    · exact calm_ite (calm_modRun _ _ (calm_foldl (fun _ _ k => calm_setN _ _ (calm_setN _ _ k)) h)) h
    · exact h
  · exact h

/-! ## Lanes and markers -/

@[simp] theorem tameNext_execLanePllLock : TameNext s (execLanePllLock t s) := by
  have h := calm_settleInjectors (calm_advance t (Calm.refl s))
  refine calmNext (calm_ite (calm_foldl (fun _ _ k => calm_lanesFollow _ _ k) (calm_setFlag _ _ ?_)) h)
  simp only [↓calm_mk]
  exact h

@[simp] theorem tameNext_execBlockLock {port lane nat : Nat} : TameNext s (execBlockLock t port lane nat s) :=
  have h := calm_advance t (Calm.refl s)
  calmNext (calm_ite (calm_post _ _ (calm_modLane _ _ _ (calm_setFlag _ _ (calm_setFlag _ _ (calm_ite (calm_setF _ _ (calm_satAdd _ _
    h)) (calm_satAdd _ _ h)))))) h)

@[simp] theorem tameNext_execBlockLockLoss {port lane nat : Nat} {signal : Bool} :
    TameNext s (execBlockLockLoss t port lane nat signal s) :=
  have h := calm_advance t (Calm.refl s)
  calmNext (calm_ite (calm_startSearch _ _ (calm_setFlag _ _ (calm_dropLock _ _ (calm_satAdd _ _ (calm_satAdd _ _ h))))) h)

@[simp] theorem tameNext_execLaneDead {port lane : Nat} {signal : Bool} : TameNext s (execLaneDead t port lane signal s) := by
  have h := calm_advance t (Calm.refl s)
  refine calmNext ?_
  split
  · exact h
  · exact calm_ite (calm_post _ _ (calm_showOwn _ (calm_setFlag _ _ (calm_setFlag _ _ (calm_modLane _ _ _ h))))) h

@[simp] theorem tameNext_execSlip {port lane data : Nat} : TameNext s (execSlip t port lane data s) :=
  tameNext_writeLanes

@[simp] theorem tameNext_execRestart {port lane data : Nat} : TameNext s (execRestart t port lane data s) :=
  TameNext.of_calm (u := advance t s) (calm_advance t (Calm.refl s)) (tameNext_writeLanes (lane := some lane))

@[simp] theorem tameNext_execLaneLoopWrite {port : Nat} {lane : Option Nat} {data : Nat} :
    TameNext s (execLaneLoopWrite t port lane data s) :=
  tameNext_writeLanes

@[simp] theorem tameNext_execLaneEnableChange {port : Nat} {lane : Option Nat} {data : Nat} :
    TameNext s (execLaneEnableChange t port lane data s) :=
  TameNext.of_calm (calm_advance t (Calm.refl s)) tameNext_writeLanes

@[simp] theorem tameNext_execLaneDownEnd {port slot : Nat} : TameNext s (execLaneDownEnd t port slot s) := by
  have h := calm_advance t (Calm.refl s)
  refine calmNext ?_
  split
  · exact calm_ite (calm_stopLaneInj _ _ h) h
  · exact h

@[simp] theorem tameNext_execMarkerSend {port : Nat} : TameNext s (execMarkerSend t port s) := by
  have h := calm_settleHeaders port (calm_advance t (Calm.refl s))
  refine calmNext (calm_ite h ?_)
  extract_lets u rest own out v w x
  have hx : Calm s x := calm_setInUse _ _ (calm_modPort _ _ (calm_emit _ (calm_showOwn _ h)))
  exact calm_ite (calm_sendBlocks _ _ hx) hx

@[simp] theorem tameNext_execMarkerReceive {port lane : Nat} {before line : BitVec 64} :
    TameNext s (execMarkerReceive t port lane before line s) :=
  have h := calm_settleHeaders port (calm_advance t (Calm.refl s))
  calmNext (calm_ite h (calm_ite (calm_badMarker _ _ (calm_loopBack _ _ _ _ h)) (calm_takeMarker _ _ _ (calm_loopBack _ _ _ _ h))))

@[simp] theorem tameNext_execMissingMarker {port lane : Nat} : TameNext s (execMissingMarker t port lane s) :=
  have h := calm_settleHeaders port (calm_advance t (Calm.refl s))
  calmNext (calm_ite (calm_badMarker _ _ h) h)

@[simp] theorem tameNext_execLaneState : TameNext s (execLaneState t c s) :=
  calmNext_runCmd fun _ _ h => calm_schedulable _ _ _ _ _ _ h (calm_applyLaneState _ h)

@[simp] theorem tameNext_execLanePowerEntry {port lane : Nat} : TameNext s (execLanePowerEntry t port lane s) := by
  have h := calm_advance t (Calm.refl s)
  refine calmNext ?_
  split
  · exact calm_enterPower _ _ _ h
  · exact h

@[simp] theorem tameNext_execLanePowerExitEnd {port lane : Nat} : TameNext s (execLanePowerExitEnd t port lane s) := by
  have h := calm_advance t (Calm.refl s)
  refine calmNext ?_
  split
  · refine calm_ite ?_ h
    extract_lets u v w
    have hw : Calm s w := calm_restartCount _ _ (calm_modLane _ _ _ (calm_setF _ _ (calm_settleHeaders _ h)))
    exact calm_ite (calm_startSearch _ _ hw) (calm_showOwn _ hw)
  · exact h

@[simp] theorem tameNext_execEqualiserAdaptStep {port lane : Nat} {up : Bool} : TameNext s (execEqualiserAdaptStep t port lane up s) :=
  have h := calm_advance t (Calm.refl s)
  calmNext (calm_ite (calm_modLane _ _ _ (calm_setF _ _ h)) h)

/-! ## Weight sets -/

@[simp] theorem tameNext_execWsCreate : TameNext s (execWsCreate t c s) :=
  calmNext_runCmd fun _ _ h => calm_immediate _ _ _ _ _ h (calm_putSet _ _ (calm_takeGen _ _ h))

@[simp] theorem tameNext_execWsLoad : TameNext s (execWsLoad t c s) := by
  refine calmNext_runCmd fun u f h => ?_
  dsimp only
  split
  · exact h
  · split
    · exact calm_reject _ _ h
    next bad bank res down _ =>
      have k := calm_setStage f.id .running h
      have loading {b : BeamSt} : Calm s { setStage u f.id .running with beam := b } := by
        simp only [↓calm_mk']
        exact k
      exact calm_ite (calm_readSource _ _ _ (calm_ite k loading)) (calm_ite k loading)

@[simp] theorem tameNext_execWsActivate : TameNext s (execWsActivate t c s) := by
  refine tameNext_runCmd (fun u f h hrun => ?_)
  have hs := sched_of_scheduledOnly hrun rfl
  refine Calm.tame ?_
  dsimp only
  split
  · exact h
  · split
    · exact calm_reject _ _ h
    next hlate => exact calm_accept _ _ _ h (room_of_lateChecks hlate hs)

@[simp] theorem tameNext_execWsDestroy : TameNext s (execWsDestroy t c s) :=
  calmNext_runCmd fun _ _ h => calm_immediate _ _ _ _ _ h (calm_showAllCols (calm_cancelNaming _ (calm_dropLoads _ h)))

@[simp] theorem tameNext_execPrefetchStart {carrier dir : Nat} : TameNext s (execPrefetchStart t carrier dir s) :=
  have h := calm_advance t (Calm.refl s)
  calmNext (calm_showCols _ (calm_modFill _ _ _ _ h))

@[simp] theorem tameNext_execPrefetchComplete {carrier dir : Nat} : TameNext s (execPrefetchComplete t carrier dir s) := by
  have h := calm_advance t (Calm.refl s)
  unfold execPrefetchComplete
  dsimp only
  split
  · exact calmNext h
  · split
    · exact calmNext h
    · exact calmNext (calm_throughPort h (fun _ k => calm_wrapAdd _ _ (calm_modFill _ _ _ _ k)))

@[simp] theorem tameNext_execDramPrefetchLate {carrier dir : Nat} : TameNext s (execDramPrefetchLate t carrier dir s) := by
  have h := calm_advance t (Calm.refl s)
  unfold execDramPrefetchLate
  dsimp only
  split
  · exact calmNext h
  · exact calmNext (calm_post _ _ (calm_satAdd _ _ (calm_modFill _ _ _ _ h)))

@[simp] theorem tameNext_execStagedCopyStart {carrier dir : Nat} : TameNext s (execStagedCopyStart t carrier dir s) := by
  have h := calm_advance t (Calm.refl s)
  unfold execStagedCopyStart
  dsimp only
  split
  · exact calmNext h
  · exact calmNext (calm_showCols _ (calm_modFill _ _ _ _ h))

@[simp] theorem tameNext_execWeightSetSwap {carrier dir : Nat} : TameNext s (execWeightSetSwap t carrier dir s) := by
  have h := calm_advance t (Calm.refl s)
  refine calmNext ?_
  simp only [↓calm_mk']
  exact calm_countUnmapped _ h

@[simp] theorem tameNext_execOldSetFreed {carrier dir : Nat} : TameNext s (execOldSetFreed t carrier dir s) :=
  have h := calm_advance t (Calm.refl s)
  calmNext (calm_showCols _ h)

/-! ## The transmit path -/

@[simp] theorem tameNext_execCfrSet : TameNext s (execCfrSet t c s) :=
  calmNext_runCmd fun _ _ h => calm_schedulable _ _ _ _ _ _ h (calm_applyCfrSet _ h)

@[simp] theorem tameNext_execTxpCtrlWrite {path data : Nat} : TameNext s (execTxpCtrlWrite t path data s) :=
  calmNext_byWrite fun _ h => calm_ite (calm_writeTxCtrl _ _ h) h

@[simp] theorem tameNext_execDlPacketArrival : TameNext s (execDlPacketArrival t s) := by
  have h := calm_advance t (Calm.refl s)
  unfold execDlPacketArrival
  dsimp only
  split
  · exact calmNext h
  · split
    · exact calmNext h
    · split
      · exact calmNext h
      · refine calmNext ?_
        split
        · exact calm_satAdd _ _ h
        · exact calm_modSlot _ _ _ _ (calm_satAdd _ _ h)
        · exact calm_modSlot _ _ _ _ (calm_satAdd _ _ h)
        · exact calm_satAdd _ _ h
        · exact calm_setF _ _ (calm_modStream _ _ (calm_modSlot _ _ _ _ h))

@[simp] theorem tameNext_execSlotDecided {stream first : Nat} : TameNext s (execSlotDecided t stream first s) := by
  have h := calm_advance t (Calm.refl s)
  unfold execSlotDecided
  dsimp only
  split
  · exact calmNext h
  · split
    · exact calmNext h
    · split
      · exact calmNext h
      · have k {n : Nat} {c : Carrier} {f : Slot → Slot} := calm_modSlot stream n c f h
        have counted {p : Prop} [Decidable p] {n : Nat} {c : Carrier} {f : Slot → Slot} :
            Calm s (if p then satAdd (modSlot (advance t s) stream n c f) (F.TXP_DLB_ERR_MISSING stream) 1
              else modSlot (advance t s) stream n c f) := calm_ite (calm_satAdd _ _ k) k
        exact calmNext (calm_ite (calm_modStream _ _ counted) counted)

@[simp] theorem tameNext_execFrameBoundary : TameNext s (execFrameBoundary t s) := by
  have h := calm_advance t (Calm.refl s)
  unfold execFrameBoundary
  dsimp only
  split
  · exact calmNext h
  · exact calmNext (calm_foldl (fun _ _ k => calm_ite k (calm_modStream _ _ (calm_post _ _ k))) h)

@[simp] theorem tameNext_execEchoRecord {stream first : Nat} : TameNext s (execEchoRecord t stream first s) := by
  have h := calm_advance t (Calm.refl s)
  unfold execEchoRecord
  dsimp only
  split
  · exact calmNext h
  · split
    · split
      · exact calmNext h
      · exact calmNext (calm_modStream _ _ h)
    · exact calmNext h

/-! ## Streams and partners -/

@[simp] theorem tameNext_execStreamCreate : TameNext s (execStreamCreate t c s) := by
  unfold execStreamCreate
  dsimp only
  refine calmNext_runCmd (fun u _ h => ?_)
  split
  · exact h
  · split
    · exact calm_immediate _ _ _ _ _ h h
    next j _ =>
      have k {x : Stream} {f : Nat → Fld} {g : Nat → Fld} :=
        calm_setBitOf g j false (calm_setBitOf f j false (calm_putStream j x (calm_takeGen 2 j (calm_countUnmapped u.time.tick h))))
      exact calm_immediate _ _ _ _ _ h (calm_sendGrant _ (calm_ite k (calm_showStreams _ k)))

@[simp] theorem tameNext_execPartnerLost {partner : Nat} : TameNext s (execPartnerLost t partner s) := by
  have h := calm_advance t (Calm.refl s)
  refine calmNext ?_
  split
  · exact calm_ite (calm_losePartner _ _ h) h
  · exact h

@[simp] theorem tameNext_execOrphanTimeout {stream : Nat} : TameNext s (execOrphanTimeout t stream s) := by
  have h := calm_advance t (Calm.refl s)
  refine calmNext ?_
  split
  · split
    · exact calm_ite (calm_removeStream _ (calm_postOrphanEnd _ _ h)) h
    · exact h
  · exact h

@[simp] theorem tameNext_execPartnerDestroy : TameNext s (execPartnerDestroy t c s) := by
  refine calmNext_runCmd fun _ _ h => calm_immediate _ _ _ _ _ h ?_
  dsimp only
  split
  · exact h
  · exact calm_cancelNaming _ (calm_freePartner _ (calm_ite h (calm_orphanStreams _ _ (calm_sendMessage _ _ _ h))))

@[simp] theorem tameNext_execPacketSend {port : Nat} : TameNext s (execPacketSend t port s) := by
  have h := calm_advance t (Calm.refl s)
  refine calmNext (calm_ite h ?_)
  split
  · exact h
  · refine calm_ite h (calm_sendBytes _ _ ?_)
    split
    · exact calm_setF _ _ (calm_takeCapacity _ _ (calm_modPort _ _ h))
    · exact calm_takeCapacity _ _ (calm_modPort _ _ h)

@[simp] theorem tameNext_execPacketOverrun {port : Nat} : TameNext s (execPacketOverrun t port s) := by
  have h := calm_advance t (Calm.refl s)
  refine calmNext ?_
  split
  · exact h
  · exact calm_satAdd _ _ (calm_modPort _ _ h)

/-! ## Link packets and messages -/

@[simp] theorem tameNext_execPacketReceive {port first : Nat} {lanes : List (List LineBlock)} :
    TameNext s (execPacketReceive t port first lanes s) := by
  have h := calm_settleHeaders port (calm_advance t (Calm.refl s))
  unfold execPacketReceive
  extract_lets u l v
  have hv : Calm s v := calm_countHeaders _ _ (calm_loopLanes _ _ _ h)
  refine calmNext (calm_ite hv ?_)
  split
  · exact hv
  · exact calm_foldl (fun _ _ k => calm_receiveBlock _ _ k) hv

@[simp] theorem tameNext_execReorderHoldExpiry {port slot : Nat} : TameNext s (execReorderHoldExpiry t port slot s) := by
  have h := calm_advance t (Calm.refl s)
  refine calmNext ?_
  split
  · exact calm_ite (calm_releaseHeld _ _ h) h
  · exact h

@[simp] theorem tameNext_execFiSet : TameNext s (execFiSet t c s) := by
  refine calmNext_runCmd fun _ _ h => calm_immediate _ _ _ _ _ h ?_
  extract_lets cleared x set shown
  have hshown : Calm s shown := calm_setF _ _ (calm_setF _ _ (calm_setFlag _ _ (calm_setInj _ _ _ (calm_clearInj _ _
    (calm_settleHeaders _ h)))))
  exact calm_ite (calm_beginLaneDown _ _ _ _ hshown) hshown

@[simp] theorem tameNext_execFiClear : TameNext s (execFiClear t c s) :=
  calmNext_runCmd fun _ _ h => calm_immediate _ _ _ _ _ h (calm_foldl (fun _ _ k => calm_clearInj _ _ k) h)

@[simp] theorem tameNext_execHello : TameNext s (execHello t s) := by
  have h := calm_advance t (Calm.refl s)
  refine calmNext ?_
  split
  · exact h
  next e =>
    have k := calm_takeInbox h e
    refine calm_ite (calm_satAdd _ _ k) ?_
    split
    · exact calm_greet _ k
    · exact calm_ite (calm_sendWelcome _ _ k) (calm_greet _ (calm_losePartner _ _ k))

@[simp] theorem tameNext_execKeepaliveReceive : TameNext s (execKeepaliveReceive t s) := by
  have h := calm_advance t (Calm.refl s)
  refine calmNext ?_
  split
  · exact h
  next e =>
    have k := calm_takeInbox h e
    split
    · exact calm_renew _ _ k
    · exact k

@[simp] theorem tameNext_execLeaseAck : TameNext s (execLeaseAck t s) := by
  have h := calm_advance t (Calm.refl s)
  refine calmNext ?_
  split
  · exact h
  next e =>
    have k := calm_takeInbox h e
    split
    · exact k
    · dsimp only
      split
      · exact calm_ite (calm_setBitOf _ _ _ (calm_modStream _ _ (calm_renew _ _ k))) (calm_renew _ _ k)
      · exact calm_renew _ _ k

@[simp] theorem tameNext_execBye : TameNext s (execBye t s) := by
  have h := calm_advance t (Calm.refl s)
  refine calmNext ?_
  split
  · exact h
  next e =>
    have k := calm_takeInbox h e
    split
    · exact calm_losePartner _ _ k
    · exact k

@[simp] theorem tameNext_execPartnerTimeReceive : TameNext s (execPartnerTimeReceive t s) := by
  have h := calm_advance t (Calm.refl s)
  refine calmNext ?_
  split
  · exact h
  next e =>
    have k := calm_takeInbox h e
    split
    · exact calm_renew _ _ (calm_modPartner _ _ k)
    · exact k

@[simp] theorem tameNext_execKeepalive : TameNext s (execKeepalive t s) :=
  have h := calm_advance t (Calm.refl s)
  calmNext (calm_foldl (fun _ _ k => calm_foldl (fun _ _ k2 => calm_sendGrant _ k2) (calm_sendMessage _ _ _ k)) h)

@[simp] theorem tameNext_execTimeSend : TameNext s (execTimeSend t s) :=
  have h := calm_advance t (Calm.refl s)
  calmNext (calm_ite h (calm_foldl (fun _ _ k => calm_modCasc _ (calm_enqueueCtrl _ _ k)) (calm_foldl (fun _ _ k => calm_sendPartner _
    _ _ k) h)))

@[simp] theorem tameNext_execEcho : TameNext s (execEcho t s) := by
  have h := calm_advance t (Calm.refl s)
  refine calmNext (calm_ite h ?_)
  simp only [↓calm_mk']
  exact calm_ite h (calm_foldl (fun _ _ k => calm_sendEchoes _ _ _ k) h)

/-! ## The cascade -/

@[simp] theorem tameNext_execCascDiscover : TameNext s (execCascDiscover t c s) :=
  calmNext_runCmd fun _ _ h => calm_ite (calm_reject _ _ h) (calm_ite (calm_complete _ _ h) (calm_ite (calm_reject _ _ h)
    (calm_modCasc _ (calm_setStage _ _ (calm_sendAssign _ _ _ _ h)))))

@[simp] theorem tameNext_execCascAssign : TameNext s (execCascAssign t s) := by
  have h := calm_advance t (Calm.refl s)
  refine calmNext ?_
  split
  · exact h
  next e =>
    have k {n : Nat} := calm_setF F.CAS_FEATURE_COMMON n (calm_takeInbox h e)
    exact calm_ite (calm_ite (calm_sendReport _ (calm_sendAssign _ _ _ _ (calm_modCasc _ k))) (calm_modCasc _ k))
      (calm_ite (calm_sendAssign _ _ _ _ k) k)

@[simp] theorem tameNext_execCascReport : TameNext s (execCascReport t s) := by
  have h := calm_advance t (Calm.refl s)
  refine calmNext ?_
  split
  · exact h
  next e =>
    have k {f : CascSt → CascSt} := calm_modCasc f (calm_takeInbox h e)
    exact calm_ite (calm_showMembers _ (calm_refreshCommon k))
      (calm_ite (calm_ite (calm_sendReport _ (calm_showChain k)) (calm_sendReports (calm_showChain k))) (calm_showChain k))

@[simp] theorem tameNext_execCascAssignPeriodic : TameNext s (execCascAssignPeriodic t s) :=
  have h := calm_advance t (Calm.refl s)
  calmNext (calm_ite h (calm_ite (calm_ite (calm_modCasc _ h) (calm_sendAssign _ _ _ _ (calm_modCasc _ h))) (calm_ite
    (calm_sendReports (calm_modCasc _ h)) (calm_modCasc _ h))))

@[simp] theorem tameNext_execChainEReached : TameNext s (execChainEReached t s) := by
  have h := calm_advance t (Calm.refl s)
  refine calmNext ?_
  split
  · exact h
  · exact calm_ite h (calm_ite (calm_showMembers _ (calm_refreshCommon (calm_modCasc _ (calm_set64 _ _ _ h)))) (calm_showChain
      (calm_setF _ _ (calm_setFlag _ _ (calm_modCasc _ (calm_set64 _ _ _ h))))))

@[simp] theorem tameNext_execCascDiscoverDone : TameNext s (execCascDiscoverDone t s) := by
  have h := calm_advance t (Calm.refl s)
  refine calmNext ?_
  split
  · exact h
  · dsimp only
    split
    · exact calm_complete _ _ (calm_modCasc _ h)
    · exact calm_modCasc _ h

@[simp] theorem tameNext_execCascSumLate : TameNext s (execCascSumLate t s) := by
  have h := calm_advance t (Calm.refl s)
  refine calmNext ?_
  split
  · exact h
  · exact calm_satAdd _ _ (calm_modPort _ _ h)

@[simp] theorem tameNext_execCascadeTimeReceive : TameNext s (execCascadeTimeReceive t s) := by
  have h := calm_advance t (Calm.refl s)
  refine calmNext ?_
  split
  · exact h
  next e =>
    have k {f : CascSt → CascSt} := calm_modCasc f (calm_takeInbox h e)
    exact calm_ite (calm_setFlag _ _ (calm_setN _ _ k)) k

/-! ## Rings and resets of the host interface -/

@[simp] theorem tameNext_execRingPoll : TameNext s (execRingPoll t s) :=
  have h := calm_advance t (Calm.refl s)
  calmNext (calm_ite (calm_poll h) h)

@[simp] theorem tameNext_execKick : TameNext s (execKick t s) :=
  have h := calm_advance t (Calm.refl s)
  calmNext (calm_ite (calm_blockWrite _ h) (calm_ite h h))

@[simp] theorem tameNext_execPiReadComplete {ring pi : Nat} : TameNext s (execPiReadComplete t ring pi s) :=
  have h := calm_advance t (Calm.refl s)
  calmNext (calm_ite h (calm_ite (calm_issueReads (calm_modCmdRing _ _ h)) (calm_ite (calm_issueReads (calm_haltRing _ _
    (calm_modCmdRing _ _ h))) (calm_issueReads (calm_modCmdRing _ _ (calm_modCmdRing _ _ h))))))

@[simp] theorem tameNext_execEntryFetchComplete {ring index : Nat} {entries : List Byte} :
    TameNext s (execEntryFetchComplete t ring index entries s) := by
  have h := calm_advance t (Calm.refl s)
  unfold execEntryFetchComplete
  dsimp only
  split
  · exact calmNext h
  · exact calmNext (calm_ite (calm_issueReads (calm_modCmdRing _ _ h)) (calm_issueReads (calm_hostWrite _ _ _ (calm_setF _ _
      (calm_modCmdRing _ _ (calm_takeEntries _ (calm_modCmdRing _ _ h)))))))

@[simp] theorem tameNext_execCiReadComplete {kind ring ci : Nat} : TameNext s (execCiReadComplete t kind ring ci s) :=
  have h := calm_advance t (Calm.refl s)
  calmNext (calm_ite h (calm_ite (calm_issueReads (calm_modOutRing _ _ _ h)) (calm_issueReads (calm_ite (calm_drainBacklog _ _
    (calm_modOutRing _ _ _ h)) (calm_drainQueue _ (calm_modOutRing _ _ _ h))))))

@[simp] theorem tameNext_execCompletionBacklogDrain {ring : Nat} : TameNext s (execCompletionBacklogDrain t ring s) :=
  have h := calm_advance t (Calm.refl s)
  calmNext (calm_ite (calm_drainBacklog _ _ h) h)

@[simp] theorem tameNext_execEventQueueDrain {ring : Nat} : TameNext s (execEventQueueDrain t ring s) :=
  have h := calm_advance t (Calm.refl s)
  calmNext (calm_ite (calm_drainQueue _ h) h)

@[simp] theorem tameNext_execCompletionWrite {cq : Nat} : TameNext s (execCompletionWrite t cq s) := by
  have h := calm_advance t (Calm.refl s)
  unfold execCompletionWrite
  dsimp only
  split
  · exact calmNext h
  · exact calmNext (calm_deliverCpl _ h)

@[simp] theorem tameNext_execMsixModerationExpiry {kind ring : Nat} : TameNext s (execMsixModerationExpiry t kind ring s) :=
  have h := calm_advance t (Calm.refl s)
  calmNext (calm_ite (calm_sendMsix _ (calm_modOutRing _ _ _ h)) h)

@[simp] theorem tameNext_execMsixUnmask {vec : Nat} : TameNext s (execMsixUnmask t vec s) :=
  have h := calm_advance t (Calm.refl s)
  calmNext (calm_ite (calm_setMask _ _ h) h)

@[simp] theorem tameNext_execRingCtrlWrite {kind ring data : Nat} : TameNext s (execRingCtrlWrite t kind ring data s) :=
  calmNext_byWrite fun _ h => calm_ite (calm_writeCmdCtrl _ _ h) (calm_ite (calm_writeCqCtrl _ _ h) (calm_ite (calm_writeEvCtrl _ _ h)
    h))

@[simp] theorem tameNext_execFunctionLevelReset : TameNext s (execFunctionLevelReset t s) :=
  have h := calm_advance t (Calm.refl s)
  calmNext (calm_ite (calm_writeConfig h (calm_resetPf0 h)) h)

@[simp] theorem tameNext_execPf1FunctionLevelReset : TameNext s (execPf1FunctionLevelReset t s) :=
  have h := calm_advance t (Calm.refl s)
  calmNext (calm_ite (calm_writeConfig h (calm_resetPf1 h)) h)

/-! ## DMA channels -/

@[simp] theorem tameNext_execDmaCreate : TameNext s (execDmaCreate t c s) := by
  refine calmNext_runCmd fun _ _ h => ?_
  dsimp only
  split
  · refine calm_immediate _ _ _ _ _ h (calm_setF _ _ (calm_setF _ _ (calm_setN _ _ (calm_setPc _ _ _ (calm_setN _ _ (calm_setF _ _
      (calm_setChState _ _ (calm_ownBanks _ _ ?_))))))))
    simp only [↓calm_mk']
    exact calm_takeGen _ _ h
  · exact calm_immediate _ _ _ _ _ h h

@[simp] theorem tameNext_execDmaStart : TameNext s (execDmaStart t c s) :=
  calmNext_runCmd fun _ _ h => calm_schedulable _ _ _ _ _ _ h (calm_startDma _ h)

@[simp] theorem tameNext_execDmaDestroy : TameNext s (execDmaDestroy t c s) := by
  refine calmNext_runCmd fun _ _ h => calm_immediate _ _ _ _ _ h (calm_releaseBanks _ (calm_clearContext _ ?_))
  simp only [↓calm_mk']
  exact calm_cancelNaming _ (calm_unbindAll _ h)

@[simp] theorem tameNext_execDmaPcWrite {channel word data : Nat} : TameNext s (execDmaPcWrite t channel word data s) :=
  calmNext_byWrite fun _ h => calm_ite (calm_writePc _ _ _ h) h

@[simp] theorem tameNext_execDmaStop : TameNext s (execDmaStop t c s) := by
  refine calmNext_runCmd fun _ _ h => ?_
  dsimp only
  split
  · exact calm_reject _ _ h
  · exact calm_ite (calm_modCh _ _ (calm_setStage _ _ h)) (calm_complete _ _ (calm_ite (calm_pumpShared (calm_haltDma _ _ _ h)) h))

@[simp] theorem tameNext_execInstructionFetchComplete {channel : Nat} {data : List Byte} :
    TameNext s (execInstructionFetchComplete t channel data s) := by
  have h := calm_advance t (Calm.refl s)
  unfold execInstructionFetchComplete
  dsimp only
  split
  · exact calmNext h
  · exact calmNext (calm_throughPort h fun _ k => calm_pumpShared (calm_ite (calm_haltDma _ _ _ (calm_modCh _ _ k))
      (calm_seek _ (calm_modCh _ _ k))))

@[simp] theorem tameNext_execMove {channel : Nat} : TameNext s (execMove t channel s) := by
  have h := calm_advance t (Calm.refl s)
  refine calmNext ?_
  split
  · exact calm_beginData _ _ h
  · exact h

@[simp] theorem tameNext_execFill {channel : Nat} : TameNext s (execFill t channel s) := by
  have h := calm_advance t (Calm.refl s)
  refine calmNext ?_
  split
  · exact calm_beginData _ _ h
  · exact h

@[simp] theorem tameNext_execCmp {channel : Nat} : TameNext s (execCmp t channel s) := by
  have h := calm_advance t (Calm.refl s)
  refine calmNext ?_
  split
  · exact calm_beginData _ _ h
  · exact h

@[simp] theorem tameNext_execPeripheralBurst {channel : Nat} : TameNext s (execPeripheralBurst t channel s) := by
  have h := calm_advance t (Calm.refl s)
  refine calmNext ?_
  split
  · exact calm_ite (calm_ite (calm_waitTurn _ h) (calm_periphTurn _ _ _ h)) h
  · exact h

@[simp] theorem tameNext_execLoop {channel : Nat} : TameNext s (execLoop t channel s) := by
  have h := calm_advance t (Calm.refl s)
  refine calmNext ?_
  split
  · exact calm_runLoop _ _ _ h
  · exact h

@[simp] theorem tameNext_execLink {channel : Nat} : TameNext s (execLink t channel s) := by
  have h := calm_advance t (Calm.refl s)
  refine calmNext ?_
  split
  · exact calm_goTo _ _ _ _ (calm_countStep _ h)
  · exact h

@[simp] theorem tameNext_execHalt {channel : Nat} : TameNext s (execHalt t channel s) := by
  have h := calm_advance t (Calm.refl s)
  refine calmNext ?_
  split
  · split
    · exact calm_haltDma _ _ _ (calm_setDone _ _ (calm_setPc _ _ _ (calm_countStep _ h)))
  · exact h

@[simp] theorem tameNext_execWait {channel : Nat} : TameNext s (execWait t channel s) := by
  have h := calm_advance t (Calm.refl s)
  refine calmNext ?_
  split
  · exact calm_runWait _ _ _ h
  · exact h

@[simp] theorem tameNext_execWaitEnd {channel : Nat} : TameNext s (execWaitEnd t channel s) := by
  have h := calm_advance t (Calm.refl s)
  refine calmNext ?_
  split
  · split
    · exact calm_settleBit _ h
    · exact calm_ite (calm_endWait _ h) h
    · exact calm_ite (calm_endWait _ h) h
  · exact h

@[simp] theorem tameNext_execSignal {channel : Nat} : TameNext s (execSignal t channel s) := by
  have h := calm_advance t (Calm.refl s)
  refine calmNext ?_
  split
  · exact calm_runSignal _ _ _ _ _ _ h
  · exact h

@[simp] theorem tameNext_execEvtSetWrite {w data : Nat} : TameNext s (execEvtSetWrite t w data s) :=
  calmNext_byWrite fun _ h => calm_ite (calm_writeEvtSet _ _ h) h

@[simp] theorem tameNext_execStepBudget {channel : Nat} : TameNext s (execStepBudget t channel s) := by
  have h := calm_advance t (Calm.refl s)
  refine calmNext ?_
  split
  · exact h
  · exact h
  · exact calm_faultDma _ _ h
  · exact h

@[simp] theorem tameNext_execDmaFault {channel : Nat} : TameNext s (execDmaFault t channel s) := by
  have h := calm_advance t (Calm.refl s)
  refine calmNext ?_
  split
  · exact calm_pumpShared (calm_faultDma _ _ h)
  · exact h

/-! ## The DRAM controller -/

@[simp] theorem tameNext_execTrain {data : Nat} : TameNext s (execTrain t data s) :=
  calmNext_byWrite fun _ h => calm_writeMemcCtrl _ h

@[simp] theorem tameNext_execRateWrite {data : Nat} : TameNext s (execRateWrite t data s) :=
  calmNext_byWrite fun _ h => calm_writeMemcCtrl _ h

@[simp] theorem tameNext_execTrainingStepEnd {good : Bool} {channel size : Nat} :
    TameNext s (execTrainingStepEnd t good channel size s) := by
  have h := calm_advance t (Calm.refl s)
  unfold execTrainingStepEnd
  dsimp only
  split
  · exact calmNext h
  · have sized {n : Nat} : Calm s { setF (advance t s) F.MEMC_CFG_SIZE size with dramSize := n } := by
      simp only [↓calm_mk']
      exact calm_setF _ _ h
    exact calmNext (calm_ite (calm_trainFail _ _ (calm_setFlag _ _ (calm_modMemc _ h)))
      (calm_ite (calm_trained (calm_ite sized h)) (calm_modMemc _ (calm_ite sized h))))

@[simp] theorem tameNext_execRetrainingDue : TameNext s (execRetrainingDue t s) := by
  have h := calm_settleDram (calm_advance t (Calm.refl s))
  unfold execRetrainingDue
  dsimp only
  split
  · exact calmNext h
  · exact calmNext (calm_ite h (calm_ite (calm_modMemc _ h) (calm_ite (calm_modMemc _ (calm_modMemc _ h)) (calm_startGather
      (calm_modMemc _ h)))))

@[simp] theorem tameNext_execGatheringEnd : TameNext s (execGatheringEnd t s) := by
  have h := calm_settleDram (calm_advance t (Calm.refl s))
  refine calmNext ?_
  split
  · exact calm_ite (calm_setFlag _ _ (calm_modMemc _ h)) h
  · exact h

@[simp] theorem tameNext_execPauseStart : TameNext s (execPauseStart t s) :=
  have h := calm_settleDram (calm_advance t (Calm.refl s))
  calmNext (calm_ite (calm_setFlag _ _ (calm_modMemc _ h)) h)

@[simp] theorem tameNext_execPauseEnd {fail0 fail1 : Bool} : TameNext s (execPauseEnd t fail0 fail1 s) := by
  have h := calm_advance t (Calm.refl s)
  refine calmNext ?_
  split
  · exact calm_ite (calm_endPause _ _ h) (calm_settleDram h)
  · exact calm_settleDram h

@[simp] theorem tameNext_execSelfRefreshEntry : TameNext s (execSelfRefreshEntry t s) :=
  have h := calm_settleDram (calm_advance t (Calm.refl s))
  calmNext (calm_ite (calm_beginSr h) h)

@[simp] theorem tameNext_execSelfRefreshCommit : TameNext s (execSelfRefreshCommit t s) := by
  have h := calm_settleDram (calm_advance t (Calm.refl s))
  refine calmNext ?_
  split
  · exact calm_ite (calm_setFlag _ _ h) h
  · exact h

@[simp] theorem tameNext_execDramRequest {source : Nat} {write : Bool} {addr len drained : Nat} :
    TameNext s (execDramRequest t source write addr len drained s) :=
  have h := calm_advance t (Calm.refl s)
  calmNext (calm_ite h (calm_serveWaiting (calm_modMemc _ (calm_disturbSr (calm_ite (calm_settleDram h) (calm_ite (calm_writeBack _
    (calm_settleDram h)) (calm_settleDram h)))))))

@[simp] theorem tameNext_execSelfRefreshExitEnd : TameNext s (execSelfRefreshExitEnd t s) :=
  have h := calm_advance t (Calm.refl s)
  calmNext (calm_ite (calm_leaveSr h) h)

@[simp] theorem tameNext_execRateChangeStart : TameNext s (execRateChangeStart t s) :=
  have h := calm_settleDram (calm_advance t (Calm.refl s))
  calmNext (calm_ite (calm_modMemc _ h) h)

@[simp] theorem tameNext_execRateChangeEnd : TameNext s (execRateChangeEnd t s) :=
  have h := calm_advance t (Calm.refl s)
  calmNext (calm_endChange h)

/-! ## Bias and monitors -/

@[simp] theorem tameNext_execBiasSet : TameNext s (execBiasSet t c s) :=
  calmNext_runCmd fun _ _ h => calm_schedulable _ _ _ _ _ _ (calm_settleHkTo _ h) (calm_setN _ _ (calm_settleHkTo _ h))

@[simp] theorem tameNext_execBiasStrobe : TameNext s (execBiasStrobe t c s) :=
  calmNext_runCmd fun _ _ h => calm_schedulable _ _ _ _ _ _ h h

@[simp] theorem tameNext_execStrobe {data : Nat} : TameNext s (execStrobe t data s) :=
  calmNext_byWrite fun _ h => calm_writeStrobe _ h

@[simp] theorem tameNext_execLdbInEdge : TameNext s (execLdbInEdge t s) :=
  have h := calm_advance t (Calm.refl s)
  calmNext (calm_ite (calm_hkAt _ _ (calm_satAdd _ _ (calm_settleHk h))) h)

@[simp] theorem tameNext_execHuskSet {data : Nat} : TameNext s (execHuskSet t data s) :=
  calmNext_byWrite fun _ h => calm_writeHuskSet _ h

@[simp] theorem tameNext_execHuskRelease {data : Nat} : TameNext s (execHuskRelease t data s) :=
  calmNext_byWrite fun _ h => calm_writeHuskRelease _ h

@[simp] theorem tameNext_execAnaPowerGoodFall {dip : Nat} : TameNext s (execAnaPowerGoodFall t dip s) :=
  have h := calm_settleHk (calm_advance t (Calm.refl s))
  calmNext (calm_raiseFlag _ (calm_enterHusk _ (calm_modHkm _ h)))

@[simp] theorem tameNext_execSlewStep {dac : Nat} : TameNext s (execSlewStep t dac s) := by
  have h := calm_settleHk (calm_advance t (Calm.refl s))
  refine calmNext ?_
  split
  · exact calm_ite (calm_slew _ _ h) h
  · exact h

@[simp] theorem tameNext_execMonScan : TameNext s (execMonScan t c s) := by
  refine calmNext_runCmd fun _ _ h => calm_immediate _ _ _ _ _ h ?_
  split
  · exact h
  · exact calm_ite (calm_resumeScan _ _ (calm_modMon _ _ h)) (calm_modMon _ _ h)

@[simp] theorem tameNext_execMonUrgent : TameNext s (execMonUrgent t c s) :=
  calmNext_runCmd fun _ _ h => calm_schedulable _ _ _ _ _ _ h (calm_urgent _ _ _ _ h)

@[simp] theorem tameNext_execFirmwareUrgentRequest {unit input : Nat} : TameNext s (execFirmwareUrgentRequest t unit input s) :=
  have h := calm_advance t (Calm.refl s)
  calmNext (calm_ite (calm_urgent _ _ _ _ h) h)

@[simp] theorem tameNext_execMonitorWindowEnd {unit : Nat} : TameNext s (execMonitorWindowEnd t unit s) := by
  have h := calm_settleWindows (calm_advance t (Calm.refl s))
  unfold execMonitorWindowEnd
  extract_lets u x isUrgent il stop
  split
  · exact calmNext h
  · have k {f : MonUnit → MonUnit} := calm_modMon unit f h
    exact calmNext (calm_ite (calm_ite (calm_resumeScan _ _ (calm_modMon _ _ k)) (calm_startConv _ _ _ (calm_modMon _ _ k)))
      (calm_ite (calm_modMon _ _ k) (calm_resumeScan _ _ (calm_modMon _ _ k))))

@[simp] theorem tameNext_execMonitorResult {unit : Nat} {code : Int × Int} {ovr : Bool} :
    TameNext s (execMonitorResult t unit code ovr s) := by
  have h := calm_advance t (Calm.refl s)
  unfold execMonitorResult
  extract_lets u
  split
  · exact calmNext h
  · split
    · exact calmNext h
    · extract_lets overRange codes value heard pushed flagged shown noted posted corrected
      have hpushed : Calm s pushed := calm_pushRecord _ _ (calm_modMon _ _ h)
      have hshown : Calm s shown := calm_setF _ _ (calm_setFlag _ _ (calm_setFlag _ _ (calm_setFlag _ _ hpushed)))
      have hnoted : Calm s noted := calm_ite (calm_noteOvr _ _ hshown) hshown
      have hposted : Calm s posted := calm_ite (calm_postAt _ _ _ hnoted) hnoted
      exact calmNext (calm_markStale (calm_ite (calm_loTemperature _ hposted) hposted))

@[simp] theorem tameNext_execBrownOut : TameNext s (execBrownOut t s) :=
  have h := calm_advance t (Calm.refl s)
  calmNext (calm_losePd18 h)

/-! ## The receive path -/

@[simp] theorem tameNext_execDcReset {path : Nat} : TameNext s (execDcReset t path s) := by
  have h := calm_advance t (Calm.refl s)
  unfold execDcReset
  dsimp only
  split
  · exact calmNext h
  · exact calmNext (calm_ite (calm_modRx _ _ (calm_setDc _ _ _ _ _ h)) h)

@[simp] theorem tameNext_execRxpCtrlWrite {path data : Nat} : TameNext s (execRxpCtrlWrite t path data s) :=
  calmNext_byWrite fun _ h => calm_ite (calm_writeRxCtrl _ _ h) h

@[simp] theorem tameNext_execRxGain : TameNext s (execRxGain t c s) :=
  calmNext_runCmd fun _ _ h => calm_schedulable _ _ _ _ _ _ h h

@[simp] theorem tameNext_execGainControlStep {path gain tick : Nat} : TameNext s (execGainControlStep t path gain tick s) :=
  tameNext ((calm_advance t (Calm.refl s)).thenTame (tame_requestGain _ _ _ _))

@[simp] theorem tameNext_execDcLoad : TameNext s (execDcLoad t c s) :=
  calmNext_runCmd fun _ _ h => calm_schedulable _ _ _ _ _ _ h h

/-! ## Clocks and SYNC events -/

@[simp] theorem tameNext_execRootEnWrite {data : Nat} : TameNext s (execRootEnWrite t data s) :=
  calmNext_byWrite fun _ h => calm_writeClkCtrl _ h

@[simp] theorem tameNext_execLaneEnWrite {data : Nat} : TameNext s (execLaneEnWrite t data s) :=
  calmNext_byWrite fun _ h => calm_writeClkCtrl _ h

@[simp] theorem tameNext_execRootPllLock : TameNext s (execRootPllLock t s) :=
  have h := calm_advance t (Calm.refl s)
  calmNext (calm_ite (calm_restartCounter (calm_setFlag _ _ h)) h)

@[simp] theorem tameNext_execClockUnlock {pll : Nat} : TameNext s (execClockUnlock t pll s) :=
  have h := calm_advance t (Calm.refl s)
  calmNext (calm_ite (calm_post _ _ (calm_raiseFlag _ (calm_setFlag _ _ h))) h)

@[simp] theorem tameNext_execPllRelock {pll : Nat} : TameNext s (execPllRelock t pll s) :=
  have h := calm_advance t (Calm.refl s)
  calmNext (calm_ite (calm_setFlag _ _ h) (calm_ite (calm_setFlag _ _ h) h))

@[simp] theorem tameNext_execSyncArm {data : Nat} : TameNext s (execSyncArm t data s) :=
  calmNext_byWrite fun _ h => calm_writeSyncCtrl _ h

@[simp] theorem tameNext_execSyncEvent : TameNext s (execSyncEvent t s) :=
  have h := calm_advance t (Calm.refl s)
  calmNext (calm_ite (calm_ite (calm_emit _ (calm_captureSync h)) (calm_captureSync h)) h)

@[simp] theorem tameNext_execSyncCheck : TameNext s (execSyncCheck t s) := by
  have h := calm_advance t (Calm.refl s)
  unfold execSyncCheck
  dsimp only
  split
  · exact calmNext h
  · exact calmNext (calm_ite (calm_wrapAdd _ _ (calm_dropSync _ h)) (calm_post _ _ (calm_dropSync _ h)))

@[simp] theorem tameNext_execSyncOutScheduled : TameNext s (execSyncOutScheduled t s) :=
  have h := calm_advance t (Calm.refl s)
  calmNext (calm_ite (calm_set64 _ _ _ (calm_emit _ h)) h)

/-! ## Boot, updates and fuse requests -/

@[simp] theorem tameNext_execImageLoadDone {data : List Byte} {failed : Bool} : TameNext s (execImageLoadDone t data failed s) := by
  have h := calm_advance t (Calm.refl s)
  unfold execImageLoadDone
  dsimp only
  split
  · refine tameNext (tame_ite (calm_nextSource _ (calm_rejectBoot _ h)).tame (tame_ite (calm_nextSource _ (calm_rejectBoot _ h)).tame
      (tame_ite (h.thenTame ?_) h.tame)))
    exact (tame_writeStore _ _ _).thenCalm (calm_verifyBoot _ _ (calm_readRest _ _ (Calm.refl _)))
  · exact calmNext h

@[simp] theorem tameNext_execHostLen {data : Nat} : TameNext s (execHostLen t data s) :=
  calmNext_byWrite fun _ h => calm_writeHostLen _ h

@[simp] theorem tameNext_execReady : TameNext s (execReady t s) := by
  have h := calm_advance t (Calm.refl s)
  refine calmNext ?_
  split
  · exact calm_setF _ _ (calm_setFlag _ _ (calm_setBoot _ _ (calm_modTrust _ (calm_runImage _ h) fun _ => ⟨rfl, rfl, rfl⟩)))
  · exact calm_setF _ _ (calm_setFlag _ _ (calm_setBoot _ _ (calm_modTrust _ (calm_runImage _ h) fun _ => ⟨rfl, rfl, rfl⟩)))
  · exact h

@[simp] theorem tameNext_execStageWrite {data : Nat} : TameNext s (execStageWrite t data s) :=
  calmNext_byWrite fun _ h => calm_writeStage _ h

@[simp] theorem tameNext_execVerify {data : Nat} : TameNext s (execVerify t data s) :=
  calmNext_byWrite fun _ h => calm_writeStageCtrl _ h

@[simp] theorem tameNext_execActivate {data : Nat} : TameNext s (execActivate t data s) :=
  calmNext_byWrite fun _ h => calm_writeStageCtrl _ h

@[simp] theorem tameNext_execVerificationDone : TameNext s (execVerificationDone t s) := by
  have h := calm_advance t (Calm.refl s)
  refine calmNext ?_
  split
  · split
    · exact calm_bootVerified _ _ (calm_modTrust _ h fun _ => ⟨rfl, rfl, rfl⟩)
    · exact calm_modTrust _ h fun _ => ⟨rfl, rfl, rfl⟩
  · exact calm_stageVerified _ _ _ (calm_modTrust _ h fun _ => ⟨rfl, rfl, rfl⟩)
  · exact calm_activateMeasured _ _ (calm_modTrust _ h fun _ => ⟨rfl, rfl, rfl⟩)
  · exact h

@[simp] theorem tameNext_execFwActivated : TameNext s (execFwActivated t s) := by
  have h := calm_advance t (Calm.refl s)
  unfold execFwActivated
  extract_lets u v
  split
  · split
    · exact calmNext h
    · extract_lets _ w
      have hv : Calm s v := by
        unfold v
        split
        · exact calm_ownBanks _ 0 h
        · exact h
      have hw : Calm s w := calm_modTrust _ (calm_setFlag _ _ (calm_runImage _ hv)) fun _ => ⟨rfl, rfl, rfl⟩
      exact calmNext (calm_post _ _ hw)
  · exact calmNext h

@[simp] theorem tameNext_execFirmwareStartTimeout : TameNext s (execFirmwareStartTimeout t s) := by
  have h := calm_advance t (Calm.refl s)
  refine calmNext ?_
  split
  · exact calm_ite (calm_stopSampling (calm_restartOld _ h)) h
  · exact h

@[simp] theorem tameNext_execGo {data : Nat} : TameNext s (execGo t data s) :=
  calmNext_byWrite fun _ h => calm_writeFuseProg _ h

/-! ## Power, sleep and resets -/

@[simp] theorem tameNext_execPwrDomain : TameNext s (execPwrDomain t c s) :=
  calmNext_runCmd fun _ _ h => calm_schedulable _ _ _ _ _ _ h (calm_applyPwrDomain _ h)

@[simp] theorem tameNext_execDomainReady {domain : Nat} {cells : List Host.Cell} : TameNext s (execDomainReady t domain cells s) := by
  have h := calm_advance t (Calm.refl s)
  refine tameNext ?_
  split
  · exact h.tame
  next j _ =>
    have ready : Tame s (if j.on then domainReady (advance t s) domain cells else advance t s) :=
      tame_ite (h.thenTame (tame_domainReady _ _ _)) h.tame
    exact tame_ite (ready.thenCalm (calm_postDomainState (calm_modPower _ (Calm.refl _))))
      (ready.thenCalm (calm_modPower _ (Calm.refl _)))

@[simp] theorem tameNext_execModeWriteActiveIdle {data : Nat} : TameNext s (execModeWriteActiveIdle t data s) :=
  calmNext_byWrite fun _ h => calm_writeMode _ h

@[simp] theorem tameNext_execModeWriteSleepDeep {data : Nat} : TameNext s (execModeWriteSleepDeep t data s) :=
  calmNext_byWrite fun _ h => calm_writeMode _ h

@[simp] theorem tameNext_execEntryBegin : TameNext s (execEntryBegin t s) :=
  have h := calm_advance t (Calm.refl s)
  calmNext (calm_ite (calm_drainForEntry (calm_setFlag _ _ (calm_modPower _ h))) h)

@[simp] theorem tameNext_execEntryDrainEnd : TameNext s (execEntryDrainEnd t s) :=
  have h := calm_advance t (Calm.refl s)
  calmNext (calm_ite (calm_modPower _ (calm_discardHeld (calm_foldl (fun _ _ k => calm_haltDma _ _ _ k) (calm_ite (calm_cancelActs h)
    h)))) (calm_ite (calm_cancelActs h) h))

@[simp] theorem tameNext_execCommitPoint : TameNext s (execCommitPoint t s) := by
  have h := calm_advance t (Calm.refl s)
  have k := calm_settleInjectors (calm_settleAllPmc (calm_cancelActs h))
  exact calmNext (calm_ite (calm_modPower _ (calm_setF _ _ (calm_setF _ _ (calm_ite (calm_closeRows k) k)))) h)

@[simp] theorem tameNext_execEntryCancel : TameNext s (execEntryCancel t s) := by
  have h := calm_advance t (Calm.refl s)
  refine calmNext (calm_ite ?_ h)
  dsimp only
  split
  · exact calm_satAdd _ _ (calm_setF _ _ (calm_stopEntry h))
  · exact calm_endWait _ (calm_setF _ _ (calm_satAdd _ _ (calm_setF _ _ (calm_stopEntry h))))

@[simp] theorem tameNext_execWakeStepCondition : TameNext s (execWakeStepCondition t s) :=
  have h := calm_advance t (Calm.refl s)
  calmNext (calm_ite (calm_modPower _ (calm_ite (calm_lockRoot (calm_ite (calm_setF _ _ h) h)) (calm_ite (calm_setF _ _ h) h))) h)

@[simp] theorem tameNext_execWakeStepDelayEnd : TameNext s (execWakeStepDelayEnd t s) :=
  have h := calm_advance t (Calm.refl s)
  calmNext (calm_ite (calm_stepsFrom _ (calm_modPower _ h)) h)

@[simp] theorem tameNext_execWakeStepTimeout : TameNext s (execWakeStepTimeout t s) :=
  have h := calm_advance t (Calm.refl s)
  calmNext (calm_ite (calm_ite (calm_fallBack _ (calm_undoStep _ h)) (calm_modPower _ (calm_undoStep _ h))) h)

@[simp] theorem tameNext_execWakeStepRetry : TameNext s (execWakeStepRetry t s) :=
  have h := calm_advance t (Calm.refl s)
  calmNext (calm_ite (calm_startStepAt _ _ h) h)

@[simp] theorem tameNext_execEntryComplete : TameNext s (execEntryComplete t s) := by
  have h := calm_advance t (Calm.refl s)
  refine calmNext (calm_ite ?_ h)
  dsimp only
  split
  · exact calm_startWake _ _ (calm_setFlag _ _ (calm_settleLow _ (calm_finishEntry h)))
  · exact calm_setFlag _ _ (calm_settleLow _ (calm_finishEntry h))

@[simp] theorem tameNext_execWakeN {low : Bool} : TameNext s (execWakeN t low s) :=
  have h := calm_advance t (Calm.refl s)
  calmNext (calm_ite (calm_wakeEvent _ (calm_modPower _ h)) (calm_modPower _ h))

@[simp] theorem tameNext_execWickWakeReq {data : Nat} : TameNext s (execWickWakeReq t data s) :=
  calmNext_byWickWrite fun _ h => calm_writeWakeReq _ h

@[simp] theorem tameNext_execWickTimerExpiry : TameNext s (execWickTimerExpiry t s) :=
  have h := calm_advance t (Calm.refl s)
  calmNext (calm_ite (calm_wakeEvent _ (calm_modPower _ h)) h)

@[simp] theorem tameNext_execWakeSequenceEnd {straps : Nat} {store dram : List Host.Cell} :
    TameNext s (execWakeSequenceEnd t straps store dram s) :=
  have h := calm_advance t (Calm.refl s)
  tameNext (tame_ite (tame_ite (h.thenTame (tame_startCold _ _ _)) (h.thenTame (tame_restoreSleep _ _))) h.tame)

@[simp] theorem tameNext_execPowerOnReset : TameNext s (execPowerOnReset t s) := by
  have h := calm_advance t (Calm.refl s)
  have cleared : Calm s { holdReset (advance t s) 0 with regs := [] } := by
    simp only [↓calm_mk']
    exact calm_holdReset _ h
  exact calmNext (calm_driveAlert (calm_ite cleared (calm_coldStart cleared)))

@[simp] theorem tameNext_execResetNLow : TameNext s (execResetNLow t s) :=
  have h := calm_holdReset 1 (calm_advance t (Calm.refl s))
  calmNext (calm_modPower _ h)

@[simp] theorem tameNext_execResetNRelease : TameNext s (execResetNRelease t s) :=
  have h := calm_advance t (Calm.refl s)
  calmNext (calm_ite (calm_coldStart h) h)

@[simp] theorem tameNext_execChip {data : Nat} : TameNext s (execChip t data s) :=
  calmNext_byWrite fun _ h => calm_ite (calm_chipReset h) h

@[simp] theorem tameNext_execChipResetEnd : TameNext s (execChipResetEnd t s) := by
  have h := calm_advance t (Calm.refl s)
  refine calmNext ?_
  split
  · exact calm_ite (calm_coldStart h) h
  · exact h

@[simp] theorem tameNext_execPerstN : TameNext s (execPerstN t s) :=
  have h := calm_advance t (Calm.refl s)
  calmNext h

/-! ## Activations that fall due -/

@[simp] theorem tameNext_execScheduledActivation : TameNext s (execScheduledActivation t s) := by
  have h := calm_advance t (Calm.refl s)
  refine calmNext ?_
  split
  · exact h
  · exact calm_endAct _ _ _ (calm_foldl (fun _ _ k => calm_holdBits _ k) (calm_activate _ h))

@[simp] theorem tameNext_execAdaptiveSwap : TameNext s (execAdaptiveSwap t s) := by
  have h := calm_advance t (Calm.refl s)
  refine calmNext ?_
  split
  · exact h
  · exact calm_ite (calm_applyDpdSwap _ h) (calm_applyRxSwap _ h)

/-! ## General commands -/

@[simp] theorem tameNext_execNop : TameNext s (execNop t c s) := by
  have h := calm_advance t (Calm.refl s)
  unfold execNop
  dsimp only
  split
  · exact calmNext h
  · split
    · exact calmNext h
    · split
      · exact calmNext (calm_reject _ _ h)
      · exact calmNext (calm_complete _ _ h)

@[simp] theorem tameNext_execFence : TameNext s (execFence t c s) :=
  calmNext_runCmd fun _ _ h => calm_immediate _ _ _ _ _ h h

@[simp] theorem tameNext_execCancel : TameNext s (execCancel t c s) :=
  calmNext_runCmd fun _ _ h => calm_immediate _ _ _ _ _ h (calm_foldl (fun _ _ k => calm_endAct _ _ _ k) h)

@[simp] theorem tameNext_execStoreClaim : TameNext s (execStoreClaim t c s) :=
  calmNext_runCmd fun _ _ h => calm_immediate _ _ _ _ _ h (calm_ownBanks _ _ h)

@[simp] theorem tameNext_execStoreRelease : TameNext s (execStoreRelease t c s) :=
  calmNext_runCmd fun _ _ h => calm_immediate _ _ _ _ _ h (calm_ownBanks _ _ h)

/-! ## Digests -/

@[simp] theorem tameNext_execCfgDigest : TameNext s (execCfgDigest t c s) := by
  refine calmNext_runCmd fun _ _ h => ?_
  split
  · exact calm_reject _ _ h
  · exact calm_startJob _ _ h

@[simp] theorem tameNext_execAttest : TameNext s (execAttest t c s) := by
  refine calmNext_runCmd fun _ _ h => ?_
  split
  · exact calm_reject _ _ h
  · exact calm_startJob _ _ h

@[simp] theorem tameNext_execKeccakJobDone : TameNext s (execKeccakJobDone t s) := by
  have h := calm_advance t (Calm.refl s)
  refine calmNext ?_
  split
  · split
    · exact calm_complete _ _ (calm_hostWrite _ _ _ (calm_modTrust _ h fun _ => ⟨rfl, rfl, rfl⟩))
    · exact calm_modTrust _ h fun _ => ⟨rfl, rfl, rfl⟩
  · split
    · exact calm_complete _ _ (calm_hostWrite _ _ _ (calm_modTrust _ h fun _ => ⟨rfl, rfl, rfl⟩))
    · exact calm_modTrust _ h fun _ => ⟨rfl, rfl, rfl⟩
  · exact h

/-! ## Sample data -/

@[simp] theorem tameNext_execDcWindowEnd {path : Nat} : TameNext s (execDcWindowEnd t path s) :=
  tameNext ((calm_advance t (Calm.refl s)).thenTame (tame_endWindow _ _))

@[simp] theorem tameNext_execAdaptiveSwapRequest {path kind bin gain tick : Nat} {better : Bool} {base : Option Coefs}
    {data : Coefs} : TameNext s (execAdaptiveSwapRequest t path kind bin gain tick better base data s) := by
  have h := calm_advance t (Calm.refl s)
  refine tameNext ?_
  split
  · exact h.thenTame (tame_solveDone _ _ _ _ _ _)
  · exact h.thenTame (tame_endWindow _ _)
  · exact h.thenTame (tame_requestGain _ _ _ _)
  · exact h.tame

@[simp] theorem tameNext_execCaptureDone {job written : Nat} : TameNext s (execCaptureDone t job written s) := by
  have h := calm_advance t (Calm.refl s)
  unfold execCaptureDone
  dsimp only
  split
  · exact calmNext h
  next x _ =>
    refine tameNext (tame_throughPort h fun u hu => ?_)
    split
    · exact hu.tame
    next n _ _ =>
      have k := hu.thenTame (tame_writeRecords u x ((captureData u x n).drop (8 * brought u x)) (8 * brought u x))
      exact k.thenCalm (calm_periphEnded _ (calm_postAt _ _ _ (calm_ite (calm_setF _ _ (Calm.refl _)) (Calm.refl _))))

@[simp] theorem tameNext_execDmaBurstComplete {channel : Nat} {src dst : List Byte} :
    TameNext s (execDmaBurstComplete t channel src dst s) := by
  have h := calm_advance t (Calm.refl s)
  unfold execDmaBurstComplete
  extract_lets u
  split
  next i n _ _ =>
    extract_lets read
    split
    · exact calmNext h
    · refine tameNext (tame_throughPort h fun u hu => (hu.thenTame (tame_runBurst u channel i n read dst)).thenCalm ?_)
      have k {f : DmaCh → DmaCh} := calm_modCh channel f (Calm.refl (runBurst u channel i n read dst))
      exact calm_pumpShared (calm_ite (calm_haltDma _ _ _ k) (calm_nextBurst _ _ k))
  · exact calmNext h

@[simp] theorem tameNext_execUlPacketQueued {stream first : Nat} : TameNext s (execUlPacketQueued t stream first s) := by
  have h := calm_advance t (Calm.refl s)
  refine calmNext ?_
  split
  · exact h
  · split
    · exact h
    · dsimp only
      split
      · exact h
      · exact calm_ite h (calm_modStream _ _ (calm_modCasc _ (calm_enqueue _ _ h)))

@[simp] theorem tameNext_execCascSumOriginate {stream first : Nat} : TameNext s (execCascSumOriginate t stream first s) := by
  have h := calm_advance t (Calm.refl s)
  refine calmNext ?_
  split
  · exact h
  · split
    · exact h
    · exact calm_ite h (calm_modStream _ _ (calm_enqueue _ _ h))

@[simp] theorem tameNext_execCascSumPass : TameNext s (execCascSumPass t s) := by
  have h := calm_advance t (Calm.refl s)
  refine calmNext (calm_ite h ?_)
  split
  · exact h
  next l _ =>
    have taken := calm_modCasc (fun y => { y with sums := l }) h
    have k {p : Prop} [Decidable p] : Calm s (if p then _ else _) := calm_ite (calm_satAdd F.CAS_STAT2_NO_STREAM 1 taken) taken
    exact calm_ite h (calm_ite taken (calm_ite (calm_sentAt _ k fun u => calm_sendBytes _ _ (Calm.refl u)) (calm_satAdd _ _ k)))

@[simp] theorem tameNext_execCascCombine {stream first : Nat} : TameNext s (execCascCombine t stream first s) := by
  have h := calm_advance t (Calm.refl s)
  refine calmNext ?_
  split
  · exact h
  · split
    · exact h
    · exact calm_ite h (calm_modCasc _ (calm_ite (calm_satAdd _ _ h) h))

@[simp] theorem tameNext_execStreamDestroy : TameNext s (execStreamDestroy t c s) := by
  refine calmNext_runCmd fun _ _ h => calm_immediate _ _ _ _ _ h ?_
  dsimp only
  split
  · exact h
  · refine calm_removeStream _ (calm_ite (calm_postOrphanEnd _ _ h) ?_)
    split
    · exact calm_sendMessage _ _ _ (calm_closeStream _ _ h)
    · exact h

/-! ## An applied SYNC -/

@[simp] theorem tameNext_execSyncApplied : TameNext s (execSyncApplied t s) := by
  have h := calm_advance t (Calm.refl s)
  refine calmNext ?_
  split
  · exact h
  · exact calm_applySync _ _ _ (calm_dropSync _ h)

/-! ## Accesses of the host -/

@[simp] theorem tameNext_execTddEntryWrite {bank entry data : Nat} : TameNext s (execTddEntryWrite t bank entry data s) :=
  calmNext_byWrite fun _ h => calm_ite (calm_writeWord _ _ h) h

@[simp] theorem tameNext_execRegisterWrite {target : RegTarget} : TameNext s (execRegisterWrite t target s) := by
  have h := calm_advance t (Calm.refl s)
  refine calmNext (calm_ite h ?_)
  split
  · exact calm_ite (calm_hostStore _ _ h) h
  · exact calm_storeMsix _ _ h
  · exact calm_writeConfig h h
  · exact calm_writeConfig h (calm_writeMsixControl _ _ h)
  · exact calm_writeConfig h h
  · exact calm_writeConfig h h
  · exact calm_writeConfig h h
  · exact calm_writeConfig h h
  · exact calm_writeConfig h h

@[simp] theorem tameNext_execMalformedAccess {access : Sys2Proof.Access} : TameNext s (execMalformedAccess t access s) := by
  have h := calm_advance t (Calm.refl s)
  have counted := calm_satAdd F.HOST_ACCESS_ERR_COUNT 1 h
  exact calmNext (calm_ite h
    (calm_ite (calm_ite h (calm_w4Words _ h))
    (calm_ite (calm_ite (calm_blockWrite _ h) (calm_emit _ (calm_satAdd _ _ h)))
    (calm_ite (calm_ite (calm_countCfg _ counted) (calm_emit _ counted))
    (calm_ite (calm_writeWords _ _ _ h) (calm_emit _ (calm_readWords _ _ h)))))))

@[simp] theorem tameNext_execW2Access {access : Sys2Proof.Access} : TameNext s (execW2Access t access s) := by
  have h := calm_advance t (Calm.refl s)
  have awake := calm_disturbSr h
  exact tameNext (tame_ite h.tame
    (tame_ite (tame_ite (calm_blockWrite _ h).tame (calm_emit _ (calm_satAdd _ _ h)).tame)
    (tame_ite (tame_ite (h.thenTame (tame_writeStore _ _ _)) (calm_emit _ h).tame)
    (tame_ite (calm_missAccess _ h).tame
    (tame_ite (calm_missAccess _ awake).tame
    (tame_ite (awake.thenTame (tame_writeDram _ _ _)) (calm_ite (calm_emit _ awake) (calm_modMemc _ awake)).tame))))))

@[simp] theorem tameNext_execPf1Read {access : Sys2Proof.Access} : TameNext s (execPf1Read t access s) :=
  have h := calm_advance t (Calm.refl s)
  calmNext (calm_ite h (calm_emit _ (calm_pf1Words _ _ h)))

@[simp] theorem tameNext_execSourceDataReadComplete {ring tag : Nat} {data : List Byte} :
    TameNext s (execSourceDataReadComplete t ring tag data s) := by
  have h := calm_advance t (Calm.refl s)
  refine tameNext (tame_ite h.tame ?_)
  split
  · exact h.tame
  · exact tame_ite (calm_ite (calm_pumpShared (calm_keepSource _ _ h)) h).tame (tame_sourceWhole h)

@[simp] theorem tameNext_execReadCompletionTimeout {user : ReadUser} {abort : Bool} :
    TameNext s (execReadCompletionTimeout t user abort s) := by
  have h := calm_advance t (Calm.refl s)
  refine calmNext ?_
  split
  · split
    · exact h
    · exact calm_ite h (calm_pumpShared (calm_ite (calm_wsLoadFailed _ _ (calm_leaveStrays _ _ (calm_noteTimeout _ h))) (calm_reject _
        _ (calm_leaveStrays _ _ (calm_noteTimeout _ h)))))
  · exact calm_dmaReadFault _ _ h
  · exact calm_ringReadFault _ _ h

end Sys2Proof.Machine
end

section
/-!
Fuse bits are only ever set (R463): `FuseBitsKept`, its sources (every tame transition, and the bits burned at the end of a programming
operation), and its preservation by `exec` and `step`. Then the fused epoch as a count of bits.
-/
namespace Sys2Proof.Machine

/-- Every fuse bit set in `s`, in the customer key hash, the policy or the epoch fuses, is set in `v`. -/
def FuseBitsKept (s v : State) : Prop :=
  s.trust.customer &&& v.trust.customer = s.trust.customer ∧ s.trust.policy &&& v.trust.policy = s.trust.policy
    ∧ s.trust.epochs &&& v.trust.epochs = s.trust.epochs

theorem Tame.fuseBitsKept {s v : State} (h : Tame s v) : FuseBitsKept s v := by
  obtain ⟨-, -, -, -, -, customer, policy, epochs⟩ := h
  simp [FuseBitsKept, customer, policy, epochs]

theorem Calm.fuseBitsKept_trans {s u v : State} (h : Calm s u) (k : FuseBitsKept u v) : FuseBitsKept s v := by
  obtain ⟨-, -, -, -, -, -, customer, policy, epochs⟩ := h
  simpa only [FuseBitsKept, customer, policy, epochs] using k

/-! ## The one operation that writes fuses -/

theorem and_or_self_left (a b : Nat) : a &&& (a ||| b) = a :=
  Nat.eq_of_testBit_eq fun i => by simpa using Or.inl

/-- A field that burns the bits `set` where `p` holds keeps the bits it has. -/
theorem and_burned (p : Prop) [Decidable p] (a set : Nat) : a &&& (if p then a ||| set else a) = a := by
  split
  · exact and_or_self_left a set
  · exact Nat.and_self a

theorem fuseBitsKept_execFuseProgrammingDone {t took : Nat} {s v : State} (e : execFuseProgrammingDone t took s = .next v) :
    FuseBitsKept s v := by
  have h := calm_advance t (Calm.refl s)
  cases e
  split
  · exact h.tame.fuseBitsKept
  next op _ _ =>
    refine h.fuseBitsKept_trans ⟨?_, ?_, ?_⟩
    · exact and_burned (op = 1) _ _
    · exact and_burned (op = 2) _ _
    · exact and_burned (op = 3) _ _

/-! ## Every command and every step -/

theorem tameNext_exec {i : Instr} {s : State} (hi : ∀ t took, i ≠ .fuseProgrammingDone t took) : TameNext s (exec i s) := by
  cases i with
  | fuseProgrammingDone t took => exact absurd rfl (hi t took)
  | _ => simp [exec]

theorem fuseBitsKept_exec {i : Instr} {s v : State} (e : exec i s = .next v) : FuseBitsKept s v := by
  by_cases hi : ∃ t took, i = .fuseProgrammingDone t took
  · obtain ⟨t, took, rfl⟩ := hi
    exact fuseBitsKept_execFuseProgrammingDone e
  · exact (tameNext_exec (fun t took h => hi ⟨t, took, h⟩) v e).fuseBitsKept

theorem fuseBitsKept_step {s v : State} (e : step s = .next v) : FuseBitsKept s v := by
  unfold step at e
  split at e
  · exact (calmNext (calm_advance _ (Calm.refl s)) v e).fuseBitsKept
  next rest _ =>
    -- Taking a command off the queue leaves the fuses as they are.
    exact (fuseBitsKept_exec e : FuseBitsKept { s with pending := rest } v)

/-! ## The fused epoch -/

theorem bitAt_eq_testBit (x i : Nat) : bitAt x i = x.testBit i := by
  simp [bitAt, Nat.testBit_eq_decide_div_mod_eq, Nat.shiftRight_eq_div_pow]

theorem length_bitsSet (x n : Nat) : (bitsSet x n).length = (List.range n).countP fun i => x.testBit i := by
  simp only [bitsSet, bitAt_eq_testBit, List.countP_eq_length_filter]

theorem length_bitsSet_le (x n : Nat) : (bitsSet x n).length ≤ n :=
  (List.length_filter_le _ _).trans_eq List.length_range

end Sys2Proof.Machine
end

section
open Sys2Proof Sys2Proof.Machine

/-- Settles O59: the epoch is the number of elements of a filtered range; only a completed fuse programming operation writes fuses, and it ORs
bits in, while every other command is `Tame`. -/
theorem fusesAreOnlyEverSet : Obligations.FusesAreOnlyEverSet := by
  unfold Obligations.FusesAreOnlyEverSet
  exact ⟨fun s => ⟨length_bitsSet s.trust.epochs 64, length_bitsSet_le s.trust.epochs 64⟩, fun _ _ => fuseBitsKept_step⟩

end

section
/-!
A row of the command rings is a `runCmd` (R91, R98): what it does while its turn has not come, and when an early check fails.
-/
namespace Sys2Proof.Machine

theorem turn_eq_none_of_flight_nil {u : State} (h : u.host.flight = []) (c : Cmd) : turn u c = none := by
  simp [turn, h]

@[simp] theorem moveTime_flight (t : Nat) (s : State) : (moveTime t s).host.flight = s.host.flight := by simp

theorem driveRails_host (l : List Nat) (on : Bool) (s : State) : (l.foldl (fun v r => driveRail v r on) s).host = s.host := by
  induction l generalizing s with
  | nil => rfl
  | cons r l ih =>
    rw [List.foldl_cons, ih]
    unfold driveRail
    split <;> rfl

@[simp] theorem holdReset_flight (s : State) (cause : Nat) : (holdReset s cause).host.flight = [] := by
  have rails := driveRails_host (List.range 8) false (setF (loseAll s) F.PWR_WICK_CAUSE_RESET_CAUSE cause)
  exact congrArg HostSt.flight rails

/-- Time moves on with nothing else, or a chip reset has taken every command out of flight. -/
theorem advance_eq_moveTime_or_flight_nil (t : Nat) (s : State) : advance t s = moveTime t s ∨ (advance t s).host.flight = [] := by
  unfold advance
  split
  · split
    · exact .inr (by simp [chipHold, modPower])
    · exact .inl rfl
  · exact .inl rfl

/-- Where a command's turn comes, time has moved on with nothing else. -/
theorem advance_of_turn {t : Nat} {s : State} {c : Cmd} {f : Flight} (h : turn (advance t s) c = some f) : advance t s = moveTime t s := by
  obtain moved | lost := advance_eq_moveTime_or_flight_nil t s
  · exact moved
  · simp [turn_eq_none_of_flight_nil lost] at h

@[simp] theorem getF_moveTime (t : Nat) (s : State) (f : Fld) : getF (moveTime t s) f = getF s f := by simp [getF, getR]

theorem isMember_moveTime (t : Nat) (s : State) : isMember (moveTime t s) = isMember s := by
  rw [isMember, isMember, roleOf, roleOf, getF_moveTime]

theorem execNop_eq_runCmd {t : Nat} {c : Cmd} {s : State} (h : c.opcode = 0x00) :
    execNop t c s = runCmd t 0x00 c s [] fun u f => complete u f 0 := by
  simp only [execNop, runCmd, h] <;>
    rfl

/-- The handles that PARAMS names are those of the row, as soon as the command's turn has come. -/
theorem exec_ringRow {i : Instr} {t op : Nat} {c : Cmd} {more : List (Nat × Nat)} {s u : State} (hu : u = advance t s)
    (hrow : ringRow u i = some (t, c, op, more)) (hop : op = 0x00 → c.opcode = 0x00) :
    ∃ named k, exec i s = runCmd t op c s named k ∧ ∀ f, turn u c = some f → named = more := by
  subst hu
  cases i <;> simp only [ringRow, Option.some.injEq, Prod.mk.injEq, reduceCtorEq] at hrow <;> obtain ⟨rfl, rfl, rfl, rfl⟩ := hrow
  case nop => exact ⟨_, _, execNop_eq_runCmd (hop rfl), fun _ _ => rfl⟩
  case streamCreate t c =>
    refine ⟨_, _, by rw [exec, execStreamCreate], fun f hf => ?_⟩
    rw [advance_of_turn hf, isMember_moveTime]
  case fence | cancel | cfgDigest | attest | storeClaim | storeRelease =>
    simp only [exec, execFence, execCancel, execCfgDigest, execAttest, execStoreClaim, execStoreRelease]
    exact ⟨_, _, rfl, fun _ _ => rfl⟩
  case carrierCreate | carrierSet | carrierDestroy | streamDestroy | partnerDestroy =>
    simp only [exec, execCarrierCreate, execCarrierSet, execCarrierDestroy, execStreamDestroy, execPartnerDestroy]
    exact ⟨_, _, rfl, fun _ _ => rfl⟩
  case wsCreate | wsLoad | wsActivate | wsDestroy =>
    simp only [exec, execWsCreate, execWsLoad, execWsActivate, execWsDestroy]
    exact ⟨_, _, rfl, fun _ _ => rfl⟩
  case pathCorr | rxGain | cfrSet | dcLoad =>
    simp only [exec, execPathCorr, execRxGain, execCfrSet, execDcLoad]
    exact ⟨_, _, rfl, fun _ _ => rfl⟩
  case loTune | loCal | podState | fesbWrite | tddSwap =>
    simp only [exec, execLoTune, execLoCal, execPodState, execFesbWrite, execTddSwap]
    exact ⟨_, _, rfl, fun _ _ => rfl⟩
  case calCreate | calStart | calDestroy | capCreate | capStart | capDestroy =>
    simp only [exec, execCalCreate, execCalStart, execCalDestroy, execCapCreate, execCapStart, execCapDestroy]
    exact ⟨_, _, rfl, fun _ _ => rfl⟩
  case dpdPolicy | dpdCoefLoad | dpdDump =>
    simp only [exec, execDpdPolicy, execDpdCoefLoad, execDpdDump]
    exact ⟨_, _, rfl, fun _ _ => rfl⟩
  case biasSet | biasStrobe | monScan | monUrgent | pwrDomain =>
    simp only [exec, execBiasSet, execBiasStrobe, execMonScan, execMonUrgent, execPwrDomain]
    exact ⟨_, _, rfl, fun _ _ => rfl⟩
  case laneState | cascDiscover | fiSet | fiClear =>
    simp only [exec, execLaneState, execCascDiscover, execFiSet, execFiClear]
    exact ⟨_, _, rfl, fun _ _ => rfl⟩
  case dmaCreate | dmaStart | dmaStop | dmaDestroy =>
    simp only [exec, execDmaCreate, execDmaStart, execDmaStop, execDmaDestroy]
    exact ⟨_, _, rfl, fun _ _ => rfl⟩

end Sys2Proof.Machine
end

section
open Sys2Proof Sys2Proof.Machine

/-- Settles O8: every ring command is a `runCmd`, which lets only time pass before the command's turn and rejects where checks 1 to 3 do. -/
theorem waitingAndRejectedCommands : Obligations.WaitingAndRejectedCommands := by
  unfold Obligations.WaitingAndRejectedCommands
  refine ⟨fun i t op c more s u hu hrow hop hturn => ?_, fun i t op c more s u f st hu hrow hop hturn hearly => ?_⟩
  · obtain ⟨named, k, run, -⟩ := exec_ringRow hu hrow fun h => hop.trans h
    simp [run, runCmd, ← hu, hop, hturn]
  · obtain ⟨named, k, run, same⟩ := exec_ringRow hu hrow fun h => hop.trans h
    simp [run, runCmd, ← hu, hop, hturn, same f hturn, hearly]

end

section
/-!
Every command goes on from every state: a row of the command rings because `runCmd` does, every other row in each of its branches.
-/
namespace Sys2Proof.Machine

theorem runCmd_goesOn (t op : Nat) (c : Cmd) (s : State) (more : List (Nat × Nat)) (k : State → Flight → State) :
    ∃ v, runCmd t op c s more k = .next v := by
  unfold runCmd
  dsimp only
  split
  · exact ⟨_, rfl⟩
  · split
    · exact ⟨_, rfl⟩
    · split
      · exact ⟨_, rfl⟩
      · exact ⟨_, rfl⟩

theorem ringRow_goesOn {i : Instr} {t op : Nat} {c : Cmd} {more : List (Nat × Nat)} {s : State}
    (hrow : ringRow (advance t s) i = some (t, c, op, more)) (hop : op ≠ 0x00) : ∃ v, exec i s = .next v := by
  obtain ⟨named, k, run, -⟩ := exec_ringRow rfl hrow fun h => absurd h hop
  exact run ▸ runCmd_goesOn t op c s named k

theorem exec_goesOn (i : Instr) (s : State) : ∃ v, exec i s = .next v := by
  cases i
  case dpdSlotStart =>
    simp only [exec]
    unfold execDpdSlotStart
    extract_lets
    split
    · exact ⟨_, rfl⟩
    · exact ⟨_, rfl⟩
  case monitorWindowEnd =>
    simp only [exec]
    unfold execMonitorWindowEnd
    extract_lets
    split
    · exact ⟨_, rfl⟩
    · exact ⟨_, rfl⟩
  case slotDecided =>
    simp only [exec]
    unfold execSlotDecided
    extract_lets
    split
    · exact ⟨_, rfl⟩
    · split
      · exact ⟨_, rfl⟩
      · extract_lets
        split
        · exact ⟨_, rfl⟩
        · exact ⟨_, rfl⟩
  case monitorResult =>
    simp only [exec]
    unfold execMonitorResult
    extract_lets
    split
    · exact ⟨_, rfl⟩
    · split
      · exact ⟨_, rfl⟩
      · exact ⟨_, rfl⟩
  case dlPacketArrival =>
    simp only [exec]
    unfold execDlPacketArrival
    extract_lets
    split
    · exact ⟨_, rfl⟩
    · extract_lets
      repeat' first | exact ⟨_, rfl⟩ | split
  case carrierRestart | ulCarrierRestart =>
    simp only [exec, execCarrierRestart, execUlCarrierRestart]
    repeat' first | with_reducible exact ⟨_, rfl⟩ | split
  case entryFetchComplete | completionWrite =>
    simp only [exec, execEntryFetchComplete, execCompletionWrite]
    repeat' first | with_reducible exact ⟨_, rfl⟩ | split
  case syncCheck | frameBoundary =>
    simp only [exec, execSyncCheck, execFrameBoundary]
    repeat' first | with_reducible exact ⟨_, rfl⟩ | split
  case prefetchComplete | dramPrefetchLate | stagedCopyStart =>
    simp only [exec, execPrefetchComplete, execDramPrefetchLate, execStagedCopyStart]
    repeat' first | with_reducible exact ⟨_, rfl⟩ | split
  case echoRecord | dcReset =>
    simp only [exec, execEchoRecord, execDcReset]
    repeat' first | with_reducible exact ⟨_, rfl⟩ | split
  case dpdCaptureStart | dpdCaptureEnd =>
    simp only [exec, execDpdCaptureStart, execDpdCaptureEnd]
    repeat' first | with_reducible exact ⟨_, rfl⟩ | split
  case captureStart | captureDone =>
    simp only [exec, execCaptureStart, execCaptureDone]
    repeat' first | with_reducible exact ⟨_, rfl⟩ | split
  case instructionFetchComplete | dmaBurstComplete =>
    simp only [exec, execInstructionFetchComplete, execDmaBurstComplete]
    repeat' first | with_reducible exact ⟨_, rfl⟩ | split
  case trainingStepEnd | retrainingDue =>
    simp only [exec, execTrainingStepEnd, execRetrainingDue]
    repeat' first | with_reducible exact ⟨_, rfl⟩ | split
  case imageLoadDone | fwActivated | nop =>
    simp only [exec, execImageLoadDone, execFwActivated, execNop]
    repeat' first | with_reducible exact ⟨_, rfl⟩ | split
  case fence | cancel | cfgDigest | attest | storeClaim | storeRelease | carrierCreate | carrierSet | carrierDestroy | streamCreate
      | streamDestroy | wsCreate | wsLoad | wsActivate | wsDestroy | pathCorr | rxGain | cfrSet | dcLoad | loTune | loCal | podState
      | fesbWrite | tddSwap | calCreate | calStart | calDestroy | capCreate | capStart | capDestroy | dpdPolicy | dpdCoefLoad | dpdDump
      | biasSet | biasStrobe | monScan | monUrgent | pwrDomain | laneState | cascDiscover | fiSet | fiClear | dmaCreate | dmaStart
      | dmaStop | dmaDestroy | partnerDestroy => exact ringRow_goesOn rfl (by decide)
  all_goals exact ⟨_, rfl⟩

/-! ## The end of a fuse programming operation -/

/-- It writes fuses, so it is not `Tame`; for the rest it is calm. -/
theorem execFuseProgrammingDone_keeps {t took : Nat} {s v : State} (e : execFuseProgrammingDone t took s = .next v) :
    v.pending = s.pending ∧ v.part = s.part ∧ s.time.now ≤ v.time.now ∧ v.store = s.store ∧ v.dram = s.dram
      ∧ (s.acts.length ≤ 512 → v.acts.length ≤ 512) := by
  obtain ⟨pending, part, time, store, dram, acts, -⟩ := calm_advance t (Calm.refl s)
  cases e
  split
  · exact ⟨pending, part, time, store, dram, acts⟩
  · exact ⟨pending, part, time, store, dram, acts⟩

/-! ## What every command keeps -/

theorem exec_keeps {i : Instr} {s v : State} (e : exec i s = .next v) :
    v.pending = s.pending ∧ v.part = s.part ∧ s.time.now ≤ v.time.now ∧ (s.memWf = true → v.memWf = true)
      ∧ (s.acts.length ≤ 512 → v.acts.length ≤ 512) := by
  by_cases hi : ∃ t took, i = .fuseProgrammingDone t took
  · obtain ⟨t, took, rfl⟩ := hi
    obtain ⟨pending, part, time, store, dram, acts⟩ := execFuseProgrammingDone_keeps e
    exact ⟨pending, part, time, by simp [State.memWf, store, dram], acts⟩
  · obtain ⟨pending, part, time, mem, acts, -⟩ := tameNext_exec (fun t took h => hi ⟨t, took, h⟩) v e
    exact ⟨pending, part, time, mem, acts⟩

theorem step_keeps {s v : State} (e : step s = .next v) :
    (s.memWf = true → v.memWf = true) ∧ (s.acts.length ≤ 512 → v.acts.length ≤ 512) := by
  unfold step at e
  split at e
  · obtain ⟨-, -, -, mem, acts, -⟩ := calmNext (calm_advance _ (Calm.refl s)) v e
    exact ⟨mem, acts⟩
  next rest _ =>
    -- Taking a command off the queue leaves the memories and the pending activations as they are.
    obtain ⟨-, -, -, mem, acts⟩ := exec_keeps (s := { s with pending := rest }) e
    exact ⟨mem, acts⟩

end Sys2Proof.Machine
end

section
open Sys2Proof Sys2Proof.Machine

/-- Settles O4: every command keeps the canonical form of both memories, and so does the idle step. -/
theorem stepKeepsMemoriesCanonical : Obligations.StepKeepsMemoriesCanonical := by
  unfold Obligations.StepKeepsMemoriesCanonical
  intro s s' canonical e
  exact (step_keeps e).1 canonical

/-- Settles O5: every command keeps the pending-activation queue within its room, and so does the idle step. -/
theorem stepKeepsQueueWithin512 : Obligations.StepKeepsQueueWithin512 := by
  unfold Obligations.StepKeepsQueueWithin512
  intro s s' room e
  exact (step_keeps e).2 room

/-- Settles O6: each branch of each command answers a next state, and that state keeps the commands that wait, the part and the order of time. -/
theorem everyCommandGoesOn : Obligations.EveryCommandGoesOn := by
  unfold Obligations.EveryCommandGoesOn
  intro i s
  obtain ⟨v, e⟩ := exec_goesOn i s
  obtain ⟨pending, part, time, -⟩ := exec_keeps e
  exact ⟨v, e, pending, part, time⟩

/-- Settles O1: a step takes the front command off the queue and runs it. -/
theorem stepRunsTheFrontCommand : Obligations.StepRunsTheFrontCommand := by
  unfold Obligations.StepRunsTheFrontCommand
  intro s i rest front
  rw [step, front]

end

section
/-!
What a register field and a memory read back after a write (R499, R500).
-/
namespace Sys2Proof.Machine

/-! ## The bits of a word -/

theorem testBit_bitsOf (x lo w i : Nat) : (bitsOf x lo w).testBit i = (decide (i < w) && x.testBit (lo + i)) := by
  simp [bitsOf, Nat.testBit_mod_two_pow, Nat.testBit_shiftRight]

/-- The three parts of a word with a field replaced lie in bits of their own. -/
theorem testBit_putBits (x lo w v i : Nat) :
    (putBits x lo w v).testBit i
      = if i < lo then x.testBit i else if i < lo + w then v.testBit (i - lo) else x.testBit i := by
  have low : x % 2 ^ lo < 2 ^ lo := Nat.mod_lt _ (Nat.two_pow_pos lo)
  have middle : v % 2 ^ w < 2 ^ w := Nat.mod_lt _ (Nat.two_pow_pos w)
  have joined : putBits x lo w v = 2 ^ lo * (2 ^ w * (x >>> (lo + w)) + v % 2 ^ w) + x % 2 ^ lo := by
    simp only [putBits, Nat.shiftLeft_eq, Nat.pow_add]
    ring
  rw [joined, Nat.testBit_two_pow_mul_add _ low, Nat.testBit_two_pow_mul_add _ middle]
  by_cases hlo : i < lo
  · simp [hlo, Nat.testBit_mod_two_pow]
  · by_cases hw : i < lo + w
    · have inField : i - lo < w := by omega
      simp [hlo, hw, inField, Nat.testBit_mod_two_pow]
    · have above : ¬ i - lo < w := by omega
      have place : lo + w + (i - lo - w) = i := by omega
      simp [hlo, hw, above, Nat.testBit_shiftRight, place]

theorem bitsOf_putBits (x lo w v : Nat) : bitsOf (putBits x lo w v) lo w = v % 2 ^ w := by
  refine Nat.eq_of_testBit_eq fun i => ?_
  rw [testBit_bitsOf, testBit_putBits, Nat.testBit_mod_two_pow]
  by_cases hi : i < w <;> simp [hi]

theorem bitsOf_putBits_of_disjoint {lo w lo' w' : Nat} (x v : Nat) (h : lo' + w' ≤ lo ∨ lo + w ≤ lo') :
    bitsOf (putBits x lo w v) lo' w' = bitsOf x lo' w' := by
  refine Nat.eq_of_testBit_eq fun i => ?_
  rw [testBit_bitsOf, testBit_bitsOf, testBit_putBits]
  by_cases hi : i < w'
  · have outside : lo' + i < lo ∨ ¬ lo' + i < lo + w := by omega
    obtain below | above := outside
    · simp [below]
    · have : ¬ lo' + i < lo := by omega
      simp [above, this]
  · simp [hi]

theorem bitsOf_mod_two_pow {lo w n : Nat} (x : Nat) (h : lo + w ≤ n) : bitsOf (x % 2 ^ n) lo w = bitsOf x lo w := by
  refine Nat.eq_of_testBit_eq fun i => ?_
  rw [testBit_bitsOf, testBit_bitsOf, Nat.testBit_mod_two_pow]
  by_cases hi : i < w
  · have : lo + i < n := by omega
    simp [this]
  · simp [hi]

/-! ## Register fields -/

theorem getF_setF_same (s : State) {f : Fld} (v : Nat) (h : f.lo + f.width ≤ 32) : getF (setF s f v) f = v % 2 ^ f.width := by
  rw [getF, setF, getR_setR, BitVec.toNat_ofNat, bitsOf_mod_two_pow _ h, bitsOf_putBits]

theorem getF_setF_of_ne (s : State) {f g : Fld} (v : Nat) (h : g.reg.addr ≠ f.reg.addr) : getF (setF s f v) g = getF s g :=
  getF_setR_of_ne s _ h

theorem getF_setF_of_disjoint (s : State) {f g : Fld} (v : Nat) (hreg : g.reg = f.reg) (hg : g.lo + g.width ≤ 32)
    (h : g.lo + g.width ≤ f.lo ∨ f.lo + f.width ≤ g.lo) : getF (setF s f v) g = getF s g := by
  rw [getF, setF, hreg, getR_setR, BitVec.toNat_ofNat, bitsOf_mod_two_pow _ hg, bitsOf_putBits_of_disjoint _ _ h, getF, hreg]

/-! ## Bytes of a memory -/

theorem memGet_memWrite {m : List Host.Cell} (h : Memory.wf m = true) (a b : Nat) (l : List Byte) :
    memGet (memWrite m a l) b = if a ≤ b ∧ b < a + l.length then l.getD (b - a) 0 else memGet m b := by
  induction l generalizing m a with
  | nil =>
    have empty : ¬(a ≤ b ∧ b < a + ([] : List Byte).length) := by simp
    rw [memWrite, if_neg empty]
  | cons x l ih =>
    rw [memWrite, ih (memSet_wf h a x), memGet_set h, List.length_cons]
    by_cases first : b = a
    · subst first
      simp
    · by_cases inside : a + 1 ≤ b ∧ b < a + 1 + l.length
      · have place : b - a = (b - (a + 1)) + 1 := by omega
        rw [if_pos inside, if_pos (by omega), place, List.getD_cons_succ]
      · rw [if_neg inside, if_neg first, if_neg (by omega)]

end Sys2Proof.Machine
end

section
open Sys2Proof Sys2Proof.Machine

/-- Settles O13: bit by bit for fields, and by induction on the bytes for memories. -/
theorem writesReadBack : Obligations.WritesReadBack := by
  unfold Obligations.WritesReadBack
  refine ⟨fun u f g v hf hg => ⟨getF_setF_same u v hf, getF_setF_of_ne u v, fun hreg => ?_⟩, fun m a b l hm => memGet_memWrite hm a b l⟩
  exact getF_setF_of_disjoint u v hreg hg

end

section
/-!
The idle step, the state at the power-on reset, and the checks of R98 as a chain.
-/
namespace Sys2Proof.Machine

theorem step_of_idle {s : State} (h : s.pending = []) : step s = .next (advance (s.time.now + 1) s) := by
  rw [step, h]

/-- With no chip reset due at the end of the period, time alone moves on. -/
theorem advance_one_of_not_due {s : State} (h : s.power.chipAt ≠ some (s.time.now + 1)) :
    advance (s.time.now + 1) s = moveTime (s.time.now + 1) s :=
  advance_of_not_due fun n hn => by
    have : n ≠ s.time.now + 1 := fun e => h (e ▸ hn)
    omega

theorem moveTime_time_of_lt {t : Nat} {s : State} (h : s.time.now < t) :
    (moveTime t s).time = { s.time with
      now := t, tick := if s.time.counting then (s.time.tick + (t - s.time.now)) % 2 ^ 64 else s.time.tick } := by
  rw [moveTime, if_pos h]

theorem moveTime_past_of_lt {t : Nat} {s : State} (h : s.time.now < t) :
    (moveTime t s).past
      = if s.time.counting then { s.past with spans := spanTo s (s.time.tick + (t - s.time.now)) :: s.past.spans } else s.past := by
  rw [moveTime, if_pos h]

theorem moveTime_cycle_of_lt {t : Nat} {s : State} (h : s.time.now < t) : (moveTime t s).cycle = { regs := s.regs, held := [] } := by
  rw [moveTime, if_pos h]

theorem moveTime_frame (t : Nat) (s : State) : { moveTime t s with time := s.time, past := s.past, cycle := s.cycle } = s := by
  unfold moveTime
  split
  · rfl
  · rfl

@[simp] theorem chipHold_phase (s : State) : (chipHold s).power.phase = .held := rfl

/-- A chip reset that is due at the end of the period takes hold there. -/
theorem advance_one_of_due {s : State} (h : s.power.chipAt = some (s.time.now + 1)) :
    advance (s.time.now + 1) s = chipHold (moveTime (s.time.now + 1) s) := by
  have arrived : s.time.now + 1 ≤ (chipHold (moveTime (s.time.now + 1) s)).time.now := by
    obtain ⟨-, -, later, -⟩ := calm_chipHold (Calm.refl (moveTime (s.time.now + 1) s))
    rwa [moveTime_time_of_lt (Nat.lt_succ_self _)] at later
  rw [advance, h]
  dsimp only
  rw [if_pos ⟨Nat.lt_succ_self _, Nat.le_refl _⟩, moveTime_of_le arrived]

/-! ## The power-on reset -/

theorem getR_reset {r : Reg} (h : r.addr ≠ 0x200124) : getR State.reset r = BitVec.ofNat 32 r.reset := by
  simp [getR, State.reset, assocGet, Ne.symm h]

theorem flag_reset {f : Fld} (h : f.reg.addr ≠ 0x200124) (hf : bitsOf (f.reg.reset % 2 ^ 32) f.lo f.width ≠ 1) :
    flag State.reset f = false := by
  simpa [flag, getF, getR_reset h] using hf

theorem cmdEnabled_reset (r : Nat) : cmdEnabled State.reset r = false := by
  rw [cmdEnabled, Bool.and_eq_false_imp]
  intro hr
  have hr : r < 16 := of_decide_eq_true hr
  refine flag_reset ?_ ?_
  · simp only [F.HOST_CMDR_CTRL_ENABLE, A.HOST_CMDR_CTRL]; omega
  · simp [F.HOST_CMDR_CTRL_ENABLE, A.HOST_CMDR_CTRL, bitsOf]

theorem outEnabled_reset (kind r : Nat) : outEnabled State.reset kind r = false := by
  unfold outEnabled
  split
  · rw [Bool.and_eq_false_imp]
    intro hr
    have hr : r < 16 := of_decide_eq_true hr
    refine flag_reset ?_ ?_
    · simp only [F.HOST_CQR_CTRL_ENABLE, A.HOST_CQR_CTRL]; omega
    · simp [F.HOST_CQR_CTRL_ENABLE, A.HOST_CQR_CTRL, bitsOf]
  · rw [Bool.and_eq_false_imp]
    intro hr
    have hr : r < 4 := of_decide_eq_true hr
    refine flag_reset ?_ ?_
    · simp only [F.HOST_EVR_CTRL_ENABLE, A.HOST_EVR_CTRL]; omega
    · simp [F.HOST_EVR_CTRL_ENABLE, A.HOST_EVR_CTRL, bitsOf]

/-! ## The checks of R98 -/

section
variable {u : State} {c : Cmd} {more : List (Nat × Nat)} {mode : Machine.Mode} {cfg : Bool} {type : Nat}

theorem earlyChecks_reserved (h : opcodeRow c.opcode = none) : earlyChecks u c more = some stBadParam := by
  rw [earlyChecks, h]

/-- Check 1: FLAGS, the mode, the reserved bits and an unused handle. -/
abbrev goodForm (c : Cmd) (mode : Machine.Mode) (type : Nat) : Prop :=
  c.flags < 8 ∧ (mode = .i → sched c = false) ∧ (mode = .s → sched c = true)
    ∧ reservedZero c (layoutOf c.opcode) = true ∧ (type = 0 → c.handle = 0)

theorem malformed_eq_false_iff (c : Cmd) (mode : Machine.Mode) (type : Nat) :
    (decide (8 ≤ c.flags) || (mode == .i && sched c) || (mode == .s && !sched c) || !reservedZero c (layoutOf c.opcode)
      || (type == 0 && c.handle != 0)) = false ↔ goodForm c mode type := by
  have hi : (mode == .i) = true ↔ mode = .i := by cases mode <;> decide
  have hs : (mode == .s) = true ↔ mode = .s := by cases mode <;> decide
  simp only [Bool.or_eq_false_iff, Bool.and_eq_false_imp, decide_eq_false_iff_not, Nat.not_le, hi, hs, Bool.not_eq_false', beq_iff_eq,
    bne_eq_false_iff_eq, and_assoc]

/-- Check 3: the handle of bytes 4 to 7 and those that PARAMS names are live. -/
abbrev liveNames (u : State) (c : Cmd) (more : List (Nat × Nat)) (type : Nat) : Prop :=
  (type ≠ 0 → handleLive u type c.handle = true) ∧ ∀ h ∈ more, handleLive u h.1 h.2 = true

theorem stale_eq_false_iff (u : State) (c : Cmd) (more : List (Nat × Nat)) (type : Nat) :
    ((type != 0 && !handleLive u type c.handle) || more.any fun h => !handleLive u h.1 h.2) = false ↔ liveNames u c more type := by
  simp [liveNames]

theorem earlyChecks_eq (h : opcodeRow c.opcode = some (mode, cfg, type)) [Decidable (goodForm c mode type)]
    [Decidable (liveNames u c more type)] :
    earlyChecks u c more = if ¬goodForm c mode type then some stBadParam else if ¬(sched c = true → tickValid u = true) then some stNoTime
      else if ¬liveNames u c more type then some stBadHandle else none := by
  rw [earlyChecks, h]
  dsimp only
  simp only [← malformed_eq_false_iff, ← stale_eq_false_iff, Bool.not_eq_false, Classical.not_imp, Bool.and_eq_true, Bool.not_eq_true',
    Bool.not_eq_true]

end

theorem lateChecks_bad {u : State} {f : Flight} {keys : List (Nat × Nat × Nat)} {res : Option Nat} {mem : Bool} :
    lateChecks u f true keys res mem = some stBadParam := rfl

section
variable {u : State} {f : Flight} {keys : List (Nat × Nat × Nat)} {res : Option Nat} {mem : Bool} (hs : sched f.cmd = true)
include hs

theorem lateChecks_late (h : f.cmd.actTick < f.arrival + leadOf f.cmd) : lateChecks u f false keys res mem = some stLate := by
  simp [lateChecks, hs, h]

theorem lateChecks_tooFar (h : f.arrival + leadOf f.cmd ≤ f.cmd.actTick) (hfar : f.arrival + 2 ^ 34 ≤ f.cmd.actTick) :
    lateChecks u f false keys res mem = some stTooFar := by
  simp only [lateChecks, hs, Nat.not_lt.mpr h, hfar, Bool.true_and, decide_true, decide_false, Bool.false_eq_true, if_true, if_false]

/-- Checks 7 to 10, for a tick within the window. -/
theorem lateChecks_timely (h : f.arrival + leadOf f.cmd ≤ f.cmd.actTick) (hnear : f.cmd.actTick < f.arrival + 2 ^ 34) :
    lateChecks u f false keys res mem = if conflicts u f.cmd.actTick keys then some stConflict
      else res.or (if 512 ≤ queueUse u then some stQueueFull else if mem then some stMemDown else none) := by
  cases res <;> simp only [Option.or, lateChecks, hs, Nat.not_lt.mpr h, Nat.not_le.mpr hnear, Bool.true_and, decide_false, Bool.false_eq_true, if_false,
    decide_eq_true_eq]

end

theorem lateChecks_unscheduled {u : State} {f : Flight} {keys : List (Nat × Nat × Nat)} {res : Option Nat} {mem : Bool}
    (hs : sched f.cmd = false) :
    lateChecks u f false keys res mem = res.or (if mem then some stMemDown else none) := by
  cases res <;> simp [lateChecks, hs]

end Sys2Proof.Machine
end

section
open Sys2Proof Sys2Proof.Machine

/-- Settles O2: with no command waiting a step is `advance` by one period, which is `moveTime` unless a chip reset falls due. -/
theorem idleStepLetsOnePeriodPass : Obligations.IdleStepLetsOnePeriodPass := by
  unfold Obligations.IdleStepLetsOnePeriodPass
  intro s idle
  have later : s.time.now < s.time.now + 1 := Nat.lt_succ_self _
  refine ⟨fun quiet => ⟨_, step_of_idle idle, ?_⟩, fun due => ?_⟩
  · rw [advance_one_of_not_due quiet, moveTime_time_of_lt later, moveTime_past_of_lt later, moveTime_cycle_of_lt later,
      Nat.add_sub_cancel_left]
    exact ⟨rfl, rfl, rfl, moveTime_frame _ _⟩
  · rw [step_of_idle idle, advance_one_of_due due]
    exact ⟨rfl, rfl⟩

/-- Settles O3: the lists are empty by definition, and a word that the record of registers does not list holds its reset value. -/
theorem resetIsQuiet : Obligations.ResetIsQuiet := by
  unfold Obligations.ResetIsQuiet
  exact ⟨rfl, rfl, rfl, rfl, rfl, rfl, rfl, rfl, rfl, rfl, rfl, rfl, flag_reset (by decide) (by decide), rfl, rfl, rfl, rfl,
    fun r _ => ⟨cmdEnabled_reset r, outEnabled_reset 1 r⟩, fun r _ => outEnabled_reset 2 r, fun _ => getR_reset⟩

/-- Settles O9: each check answers its status where it fails and hands on to the next where it passes. -/
theorem checksInOrder : Obligations.ChecksInOrder := by
  classical
  unfold Obligations.ChecksInOrder
  refine ⟨fun u c more => ⟨earlyChecks_reserved, fun mode cfg type row => ?_⟩, fun u f bad mem keys res => ⟨?_, ?_, ?_⟩⟩
  · have chain := earlyChecks_eq (u := u) (more := more) row
    refine ⟨fun h => ?_, fun h ht => ?_, fun h ht hn => ?_, fun h ht hn => ?_⟩
    · exact chain.trans (if_pos h)
    · rw [chain, if_neg (not_not.mpr h)]
      exact if_pos ht
    · rw [chain, if_neg (not_not.mpr h), if_neg (not_not.mpr ht)]
      exact if_pos hn
    · rw [chain, if_neg (not_not.mpr h), if_neg (not_not.mpr ht), if_neg (not_not.mpr hn)]
  · rintro rfl
    exact lateChecks_bad
  · rintro rfl hs
    refine ⟨lateChecks_late hs, lateChecks_tooFar hs, fun h hnear hc => ?_, fun h hnear hc => ?_⟩
    · exact (lateChecks_timely hs h hnear).trans (if_pos hc)
    · rw [lateChecks_timely hs h hnear, hc, if_neg Bool.false_ne_true]
      refine ⟨fun st hst => ?_, fun hres full => ?_, fun hres room => ?_⟩
      · rw [hst, Option.some_or]
      · rw [hres, Option.none_or]
        exact if_pos full
      · rw [hres, Option.none_or]
        exact if_neg (Nat.not_le.mpr room)
  · rintro rfl hs
    rw [lateChecks_unscheduled hs]
    cases res <;> rfl

end

section
/-!
What a completion, a rejection, an acceptance and the end of an activation leave behind (R45, R78, R79, R89).
-/
namespace Sys2Proof.Machine

/-! ## The end of a command -/

/-- LATE_COUNT counts a command that is rejected as LATE, but for a CANCEL (R45). -/
def countLate (s : State) (f : Flight) (st : Nat) : State :=
  if st = stLate ∧ f.cmd.opcode ≠ 0x02 then wrapAdd s F.TIME_LATE_COUNT_COUNT 1 else s

theorem countLate_setStage (s : State) (f : Flight) (st id : Nat) (g : FlightStage) :
    countLate (setStage s id g) f st = setStage (countLate s f st) id g := by
  unfold countLate
  split
  · rfl
  · rfl

theorem finish_of_ne_ok {f : Flight} {st : Nat} (h : st ≠ stOK) (s : State) (r n : Nat) (ok : Bool) :
    finish s f st r n ok = pushCpl (countLate (setStage s f.id .settled) f st) f st true r n ok := by
  simp [finish, countLate, h]

/-- A configuration command that ends with OK counts in CFG_WRITES (R89). -/
def countDone (s : State) (f : Flight) : State := if isCfg f.cmd.opcode then countCfg s 1 else s

theorem finish_ok (s : State) (f : Flight) (r n : Nat) (ok : Bool) :
    finish s f stOK r n ok = if quiet f.cmd then leaveFlight (countDone (setStage s f.id .settled) f) f.id
      else pushCpl (countDone (setStage s f.id .settled) f) f stOK true r n ok := by
  simp [finish, countDone, stOK, stLate]

theorem complete_of_quiet {f : Flight} (h : quiet f.cmd = true) (s : State) (r : Nat) :
    complete s f r = leaveFlight (countDone (setStage s f.id .settled) f) f.id := by
  rw [complete, finish_ok, if_pos h]

theorem complete_of_not_quiet {f : Flight} (h : quiet f.cmd = false) (s : State) (r : Nat) :
    complete s f r = pushCpl (countDone (setStage s f.id .settled) f) f stOK true r s.time.tick (tickValid s) := by
  rw [complete, finish_ok, if_neg (by simp [h])]

@[simp] theorem countLate_host (s : State) (f : Flight) (st : Nat) : (countLate s f st).host = s.host := by
  unfold countLate
  split <;> rfl

@[simp] theorem countDone_host (s : State) (f : Flight) : (countDone s f).host = s.host := by
  unfold countDone
  split <;> rfl

/-! ## The pending-activation queue -/

theorem getF_showQueue_depth (s : State) : getF (showQueue s) F.TIME_QUEUE_DEPTH = s.acts.length % 1024 := by
  rw [showQueue, getF_setF_of_disjoint (f := F.TIME_QUEUE_PEAK) (g := F.TIME_QUEUE_DEPTH) _ _ rfl (by decide) (by decide),
    getF_setF_same (f := F.TIME_QUEUE_DEPTH) _ _ (by decide)]
  rfl

theorem getR_setF_of_ne (s : State) {f : Fld} {r : Reg} (v : Nat) (h : r.addr ≠ f.reg.addr) : getR (setF s f v) r = getR s r :=
  getR_setR_of_ne s _ h

theorem getR_showQueue_of_ne (s : State) {r : Reg} (h : r.addr ≠ A.TIME_QUEUE.addr) : getR (showQueue s) r = getR s r := by
  rw [showQueue, getR_setF_of_ne _ _ h, getR_setF_of_ne _ _ h]

/-- The fill of an activation leaves the shadow bank with it (R127). -/
theorem endFill_fills_ne (s : State) (id : Nat) : ∀ x ∈ (endFill s id).beam.fills, x.id ≠ id := by
  unfold endFill
  split
  next none =>
    intro x hx
    simpa using List.find?_eq_none.mp none x hx
  next =>
    intro x hx
    simpa using (List.mem_filter.mp hx).2

/-- The queue without an activation, and what shows it. -/
def withoutAct (s : State) (p : Pending) : State :=
  showQueue { endFill s p.id with acts := s.acts.filter fun q => q.id != p.id }

@[simp] theorem withoutAct_acts (s : State) (p : Pending) : (withoutAct s p).acts = s.acts.filter fun q => q.id != p.id := rfl

theorem endAct_of_none {s : State} {p : Pending} (h : flightOf (withoutAct s p) p.id = none) (st n : Nat) :
    endAct s p st n = withoutAct s p := by
  change (match flightOf (withoutAct s p) p.id with
    | none => withoutAct s p
    | some f => finish (withoutAct s p) f st 0 n (tickValid (withoutAct s p))) = _
  rw [h]

theorem endAct_of_some {s : State} {p : Pending} {f : Flight} (h : flightOf (withoutAct s p) p.id = some f) (st n : Nat) :
    endAct s p st n = finish (withoutAct s p) f st 0 n (tickValid (withoutAct s p)) := by
  change (match flightOf (withoutAct s p) p.id with
    | none => withoutAct s p
    | some f => finish (withoutAct s p) f st 0 n (tickValid (withoutAct s p))) = _
  rw [h]

/-- The queue with the entry of an accepted command, which has settled. -/
def withAct (s : State) (f : Flight) (keys : List (Nat × Nat × Nat)) (src : List Byte) : State :=
  showQueue { setStage s f.id .settled with
    acts := s.acts ++ [{ id := f.id, cmd := f.cmd, tick := f.cmd.actTick, keys := keys, src := src }] }

theorem accept_of_quiet {f : Flight} (h : quiet f.cmd = true) (s : State) (keys : List (Nat × Nat × Nat)) (src : List Byte) :
    accept s f keys src = withAct s f keys src := if_pos h

theorem accept_of_not_quiet {f : Flight} (h : quiet f.cmd = false) (s : State) (keys : List (Nat × Nat × Nat)) (src : List Byte) :
    accept s f keys src = pushCpl (withAct s f keys src) f stQueued false 0 f.arrival f.tickOk := if_neg (by simp [h])

section
variable (s : State) (f : Flight) (keys : List (Nat × Nat × Nat)) (src : List Byte)

@[simp] theorem withAct_acts : (withAct s f keys src).acts
    = s.acts ++ [{ id := f.id, cmd := f.cmd, tick := f.cmd.actTick, keys := keys, src := src }] := rfl

@[simp] theorem withAct_host : (withAct s f keys src).host = (setStage s f.id .settled).host := rfl

theorem getF_withAct_depth (h : s.acts.length < 512) : getF (withAct s f keys src) F.TIME_QUEUE_DEPTH = s.acts.length + 1 := by
  rw [withAct, getF_showQueue_depth, List.length_append, List.length_singleton, Nat.mod_eq_of_lt (by omega)]

theorem getR_withAct_of_ne {r : Reg} (h : r.addr ≠ A.TIME_QUEUE.addr) : getR (withAct s f keys src) r = getR s r :=
  getR_showQueue_of_ne _ h

theorem withAct_frame : { withAct s f keys src with host := s.host, regs := s.regs, acts := s.acts } = s := rfl

end

end Sys2Proof.Machine
end

section
open Sys2Proof Sys2Proof.Machine

/-- Settles O10: a rejection is a completion pushed after the late count, a completion one pushed after the count of configuration writes, and the
end of an activation one of these on the shortened queue. -/
theorem completionIsRecorded : Obligations.CompletionIsRecorded := by
  unfold Obligations.CompletionIsRecorded
  refine ⟨fun u f st hst => ?_, fun u p st n => ?_, fun u f r => ?_⟩
  · have rejected : reject u f st = pushCpl (setStage (countLate u f st) f.id .settled) f st true 0 f.arrival f.tickOk := by
      rw [reject, finish_of_ne_ok hst, countLate_setStage]
    have host := countLate_host u f st
    rw [rejected]
    refine ⟨?_, ?_, rfl, ?_, ?_⟩
    · simp only [pushCpl, setStage, host]
      rfl
    · simp only [pushCpl, setStage, host]
    · simp only [pushCpl, setStage, host]
    · rw [← rejected]
      exact reject_frame u f st
  · intro v w
    have shortened : w = withoutAct u p := by simp only [w, v, withoutAct, endFill_acts]
    clear_value w
    subst shortened
    refine ⟨rfl, getF_showQueue_depth _, endFill_fills_ne u p.id, fun none => endAct_of_none none st n, fun f some h0 h2 => ?_, fun f some now => ?_⟩
    · have ended : endAct u p st n = pushCpl (setStage (withoutAct u p) f.id .settled) f st true 0 n (tickValid (withoutAct u p)) := by
        rw [endAct_of_some some, finish_of_ne_ok h0, countLate, if_neg (fun h => h2 h.1)]
      rw [ended]
      exact ⟨rfl, rfl, rfl⟩
    · rw [endAct_of_some some, complete, ← now]
      rfl
  · have host := countDone_host (setStage u f.id .settled) f
    have frame : { complete u f r with host := u.host, regs := u.regs } = u := finish_frame ..
    cases hq : quiet f.cmd
    · rw [complete_of_not_quiet hq] at frame ⊢
      refine ⟨?_, fun h => ?_, fun h => ?_, nofun, fun _ => ?_, ?_, frame⟩
      · simp only [pushCpl, host]
        rfl
      · simp [pushCpl, countDone, h, setStage]
      · simp only [pushCpl, countDone, h, if_true]
        rfl
      · simp only [pushCpl, host]
        rfl
      · simp only [pushCpl, host]
        rfl
    · rw [complete_of_quiet hq] at frame ⊢
      refine ⟨?_, fun h => ?_, fun h => ?_, fun _ g hg => ?_, nofun, ?_, frame⟩
      · simp [leaveFlight, setStage]
      · simp [leaveFlight, countDone, h, setStage]
      · simp only [leaveFlight, countDone, h, if_true]
        rfl
      · simpa using (List.mem_filter.mp hg).2
      · simp only [leaveFlight, host]
        rfl

/-- Settles O11: an acceptance writes the queue, the command's stage, TIME.QUEUE and the completion list, and nothing else. -/
theorem acceptanceQueuesTheActivation : Obligations.AcceptanceQueuesTheActivation := by
  unfold Obligations.AcceptanceQueuesTheActivation
  intro u f keys src
  cases hq : quiet f.cmd
  · rw [accept_of_not_quiet hq]
    refine ⟨rfl, getF_withAct_depth u f keys src, ?_, rfl, rfl, fun r => getR_withAct_of_ne u f keys src, withAct_frame u f keys src⟩
    rw [pushCpl, withAct_host]
    rfl
  · rw [accept_of_quiet hq]
    exact ⟨rfl, getF_withAct_depth u f keys src, rfl, rfl, rfl, fun r => getR_withAct_of_ne u f keys src, withAct_frame u f keys src⟩

end

section
/-!
Where a command that `writesMemory` does not name goes on, it goes on `Calm`ly (Laws/Calm): the predicate `StillNext` on outcomes, its rules for
the shapes that many commands share, and one lemma per command. They are stronger than the `TameNext` lemmas of the same commands, which let a
memory change. The end of a fuse programming operation is the one exception: it writes fuses and is left to `execFuseProgrammingDone_keeps`.
-/
namespace Sys2Proof.Machine

/-- Every state in which `o` goes on follows from `s` by `Calm` operations. -/
def StillNext (s : State) (o : Out) : Prop := ∀ v, o = .next v → Calm s v

theorem stillNext {s v : State} (h : Calm s v) : StillNext s (.next v) := by
  intro w e; cases e; exact h

theorem StillNext.of_calm {s u : State} {o : Out} (h : Calm s u) (ho : StillNext u o) : StillNext s o :=
  fun v e => h.trans (ho v e)

/-! ## Shared shapes of commands -/

/-- A command of the host is `StillNext` when its action, taken only once checks 1 to 3 let it through, is `Calm`. -/
theorem stillNext_runCmd_of_mayRun {t op : Nat} {c : Cmd} {s : State} {more : List (Nat × Nat)} {k : State → Flight → State}
    (hk : ∀ u f, Calm s u → mayRun u op c more f → Calm s (k u f)) : StillNext s (runCmd t op c s more k) := by
  have h := calm_advance t (Calm.refl s)
  unfold runCmd
  dsimp only
  split
  · exact stillNext h
  next hop =>
    split
    · exact stillNext h
    next hturn =>
      split
      · exact stillNext (calm_reject _ _ h)
      next hearly => exact stillNext (hk _ _ h ⟨by simpa using hop, hturn, hearly⟩)

theorem stillNext_runCmd {t op : Nat} {c : Cmd} {s : State} {more : List (Nat × Nat)} {k : State → Flight → State}
    (hk : ∀ u f, Calm s u → Calm s (k u f)) : StillNext s (runCmd t op c s more k) :=
  stillNext_runCmd_of_mayRun fun u f h _ => hk u f h

theorem stillNext_byWrite {t : Nat} {s : State} {k : State → State} (hk : ∀ u, Calm s u → Calm s (k u)) :
    StillNext s (byWrite t s k) :=
  have h := calm_advance t (Calm.refl s)
  stillNext (calm_ite (calm_blockWrite _ h) (hk _ (calm_countCfg _ h)))

theorem stillNext_byWickWrite {t : Nat} {s : State} {k : State → State} (hk : ∀ u, Calm s u → Calm s (k u)) :
    StillNext s (byWickWrite t s k) :=
  have h := calm_advance t (Calm.refl s)
  stillNext (calm_ite (calm_ite (hk _ (calm_modPower _ h)) h) (hk _ (calm_countCfg _ h)))

/-- A write to a lane or port control word; SLIP, RESTART, the loopback and the lane enables all go through it. -/
theorem stillNext_writeLanes {t q : Nat} {lane : Option Nat} {data : Nat} {s : State} : StillNext s (writeLanes t q lane data s) := by
  refine stillNext_byWrite fun u h => calm_ite h ?_
  split
  · exact calm_writePortCtrl _ _ h
  · exact calm_ite (calm_writeLaneCtrl _ _ _ h) h

end Sys2Proof.Machine
end

section
/-!
Every command that `writesMemory` does not name is `StillNext`, one lemma each, in the order of the model's files.
-/
namespace Sys2Proof.Machine

variable {s : State} {t : Nat} {c : Cmd}

/-! ## The TDD pattern -/

@[simp] theorem stillNext_execTddSwap : StillNext s (execTddSwap t c s) :=
  stillNext_runCmd fun _ _ h => calm_schedulable _ _ _ _ _ _ h h

/-! ## Carriers and path corrections -/

@[simp] theorem stillNext_execCarrierSet : StillNext s (execCarrierSet t c s) := by
  refine stillNext_runCmd_of_mayRun (fun u f h hrun => ?_)
  obtain ⟨-, hturn, -⟩ := hrun
  obtain ⟨-, rfl, -⟩ := turn_some hturn
  dsimp only
  split
  · exact h
  · split
    · exact calm_reject _ _ h
    next hlate =>
      split
      next hs =>
        have k := calm_accept f (carrierSetKeys f.cmd) [] h (room_of_lateChecks hlate hs)
        exact calm_ite (calm_regrant _ _ _ k) k
      · exact calm_complete _ _ (calm_applyCarrierSet _ _ _ (calm_ite (calm_regrant _ _ _ h) h))

@[simp] theorem stillNext_execCarrierCreate : StillNext s (execCarrierCreate t c s) := by
  refine stillNext_runCmd fun _ _ h => ?_
  dsimp only
  split
  · exact calm_immediate _ _ _ _ _ h h
  · exact calm_immediate _ _ _ _ _ h (calm_putCarrier _ _ (calm_takeGen _ _ h))

@[simp] theorem stillNext_execCarrierDestroy : StillNext s (execCarrierDestroy t c s) :=
  stillNext_runCmd fun _ _ h => calm_immediate _ _ _ _ _ h (calm_cancelNaming _ h)

@[simp] theorem stillNext_execCarrierRestart {carrier : Nat} : StillNext s (execCarrierRestart t carrier s) := by
  have h := calm_advance t (Calm.refl s)
  unfold execCarrierRestart
  dsimp only
  split
  · exact stillNext h
  · split
    · exact stillNext (calm_modCarrier _ _ (calm_restartDl _ _ _ h))
    · exact stillNext (calm_modCarrier _ _ (calm_restartDl _ _ _ h))
    · exact stillNext h

@[simp] theorem stillNext_execUlCarrierRestart {carrier : Nat} : StillNext s (execUlCarrierRestart t carrier s) := by
  have h := calm_advance t (Calm.refl s)
  unfold execUlCarrierRestart
  dsimp only
  split
  · exact stillNext h
  · split
    · exact stillNext h
    · exact stillNext (calm_modCarrier _ _ h)

@[simp] theorem stillNext_execPathCorr : StillNext s (execPathCorr t c s) :=
  stillNext_runCmd fun _ _ h => calm_schedulable _ _ _ _ _ _ h (calm_applyCorr _ _ _ _ _ _ h)

@[simp] theorem stillNext_execCorrWrite {path dir word data : Nat} : StillNext s (execCorrWrite t path dir word data s) :=
  stillNext_byWrite fun _ h => calm_ite (calm_writeCorr _ _ _ _ h) h

/-! ## Performance counters -/

@[simp] theorem stillNext_execClear {ap data : Nat} : StillNext s (execClear t ap data s) :=
  stillNext_byWrite fun _ h => calm_ite (calm_writePmcCtl _ _ h) h

@[simp] theorem stillNext_execCounterWrite {ap addr data : Nat} : StillNext s (execCounterWrite t ap addr data s) :=
  stillNext_byWrite fun _ h => calm_ite (calm_writeCounter _ _ _ h) h

/-! ## Captures -/

@[simp] theorem stillNext_execCapCreate : StillNext s (execCapCreate t c s) := by
  unfold execCapCreate
  dsimp only
  refine stillNext_runCmd (fun _ _ h => ?_)
  split
  · refine calm_immediate _ _ _ _ _ h (calm_ownBanks _ _ ?_)
    simp only [↓calm_mk']
    exact calm_takeGen _ _ h
  · exact calm_immediate _ _ _ _ _ h h

@[simp] theorem stillNext_execCapStart : StillNext s (execCapStart t c s) :=
  stillNext_runCmd fun _ _ h => calm_schedulable _ _ _ _ _ _ h (calm_startCapture _ _ h)

@[simp] theorem stillNext_execCapDestroy : StillNext s (execCapDestroy t c s) :=
  stillNext_runCmd fun _ _ h => calm_immediate _ _ _ _ _ h (calm_periphGone _ (calm_releaseBanks _ (calm_cancelNaming _ h)))

@[simp] theorem stillNext_execCaptureStart {job : Nat} : StillNext s (execCaptureStart t job s) := by
  have h := calm_advance t (Calm.refl s)
  unfold execCaptureStart
  dsimp only
  split
  · exact stillNext h
  · split
    · exact stillNext h
    · split
      · exact stillNext (calm_modCapture _ _ h)
      · split
        · exact stillNext (calm_modCapture _ _ h)
        · refine stillNext (calm_modCapture _ _ (calm_setF _ _ (calm_takeOrx _ _ ?_)))
          split
          · exact calm_modCapture _ _ h
          · exact h

/-! ## Predistortion -/

@[simp] theorem stillNext_execDpdTermWrite {k data : Nat} : StillNext s (execDpdTermWrite t k data s) :=
  stillNext_byWrite fun _ h => calm_ite (calm_writeTerm _ _ h) h

@[simp] theorem stillNext_execDpdPolicy : StillNext s (execDpdPolicy t c s) :=
  stillNext_runCmd fun _ _ h => calm_schedulable _ _ _ _ _ _ h (calm_applyPolicy _ h)

@[simp] theorem stillNext_execDpdCoefLoad : StillNext s (execDpdCoefLoad t c s) := by
  refine stillNext_runCmd fun _ _ h => ?_
  dsimp only
  split
  · exact calm_reject _ _ h
  · exact calm_ite (calm_readSource _ _ _ (calm_setStage _ _ h)) (calm_setStage _ _ h)

@[simp] theorem stillNext_execDpdSlotStart {orx : Nat} : StillNext s (execDpdSlotStart t orx s) := by
  have h := calm_advance t (Calm.refl s)
  unfold execDpdSlotStart
  extract_lets u o q v _ x y z
  have hv : Calm s v := by
    unfold v
    split
    · exact calm_ite (calm_finishVisit _ _ h) (calm_dropVisit _ h)
    · exact h
  have hy : Calm s y := calm_modOrx (s := x) _ _ hv
  have hz : Calm s z := calm_ite (calm_setF _ _ hy) hy
  split
  · exact stillNext h
  · exact stillNext (calm_ite (calm_startDpdSlot _ hz) (calm_ite (calm_setF _ _ hz) hz))

@[simp] theorem stillNext_execDpdCaptureStart {orx : Nat} : StillNext s (execDpdCaptureStart t orx s) := by
  have h := calm_advance t (Calm.refl s)
  unfold execDpdCaptureStart
  dsimp only
  split
  · exact stillNext h
  · split
    · exact stillNext h
    · split
      · exact stillNext (calm_dropVisit _ h)
      · exact stillNext (calm_noteStart _ _ (calm_modOrx _ _ (calm_setF _ _ (calm_setF _ _ h))))

@[simp] theorem stillNext_execDpdCaptureEnd {orx : Nat} : StillNext s (execDpdCaptureEnd t orx s) := by
  have h := calm_advance t (Calm.refl s)
  unfold execDpdCaptureEnd
  dsimp only
  split
  · exact stillNext h
  · exact stillNext (calm_ite (calm_finishVisit _ _ h) h)

@[simp] theorem stillNext_execSpectrumMonitorCapture {orx path aclr evm : Nat} :
    StillNext s (execSpectrumMonitorCapture t orx path aclr evm s) := by
  have h := calm_advance t (Calm.refl s)
  refine stillNext (calm_ite ?_ h)
  simp only [↓calm_mk']
  exact calm_setF _ _ (calm_setF _ _ (calm_modOrx _ _ h))

/-! ## Synthesisers and front-end pods -/

@[simp] theorem stillNext_execLoTune : StillNext s (execLoTune t c s) :=
  stillNext_runCmd fun _ _ h => calm_schedulable _ _ _ _ _ _ h h

@[simp] theorem stillNext_execLoCal : StillNext s (execLoCal t c s) :=
  stillNext_runCmd fun _ _ h => calm_schedulable _ _ _ _ _ _ h (calm_applyLoCal _ h)

@[simp] theorem stillNext_execLoCalDone {synth : Nat} {failed : Bool} : StillNext s (execLoCalDone t synth failed s) := by
  have h := calm_advance t (Calm.refl s)
  refine stillNext ?_
  split
  · exact h
  · refine calm_ite h ?_
    extract_lets ended built
    have hended : Calm s ended := calm_setLoCal _ _ h
    have hbuilt : Calm s built := calm_ite (calm_tableBuilt _ _ hended) hended
    split
    · exact calm_beginCal _ _ _ (calm_post _ _ hbuilt)
    · exact calm_post _ _ hbuilt

@[simp] theorem stillNext_execLoLocked {synth : Nat} : StillNext s (execLoLocked t synth s) :=
  have h := calm_settleLo synth (calm_advance t (Calm.refl s))
  stillNext (calm_ite (calm_lockLo _ (calm_setLoCal _ _ h)) h)

@[simp] theorem stillNext_execLoLossOfLock {synth : Nat} : StillNext s (execLoLossOfLock t synth s) :=
  have h := calm_advance t (Calm.refl s)
  stillNext (calm_unlockLo _ h)

@[simp] theorem stillNext_execCalibrationGapStart : StillNext s (execCalibrationGapStart t s) := by
  have h := calm_advance t (Calm.refl s)
  refine stillNext ?_
  split
  · exact h
  · split
    · exact h
    · exact calm_ite (calm_foldl (fun _ _ k => calm_ite (calm_beginCal _ _ _ k) k) (calm_settleLos h)) h

@[simp] theorem stillNext_execPodState : StillNext s (execPodState t c s) :=
  stillNext_runCmd fun _ _ h => calm_schedulable _ _ _ _ _ _ h h

@[simp] theorem stillNext_execLadderStepEnd : StillNext s (execLadderStepEnd t s) :=
  have h := calm_advance t (Calm.refl s)
  stillNext (calm_foldl (fun _ _ k => calm_drivePod _ k) (calm_refreshLo _ (calm_refreshLo _ (calm_unlockedTx _ (calm_foldl (fun _ _ k
    => calm_endStep _ k) h)))))

@[simp] theorem stillNext_execPatternTurnaround : StillNext s (execPatternTurnaround t s) :=
  have h := calm_advance t (Calm.refl s)
  stillNext (calm_followPattern h)

@[simp] theorem stillNext_execPatternTableStart : StillNext s (execPatternTableStart t s) :=
  have h := calm_advance t (Calm.refl s)
  stillNext (calm_ite (calm_followPattern (calm_runBank _ _ h)) h)

@[simp] theorem stillNext_execPatternTableStop : StillNext s (execPatternTableStop t s) :=
  have h := calm_advance t (Calm.refl s)
  stillNext (calm_patternChanged h)

@[simp] theorem stillNext_execFePinEdge {pod : Nat} : StillNext s (execFePinEdge t pod s) := by
  have h := calm_advance t (Calm.refl s)
  refine stillNext ?_
  split
  · exact h
  · exact calm_ite (calm_setFeCode _ _ (calm_modPod _ _ h)) (calm_makeEarly _ _ h)

@[simp] theorem stillNext_execFesbWrite : StillNext s (execFesbWrite t c s) := by
  refine stillNext_runCmd_of_mayRun (fun u f h hrun => ?_)
  have hs := sched_of_scheduledOnly hrun rfl
  dsimp only
  split
  · exact calm_reject _ _ h
  next hlate => exact calm_accept _ _ _ h (room_of_lateChecks hlate hs)

@[simp] theorem stillNext_execFesbFrameStart {half : Nat} : StillNext s (execFesbFrameStart t half s) := by
  have h := calm_advance t (Calm.refl s)
  refine stillNext ?_
  split
  · exact h
  · exact calm_startFrame _ _ h

@[simp] theorem stillNext_execFesbFrameEnd {half bits : Nat} : StillNext s (execFesbFrameEnd t half bits s) := by
  have h := calm_advance t (Calm.refl s)
  refine stillNext ?_
  split
  · exact h
  · exact calm_endAct _ _ _ (calm_setN _ _ (calm_endFrame _ _ h))

/-! ## Calibration jobs -/

@[simp] theorem stillNext_execCalCreate : StillNext s (execCalCreate t c s) := by
  refine stillNext_runCmd fun _ _ h => ?_
  dsimp only
  split
  · refine calm_immediate _ _ _ _ _ h (calm_ownBanks _ _ ?_)
    simp only [↓calm_mk']
    exact calm_takeGen _ _ h
  · exact calm_immediate _ _ _ _ _ h h

@[simp] theorem stillNext_execCalStart : StillNext s (execCalStart t c s) :=
  stillNext_runCmd fun _ _ h => calm_schedulable _ _ _ _ _ _ h h

@[simp] theorem stillNext_execCalDestroy : StillNext s (execCalDestroy t c s) := by
  refine stillNext_runCmd fun _ _ h => calm_immediate _ _ _ _ _ h (calm_releaseBanks _ ?_)
  simp only [↓calm_mk']
  refine calm_cancelNaming _ ?_
  split
  · exact calm_ite (calm_abortRun _ _ h) h
  · exact h

@[simp] theorem stillNext_execCoexGntISeen {level : Bool} : StillNext s (execCoexGntISeen t level s) :=
  have h := calm_settleCoex (calm_advance t (Calm.refl s))
  stillNext (calm_ite h (calm_ite (calm_grantJobs _ (calm_setFlag _ _ h)) (calm_foldl (fun _ _ k => calm_abortRun _ _ k) (calm_askAgain
    _ (calm_setFlag _ _ h)))))

@[simp] theorem stillNext_execCoexReqISeen {level : Bool} : StillNext s (execCoexReqISeen t level s) := by
  have h := calm_settleCoex (calm_advance t (Calm.refl s))
  refine stillNext (calm_ite h ?_)
  extract_lets seen
  have k : Calm s seen := calm_setFlag _ _ h
  have dropped {f : CoexSt → CoexSt} := calm_noteHeld (calm_modCoex f (calm_driveCoex 2 false seen.time.now k))
  exact calm_ite (calm_ite (calm_settleCoex (calm_raiseGnt _ k)) k) (calm_ite (calm_grantJobs _ (calm_holdPeer k))
    (calm_ite (calm_grantJobs _ (calm_askAgain _ (calm_settleCoex (calm_modCoex _ (calm_post _ _ dropped))))) k))

@[simp] theorem stillNext_execGrantWaitExpiry {job : Nat} : StillNext s (execGrantWaitExpiry t job s) := by
  have h := calm_settleCoex (calm_advance t (Calm.refl s))
  refine stillNext ?_
  split
  · split
    · exact calm_ite (calm_doneRun _ _ h) h
    · exact h
  · exact h

@[simp] theorem stillNext_execCalEmissionStart {job : Nat} : StillNext s (execCalEmissionStart t job s) := by
  have h := calm_settleCoex (calm_advance t (Calm.refl s))
  refine stillNext ?_
  split
  · split
    · exact calm_ite (calm_ite (calm_abortRun _ _ (calm_modRun _ _ h)) (calm_modRun _ _ h)) h
    · exact h
  · exact h

@[simp] theorem stillNext_execCalDone {job : Nat} : StillNext s (execCalDone t job s) := by
  have h := calm_settleCoex (calm_advance t (Calm.refl s))
  refine stillNext ?_
  split
  · split
    · exact calm_ite (calm_doneRun _ _ h) h
    · exact h
  · exact h

@[simp] theorem stillNext_execOrxImageCalEnd {job : Nat} {found : List (Nat × Nat)} : StillNext s (execOrxImageCalEnd t job found s) := by
  have h := calm_settleCoex (calm_advance t (Calm.refl s))
  refine stillNext ?_
  split
  · split
    · exact calm_ite (calm_modRun _ _ (calm_foldl (fun _ _ k => calm_setN _ _ (calm_setN _ _ k)) h)) h
    · exact h
  · exact h

/-! ## Lanes and markers -/

@[simp] theorem stillNext_execLanePllLock : StillNext s (execLanePllLock t s) := by
  have h := calm_settleInjectors (calm_advance t (Calm.refl s))
  refine stillNext (calm_ite (calm_foldl (fun _ _ k => calm_lanesFollow _ _ k) (calm_setFlag _ _ ?_)) h)
  simp only [↓calm_mk]
  exact h

@[simp] theorem stillNext_execBlockLock {port lane nat : Nat} : StillNext s (execBlockLock t port lane nat s) :=
  have h := calm_advance t (Calm.refl s)
  stillNext (calm_ite (calm_post _ _ (calm_modLane _ _ _ (calm_setFlag _ _ (calm_setFlag _ _ (calm_ite (calm_setF _ _ (calm_satAdd _ _
    h)) (calm_satAdd _ _ h)))))) h)

@[simp] theorem stillNext_execBlockLockLoss {port lane nat : Nat} {signal : Bool} :
    StillNext s (execBlockLockLoss t port lane nat signal s) :=
  have h := calm_advance t (Calm.refl s)
  stillNext (calm_ite (calm_startSearch _ _ (calm_setFlag _ _ (calm_dropLock _ _ (calm_satAdd _ _ (calm_satAdd _ _ h))))) h)

@[simp] theorem stillNext_execLaneDead {port lane : Nat} {signal : Bool} : StillNext s (execLaneDead t port lane signal s) := by
  have h := calm_advance t (Calm.refl s)
  refine stillNext ?_
  split
  · exact h
  · exact calm_ite (calm_post _ _ (calm_showOwn _ (calm_setFlag _ _ (calm_setFlag _ _ (calm_modLane _ _ _ h))))) h

@[simp] theorem stillNext_execSlip {port lane data : Nat} : StillNext s (execSlip t port lane data s) :=
  stillNext_writeLanes

@[simp] theorem stillNext_execRestart {port lane data : Nat} : StillNext s (execRestart t port lane data s) :=
  StillNext.of_calm (u := advance t s) (calm_advance t (Calm.refl s)) (stillNext_writeLanes (lane := some lane))

@[simp] theorem stillNext_execLaneLoopWrite {port : Nat} {lane : Option Nat} {data : Nat} :
    StillNext s (execLaneLoopWrite t port lane data s) :=
  stillNext_writeLanes

@[simp] theorem stillNext_execLaneEnableChange {port : Nat} {lane : Option Nat} {data : Nat} :
    StillNext s (execLaneEnableChange t port lane data s) :=
  StillNext.of_calm (calm_advance t (Calm.refl s)) stillNext_writeLanes

@[simp] theorem stillNext_execLaneDownEnd {port slot : Nat} : StillNext s (execLaneDownEnd t port slot s) := by
  have h := calm_advance t (Calm.refl s)
  refine stillNext ?_
  split
  · exact calm_ite (calm_stopLaneInj _ _ h) h
  · exact h

@[simp] theorem stillNext_execMarkerSend {port : Nat} : StillNext s (execMarkerSend t port s) := by
  have h := calm_settleHeaders port (calm_advance t (Calm.refl s))
  refine stillNext (calm_ite h ?_)
  extract_lets u rest own out v w x
  have hx : Calm s x := calm_setInUse _ _ (calm_modPort _ _ (calm_emit _ (calm_showOwn _ h)))
  exact calm_ite (calm_sendBlocks _ _ hx) hx

@[simp] theorem stillNext_execMarkerReceive {port lane : Nat} {before line : BitVec 64} :
    StillNext s (execMarkerReceive t port lane before line s) :=
  have h := calm_settleHeaders port (calm_advance t (Calm.refl s))
  stillNext (calm_ite h (calm_ite (calm_badMarker _ _ (calm_loopBack _ _ _ _ h)) (calm_takeMarker _ _ _ (calm_loopBack _ _ _ _ h))))

@[simp] theorem stillNext_execMissingMarker {port lane : Nat} : StillNext s (execMissingMarker t port lane s) :=
  have h := calm_settleHeaders port (calm_advance t (Calm.refl s))
  stillNext (calm_ite (calm_badMarker _ _ h) h)

@[simp] theorem stillNext_execLaneState : StillNext s (execLaneState t c s) :=
  stillNext_runCmd fun _ _ h => calm_schedulable _ _ _ _ _ _ h (calm_applyLaneState _ h)

@[simp] theorem stillNext_execLanePowerEntry {port lane : Nat} : StillNext s (execLanePowerEntry t port lane s) := by
  have h := calm_advance t (Calm.refl s)
  refine stillNext ?_
  split
  · exact calm_enterPower _ _ _ h
  · exact h

@[simp] theorem stillNext_execLanePowerExitEnd {port lane : Nat} : StillNext s (execLanePowerExitEnd t port lane s) := by
  have h := calm_advance t (Calm.refl s)
  refine stillNext ?_
  split
  · refine calm_ite ?_ h
    extract_lets u v w
    have hw : Calm s w := calm_restartCount _ _ (calm_modLane _ _ _ (calm_setF _ _ (calm_settleHeaders _ h)))
    exact calm_ite (calm_startSearch _ _ hw) (calm_showOwn _ hw)
  · exact h

@[simp] theorem stillNext_execEqualiserAdaptStep {port lane : Nat} {up : Bool} : StillNext s (execEqualiserAdaptStep t port lane up s) :=
  have h := calm_advance t (Calm.refl s)
  stillNext (calm_ite (calm_modLane _ _ _ (calm_setF _ _ h)) h)

/-! ## Weight sets -/

@[simp] theorem stillNext_execWsCreate : StillNext s (execWsCreate t c s) :=
  stillNext_runCmd fun _ _ h => calm_immediate _ _ _ _ _ h (calm_putSet _ _ (calm_takeGen _ _ h))

@[simp] theorem stillNext_execWsLoad : StillNext s (execWsLoad t c s) := by
  refine stillNext_runCmd fun u f h => ?_
  dsimp only
  split
  · exact h
  · split
    · exact calm_reject _ _ h
    next bad bank res down _ =>
      have k := calm_setStage f.id .running h
      have loading {b : BeamSt} : Calm s { setStage u f.id .running with beam := b } := by
        simp only [↓calm_mk']
        exact k
      exact calm_ite (calm_readSource _ _ _ (calm_ite k loading)) (calm_ite k loading)

@[simp] theorem stillNext_execWsActivate : StillNext s (execWsActivate t c s) := by
  refine stillNext_runCmd_of_mayRun (fun u f h hrun => ?_)
  have hs := sched_of_scheduledOnly hrun rfl
  dsimp only
  split
  · exact h
  · split
    · exact calm_reject _ _ h
    next hlate => exact calm_accept _ _ _ h (room_of_lateChecks hlate hs)

@[simp] theorem stillNext_execWsDestroy : StillNext s (execWsDestroy t c s) :=
  stillNext_runCmd fun _ _ h => calm_immediate _ _ _ _ _ h (calm_showAllCols (calm_cancelNaming _ (calm_dropLoads _ h)))

@[simp] theorem stillNext_execPrefetchStart {carrier dir : Nat} : StillNext s (execPrefetchStart t carrier dir s) :=
  have h := calm_advance t (Calm.refl s)
  stillNext (calm_showCols _ (calm_modFill _ _ _ _ h))

@[simp] theorem stillNext_execPrefetchComplete {carrier dir : Nat} : StillNext s (execPrefetchComplete t carrier dir s) := by
  have h := calm_advance t (Calm.refl s)
  unfold execPrefetchComplete
  dsimp only
  split
  · exact stillNext h
  · split
    · exact stillNext h
    · exact stillNext (calm_throughPort h (fun _ k => calm_wrapAdd _ _ (calm_modFill _ _ _ _ k)))

@[simp] theorem stillNext_execDramPrefetchLate {carrier dir : Nat} : StillNext s (execDramPrefetchLate t carrier dir s) := by
  have h := calm_advance t (Calm.refl s)
  unfold execDramPrefetchLate
  dsimp only
  split
  · exact stillNext h
  · exact stillNext (calm_post _ _ (calm_satAdd _ _ (calm_modFill _ _ _ _ h)))

@[simp] theorem stillNext_execStagedCopyStart {carrier dir : Nat} : StillNext s (execStagedCopyStart t carrier dir s) := by
  have h := calm_advance t (Calm.refl s)
  unfold execStagedCopyStart
  dsimp only
  split
  · exact stillNext h
  · exact stillNext (calm_showCols _ (calm_modFill _ _ _ _ h))

@[simp] theorem stillNext_execWeightSetSwap {carrier dir : Nat} : StillNext s (execWeightSetSwap t carrier dir s) := by
  have h := calm_advance t (Calm.refl s)
  refine stillNext ?_
  simp only [↓calm_mk']
  exact calm_countUnmapped _ h

@[simp] theorem stillNext_execOldSetFreed {carrier dir : Nat} : StillNext s (execOldSetFreed t carrier dir s) :=
  have h := calm_advance t (Calm.refl s)
  stillNext (calm_showCols _ h)

/-! ## The transmit path -/

@[simp] theorem stillNext_execCfrSet : StillNext s (execCfrSet t c s) :=
  stillNext_runCmd fun _ _ h => calm_schedulable _ _ _ _ _ _ h (calm_applyCfrSet _ h)

@[simp] theorem stillNext_execTxpCtrlWrite {path data : Nat} : StillNext s (execTxpCtrlWrite t path data s) :=
  stillNext_byWrite fun _ h => calm_ite (calm_writeTxCtrl _ _ h) h

@[simp] theorem stillNext_execDlPacketArrival : StillNext s (execDlPacketArrival t s) := by
  have h := calm_advance t (Calm.refl s)
  unfold execDlPacketArrival
  dsimp only
  split
  · exact stillNext h
  · split
    · exact stillNext h
    · split
      · exact stillNext h
      · refine stillNext ?_
        split
        · exact calm_satAdd _ _ h
        · exact calm_modSlot _ _ _ _ (calm_satAdd _ _ h)
        · exact calm_modSlot _ _ _ _ (calm_satAdd _ _ h)
        · exact calm_satAdd _ _ h
        · exact calm_setF _ _ (calm_modStream _ _ (calm_modSlot _ _ _ _ h))

@[simp] theorem stillNext_execSlotDecided {stream first : Nat} : StillNext s (execSlotDecided t stream first s) := by
  have h := calm_advance t (Calm.refl s)
  unfold execSlotDecided
  dsimp only
  split
  · exact stillNext h
  · split
    · exact stillNext h
    · split
      · exact stillNext h
      · have k {n : Nat} {c : Carrier} {f : Slot → Slot} := calm_modSlot stream n c f h
        have counted {p : Prop} [Decidable p] {n : Nat} {c : Carrier} {f : Slot → Slot} :
            Calm s (if p then satAdd (modSlot (advance t s) stream n c f) (F.TXP_DLB_ERR_MISSING stream) 1
              else modSlot (advance t s) stream n c f) := calm_ite (calm_satAdd _ _ k) k
        exact stillNext (calm_ite (calm_modStream _ _ counted) counted)

@[simp] theorem stillNext_execFrameBoundary : StillNext s (execFrameBoundary t s) := by
  have h := calm_advance t (Calm.refl s)
  unfold execFrameBoundary
  dsimp only
  split
  · exact stillNext h
  · exact stillNext (calm_foldl (fun _ _ k => calm_ite k (calm_modStream _ _ (calm_post _ _ k))) h)

@[simp] theorem stillNext_execEchoRecord {stream first : Nat} : StillNext s (execEchoRecord t stream first s) := by
  have h := calm_advance t (Calm.refl s)
  unfold execEchoRecord
  dsimp only
  split
  · exact stillNext h
  · split
    · split
      · exact stillNext h
      · exact stillNext (calm_modStream _ _ h)
    · exact stillNext h

/-! ## Streams and partners -/

@[simp] theorem stillNext_execStreamCreate : StillNext s (execStreamCreate t c s) := by
  unfold execStreamCreate
  dsimp only
  refine stillNext_runCmd (fun u _ h => ?_)
  split
  · exact h
  · split
    · exact calm_immediate _ _ _ _ _ h h
    next j _ =>
      have k {x : Stream} {f : Nat → Fld} {g : Nat → Fld} :=
        calm_setBitOf g j false (calm_setBitOf f j false (calm_putStream j x (calm_takeGen 2 j (calm_countUnmapped u.time.tick h))))
      exact calm_immediate _ _ _ _ _ h (calm_sendGrant _ (calm_ite k (calm_showStreams _ k)))

@[simp] theorem stillNext_execPartnerLost {partner : Nat} : StillNext s (execPartnerLost t partner s) := by
  have h := calm_advance t (Calm.refl s)
  refine stillNext ?_
  split
  · exact calm_ite (calm_losePartner _ _ h) h
  · exact h

@[simp] theorem stillNext_execOrphanTimeout {stream : Nat} : StillNext s (execOrphanTimeout t stream s) := by
  have h := calm_advance t (Calm.refl s)
  refine stillNext ?_
  split
  · split
    · exact calm_ite (calm_removeStream _ (calm_postOrphanEnd _ _ h)) h
    · exact h
  · exact h

@[simp] theorem stillNext_execPartnerDestroy : StillNext s (execPartnerDestroy t c s) := by
  refine stillNext_runCmd fun _ _ h => calm_immediate _ _ _ _ _ h ?_
  dsimp only
  split
  · exact h
  · exact calm_cancelNaming _ (calm_freePartner _ (calm_ite h (calm_orphanStreams _ _ (calm_sendMessage _ _ _ h))))

@[simp] theorem stillNext_execPacketSend {port : Nat} : StillNext s (execPacketSend t port s) := by
  have h := calm_advance t (Calm.refl s)
  refine stillNext (calm_ite h ?_)
  split
  · exact h
  · refine calm_ite h (calm_sendBytes _ _ ?_)
    split
    · exact calm_setF _ _ (calm_takeCapacity _ _ (calm_modPort _ _ h))
    · exact calm_takeCapacity _ _ (calm_modPort _ _ h)

@[simp] theorem stillNext_execPacketOverrun {port : Nat} : StillNext s (execPacketOverrun t port s) := by
  have h := calm_advance t (Calm.refl s)
  refine stillNext ?_
  split
  · exact h
  · exact calm_satAdd _ _ (calm_modPort _ _ h)

/-! ## Link packets and messages -/

@[simp] theorem stillNext_execPacketReceive {port first : Nat} {lanes : List (List LineBlock)} :
    StillNext s (execPacketReceive t port first lanes s) := by
  have h := calm_settleHeaders port (calm_advance t (Calm.refl s))
  unfold execPacketReceive
  extract_lets u l v
  have hv : Calm s v := calm_countHeaders _ _ (calm_loopLanes _ _ _ h)
  refine stillNext (calm_ite hv ?_)
  split
  · exact hv
  · exact calm_foldl (fun _ _ k => calm_receiveBlock _ _ k) hv

@[simp] theorem stillNext_execReorderHoldExpiry {port slot : Nat} : StillNext s (execReorderHoldExpiry t port slot s) := by
  have h := calm_advance t (Calm.refl s)
  refine stillNext ?_
  split
  · exact calm_ite (calm_releaseHeld _ _ h) h
  · exact h

@[simp] theorem stillNext_execFiSet : StillNext s (execFiSet t c s) := by
  refine stillNext_runCmd fun _ _ h => calm_immediate _ _ _ _ _ h ?_
  extract_lets cleared x set shown
  have hshown : Calm s shown := calm_setF _ _ (calm_setF _ _ (calm_setFlag _ _ (calm_setInj _ _ _ (calm_clearInj _ _
    (calm_settleHeaders _ h)))))
  exact calm_ite (calm_beginLaneDown _ _ _ _ hshown) hshown

@[simp] theorem stillNext_execFiClear : StillNext s (execFiClear t c s) :=
  stillNext_runCmd fun _ _ h => calm_immediate _ _ _ _ _ h (calm_foldl (fun _ _ k => calm_clearInj _ _ k) h)

@[simp] theorem stillNext_execHello : StillNext s (execHello t s) := by
  have h := calm_advance t (Calm.refl s)
  refine stillNext ?_
  split
  · exact h
  next e =>
    have k := calm_takeInbox h e
    refine calm_ite (calm_satAdd _ _ k) ?_
    split
    · exact calm_greet _ k
    · exact calm_ite (calm_sendWelcome _ _ k) (calm_greet _ (calm_losePartner _ _ k))

@[simp] theorem stillNext_execKeepaliveReceive : StillNext s (execKeepaliveReceive t s) := by
  have h := calm_advance t (Calm.refl s)
  refine stillNext ?_
  split
  · exact h
  next e =>
    have k := calm_takeInbox h e
    split
    · exact calm_renew _ _ k
    · exact k

@[simp] theorem stillNext_execLeaseAck : StillNext s (execLeaseAck t s) := by
  have h := calm_advance t (Calm.refl s)
  refine stillNext ?_
  split
  · exact h
  next e =>
    have k := calm_takeInbox h e
    split
    · exact k
    · dsimp only
      split
      · exact calm_ite (calm_setBitOf _ _ _ (calm_modStream _ _ (calm_renew _ _ k))) (calm_renew _ _ k)
      · exact calm_renew _ _ k

@[simp] theorem stillNext_execBye : StillNext s (execBye t s) := by
  have h := calm_advance t (Calm.refl s)
  refine stillNext ?_
  split
  · exact h
  next e =>
    have k := calm_takeInbox h e
    split
    · exact calm_losePartner _ _ k
    · exact k

@[simp] theorem stillNext_execPartnerTimeReceive : StillNext s (execPartnerTimeReceive t s) := by
  have h := calm_advance t (Calm.refl s)
  refine stillNext ?_
  split
  · exact h
  next e =>
    have k := calm_takeInbox h e
    split
    · exact calm_renew _ _ (calm_modPartner _ _ k)
    · exact k

@[simp] theorem stillNext_execKeepalive : StillNext s (execKeepalive t s) :=
  have h := calm_advance t (Calm.refl s)
  stillNext (calm_foldl (fun _ _ k => calm_foldl (fun _ _ k2 => calm_sendGrant _ k2) (calm_sendMessage _ _ _ k)) h)

@[simp] theorem stillNext_execTimeSend : StillNext s (execTimeSend t s) :=
  have h := calm_advance t (Calm.refl s)
  stillNext (calm_ite h (calm_foldl (fun _ _ k => calm_modCasc _ (calm_enqueueCtrl _ _ k)) (calm_foldl (fun _ _ k => calm_sendPartner _
    _ _ k) h)))

@[simp] theorem stillNext_execEcho : StillNext s (execEcho t s) := by
  have h := calm_advance t (Calm.refl s)
  refine stillNext (calm_ite h ?_)
  simp only [↓calm_mk']
  exact calm_ite h (calm_foldl (fun _ _ k => calm_sendEchoes _ _ _ k) h)

/-! ## The cascade -/

@[simp] theorem stillNext_execCascDiscover : StillNext s (execCascDiscover t c s) :=
  stillNext_runCmd fun _ _ h => calm_ite (calm_reject _ _ h) (calm_ite (calm_complete _ _ h) (calm_ite (calm_reject _ _ h)
    (calm_modCasc _ (calm_setStage _ _ (calm_sendAssign _ _ _ _ h)))))

@[simp] theorem stillNext_execCascAssign : StillNext s (execCascAssign t s) := by
  have h := calm_advance t (Calm.refl s)
  refine stillNext ?_
  split
  · exact h
  next e =>
    have k {n : Nat} := calm_setF F.CAS_FEATURE_COMMON n (calm_takeInbox h e)
    exact calm_ite (calm_ite (calm_sendReport _ (calm_sendAssign _ _ _ _ (calm_modCasc _ k))) (calm_modCasc _ k))
      (calm_ite (calm_sendAssign _ _ _ _ k) k)

@[simp] theorem stillNext_execCascReport : StillNext s (execCascReport t s) := by
  have h := calm_advance t (Calm.refl s)
  refine stillNext ?_
  split
  · exact h
  next e =>
    have k {f : CascSt → CascSt} := calm_modCasc f (calm_takeInbox h e)
    exact calm_ite (calm_showMembers _ (calm_refreshCommon k))
      (calm_ite (calm_ite (calm_sendReport _ (calm_showChain k)) (calm_sendReports (calm_showChain k))) (calm_showChain k))

@[simp] theorem stillNext_execCascAssignPeriodic : StillNext s (execCascAssignPeriodic t s) :=
  have h := calm_advance t (Calm.refl s)
  stillNext (calm_ite h (calm_ite (calm_ite (calm_modCasc _ h) (calm_sendAssign _ _ _ _ (calm_modCasc _ h))) (calm_ite
    (calm_sendReports (calm_modCasc _ h)) (calm_modCasc _ h))))

@[simp] theorem stillNext_execChainEReached : StillNext s (execChainEReached t s) := by
  have h := calm_advance t (Calm.refl s)
  refine stillNext ?_
  split
  · exact h
  · exact calm_ite h (calm_ite (calm_showMembers _ (calm_refreshCommon (calm_modCasc _ (calm_set64 _ _ _ h)))) (calm_showChain
      (calm_setF _ _ (calm_setFlag _ _ (calm_modCasc _ (calm_set64 _ _ _ h))))))

@[simp] theorem stillNext_execCascDiscoverDone : StillNext s (execCascDiscoverDone t s) := by
  have h := calm_advance t (Calm.refl s)
  refine stillNext ?_
  split
  · exact h
  · dsimp only
    split
    · exact calm_complete _ _ (calm_modCasc _ h)
    · exact calm_modCasc _ h

@[simp] theorem stillNext_execCascSumLate : StillNext s (execCascSumLate t s) := by
  have h := calm_advance t (Calm.refl s)
  refine stillNext ?_
  split
  · exact h
  · exact calm_satAdd _ _ (calm_modPort _ _ h)

@[simp] theorem stillNext_execCascadeTimeReceive : StillNext s (execCascadeTimeReceive t s) := by
  have h := calm_advance t (Calm.refl s)
  refine stillNext ?_
  split
  · exact h
  next e =>
    have k {f : CascSt → CascSt} := calm_modCasc f (calm_takeInbox h e)
    exact calm_ite (calm_setFlag _ _ (calm_setN _ _ k)) k

/-! ## Rings and resets of the host interface -/

@[simp] theorem stillNext_execRingPoll : StillNext s (execRingPoll t s) :=
  have h := calm_advance t (Calm.refl s)
  stillNext (calm_ite (calm_poll h) h)

@[simp] theorem stillNext_execKick : StillNext s (execKick t s) :=
  have h := calm_advance t (Calm.refl s)
  stillNext (calm_ite (calm_blockWrite _ h) (calm_ite h h))

@[simp] theorem stillNext_execPiReadComplete {ring pi : Nat} : StillNext s (execPiReadComplete t ring pi s) :=
  have h := calm_advance t (Calm.refl s)
  stillNext (calm_ite h (calm_ite (calm_issueReads (calm_modCmdRing _ _ h)) (calm_ite (calm_issueReads (calm_haltRing _ _
    (calm_modCmdRing _ _ h))) (calm_issueReads (calm_modCmdRing _ _ (calm_modCmdRing _ _ h))))))

@[simp] theorem stillNext_execEntryFetchComplete {ring index : Nat} {entries : List Byte} :
    StillNext s (execEntryFetchComplete t ring index entries s) := by
  have h := calm_advance t (Calm.refl s)
  unfold execEntryFetchComplete
  dsimp only
  split
  · exact stillNext h
  · exact stillNext (calm_ite (calm_issueReads (calm_modCmdRing _ _ h)) (calm_issueReads (calm_hostWrite _ _ _ (calm_setF _ _
      (calm_modCmdRing _ _ (calm_takeEntries _ (calm_modCmdRing _ _ h)))))))

@[simp] theorem stillNext_execCiReadComplete {kind ring ci : Nat} : StillNext s (execCiReadComplete t kind ring ci s) :=
  have h := calm_advance t (Calm.refl s)
  stillNext (calm_ite h (calm_ite (calm_issueReads (calm_modOutRing _ _ _ h)) (calm_issueReads (calm_ite (calm_drainBacklog _ _
    (calm_modOutRing _ _ _ h)) (calm_drainQueue _ (calm_modOutRing _ _ _ h))))))

@[simp] theorem stillNext_execCompletionBacklogDrain {ring : Nat} : StillNext s (execCompletionBacklogDrain t ring s) :=
  have h := calm_advance t (Calm.refl s)
  stillNext (calm_ite (calm_drainBacklog _ _ h) h)

@[simp] theorem stillNext_execEventQueueDrain {ring : Nat} : StillNext s (execEventQueueDrain t ring s) :=
  have h := calm_advance t (Calm.refl s)
  stillNext (calm_ite (calm_drainQueue _ h) h)

@[simp] theorem stillNext_execCompletionWrite {cq : Nat} : StillNext s (execCompletionWrite t cq s) := by
  have h := calm_advance t (Calm.refl s)
  unfold execCompletionWrite
  dsimp only
  split
  · exact stillNext h
  · exact stillNext (calm_deliverCpl _ h)

@[simp] theorem stillNext_execMsixModerationExpiry {kind ring : Nat} : StillNext s (execMsixModerationExpiry t kind ring s) :=
  have h := calm_advance t (Calm.refl s)
  stillNext (calm_ite (calm_sendMsix _ (calm_modOutRing _ _ _ h)) h)

@[simp] theorem stillNext_execMsixUnmask {vec : Nat} : StillNext s (execMsixUnmask t vec s) :=
  have h := calm_advance t (Calm.refl s)
  stillNext (calm_ite (calm_setMask _ _ h) h)

@[simp] theorem stillNext_execRingCtrlWrite {kind ring data : Nat} : StillNext s (execRingCtrlWrite t kind ring data s) :=
  stillNext_byWrite fun _ h => calm_ite (calm_writeCmdCtrl _ _ h) (calm_ite (calm_writeCqCtrl _ _ h) (calm_ite (calm_writeEvCtrl _ _ h)
    h))

@[simp] theorem stillNext_execFunctionLevelReset : StillNext s (execFunctionLevelReset t s) :=
  have h := calm_advance t (Calm.refl s)
  stillNext (calm_ite (calm_writeConfig h (calm_resetPf0 h)) h)

@[simp] theorem stillNext_execPf1FunctionLevelReset : StillNext s (execPf1FunctionLevelReset t s) :=
  have h := calm_advance t (Calm.refl s)
  stillNext (calm_ite (calm_writeConfig h (calm_resetPf1 h)) h)

/-! ## DMA channels -/

@[simp] theorem stillNext_execDmaCreate : StillNext s (execDmaCreate t c s) := by
  refine stillNext_runCmd fun _ _ h => ?_
  dsimp only
  split
  · refine calm_immediate _ _ _ _ _ h (calm_setF _ _ (calm_setF _ _ (calm_setN _ _ (calm_setPc _ _ _ (calm_setN _ _ (calm_setF _ _
      (calm_setChState _ _ (calm_ownBanks _ _ ?_))))))))
    simp only [↓calm_mk']
    exact calm_takeGen _ _ h
  · exact calm_immediate _ _ _ _ _ h h

@[simp] theorem stillNext_execDmaStart : StillNext s (execDmaStart t c s) :=
  stillNext_runCmd fun _ _ h => calm_schedulable _ _ _ _ _ _ h (calm_startDma _ h)

@[simp] theorem stillNext_execDmaDestroy : StillNext s (execDmaDestroy t c s) := by
  refine stillNext_runCmd fun _ _ h => calm_immediate _ _ _ _ _ h (calm_releaseBanks _ (calm_clearContext _ ?_))
  simp only [↓calm_mk']
  exact calm_cancelNaming _ (calm_unbindAll _ h)

@[simp] theorem stillNext_execDmaPcWrite {channel word data : Nat} : StillNext s (execDmaPcWrite t channel word data s) :=
  stillNext_byWrite fun _ h => calm_ite (calm_writePc _ _ _ h) h

@[simp] theorem stillNext_execDmaStop : StillNext s (execDmaStop t c s) := by
  refine stillNext_runCmd fun _ _ h => ?_
  dsimp only
  split
  · exact calm_reject _ _ h
  · exact calm_ite (calm_modCh _ _ (calm_setStage _ _ h)) (calm_complete _ _ (calm_ite (calm_pumpShared (calm_haltDma _ _ _ h)) h))

@[simp] theorem stillNext_execInstructionFetchComplete {channel : Nat} {data : List Byte} :
    StillNext s (execInstructionFetchComplete t channel data s) := by
  have h := calm_advance t (Calm.refl s)
  unfold execInstructionFetchComplete
  dsimp only
  split
  · exact stillNext h
  · exact stillNext (calm_throughPort h fun _ k => calm_pumpShared (calm_ite (calm_haltDma _ _ _ (calm_modCh _ _ k))
      (calm_seek _ (calm_modCh _ _ k))))

@[simp] theorem stillNext_execMove {channel : Nat} : StillNext s (execMove t channel s) := by
  have h := calm_advance t (Calm.refl s)
  refine stillNext ?_
  split
  · exact calm_beginData _ _ h
  · exact h

@[simp] theorem stillNext_execFill {channel : Nat} : StillNext s (execFill t channel s) := by
  have h := calm_advance t (Calm.refl s)
  refine stillNext ?_
  split
  · exact calm_beginData _ _ h
  · exact h

@[simp] theorem stillNext_execCmp {channel : Nat} : StillNext s (execCmp t channel s) := by
  have h := calm_advance t (Calm.refl s)
  refine stillNext ?_
  split
  · exact calm_beginData _ _ h
  · exact h

@[simp] theorem stillNext_execPeripheralBurst {channel : Nat} : StillNext s (execPeripheralBurst t channel s) := by
  have h := calm_advance t (Calm.refl s)
  refine stillNext ?_
  split
  · exact calm_ite (calm_ite (calm_waitTurn _ h) (calm_periphTurn _ _ _ h)) h
  · exact h

@[simp] theorem stillNext_execLoop {channel : Nat} : StillNext s (execLoop t channel s) := by
  have h := calm_advance t (Calm.refl s)
  refine stillNext ?_
  split
  · exact calm_runLoop _ _ _ h
  · exact h

@[simp] theorem stillNext_execLink {channel : Nat} : StillNext s (execLink t channel s) := by
  have h := calm_advance t (Calm.refl s)
  refine stillNext ?_
  split
  · exact calm_goTo _ _ _ _ (calm_countStep _ h)
  · exact h

@[simp] theorem stillNext_execHalt {channel : Nat} : StillNext s (execHalt t channel s) := by
  have h := calm_advance t (Calm.refl s)
  refine stillNext ?_
  split
  · split
    · exact calm_haltDma _ _ _ (calm_setDone _ _ (calm_setPc _ _ _ (calm_countStep _ h)))
  · exact h

@[simp] theorem stillNext_execWait {channel : Nat} : StillNext s (execWait t channel s) := by
  have h := calm_advance t (Calm.refl s)
  refine stillNext ?_
  split
  · exact calm_runWait _ _ _ h
  · exact h

@[simp] theorem stillNext_execWaitEnd {channel : Nat} : StillNext s (execWaitEnd t channel s) := by
  have h := calm_advance t (Calm.refl s)
  refine stillNext ?_
  split
  · split
    · exact calm_settleBit _ h
    · exact calm_ite (calm_endWait _ h) h
    · exact calm_ite (calm_endWait _ h) h
  · exact h

@[simp] theorem stillNext_execSignal {channel : Nat} : StillNext s (execSignal t channel s) := by
  have h := calm_advance t (Calm.refl s)
  refine stillNext ?_
  split
  · exact calm_runSignal _ _ _ _ _ _ h
  · exact h

@[simp] theorem stillNext_execEvtSetWrite {w data : Nat} : StillNext s (execEvtSetWrite t w data s) :=
  stillNext_byWrite fun _ h => calm_ite (calm_writeEvtSet _ _ h) h

@[simp] theorem stillNext_execStepBudget {channel : Nat} : StillNext s (execStepBudget t channel s) := by
  have h := calm_advance t (Calm.refl s)
  refine stillNext ?_
  split
  · exact h
  · exact h
  · exact calm_faultDma _ _ h
  · exact h

@[simp] theorem stillNext_execDmaFault {channel : Nat} : StillNext s (execDmaFault t channel s) := by
  have h := calm_advance t (Calm.refl s)
  refine stillNext ?_
  split
  · exact calm_pumpShared (calm_faultDma _ _ h)
  · exact h

/-! ## The DRAM controller -/

@[simp] theorem stillNext_execTrain {data : Nat} : StillNext s (execTrain t data s) :=
  stillNext_byWrite fun _ h => calm_writeMemcCtrl _ h

@[simp] theorem stillNext_execRateWrite {data : Nat} : StillNext s (execRateWrite t data s) :=
  stillNext_byWrite fun _ h => calm_writeMemcCtrl _ h

@[simp] theorem stillNext_execTrainingStepEnd {good : Bool} {channel size : Nat} :
    StillNext s (execTrainingStepEnd t good channel size s) := by
  have h := calm_advance t (Calm.refl s)
  unfold execTrainingStepEnd
  dsimp only
  split
  · exact stillNext h
  · have sized {n : Nat} : Calm s { setF (advance t s) F.MEMC_CFG_SIZE size with dramSize := n } := by
      simp only [↓calm_mk']
      exact calm_setF _ _ h
    exact stillNext (calm_ite (calm_trainFail _ _ (calm_setFlag _ _ (calm_modMemc _ h)))
      (calm_ite (calm_trained (calm_ite sized h)) (calm_modMemc _ (calm_ite sized h))))

@[simp] theorem stillNext_execRetrainingDue : StillNext s (execRetrainingDue t s) := by
  have h := calm_settleDram (calm_advance t (Calm.refl s))
  unfold execRetrainingDue
  dsimp only
  split
  · exact stillNext h
  · exact stillNext (calm_ite h (calm_ite (calm_modMemc _ h) (calm_ite (calm_modMemc _ (calm_modMemc _ h)) (calm_startGather
      (calm_modMemc _ h)))))

@[simp] theorem stillNext_execGatheringEnd : StillNext s (execGatheringEnd t s) := by
  have h := calm_settleDram (calm_advance t (Calm.refl s))
  refine stillNext ?_
  split
  · exact calm_ite (calm_setFlag _ _ (calm_modMemc _ h)) h
  · exact h

@[simp] theorem stillNext_execPauseStart : StillNext s (execPauseStart t s) :=
  have h := calm_settleDram (calm_advance t (Calm.refl s))
  stillNext (calm_ite (calm_setFlag _ _ (calm_modMemc _ h)) h)

@[simp] theorem stillNext_execPauseEnd {fail0 fail1 : Bool} : StillNext s (execPauseEnd t fail0 fail1 s) := by
  have h := calm_advance t (Calm.refl s)
  refine stillNext ?_
  split
  · exact calm_ite (calm_endPause _ _ h) (calm_settleDram h)
  · exact calm_settleDram h

@[simp] theorem stillNext_execSelfRefreshEntry : StillNext s (execSelfRefreshEntry t s) :=
  have h := calm_settleDram (calm_advance t (Calm.refl s))
  stillNext (calm_ite (calm_beginSr h) h)

@[simp] theorem stillNext_execSelfRefreshCommit : StillNext s (execSelfRefreshCommit t s) := by
  have h := calm_settleDram (calm_advance t (Calm.refl s))
  refine stillNext ?_
  split
  · exact calm_ite (calm_setFlag _ _ h) h
  · exact h

@[simp] theorem stillNext_execDramRequest {source : Nat} {write : Bool} {addr len drained : Nat} :
    StillNext s (execDramRequest t source write addr len drained s) :=
  have h := calm_advance t (Calm.refl s)
  stillNext (calm_ite h (calm_serveWaiting (calm_modMemc _ (calm_disturbSr (calm_ite (calm_settleDram h) (calm_ite (calm_writeBack _
    (calm_settleDram h)) (calm_settleDram h)))))))

@[simp] theorem stillNext_execSelfRefreshExitEnd : StillNext s (execSelfRefreshExitEnd t s) :=
  have h := calm_advance t (Calm.refl s)
  stillNext (calm_ite (calm_leaveSr h) h)

@[simp] theorem stillNext_execRateChangeStart : StillNext s (execRateChangeStart t s) :=
  have h := calm_settleDram (calm_advance t (Calm.refl s))
  stillNext (calm_ite (calm_modMemc _ h) h)

@[simp] theorem stillNext_execRateChangeEnd : StillNext s (execRateChangeEnd t s) :=
  have h := calm_advance t (Calm.refl s)
  stillNext (calm_endChange h)

/-! ## Bias and monitors -/

@[simp] theorem stillNext_execBiasSet : StillNext s (execBiasSet t c s) :=
  stillNext_runCmd fun _ _ h => calm_schedulable _ _ _ _ _ _ (calm_settleHkTo _ h) (calm_setN _ _ (calm_settleHkTo _ h))

@[simp] theorem stillNext_execBiasStrobe : StillNext s (execBiasStrobe t c s) :=
  stillNext_runCmd fun _ _ h => calm_schedulable _ _ _ _ _ _ h h

@[simp] theorem stillNext_execStrobe {data : Nat} : StillNext s (execStrobe t data s) :=
  stillNext_byWrite fun _ h => calm_writeStrobe _ h

@[simp] theorem stillNext_execLdbInEdge : StillNext s (execLdbInEdge t s) :=
  have h := calm_advance t (Calm.refl s)
  stillNext (calm_ite (calm_hkAt _ _ (calm_satAdd _ _ (calm_settleHk h))) h)

@[simp] theorem stillNext_execHuskSet {data : Nat} : StillNext s (execHuskSet t data s) :=
  stillNext_byWrite fun _ h => calm_writeHuskSet _ h

@[simp] theorem stillNext_execHuskRelease {data : Nat} : StillNext s (execHuskRelease t data s) :=
  stillNext_byWrite fun _ h => calm_writeHuskRelease _ h

@[simp] theorem stillNext_execAnaPowerGoodFall {dip : Nat} : StillNext s (execAnaPowerGoodFall t dip s) :=
  have h := calm_settleHk (calm_advance t (Calm.refl s))
  stillNext (calm_raiseFlag _ (calm_enterHusk _ (calm_modHkm _ h)))

@[simp] theorem stillNext_execSlewStep {dac : Nat} : StillNext s (execSlewStep t dac s) := by
  have h := calm_settleHk (calm_advance t (Calm.refl s))
  refine stillNext ?_
  split
  · exact calm_ite (calm_slew _ _ h) h
  · exact h

@[simp] theorem stillNext_execMonScan : StillNext s (execMonScan t c s) := by
  refine stillNext_runCmd fun _ _ h => calm_immediate _ _ _ _ _ h ?_
  split
  · exact h
  · exact calm_ite (calm_resumeScan _ _ (calm_modMon _ _ h)) (calm_modMon _ _ h)

@[simp] theorem stillNext_execMonUrgent : StillNext s (execMonUrgent t c s) :=
  stillNext_runCmd fun _ _ h => calm_schedulable _ _ _ _ _ _ h (calm_urgent _ _ _ _ h)

@[simp] theorem stillNext_execFirmwareUrgentRequest {unit input : Nat} : StillNext s (execFirmwareUrgentRequest t unit input s) :=
  have h := calm_advance t (Calm.refl s)
  stillNext (calm_ite (calm_urgent _ _ _ _ h) h)

@[simp] theorem stillNext_execMonitorWindowEnd {unit : Nat} : StillNext s (execMonitorWindowEnd t unit s) := by
  have h := calm_settleWindows (calm_advance t (Calm.refl s))
  unfold execMonitorWindowEnd
  extract_lets u x isUrgent il stop
  split
  · exact stillNext h
  · have k {f : MonUnit → MonUnit} := calm_modMon unit f h
    exact stillNext (calm_ite (calm_ite (calm_resumeScan _ _ (calm_modMon _ _ k)) (calm_startConv _ _ _ (calm_modMon _ _ k)))
      (calm_ite (calm_modMon _ _ k) (calm_resumeScan _ _ (calm_modMon _ _ k))))

@[simp] theorem stillNext_execMonitorResult {unit : Nat} {code : Int × Int} {ovr : Bool} :
    StillNext s (execMonitorResult t unit code ovr s) := by
  have h := calm_advance t (Calm.refl s)
  unfold execMonitorResult
  extract_lets u
  split
  · exact stillNext h
  · split
    · exact stillNext h
    · extract_lets overRange codes value heard pushed flagged shown noted posted corrected
      have hpushed : Calm s pushed := calm_pushRecord _ _ (calm_modMon _ _ h)
      have hshown : Calm s shown := calm_setF _ _ (calm_setFlag _ _ (calm_setFlag _ _ (calm_setFlag _ _ hpushed)))
      have hnoted : Calm s noted := calm_ite (calm_noteOvr _ _ hshown) hshown
      have hposted : Calm s posted := calm_ite (calm_postAt _ _ _ hnoted) hnoted
      exact stillNext (calm_markStale (calm_ite (calm_loTemperature _ hposted) hposted))

@[simp] theorem stillNext_execBrownOut : StillNext s (execBrownOut t s) :=
  have h := calm_advance t (Calm.refl s)
  stillNext (calm_losePd18 h)

/-! ## The receive path -/

@[simp] theorem stillNext_execDcReset {path : Nat} : StillNext s (execDcReset t path s) := by
  have h := calm_advance t (Calm.refl s)
  unfold execDcReset
  dsimp only
  split
  · exact stillNext h
  · exact stillNext (calm_ite (calm_modRx _ _ (calm_setDc _ _ _ _ _ h)) h)

@[simp] theorem stillNext_execRxpCtrlWrite {path data : Nat} : StillNext s (execRxpCtrlWrite t path data s) :=
  stillNext_byWrite fun _ h => calm_ite (calm_writeRxCtrl _ _ h) h

@[simp] theorem stillNext_execRxGain : StillNext s (execRxGain t c s) :=
  stillNext_runCmd fun _ _ h => calm_schedulable _ _ _ _ _ _ h h

@[simp] theorem stillNext_execDcLoad : StillNext s (execDcLoad t c s) :=
  stillNext_runCmd fun _ _ h => calm_schedulable _ _ _ _ _ _ h h

/-! ## Clocks and SYNC events -/

@[simp] theorem stillNext_execRootEnWrite {data : Nat} : StillNext s (execRootEnWrite t data s) :=
  stillNext_byWrite fun _ h => calm_writeClkCtrl _ h

@[simp] theorem stillNext_execLaneEnWrite {data : Nat} : StillNext s (execLaneEnWrite t data s) :=
  stillNext_byWrite fun _ h => calm_writeClkCtrl _ h

@[simp] theorem stillNext_execRootPllLock : StillNext s (execRootPllLock t s) :=
  have h := calm_advance t (Calm.refl s)
  stillNext (calm_ite (calm_restartCounter (calm_setFlag _ _ h)) h)

@[simp] theorem stillNext_execClockUnlock {pll : Nat} : StillNext s (execClockUnlock t pll s) :=
  have h := calm_advance t (Calm.refl s)
  stillNext (calm_ite (calm_post _ _ (calm_raiseFlag _ (calm_setFlag _ _ h))) h)

@[simp] theorem stillNext_execPllRelock {pll : Nat} : StillNext s (execPllRelock t pll s) :=
  have h := calm_advance t (Calm.refl s)
  stillNext (calm_ite (calm_setFlag _ _ h) (calm_ite (calm_setFlag _ _ h) h))

@[simp] theorem stillNext_execSyncArm {data : Nat} : StillNext s (execSyncArm t data s) :=
  stillNext_byWrite fun _ h => calm_writeSyncCtrl _ h

@[simp] theorem stillNext_execSyncEvent : StillNext s (execSyncEvent t s) :=
  have h := calm_advance t (Calm.refl s)
  stillNext (calm_ite (calm_ite (calm_emit _ (calm_captureSync h)) (calm_captureSync h)) h)

@[simp] theorem stillNext_execSyncCheck : StillNext s (execSyncCheck t s) := by
  have h := calm_advance t (Calm.refl s)
  unfold execSyncCheck
  dsimp only
  split
  · exact stillNext h
  · exact stillNext (calm_ite (calm_wrapAdd _ _ (calm_dropSync _ h)) (calm_post _ _ (calm_dropSync _ h)))

@[simp] theorem stillNext_execSyncOutScheduled : StillNext s (execSyncOutScheduled t s) :=
  have h := calm_advance t (Calm.refl s)
  stillNext (calm_ite (calm_set64 _ _ _ (calm_emit _ h)) h)

/-! ## Boot, updates and fuse requests -/

@[simp] theorem stillNext_execHostLen {data : Nat} : StillNext s (execHostLen t data s) :=
  stillNext_byWrite fun _ h => calm_writeHostLen _ h

@[simp] theorem stillNext_execReady : StillNext s (execReady t s) := by
  have h := calm_advance t (Calm.refl s)
  refine stillNext ?_
  split
  · exact calm_setF _ _ (calm_setFlag _ _ (calm_setBoot _ _ (calm_modTrust _ (calm_runImage _ h) fun _ => ⟨rfl, rfl, rfl⟩)))
  · exact calm_setF _ _ (calm_setFlag _ _ (calm_setBoot _ _ (calm_modTrust _ (calm_runImage _ h) fun _ => ⟨rfl, rfl, rfl⟩)))
  · exact h

@[simp] theorem stillNext_execStageWrite {data : Nat} : StillNext s (execStageWrite t data s) :=
  stillNext_byWrite fun _ h => calm_writeStage _ h

@[simp] theorem stillNext_execVerify {data : Nat} : StillNext s (execVerify t data s) :=
  stillNext_byWrite fun _ h => calm_writeStageCtrl _ h

@[simp] theorem stillNext_execActivate {data : Nat} : StillNext s (execActivate t data s) :=
  stillNext_byWrite fun _ h => calm_writeStageCtrl _ h

@[simp] theorem stillNext_execVerificationDone : StillNext s (execVerificationDone t s) := by
  have h := calm_advance t (Calm.refl s)
  refine stillNext ?_
  split
  · split
    · exact calm_bootVerified _ _ (calm_modTrust _ h fun _ => ⟨rfl, rfl, rfl⟩)
    · exact calm_modTrust _ h fun _ => ⟨rfl, rfl, rfl⟩
  · exact calm_stageVerified _ _ _ (calm_modTrust _ h fun _ => ⟨rfl, rfl, rfl⟩)
  · exact calm_activateMeasured _ _ (calm_modTrust _ h fun _ => ⟨rfl, rfl, rfl⟩)
  · exact h

@[simp] theorem stillNext_execFwActivated : StillNext s (execFwActivated t s) := by
  have h := calm_advance t (Calm.refl s)
  unfold execFwActivated
  extract_lets u v
  split
  · split
    · exact stillNext h
    · extract_lets _ w
      have hv : Calm s v := by
        unfold v
        split
        · exact calm_ownBanks _ 0 h
        · exact h
      have hw : Calm s w := calm_modTrust _ (calm_setFlag _ _ (calm_runImage _ hv)) fun _ => ⟨rfl, rfl, rfl⟩
      exact stillNext (calm_post _ _ hw)
  · exact stillNext h

@[simp] theorem stillNext_execFirmwareStartTimeout : StillNext s (execFirmwareStartTimeout t s) := by
  have h := calm_advance t (Calm.refl s)
  refine stillNext ?_
  split
  · exact calm_ite (calm_stopSampling (calm_restartOld _ h)) h
  · exact h

@[simp] theorem stillNext_execGo {data : Nat} : StillNext s (execGo t data s) :=
  stillNext_byWrite fun _ h => calm_writeFuseProg _ h

/-! ## Power, sleep and resets -/

@[simp] theorem stillNext_execPwrDomain : StillNext s (execPwrDomain t c s) :=
  stillNext_runCmd fun _ _ h => calm_schedulable _ _ _ _ _ _ h (calm_applyPwrDomain _ h)

@[simp] theorem stillNext_execModeWriteActiveIdle {data : Nat} : StillNext s (execModeWriteActiveIdle t data s) :=
  stillNext_byWrite fun _ h => calm_writeMode _ h

@[simp] theorem stillNext_execModeWriteSleepDeep {data : Nat} : StillNext s (execModeWriteSleepDeep t data s) :=
  stillNext_byWrite fun _ h => calm_writeMode _ h

@[simp] theorem stillNext_execEntryBegin : StillNext s (execEntryBegin t s) :=
  have h := calm_advance t (Calm.refl s)
  stillNext (calm_ite (calm_drainForEntry (calm_setFlag _ _ (calm_modPower _ h))) h)

@[simp] theorem stillNext_execEntryDrainEnd : StillNext s (execEntryDrainEnd t s) :=
  have h := calm_advance t (Calm.refl s)
  stillNext (calm_ite (calm_modPower _ (calm_discardHeld (calm_foldl (fun _ _ k => calm_haltDma _ _ _ k) (calm_ite (calm_cancelActs h)
    h)))) (calm_ite (calm_cancelActs h) h))

@[simp] theorem stillNext_execCommitPoint : StillNext s (execCommitPoint t s) := by
  have h := calm_advance t (Calm.refl s)
  have k := calm_settleInjectors (calm_settleAllPmc (calm_cancelActs h))
  exact stillNext (calm_ite (calm_modPower _ (calm_setF _ _ (calm_setF _ _ (calm_ite (calm_closeRows k) k)))) h)

@[simp] theorem stillNext_execEntryCancel : StillNext s (execEntryCancel t s) := by
  have h := calm_advance t (Calm.refl s)
  refine stillNext (calm_ite ?_ h)
  dsimp only
  split
  · exact calm_satAdd _ _ (calm_setF _ _ (calm_stopEntry h))
  · exact calm_endWait _ (calm_setF _ _ (calm_satAdd _ _ (calm_setF _ _ (calm_stopEntry h))))

@[simp] theorem stillNext_execWakeStepCondition : StillNext s (execWakeStepCondition t s) :=
  have h := calm_advance t (Calm.refl s)
  stillNext (calm_ite (calm_modPower _ (calm_ite (calm_lockRoot (calm_ite (calm_setF _ _ h) h)) (calm_ite (calm_setF _ _ h) h))) h)

@[simp] theorem stillNext_execWakeStepDelayEnd : StillNext s (execWakeStepDelayEnd t s) :=
  have h := calm_advance t (Calm.refl s)
  stillNext (calm_ite (calm_stepsFrom _ (calm_modPower _ h)) h)

@[simp] theorem stillNext_execWakeStepTimeout : StillNext s (execWakeStepTimeout t s) :=
  have h := calm_advance t (Calm.refl s)
  stillNext (calm_ite (calm_ite (calm_fallBack _ (calm_undoStep _ h)) (calm_modPower _ (calm_undoStep _ h))) h)

@[simp] theorem stillNext_execWakeStepRetry : StillNext s (execWakeStepRetry t s) :=
  have h := calm_advance t (Calm.refl s)
  stillNext (calm_ite (calm_startStepAt _ _ h) h)

@[simp] theorem stillNext_execEntryComplete : StillNext s (execEntryComplete t s) := by
  have h := calm_advance t (Calm.refl s)
  refine stillNext (calm_ite ?_ h)
  dsimp only
  split
  · exact calm_startWake _ _ (calm_setFlag _ _ (calm_settleLow _ (calm_finishEntry h)))
  · exact calm_setFlag _ _ (calm_settleLow _ (calm_finishEntry h))

@[simp] theorem stillNext_execWakeN {low : Bool} : StillNext s (execWakeN t low s) :=
  have h := calm_advance t (Calm.refl s)
  stillNext (calm_ite (calm_wakeEvent _ (calm_modPower _ h)) (calm_modPower _ h))

@[simp] theorem stillNext_execWickWakeReq {data : Nat} : StillNext s (execWickWakeReq t data s) :=
  stillNext_byWickWrite fun _ h => calm_writeWakeReq _ h

@[simp] theorem stillNext_execWickTimerExpiry : StillNext s (execWickTimerExpiry t s) :=
  have h := calm_advance t (Calm.refl s)
  stillNext (calm_ite (calm_wakeEvent _ (calm_modPower _ h)) h)

@[simp] theorem stillNext_execPowerOnReset : StillNext s (execPowerOnReset t s) := by
  have h := calm_advance t (Calm.refl s)
  have cleared : Calm s { holdReset (advance t s) 0 with regs := [] } := by
    simp only [↓calm_mk']
    exact calm_holdReset _ h
  exact stillNext (calm_driveAlert (calm_ite cleared (calm_coldStart cleared)))

@[simp] theorem stillNext_execResetNLow : StillNext s (execResetNLow t s) :=
  have h := calm_holdReset 1 (calm_advance t (Calm.refl s))
  stillNext (calm_modPower _ h)

@[simp] theorem stillNext_execResetNRelease : StillNext s (execResetNRelease t s) :=
  have h := calm_advance t (Calm.refl s)
  stillNext (calm_ite (calm_coldStart h) h)

@[simp] theorem stillNext_execChip {data : Nat} : StillNext s (execChip t data s) :=
  stillNext_byWrite fun _ h => calm_ite (calm_chipReset h) h

@[simp] theorem stillNext_execChipResetEnd : StillNext s (execChipResetEnd t s) := by
  have h := calm_advance t (Calm.refl s)
  refine stillNext ?_
  split
  · exact calm_ite (calm_coldStart h) h
  · exact h

@[simp] theorem stillNext_execPerstN : StillNext s (execPerstN t s) :=
  have h := calm_advance t (Calm.refl s)
  stillNext h

/-! ## Activations that fall due -/

@[simp] theorem stillNext_execScheduledActivation : StillNext s (execScheduledActivation t s) := by
  have h := calm_advance t (Calm.refl s)
  refine stillNext ?_
  split
  · exact h
  · exact calm_endAct _ _ _ (calm_foldl (fun _ _ k => calm_holdBits _ k) (calm_activate _ h))

@[simp] theorem stillNext_execAdaptiveSwap : StillNext s (execAdaptiveSwap t s) := by
  have h := calm_advance t (Calm.refl s)
  refine stillNext ?_
  split
  · exact h
  · exact calm_ite (calm_applyDpdSwap _ h) (calm_applyRxSwap _ h)

/-! ## General commands -/

@[simp] theorem stillNext_execNop : StillNext s (execNop t c s) := by
  have h := calm_advance t (Calm.refl s)
  unfold execNop
  dsimp only
  split
  · exact stillNext h
  · split
    · exact stillNext h
    · split
      · exact stillNext (calm_reject _ _ h)
      · exact stillNext (calm_complete _ _ h)

@[simp] theorem stillNext_execFence : StillNext s (execFence t c s) :=
  stillNext_runCmd fun _ _ h => calm_immediate _ _ _ _ _ h h

@[simp] theorem stillNext_execCancel : StillNext s (execCancel t c s) :=
  stillNext_runCmd fun _ _ h => calm_immediate _ _ _ _ _ h (calm_foldl (fun _ _ k => calm_endAct _ _ _ k) h)

@[simp] theorem stillNext_execStoreClaim : StillNext s (execStoreClaim t c s) :=
  stillNext_runCmd fun _ _ h => calm_immediate _ _ _ _ _ h (calm_ownBanks _ _ h)

@[simp] theorem stillNext_execStoreRelease : StillNext s (execStoreRelease t c s) :=
  stillNext_runCmd fun _ _ h => calm_immediate _ _ _ _ _ h (calm_ownBanks _ _ h)

/-! ## Digests -/

@[simp] theorem stillNext_execCfgDigest : StillNext s (execCfgDigest t c s) := by
  refine stillNext_runCmd fun _ _ h => ?_
  split
  · exact calm_reject _ _ h
  · exact calm_startJob _ _ h

@[simp] theorem stillNext_execAttest : StillNext s (execAttest t c s) := by
  refine stillNext_runCmd fun _ _ h => ?_
  split
  · exact calm_reject _ _ h
  · exact calm_startJob _ _ h

@[simp] theorem stillNext_execKeccakJobDone : StillNext s (execKeccakJobDone t s) := by
  have h := calm_advance t (Calm.refl s)
  refine stillNext ?_
  split
  · split
    · exact calm_complete _ _ (calm_hostWrite _ _ _ (calm_modTrust _ h fun _ => ⟨rfl, rfl, rfl⟩))
    · exact calm_modTrust _ h fun _ => ⟨rfl, rfl, rfl⟩
  · split
    · exact calm_complete _ _ (calm_hostWrite _ _ _ (calm_modTrust _ h fun _ => ⟨rfl, rfl, rfl⟩))
    · exact calm_modTrust _ h fun _ => ⟨rfl, rfl, rfl⟩
  · exact h

/-! ## Sample data -/

@[simp] theorem stillNext_execUlPacketQueued {stream first : Nat} : StillNext s (execUlPacketQueued t stream first s) := by
  have h := calm_advance t (Calm.refl s)
  refine stillNext ?_
  split
  · exact h
  · split
    · exact h
    · dsimp only
      split
      · exact h
      · exact calm_ite h (calm_modStream _ _ (calm_modCasc _ (calm_enqueue _ _ h)))

@[simp] theorem stillNext_execCascSumOriginate {stream first : Nat} : StillNext s (execCascSumOriginate t stream first s) := by
  have h := calm_advance t (Calm.refl s)
  refine stillNext ?_
  split
  · exact h
  · split
    · exact h
    · exact calm_ite h (calm_modStream _ _ (calm_enqueue _ _ h))

@[simp] theorem stillNext_execCascSumPass : StillNext s (execCascSumPass t s) := by
  have h := calm_advance t (Calm.refl s)
  refine stillNext (calm_ite h ?_)
  split
  · exact h
  next l _ =>
    have taken := calm_modCasc (fun y => { y with sums := l }) h
    have k {p : Prop} [Decidable p] : Calm s (if p then _ else _) := calm_ite (calm_satAdd F.CAS_STAT2_NO_STREAM 1 taken) taken
    exact calm_ite h (calm_ite taken (calm_ite (calm_sentAt _ k fun u => calm_sendBytes _ _ (Calm.refl u)) (calm_satAdd _ _ k)))

@[simp] theorem stillNext_execCascCombine {stream first : Nat} : StillNext s (execCascCombine t stream first s) := by
  have h := calm_advance t (Calm.refl s)
  refine stillNext ?_
  split
  · exact h
  · split
    · exact h
    · exact calm_ite h (calm_modCasc _ (calm_ite (calm_satAdd _ _ h) h))

@[simp] theorem stillNext_execStreamDestroy : StillNext s (execStreamDestroy t c s) := by
  refine stillNext_runCmd fun _ _ h => calm_immediate _ _ _ _ _ h ?_
  dsimp only
  split
  · exact h
  · refine calm_removeStream _ (calm_ite (calm_postOrphanEnd _ _ h) ?_)
    split
    · exact calm_sendMessage _ _ _ (calm_closeStream _ _ h)
    · exact h

/-! ## An applied SYNC -/

@[simp] theorem stillNext_execSyncApplied : StillNext s (execSyncApplied t s) := by
  have h := calm_advance t (Calm.refl s)
  refine stillNext ?_
  split
  · exact h
  · exact calm_applySync _ _ _ (calm_dropSync _ h)

/-! ## Accesses of the host -/

@[simp] theorem stillNext_execTddEntryWrite {bank entry data : Nat} : StillNext s (execTddEntryWrite t bank entry data s) :=
  stillNext_byWrite fun _ h => calm_ite (calm_writeWord _ _ h) h

@[simp] theorem stillNext_execRegisterWrite {target : RegTarget} : StillNext s (execRegisterWrite t target s) := by
  have h := calm_advance t (Calm.refl s)
  refine stillNext (calm_ite h ?_)
  split
  · exact calm_ite (calm_hostStore _ _ h) h
  · exact calm_storeMsix _ _ h
  · exact calm_writeConfig h h
  · exact calm_writeConfig h (calm_writeMsixControl _ _ h)
  · exact calm_writeConfig h h
  · exact calm_writeConfig h h
  · exact calm_writeConfig h h
  · exact calm_writeConfig h h
  · exact calm_writeConfig h h

@[simp] theorem stillNext_execMalformedAccess {access : Sys2Proof.Access} : StillNext s (execMalformedAccess t access s) := by
  have h := calm_advance t (Calm.refl s)
  have counted := calm_satAdd F.HOST_ACCESS_ERR_COUNT 1 h
  exact stillNext (calm_ite h
    (calm_ite (calm_ite h (calm_w4Words _ h))
    (calm_ite (calm_ite (calm_blockWrite _ h) (calm_emit _ (calm_satAdd _ _ h)))
    (calm_ite (calm_ite (calm_countCfg _ counted) (calm_emit _ counted))
    (calm_ite (calm_writeWords _ _ _ h) (calm_emit _ (calm_readWords _ _ h)))))))

@[simp] theorem stillNext_execPf1Read {access : Sys2Proof.Access} : StillNext s (execPf1Read t access s) :=
  have h := calm_advance t (Calm.refl s)
  stillNext (calm_ite h (calm_emit _ (calm_pf1Words _ _ h)))

@[simp] theorem stillNext_execReadCompletionTimeout {user : ReadUser} {abort : Bool} :
    StillNext s (execReadCompletionTimeout t user abort s) := by
  have h := calm_advance t (Calm.refl s)
  refine stillNext ?_
  split
  · split
    · exact h
    · exact calm_ite h (calm_pumpShared (calm_ite (calm_wsLoadFailed _ _ (calm_leaveStrays _ _ (calm_noteTimeout _ h))) (calm_reject _
        _ (calm_leaveStrays _ _ (calm_noteTimeout _ h)))))
  · exact calm_dmaReadFault _ _ h
  · exact calm_ringReadFault _ _ h


theorem stillNext_exec {i : Instr} {s : State} (hw : writesMemory i = false) (hi : ∀ t took, i ≠ .fuseProgrammingDone t took) :
    StillNext s (exec i s) := by
  cases i <;> simp only [writesMemory, Bool.true_eq_false] at hw
  case fuseProgrammingDone t took => exact absurd rfl (hi t took)
  all_goals simp [exec]

end Sys2Proof.Machine
end

section
open Sys2Proof Sys2Proof.Machine

/-- Settles O7: every command that `writesMemory` does not name is calm, and calm operations leave both memories as they were. -/
theorem onlyTheseCommandsWriteMemories : Obligations.OnlyTheseCommandsWriteMemories := by
  unfold Obligations.OnlyTheseCommandsWriteMemories
  intro i s s' hw e
  by_cases hi : ∃ t took, i = .fuseProgrammingDone t took
  · obtain ⟨t, took, rfl⟩ := hi
    obtain ⟨-, -, -, store, dram, -⟩ := execFuseProgrammingDone_keeps e
    exact ⟨store, dram⟩
  · obtain ⟨-, -, -, store, dram, -⟩ := stillNext_exec hw (fun t took h => hi ⟨t, took, h⟩) s' e
    exact ⟨store, dram⟩

end

section
/-!
The rules by which a command that may run is carried out, accepted or refused, and by which a register write takes effect. The proofs about
the single commands only say what these rules need.
-/
namespace Sys2Proof.Machine

variable {u : State} {op : Nat} {c : Cmd} {more : List (Nat × Nat)} {f : Flight}

theorem cmd_of_mayRun (h : mayRun u op c more f) : f.cmd = c := (turn_some h.2.1).2.1

theorem sched_eq_true_of_mayRun (h : mayRun u op c more f) {cfg : Bool} {type : Nat} (hrow : opcodeRow op = some (.s, cfg, type)) :
    sched c = true := cmd_of_mayRun h ▸ sched_of_scheduledOnly h hrow

theorem sched_eq_false_of_mayRun (h : mayRun u op c more f) {cfg : Bool} {type : Nat} (hrow : opcodeRow op = some (.i, cfg, type)) :
    sched c = false := cmd_of_mayRun h ▸ sched_of_mayRun h hrow

theorem lateChecks_passed {keys : List (Nat × Nat × Nat)} (h : sched f.cmd = true → inWindow u f.cmd f keys) :
    lateChecks u f false keys none false = none := by
  cases hs : sched f.cmd
  case false => exact lateChecks_immediate hs
  case true => exact lateChecks_inWindow (h hs)

/-- A command of either mode that passes checks 4 to 10 is accepted, or takes effect at once (R93). -/
theorem schedulable_passed {keys : List (Nat × Nat × Nat)} (h : sched f.cmd = true → inWindow u f.cmd f keys) (effect : State → State) :
    schedulable u f false keys none false effect = if sched f.cmd then accept u f keys [] else complete (effect u) f 0 := by
  rw [schedulable, lateChecks_passed h]

theorem schedulable_bad (keys : List (Nat × Nat × Nat)) (res : Option Nat) (mem : Bool) (effect : State → State) :
    schedulable u f true keys res mem effect = reject u f stBadParam := by
  rw [schedulable, lateChecks_bad]

theorem immediate_bad (res : Option Nat) (mem : Bool) (effect : State → State × Nat) :
    immediate u f true res mem effect = reject u f stBadParam := by
  rw [immediate, lateChecks_bad]

/-- A register write has its effect while the device does not sleep, once CFG_WRITES has counted it (R89, R444). -/
theorem byWrite_awake {t : Nat} {s : State} {k : State → State} (hu : u = advance t s) (h : asleep u = false) :
    byWrite t s k = .next (k (countCfg u 1)) := by
  subst hu
  simp [byWrite, h]

end Sys2Proof.Machine
end

section
/-!
The general commands (R101-R106) and the jobs of the Keccak engine (R90, R458, R470).
-/
namespace Sys2Proof.Machine

variable {t : Nat} {c : Cmd} {s u : State} {f : Flight} (hu : u = advance t s)
include hu

/-- An entry whose opcode is in no row of the table fails check 1. -/
theorem exec_nop_reserved (hrow : opcodeRow c.opcode = none) (hturn : turn u c = some f) :
    exec (.nop t c) s = .next (reject u f stBadParam) := by
  show execNop t c s = _
  simp [execNop, ← hu, hrow, hturn, earlyChecks]

theorem exec_nop (h : mayRun u 0x00 c [] f) : exec (.nop t c) s = .next (complete u f 0) := by
  obtain ⟨hop, hturn, hearly⟩ := h
  show execNop t c s = _
  simp [execNop, ← hu, hop, hturn, hearly]

theorem exec_fence (h : mayRun u 0x01 c [] f) : exec (.fence t c) s = .next (complete u f 0) := by
  show execFence t c s = _
  rw [execFence, runCmd_of_mayRun (more := fun _ => []) hu h, immediate_passed (sched_of_mayRun h rfl)]

/-- STORE_CLAIM gives the banks to the system, unless a handle owns one of them. -/
theorem exec_storeClaim (h : mayRun u 0x05 c [] f) : exec (.storeClaim t c) s = .next
    (if maskOwned u (p32 c 16) then reject u f stBusy else complete (ownBanks u (bitsSet (p32 c 16) 32) 1) f 0) := by
  show execStoreClaim t c s = _
  rw [execStoreClaim, runCmd_of_mayRun (more := fun _ => []) hu h]
  split
  case isTrue => rw [immediate_refused (sched_of_mayRun h rfl)]
  case isFalse => rw [immediate_passed (sched_of_mayRun h rfl)]

/-- STORE_RELEASE gives them to nobody. -/
theorem exec_storeRelease (h : mayRun u 0x06 c [] f) : exec (.storeRelease t c) s = .next
    (if maskOwned u (p32 c 16) then reject u f stBusy else complete (ownBanks u (bitsSet (p32 c 16) 32) 0) f 0) := by
  show execStoreRelease t c s = _
  rw [execStoreRelease, runCmd_of_mayRun (more := fun _ => []) hu h]
  split
  case isTrue => rw [immediate_refused (sched_of_mayRun h rfl)]
  case isFalse => rw [immediate_passed (sched_of_mayRun h rfl)]

omit hu in
/-- A region of host memory that ends within 2^48 is in range. -/
theorem regionBad_host {addr len : Nat} (h : addr + len ≤ 2 ^ 48) : regionBad 0 addr len = false := by
  simp [regionBad]; omega

theorem exec_cfgDigest (h : mayRun u 0x03 c [] f) (halign : p64 c 16 % 64 = 0) (hend : p64 c 16 + 64 ≤ 2 ^ 48) :
    exec (.cfgDigest t c) s = .next (startJob u f (.digest f.id (cfgDigest u))) := by
  show execCfgDigest t c s = _
  have good : (decide (p64 c 16 % 64 ≠ 0) || regionBad 0 (p64 c 16) 64) = false := by simp [halign, regionBad_host hend]
  rw [execCfgDigest, runCmd_of_mayRun (more := fun _ => []) hu h, good, lateChecks_immediate (sched_of_mayRun h rfl)]

theorem exec_attest (h : mayRun u 0x04 c [] f) (halign : p64 c 16 % 64 = 0) (hend : p64 c 16 + 8192 ≤ 2 ^ 48) :
    exec (.attest t c) s
      = .next (startJob u f (.attest f.id (cfgDigest u) (get64 u A.HOST_CFG_WRITES A.HOST_CFG_WRITES_1))) := by
  show execAttest t c s = _
  have good : (decide (p64 c 16 % 64 ≠ 0) || regionBad 0 (p64 c 16) 8192) = false := by simp [halign, regionBad_host hend]
  rw [execAttest, runCmd_of_mayRun (more := fun _ => []) hu h, good, lateChecks_immediate (sched_of_mayRun h rfl)]

theorem exec_keccakJobDone_digest {cfg : List Byte} {rest : List KeccakJob} (hjobs : u.trust.jobs = .digest f.id cfg :: rest)
    (hf : flightOf u f.id = some f) : exec (.keccakJobDone t) s = .next
      (complete (hostWrite { u with trust := { u.trust with jobs := rest } } (p64 f.cmd 16) 64 (leNat cfg)) f 0) := by
  show execKeccakJobDone t s = _
  simp only [execKeccakJobDone, ← hu, hjobs, hf, modTrust, List.tail_cons]

theorem exec_keccakJobDone_attest {cfg : List Byte} {writes : Nat} {rest : List KeccakJob}
    (hjobs : u.trust.jobs = .attest f.id cfg writes :: rest) (hf : flightOf u f.id = some f) :
    exec (.keccakJobDone t) s = .next
      (complete (hostWrite { u with trust := { u.trust with jobs := rest } } (p64 f.cmd 16) 5075
        (leNat (report u cfg writes (leBytes 32 (bitsOf f.cmd.params.toNat 64 256))))) f 5075) := by
  show execKeccakJobDone t s = _
  simp only [execKeccakJobDone, ← hu, hjobs, hf, modTrust, List.tail_cons]

end Sys2Proof.Machine
end

section
open Sys2Proof Sys2Proof.Machine

/-- Settles O14: each command by its own rule. -/
theorem generalCommandsComplete : Obligations.GeneralCommandsComplete := by
  unfold Obligations.GeneralCommandsComplete
  refine ⟨fun t c s u f hu => ⟨exec_nop_reserved hu, exec_nop hu, exec_fence hu, fun h hown => ?_, fun h hown => ?_, fun h hown => ?_,
    fun h hown => ?_⟩, fun t c s u f hu => ⟨exec_cfgDigest hu, exec_attest hu, fun _ _ => exec_keccakJobDone_digest hu,
    fun _ _ _ => exec_keccakJobDone_attest hu⟩⟩
  · rw [exec_storeClaim hu h, if_neg (by simp [hown])]
  · rw [exec_storeClaim hu h, if_pos hown]
  · rw [exec_storeRelease hu h, if_neg (by simp [hown])]
  · rw [exec_storeRelease hu h, if_pos hown]

end

section
/-!
Carriers (R87, R97, R101, R105, R159-R165) and the per-path correction (R135-R138).
-/
namespace Sys2Proof.Machine

variable {t : Nat} {c : Cmd} {s u : State} {f : Flight} (hu : u = advance t s)

/-! ## Carriers -/

/-- The carrier that a CARRIER_CREATE makes in slot `i` (R100, R165). -/
def newCarrier (u : State) (c : Cmd) (i : Nat) : Carrier :=
  { gen := nextGen u 1 i, dir := p8 c 16, sLog2 := p8 c 17, k := p16 c 18, resp := p8 c 20, cicN := bitsOf (p8 c 21) 0 3,
    cicM := bitsOf (p8 c 21) 4 1 + 1, nco := p32 c 24, phaseAt := (u.time.origin, 0), grid := u.time.origin, ulSpans := [],
    dlSpans := [], ulZero := [], ulRestart := [], dlFrom := u.time.tick, ulFrom := u.time.tick, dlRestarted := [], dlDue := [], was := [] }

include hu

theorem exec_carrierCreate (h : mayRun u 0x10 c [] f) (hdir : p8 c 16 ≤ 2) (hs : p8 c 17 ≤ 4)
    (hgood : settingsGood (p8 c 16) (p16 c 18) (p8 c 20) (bitsOf (p8 c 21) 0 3) = true) :
    exec (.carrierCreate t c) s = .next ((lowestFree u.carriers 8).elim (reject u f stNoResource) fun i =>
      complete (putCarrier (takeGen u 1 i) i (newCarrier u c i)) f (mkHandle 1 (nextGen u 1 i) i)) := by
  show execCarrierCreate t c s = _
  have good : (decide (2 < p8 c 16) || decide (4 < p8 c 17)
      || !settingsGood (p8 c 16) (p16 c 18) (p8 c 20) (bitsOf (p8 c 21) 0 3)) = false := by
    simp [hgood, hdir, hs]
  rw [execCarrierCreate, runCmd_of_mayRun (more := fun _ => []) hu h]
  cases lowestFree u.carriers 8 with
  | none => simp only [good, immediate_refused (sched_of_mayRun h rfl), Option.elim_none]
  | some i => simp only [good, immediate_passed (sched_of_mayRun h rfl), Option.elim_some, newCarrier]

/-- CARRIER_DESTROY of a carrier that a stream or a weight set names is BUSY, else the slot is free and what names it is cancelled (R88, R105). -/
theorem exec_carrierDestroy (h : mayRun u 0x12 c [] f) : exec (.carrierDestroy t c) s = .next
    (if u.streams.any (fun x => x.2.carrier = handleIdx c.handle) || u.beam.sets.any (fun x => x.2.carrier = c.handle) then reject u f stBusy
     else complete (cancelNaming { u with carriers := assocDel u.carriers (handleIdx c.handle) } c.handle) f 0) := by
  show execCarrierDestroy t c s = _
  rw [execCarrierDestroy, runCmd_of_mayRun (more := fun _ => []) hu h]
  dsimp only
  split
  case isTrue => rw [immediate_refused (sched_of_mayRun h rfl)]
  case isFalse => rw [immediate_passed (sched_of_mayRun h rfl)]

section
variable {x : Carrier}

/-- CARRIER_SET with settings in range, within the stream budgets of both directions (R97, R101). -/
theorem exec_carrierSet_good (h : mayRun u 0x11 c [] f) (hx : carrierAt u (handleIdx c.handle) = some x)
    (hgood : setGood u x c (if sched c then c.actTick else u.time.tick) = true)
    (hbudget : bitAt (p8 c 16) 1 = true → ∀ d, d < 2 → budgetsHold u d (directionLoad u d (handleIdx c.handle) (p16 c 18)) = true)
    (hwin : sched c = true → inWindow u c f (carrierSetKeys c)) :
    let n := if sched c then c.actTick else u.time.tick
    let new := settingsAt x (pendingSets u c.handle ++ [(n, c)]) n
    let grant := fun v => if bitAt (p8 c 16) 1 || bitAt (p8 c 16) 2 then regrant v (handleIdx c.handle) new.k (firstNew v new n) else v
    exec (.carrierSet t c) s = .next
      (if sched c then grant (accept u f (carrierSetKeys c) []) else complete (applyCarrierSet (grant u) c f.id n) f 0) := by
  intro n new grant
  show execCarrierSet t c s = _
  obtain rfl := cmd_of_mayRun h
  have within : (bitAt (p8 f.cmd 16) 1 && !(budgetsHold u 0 (directionLoad u 0 (handleIdx f.cmd.handle) (p16 f.cmd 18))
      && budgetsHold u 1 (directionLoad u 1 (handleIdx f.cmd.handle) (p16 f.cmd 18)))) = false := by
    cases hb : bitAt (p8 f.cmd 16) 1
    · rfl
    · simp [hbudget hb]
  rw [execCarrierSet, runCmd_of_mayRun (more := fun _ => []) hu h]
  simp only [hx, within, hgood, Bool.not_true, Bool.false_eq_true, if_false, lateChecks_passed hwin]
  rfl

theorem exec_carrierSet_bad (h : mayRun u 0x11 c [] f) (hx : carrierAt u (handleIdx c.handle) = some x)
    (hbad : setGood u x c (if sched c then c.actTick else u.time.tick) = false) :
    exec (.carrierSet t c) s = .next (reject u f stBadParam) := by
  show execCarrierSet t c s = _
  rw [execCarrierSet, runCmd_of_mayRun (more := fun _ => []) hu h]
  simp only [hx, hbad, Bool.not_false, lateChecks_bad]

variable {i : Nat} (hx : carrierAt u i = some x)
include hx

/-- A restart that an applied change left due runs under the settings that were in force. -/
theorem exec_carrierRestart_left {d : Nat × Nat × Settings} (hd : x.dlDue.find? (fun y => decide (y.2.1 ≤ u.time.tick + 160)) = some d) :
    exec (.carrierRestart t i) s = .next
      (modCarrier (restartDl u i (x.under d.2.2) d.1) i fun y => { y with dlDue := y.dlDue.erase d }) := by
  show execCarrierRestart t i s = _
  simp only [execCarrierRestart, ← hu, hx, hd]

/-- The restart of a pending change comes 160 ticks before its first new-rate sample (R163). -/
theorem exec_carrierRestart_pending {p : Pending} {y : Carrier} (hnone : ∀ d ∈ x.dlDue, u.time.tick + 160 < d.2.1)
    (hdue : dueRestart u i x = some (p, y)) :
    exec (.carrierRestart t i) s = .next
      (modCarrier (restartDl u i (y.atTick (y.grid - 1)) p.tick) i fun z => { z with dlRestarted := p.id :: z.dlRestarted }) := by
  show execCarrierRestart t i s = _
  have left : x.dlDue.find? (fun y => decide (y.2.1 ≤ u.time.tick + 160)) = none :=
    List.find?_eq_none.mpr fun d hd => by simpa using hnone d hd
  simp only [execCarrierRestart, ← hu, hx, left, hdue]

theorem exec_ulCarrierRestart {d : Nat × Nat × Nat} (hd : x.ulRestart.find? (fun y => decide (y.1 ≤ u.time.tick)) = some d) :
    exec (.ulCarrierRestart t i) s = .next
      (modCarrier u i fun y => { y with ulRestart := y.ulRestart.erase d, ulZero := d.2 :: y.ulZero }) := by
  show execUlCarrierRestart t i s = _
  simp only [execUlCarrierRestart, ← hu, hx, hd]

end

/-! ## Per-path correction -/

theorem exec_pathCorr (h : mayRun u 0x20 c [] f) (hpath : pathPresent u (p8 c 16) = true) (hd : p8 c 17 ≤ 1) (hdelay : p16 c 22 ≤ 4095)
    (hwin : sched c = true → inWindow u c f [(0x20, p8 c 16, p8 c 17)]) :
    exec (.pathCorr t c) s = .next
      (if sched c then accept u f [(0x20, p8 c 16, p8 c 17)] []
       else complete (applyCorr u (p8 c 16) (p8 c 17) (p16 c 18) (p16 c 20) (p16 c 22) u.time.tick) f 0) := by
  show execPathCorr t c s = _
  obtain rfl := cmd_of_mayRun h
  have good : (!pathPresent u (p8 f.cmd 16) || decide (1 < p8 f.cmd 17) || decide (4095 < p16 f.cmd 22)) = false := by
    simp [hpath, hd, hdelay]
  rw [execPathCorr, runCmd_of_mayRun (more := fun _ => []) hu h]
  simp only [good, schedulable_passed hwin]
  split <;> rfl

theorem exec_corrWrite_present (n d w data : Nat) (hawake : asleep u = false) (hn : pathPresent u n = true) (hd : d < 2) (hw : w < 2) :
    exec (.corrWrite t n d w data) s = .next (writeCorr (countCfg u 1) n d w data) := by
  show execCorrWrite t n d w data s = _
  have present : pathPresent (countCfg u 1) n = true := hn
  rw [execCorrWrite, byWrite_awake hu hawake]
  simp only [present, hd, hw, decide_true, Bool.and_true, if_true]

theorem exec_corrWrite_absent (n d w data : Nat) (hawake : asleep u = false) (hn : pathPresent u n = false) :
    exec (.corrWrite t n d w data) s = .next (countCfg u 1) := by
  show execCorrWrite t n d w data s = _
  have absent : pathPresent (countCfg u 1) n = false := hn
  rw [execCorrWrite, byWrite_awake hu hawake]
  simp only [absent, Bool.false_and, Bool.false_eq_true, if_false]

omit hu

theorem addUlSpan_regs (s : State) (i a b : Nat) : (addUlSpan s i a b).regs = s.regs := by
  unfold addUlSpan modCarrier
  split <;> rfl

theorem spoilByDelay_regs (s : State) (n d1 d2 : Nat) : (spoilByDelay s n d1 d2).regs = s.regs := by
  unfold spoilByDelay
  generalize s.carriers = l
  induction l generalizing s with
  | nil => rfl
  | cons y l ih =>
    rw [List.foldl_cons, ih]
    split
    · exact addUlSpan_regs ..
    · rfl

/-- The three fields of a correction written one after another. -/
def setCorr (s : State) (n d taper phase delay : Nat) : State :=
  setF (setF (setF s (F.BEAM_CORR_TAPER n d) taper) (F.BEAM_CORR_PHASE n d) phase) (F.BEAM_CORR_1_DELAY n d) delay

theorem applyCorr_regs (s : State) (n d taper phase delay m : Nat) :
    (applyCorr s n d taper phase delay m).regs = (setCorr s n d taper phase delay).regs := by
  unfold applyCorr
  dsimp only
  split
  · exact spoilByDelay_regs ..
  · rfl

theorem getR_applyCorr (s : State) (n d taper phase delay m : Nat) (r : Reg) :
    getR (applyCorr s n d taper phase delay m) r = getR (setCorr s n d taper phase delay) r := by
  rw [getR, getR, applyCorr_regs]

theorem getF_applyCorr (s : State) (n d taper phase delay m : Nat) (g : Fld) :
    getF (applyCorr s n d taper phase delay m) g = getF (setCorr s n d taper phase delay) g := by
  rw [getF, getF, getR_applyCorr]

/-- The two words of a path and direction never coincide. -/
theorem corr_addr_ne (n d m e : Nat) : (A.BEAM_CORR n d).addr ≠ (A.BEAM_CORR_1 m e).addr := by
  simp only [A.BEAM_CORR, A.BEAM_CORR_1]
  omega

theorem getF_setCorr (s : State) {n d taper phase delay : Nat} (ht : taper < 2 ^ 16) (hp : phase < 2 ^ 16) (hdelay : delay < 2 ^ 12) :
    getF (setCorr s n d taper phase delay) (F.BEAM_CORR_TAPER n d) = taper
    ∧ getF (setCorr s n d taper phase delay) (F.BEAM_CORR_PHASE n d) = phase
    ∧ corrDelay (setCorr s n d taper phase delay) n d = delay := by
  have other := corr_addr_ne n d n d
  refine ⟨?_, ?_, ?_⟩
  · rw [setCorr, getF_setF_of_ne _ _ other, getF_setF_of_disjoint (f := F.BEAM_CORR_PHASE n d) (g := F.BEAM_CORR_TAPER n d) _ _ rfl
      (by decide : 0 + 16 ≤ 32) (.inl (by decide : 0 + 16 ≤ 16)), getF_setF_same (f := F.BEAM_CORR_TAPER n d) _ _ (by decide : 0 + 16 ≤ 32)]
    exact Nat.mod_eq_of_lt ht
  · rw [setCorr, getF_setF_of_ne _ _ other, getF_setF_same (f := F.BEAM_CORR_PHASE n d) _ _ (by decide : 16 + 16 ≤ 32)]
    exact Nat.mod_eq_of_lt hp
  · rw [corrDelay, setCorr, getF_setF_same (f := F.BEAM_CORR_1_DELAY n d) _ _ (by decide : 0 + 12 ≤ 32)]
    exact Nat.mod_eq_of_lt hdelay

/-- A word that is neither of the two keeps its value. -/
theorem getR_setCorr_of_ne (s : State) {n d taper phase delay : Nat} {r : Reg} (h0 : r.addr ≠ (A.BEAM_CORR n d).addr)
    (h1 : r.addr ≠ (A.BEAM_CORR_1 n d).addr) : getR (setCorr s n d taper phase delay) r = getR s r := by
  rw [setCorr, getR_setF_of_ne _ _ h1, getR_setF_of_ne _ _ h0, getR_setF_of_ne _ _ h0]

/-- Different paths and directions have different words. -/
theorem corr_addr_ne_of_ne {m e n d : Nat} (he : e < 2) (hd : d < 2) (h : (m, e) ≠ (n, d)) :
    (A.BEAM_CORR m e).addr ≠ (A.BEAM_CORR n d).addr ∧ (A.BEAM_CORR_1 m e).addr ≠ (A.BEAM_CORR_1 n d).addr := by
  have differ : ¬(m = n ∧ e = d) := by simpa using h
  simp only [A.BEAM_CORR, A.BEAM_CORR_1]
  omega

end Sys2Proof.Machine
end

section
open Sys2Proof Sys2Proof.Machine

/-- Settles O16: CARRIER_CREATE by the lowest free slot, CARRIER_DESTROY by whether the carrier is named, the rest each by its rule. -/
theorem carriersComplete : Obligations.CarriersComplete := by
  unfold Obligations.CarriersComplete
  refine ⟨fun t c s u f hu => ⟨fun i h hdir hs hgood hfree => ?_, fun h hdir hs hgood hfree => ?_, fun h hstreams hsets => ?_, fun h hnamed => ?_⟩,
    fun t c s u f x hu => ⟨exec_carrierSet_good hu, exec_carrierSet_bad hu, fun _ _ hx => exec_carrierRestart_left hu hx,
      fun _ _ _ hx => exec_carrierRestart_pending hu hx, fun _ _ hx => exec_ulCarrierRestart hu hx⟩⟩
  · rw [exec_carrierCreate hu h hdir hs hgood, hfree]
    rfl
  · rw [exec_carrierCreate hu h hdir hs hgood, hfree]
    rfl
  · rw [exec_carrierDestroy hu h, if_neg]
    simpa using ⟨fun a y hy => hstreams (a, y) hy, fun a y hy => hsets (a, y) hy⟩
  · rw [exec_carrierDestroy hu h, if_pos]
    simpa using hnamed

/-- Settles O17: the commands by their rules; the fields read what was last written to their bits, and no other word is written. -/
theorem pathCorrectionComplete : Obligations.PathCorrectionComplete := by
  unfold Obligations.PathCorrectionComplete
  intro t c s u f hu
  refine ⟨exec_pathCorr hu, fun n d w data ha hn hd hw => exec_corrWrite_present hu n d w data ha hn hd hw,
    fun n d w data ha hn => exec_corrWrite_absent hu n d w data ha hn, fun n d taper phase delay m _ hd ht hp hdelay => ?_⟩
  obtain ⟨htaper, hphase, hdel⟩ := getF_setCorr u (n := n) (d := d) ht hp hdelay
  refine ⟨?_, ?_, ?_, fun m' e _ he hne => ⟨?_, ?_⟩⟩
  · rw [getF_applyCorr, htaper]
  · rw [getF_applyCorr, hphase]
  · rw [corrDelay, getF_applyCorr]
    exact hdel
  · rw [getR_applyCorr, getR_setCorr_of_ne _ (corr_addr_ne_of_ne he hd hne).1 (corr_addr_ne m' e n d)]
  · rw [getR_applyCorr, getR_setCorr_of_ne _ (corr_addr_ne n d m' e).symm (corr_addr_ne_of_ne he hd hne).2]

end

section
/-!
The commands of streams and partners (R101, R105, R322, R326-R330).
-/
namespace Sys2Proof.Machine

variable {t : Nat} {c : Cmd} {s u : State} {f : Flight} (hu : u = advance t s)

/-! ## STREAM_CREATE -/

section
variable (u : State) (c : Cmd) (x : Carrier) (j : Nat)

/-- The stream that a STREAM_CREATE on carrier `x` makes in slot `j`. -/
def newStream : Stream :=
  { gen := nextGen u 2 j, carrier := handleIdx c.handle, dir := p8 c 16, layer := p8 c 17, format := p8 c 18, partner := p32 c 20,
    acked := false, grant := (x.k, x.grid, 0), orphan := none, orphanEnd := none, newest := none, slots := [], firstAccepted := none,
    badSlots := 0, firstBad := 0, echoes := [], ulNext := slotFrom x u.time.tick, ulOld := [], ulSeq := 0, newOrigin := false }

/-- The state with that stream in its slot, neither acknowledged nor an orphan. -/
def withStream : State :=
  setBitOf (setBitOf (putStream (takeGen (countUnmapped u u.time.tick) 2 j) j (newStream u c x j)) (fun w => F.BXL_LEASE_ACK_ACK w) j false)
    (fun w => F.BXL_ORPHAN_ORPHAN w) j false

/-- The stream fits the budgets of its direction (R101). -/
def streamFits : Bool :=
  budgetsHold u (p8 c 16) ((smallestK u (handleIdx c.handle) x, p8 c 18)
    :: directionLoad u (p8 c 16) (handleIdx c.handle) (smallestK u (handleIdx c.handle) x))

/-- The parameters of a STREAM_CREATE on carrier `x` are in range, no stream has its layer, and slot `j` is the lowest free one. -/
structure StreamPlaced : Prop where
  dir : p8 c 16 ≤ 1
  layer : p8 c 17 ≤ 63
  format : p8 c 18 ≤ 2
  carrier : carrierAt u (handleIdx c.handle) = some x
  carried : carries x (p8 c 16) = true
  single : ∀ y ∈ u.streams, ¬(y.2.carrier = handleIdx c.handle ∧ y.2.dir = p8 c 16 ∧ y.2.layer = p8 c 17)
  free : freeStream u (p8 c 16) = some j

end

theorem StreamPlaced.no_other {u : State} {c : Cmd} {x : Carrier} {j : Nat} (h : StreamPlaced u c x j) :
    u.streams.any (fun y => y.2.carrier = handleIdx c.handle && y.2.dir = p8 c 16 && y.2.layer = p8 c 17) = false := by
  refine List.any_eq_false.mpr fun y hy => ?_
  have := h.single y hy
  simpa [and_assoc] using this

include hu

/-- While its turn comes no reset falls due, so the role that the row reads before time moves is that of `u`. -/
theorem isMember_of_turn (h : turn u c = some f) : isMember s = isMember u := by
  subst hu
  rw [advance_of_turn h, isMember_moveTime]

section
variable {x : Carrier} {j : Nat} (hplace : StreamPlaced u c x j)
include hplace

/-- What a STREAM_CREATE answers, and makes, once its parameters are in range (R101, R326). -/
theorem exec_streamCreate (h : mayRun u 0x14 c (if isMember u then [] else [(6, p32 c 20)]) f) (hzero : isMember u = true → p32 c 20 = 0)
    (hknown : isMember u = false →
      (partnerAt u (handleIdx (p32 c 20))).all (fun p => bitAt p.formats (p8 c 18) && !(p.ver = 1 && p8 c 18 = 2)) = true) :
    exec (.streamCreate t c) s = .next (immediate u f false
      (if !streamFits u c x then some stNoResource
       else if !isMember u && (partnerAt u (handleIdx (p32 c 20))).any (·.lost) then some stBusy else none) false fun v =>
        (sendGrant (if isMember u then withStream v c x j else showStreams (withStream v c x j) (handleIdx (p32 c 20))) j,
          mkHandle 2 (nextGen v 2 j) j)) := by
  show execStreamCreate t c s = _
  have role := isMember_of_turn hu h.2.1
  have local' : (isMember u && p32 c 20 != 0) = false := by
    cases hm : isMember u
    · rfl
    · simp [hzero hm]
  rw [execStreamCreate, role]
  dsimp only
  rw [runCmd_of_mayRun (more := fun u => if isMember u then [] else [(6, p32 c 20)]) hu h]
  simp only [hplace.carrier, hplace.free, hplace.no_other, hplace.carried, Nat.not_lt.mpr hplace.dir, Nat.not_lt.mpr hplace.layer,
    Nat.not_lt.mpr hplace.format, local', decide_false, Bool.not_true, Bool.or_false, Bool.false_or]
  cases hp : partnerAt u (handleIdx (p32 c 20)) with
  | none =>
    simp only [Bool.not_true, Bool.and_false, Option.any_none]
    rfl
  | some p =>
    have known : (!isMember u && !(bitAt p.formats (p8 c 18) && !(decide (p.ver = 1) && decide (p8 c 18 = 2)))) = false := by
      cases hm : isMember u
      · simpa [hp, imp_iff_not_or] using hknown hm
      · rfl
    simp only [known]
    rfl

end

/-! ## STREAM_DESTROY and PARTNER_DESTROY -/

section
variable {y : Stream} (hy : streamAt u (handleIdx c.handle) = some y) (h : mayRun u 0x15 c [] f)
include hy h

theorem exec_streamDestroy_joined {q : Nat} (horphan : y.orphan = none) (hq : streamPartner u y = some q) :
    exec (.streamDestroy t c) s = .next
      (complete (removeStream (sendMessage (closeStream u (handleIdx c.handle) y) q 0x07 (leBytes 4 c.handle)) (handleIdx c.handle)) f 0) := by
  show execStreamDestroy t c s = _
  rw [execStreamDestroy, runCmd_of_mayRun (more := fun _ => []) hu h, immediate_passed (sched_of_mayRun h rfl)]
  simp only [hy, horphan, hq, Option.isSome_none, Bool.false_eq_true, if_false]

theorem exec_streamDestroy_alone (horphan : y.orphan = none) (hq : streamPartner u y = none) :
    exec (.streamDestroy t c) s = .next (complete (removeStream u (handleIdx c.handle)) f 0) := by
  show execStreamDestroy t c s = _
  rw [execStreamDestroy, runCmd_of_mayRun (more := fun _ => []) hu h, immediate_passed (sched_of_mayRun h rfl)]
  simp only [hy, horphan, hq, Option.isSome_none, Bool.false_eq_true, if_false]

theorem exec_streamDestroy_orphan (horphan : y.orphan.isSome = true) :
    exec (.streamDestroy t c) s = .next
      (complete (removeStream (postOrphanEnd u (handleIdx c.handle) 0) (handleIdx c.handle)) f 0) := by
  show execStreamDestroy t c s = _
  rw [execStreamDestroy, runCmd_of_mayRun (more := fun _ => []) hu h, immediate_passed (sched_of_mayRun h rfl)]
  simp only [hy, horphan, if_true]

end

/-- PARTNER_DESTROY says BYE to a JOINED partner, whose streams become orphans; a LOST one only leaves its slot (R328, R330). -/
theorem exec_partnerDestroy {p : Partner} (h : mayRun u 0x68 c [] f) (hp : partnerAt u (handleIdx c.handle) = some p) :
    exec (.partnerDestroy t c) s = .next
      (complete (cancelNaming (freePartner (if p.lost then u else orphanStreams (sendMessage u (handleIdx c.handle) 0x09 (leBytes 8 p.ident))
        (handleIdx c.handle) u.time.now) (handleIdx c.handle)) c.handle) f 0) := by
  show execPartnerDestroy t c s = _
  rw [execPartnerDestroy, runCmd_of_mayRun (more := fun _ => []) hu h, immediate_passed (sched_of_mayRun h rfl)]
  simp only [hp]

end Sys2Proof.Machine
end

section
open Sys2Proof Sys2Proof.Machine

/-- Settles O18: STREAM_CREATE by its answer on a member and off one, the two destructions by what the stream and the partner are. -/
theorem streamCommandsComplete : Obligations.StreamCommandsComplete := by
  unfold Obligations.StreamCommandsComplete
  intro t c s u f x p j hu
  refine ⟨fun hdir hlayer hformat hx hcarries hsingle hfree => ?_, fun y q h hy => exec_streamDestroy_joined hu hy h,
    fun y h hy => exec_streamDestroy_alone hu hy h, fun y h hy => exec_streamDestroy_orphan hu hy h, fun h hp hlost => ?_,
    fun h hp hlost => ?_⟩
  · have place : StreamPlaced u c x j := ⟨hdir, hlayer, hformat, hx, hcarries, hsingle, hfree⟩
    intro y v w fits
    refine ⟨fun h hmember hp hbit hver => ?_, fun h hmember hzero hfits => ?_⟩
    · have run : mayRun u 0x14 c (if isMember u then [] else [(6, p32 c 20)]) f := by rwa [hmember]
      have known : isMember u = false → (partnerAt u (handleIdx (p32 c 20))).all
          (fun p => bitAt p.formats (p8 c 18) && !(p.ver = 1 && p8 c 18 = 2)) = true := fun _ => by
        simp only [hp, Option.all_some, hbit, Bool.true_and, Bool.not_eq_true', Bool.and_eq_false_imp, decide_eq_true_eq, decide_eq_false_iff_not]
        exact hver
      have answer := exec_streamCreate hu place run (by simp [hmember]) known
      rw [hp, hmember] at answer
      have room : streamFits u c x = fits := rfl
      refine ⟨fun hfits hlost => ?_, fun hfits hlost => ?_, fun hfits => ?_⟩
      · rw [answer, room, hfits, Option.any_some, hlost]
        exact congrArg _ (immediate_passed (sched_of_mayRun run rfl) _)
      · rw [answer, room, hfits, Option.any_some, hlost]
        exact congrArg _ (immediate_refused (sched_of_mayRun run rfl) ..)
      · rw [answer, room, hfits]
        exact congrArg _ (immediate_refused (sched_of_mayRun run rfl) ..)
    · have run : mayRun u 0x14 c (if isMember u then [] else [(6, p32 c 20)]) f := by rwa [hmember]
      have room : streamFits u c x = fits := rfl
      rw [exec_streamCreate hu place run (fun _ => hzero) (by simp [hmember]), room, hfits, hmember]
      exact congrArg _ (immediate_passed (sched_of_mayRun run rfl) _)
  · rw [exec_partnerDestroy hu h hp, hlost]
    rfl
  · rw [exec_partnerDestroy hu h hp, hlost]
    rfl

end

section
/-!
Weight sets: their commands and the arrival of their data (R98, R105, R120-R129, R509).
-/
namespace Sys2Proof.Machine

variable {t : Nat} {c : Cmd} {s u : State} {f : Flight} {w : WeightSet} (hu : u = advance t s)

include hu

/-- WS_LOAD of a set that neither bank uses: an on-chip-only set takes its staged bank, a source in host memory is read. -/
theorem exec_wsLoad {b : Nat} (h : mayRun u 0x19 c [] f) (hw : setAt u (handleIdx c.handle) = some w)
    (hb : 8192 ≤ handleIdx c.handle → stagedFor u (handleIdx c.handle) w = some b) (halign : p64 c 24 % 4 = 0)
    (hbad : regionBad (p8 c 16) (p64 c 24) (bytesOf w) = false) (hdown : regionDown u (p8 c 16) (p64 c 24) (bytesOf w) = false)
    (hlib : handleIdx c.handle < 8192 → regionDown u 2 (libAddr u (handleIdx c.handle)) (bytesOf w) = false)
    (hactive : inActive u (handleIdx c.handle) = false) (hshadow : inShadow u (handleIdx c.handle) = false)
    (hfill : ∀ y ∈ u.beam.fills, y.slot ≠ handleIdx c.handle) :
    let v := setStage u f.id .running
    let v := if handleIdx c.handle < 8192 then v
      else { v with beam := { v.beam with loads := v.beam.loads ++ [(f.id, handleIdx c.handle, b)] } }
    exec (.wsLoad t c) s = .next (if p8 c 16 = 0 then readSource v f (p64 c 24) (bytesOf w) else v) := by
  intro v v'
  show execWsLoad t c s = _
  have aligned : decide (p64 c 24 % 4 ≠ 0) = false := by simp [halign]
  have unfilled : u.beam.fills.any (fun x => x.slot = handleIdx c.handle) = false := by simpa using hfill
  rw [execWsLoad, runCmd_of_mayRun (more := fun _ => []) hu h]
  by_cases slot : handleIdx c.handle < 8192
  · have lib : isLib (handleIdx c.handle) = true := decide_eq_true slot
    simp only [hw, lib, aligned, hbad, hdown, hlib slot, hactive, hshadow, unfilled, Bool.not_true, Bool.false_and, Bool.and_false, Bool.or_false,
      Bool.false_eq_true, if_false, if_true, lateChecks_immediate (sched_of_mayRun h rfl), v', slot]
    rfl
  · have chip : isLib (handleIdx c.handle) = false := decide_eq_false slot
    simp only [hw, chip, aligned, hbad, hdown, hactive, hshadow, unfilled, hb (Nat.le_of_not_lt slot), Option.isNone_some, Bool.and_false,
      Bool.false_and, Bool.or_false, Bool.false_eq_true, if_false, lateChecks_immediate (sched_of_mayRun h rfl), v', slot, Option.getD_some]
    rfl

omit hu in
/-- The bytes of a set that a WS_LOAD finds: those that host memory gave, or those in the store or the DRAM (R125). -/
def loadedBytes (v : State) (f : Flight) (w : WeightSet) (host : List Byte) : List Byte :=
  if p8 f.cmd 16 = 0 then host.take (bytesOf w)
  else if p8 f.cmd 16 = 1 then memRead v.store (p64 f.cmd 24) (bytesOf w) else memRead v.dram (p64 f.cmd 24) (bytesOf w)

omit hu in
/-- The load needs the DRAM port: its source or its library slot lies in DRAM. -/
def loadNeedsDram (f : Flight) : Bool := decide (p8 f.cmd 16 = 2) || isLib (handleIdx f.cmd.handle)

omit hu in
theorem loadNeedsDram_iff (f : Flight) : loadNeedsDram f = true ↔ p8 f.cmd 16 = 2 ∨ handleIdx f.cmd.handle < 8192 := by
  simp [loadNeedsDram, isLib]

omit hu in
theorem loadNeedsDram_eq_false (hspace : p8 f.cmd 16 ≠ 2) (hslot : 8192 ≤ handleIdx f.cmd.handle) : loadNeedsDram f = false := by
  rw [← Bool.not_eq_true, loadNeedsDram_iff]
  omega

section
variable {v : State} (hw : setAt v (handleIdx f.cmd.handle) = some w) (hgen : w.gen = handleGen f.cmd.handle)
include hw hgen

omit hu in
theorem wsLoadArrived_library {host : List Byte} (hport : loadNeedsDram f = true → dramTrained v = true) (hslot : handleIdx f.cmd.handle < 8192) :
    wsLoadArrived (keepSource v f []) f host = complete { dropLoad (keepSource v f []) f.id with
      dram := memWrite v.dram (libAddr v (handleIdx f.cmd.handle)) (loadedBytes v f w host) } f 0 := by
  have found : setAt (keepSource v f []) (handleIdx f.cmd.handle) = some w := hw
  have trained : dramTrained (keepSource v f []) = true := hport ((loadNeedsDram_iff f).mpr (.inr hslot))
  have lib : isLib (handleIdx f.cmd.handle) = true := decide_eq_true hslot
  simp only [wsLoadArrived, found, hgen, trained, lib, bne_self_eq_false, Bool.not_true, Bool.false_and, Bool.false_eq_true, if_false, if_true]
  rfl

omit hu in
theorem wsLoadArrived_onChip {host : List Byte} (hport : loadNeedsDram f = true → dramTrained v = true) (hslot : 8192 ≤ handleIdx f.cmd.handle) :
    wsLoadArrived (keepSource v f []) f host = complete (showCols (putSet (dropLoad (keepSource v f []) f.id) (handleIdx f.cmd.handle) { w with
      bank := (v.beam.loads.find? (fun y => y.1 = f.id)).map (·.2.2) <|> w.bank, data := loadedBytes v f w host }) w.dir) f 0 := by
  have found : setAt (keepSource v f []) (handleIdx f.cmd.handle) = some w := hw
  have there : (!dramTrained (keepSource v f []) && (decide (p8 f.cmd 16 = 2) || isLib (handleIdx f.cmd.handle))) = false := by
    change (!dramTrained v && loadNeedsDram f) = false
    cases hn : loadNeedsDram f
    · simp
    · simp [hport hn]
  have chip : isLib (handleIdx f.cmd.handle) = false := decide_eq_false (Nat.not_lt.mpr hslot)
  simp only [wsLoadArrived, found, hgen, there, bne_self_eq_false, Bool.false_eq_true, if_false]
  simp only [chip, Bool.false_eq_true, if_false]
  rfl

end

omit hu in
theorem wsLoadArrived_gone {v : State} {host : List Byte} (hgone : ∀ w, setAt v (handleIdx f.cmd.handle) = some w → w.gen ≠ handleGen f.cmd.handle) :
    wsLoadArrived (keepSource v f []) f host = reject (dropLoad (keepSource v f []) f.id) f stBadHandle := by
  cases hw : setAt v (handleIdx f.cmd.handle) with
  | none =>
    have none : setAt (keepSource v f []) (handleIdx f.cmd.handle) = none := hw
    simp only [wsLoadArrived, none]
  | some w =>
    have found : setAt (keepSource v f []) (handleIdx f.cmd.handle) = some w := hw
    simp only [wsLoadArrived, found, bne_iff_ne.mpr (hgone w hw), if_true]

omit hu in
theorem wsLoadArrived_down {v : State} {host : List Byte} (hw : setAt v (handleIdx f.cmd.handle) = some w) (hgen : w.gen = handleGen f.cmd.handle)
    (hneed : loadNeedsDram f = true) (hdown : dramTrained v = false) :
    wsLoadArrived (keepSource v f []) f host = reject (dropLoad (keepSource v f []) f.id) f stMemDown := by
  have found : setAt (keepSource v f []) (handleIdx f.cmd.handle) = some w := hw
  have missing : (!dramTrained (keepSource v f []) && (decide (p8 f.cmd 16 = 2) || isLib (handleIdx f.cmd.handle))) = true := by
    change (!dramTrained v && loadNeedsDram f) = true
    simp [hneed, hdown]
  simp only [wsLoadArrived, found, hgen, missing, bne_self_eq_false, Bool.false_eq_true, if_false, if_true]

section
variable {data : List Byte} (hawake : asleep u = false) (hf : sourceFlight u f.cmd.ring f.cmd.tag = some f)
include hawake hf

/-- While a part of the region has found no tag, what arrives is kept. -/
theorem exec_sourceDataReadComplete_part (hrest : 0 < f.rest.2) : exec (.sourceDataReadComplete t f.cmd.ring f.cmd.tag data) s = .next
    (if data.length = f.source.2 - f.rest.2 - f.got.length then pumpShared (keepSource u f data) else u) := by
  show execSourceDataReadComplete t f.cmd.ring f.cmd.tag data s = _
  simp only [execSourceDataReadComplete, ← hu, hawake, hf, hrest, sourceOwed, Bool.false_eq_true, if_false, if_true]

theorem exec_sourceDataReadComplete_whole (hrest : f.rest.2 = 0) :
    exec (.sourceDataReadComplete t f.cmd.ring f.cmd.tag data) s = .next (sourceWhole u f (f.got ++ data)) := by
  show execSourceDataReadComplete t f.cmd.ring f.cmd.tag data s = _
  simp only [execSourceDataReadComplete, ← hu, hawake, hf, hrest, Nat.lt_irrefl, Bool.false_eq_true, if_false]

end

omit hu in
/-- The last data of a WS_LOAD go through the DRAM port where it is trained and needed. -/
theorem sourceWhole_wsLoad (hop : f.cmd.opcode = 0x19) (data : List Byte) :
    sourceWhole u f data
      = throughPort (dramTrained u && loadNeedsDram f) (fun v => pumpShared (wsLoadArrived (keepSource v f []) f data)) u := by
  simp only [sourceWhole, hop, if_true]
  rfl

omit hu in
theorem throughPort_unneeded (k : State → State) : throughPort false k u = k u := rfl

omit hu in
theorem throughPort_served {v : State} (hv : v = disturbSr u) (h : portServes v = true) (k : State → State) : throughPort true k u = k v := by
  subst hv
  simp [throughPort, h]

omit hu in
theorem throughPort_closed (h : portServes (disturbSr u) = false) (k : State → State) : throughPort true k u = disturbSr u := by
  simp [throughPort, h]

omit hu in
/-- The state in which the data of a load are taken: that behind the port where it needs it, else `u` itself. -/
theorem sourceWhole_wsLoad_served {v : State} (hop : f.cmd.opcode = 0x19) (data : List Byte)
    (hport : p8 f.cmd 16 = 2 ∨ handleIdx f.cmd.handle < 8192 → dramTrained u = true ∧ v = disturbSr u ∧ portServes v = true)
    (hfree : p8 f.cmd 16 ≠ 2 → 8192 ≤ handleIdx f.cmd.handle → v = u) :
    sourceWhole u f data = pumpShared (wsLoadArrived (keepSource v f []) f data) := by
  rw [sourceWhole_wsLoad hop]
  by_cases need : p8 f.cmd 16 = 2 ∨ handleIdx f.cmd.handle < 8192
  · obtain ⟨htrained, hv, hserves⟩ := hport need
    rw [htrained, (loadNeedsDram_iff f).mpr need, Bool.and_self, throughPort_served hv hserves]
  · obtain ⟨hspace, hslot⟩ := not_or.mp need
    have slot : 8192 ≤ handleIdx f.cmd.handle := Nat.le_of_not_lt hslot
    rw [loadNeedsDram_eq_false hspace slot, Bool.and_false, throughPort_unneeded, hfree hspace slot]

omit hu in
theorem dramTrained_of_portServes {v : State} (h : portServes v = true) : dramTrained v = true := by
  simp only [portServes, Bool.and_eq_true] at h
  exact h.1.1.1.1

/-! ## WS_ACTIVATE and WS_DESTROY -/

section
variable (h : mayRun u 0x1A c [] f) (hw : setAt u (handleIdx c.handle) = some w) (hbank : 8192 ≤ handleIdx c.handle → w.bank.isSome = true)
  (hwin : inWindow u c f [(0x1A, handleIdx w.carrier, w.dir)])
include h hw hbank hwin

omit hu h hw hwin in
theorem activateBad_eq_false : (!isLib (handleIdx c.handle) && w.bank.isNone) = false := by
  by_cases slot : handleIdx c.handle < 8192
  · have lib : isLib (handleIdx c.handle) = true := decide_eq_true slot
    rw [lib]
    rfl
  · rw [Option.isNone_eq_false_iff.mpr (hbank (Nat.le_of_not_lt slot)), Bool.and_false]

theorem exec_wsActivate_fits (hfits : activateFits u (handleIdx c.handle) (handleIdx w.carrier) w.dir (colsOf w) c.actTick = true)
    (hbars : handleIdx c.handle < 8192 → changeBars u c.actTick = false) :
    exec (.wsActivate t c) s = .next
      (accept { u with beam := { u.beam with fills := u.beam.fills ++
        [{ id := f.id, slot := handleIdx c.handle, carrier := handleIdx w.carrier, dir := w.dir, cols := colsOf w, tick := c.actTick,
           started := false, done := false, failed := false, down := false, data := [] }] } } f [(0x1A, handleIdx w.carrier, w.dir)] []) := by
  show execWsActivate t c s = _
  have unbarred : (isLib (handleIdx c.handle) && changeBars u c.actTick) = false := by
    simpa [isLib] using hbars
  obtain rfl := cmd_of_mayRun h
  rw [execWsActivate, runCmd_of_mayRun (more := fun _ => []) hu h]
  simp only [hw, activateBad_eq_false hbank, hfits, unbarred, Bool.not_false, Bool.and_true, if_true, lateChecks_inWindow hwin]

theorem exec_wsActivate_full (hfits : activateFits u (handleIdx c.handle) (handleIdx w.carrier) w.dir (colsOf w) c.actTick = false) :
    exec (.wsActivate t c) s = .next (reject u f stNoResource) := by
  show execWsActivate t c s = _
  obtain rfl := cmd_of_mayRun h
  obtain ⟨hlead, hfar, hkeys, -⟩ := hwin
  rw [execWsActivate, runCmd_of_mayRun (more := fun _ => []) hu h]
  simp only [hw, activateBad_eq_false hbank, hfits, Bool.false_and, Bool.false_eq_true, if_false]
  rw [lateChecks_timely (sched_of_scheduledOnly h rfl) hlead hfar, hkeys]
  rfl

end

theorem exec_wsDestroy (h : mayRun u 0x1B c [] f) : exec (.wsDestroy t c) s = .next
    (if inActive u (handleIdx c.handle) || inShadow u (handleIdx c.handle) then reject u f stBusy
     else complete (showAllCols (cancelNaming (dropLoads { u with beam := { u.beam with sets := assocDel u.beam.sets (handleIdx c.handle) } }
       (handleIdx c.handle)) c.handle)) f 0) := by
  show execWsDestroy t c s = _
  rw [execWsDestroy, runCmd_of_mayRun (more := fun _ => []) hu h]
  dsimp only
  split
  case isTrue => rw [immediate_refused (sched_of_mayRun h rfl)]
  case isFalse => rw [immediate_passed (sched_of_mayRun h rfl)]

end Sys2Proof.Machine
end

section
open Sys2Proof Sys2Proof.Machine

/-- Settles O19: each command by its rule; the data of a WS_LOAD by whether the load needs the DRAM port and by where its set lies. -/
theorem weightSetCommandsComplete : Obligations.WeightSetCommandsComplete := by
  unfold Obligations.WeightSetCommandsComplete
  intro t c s u f w x hu
  refine ⟨fun h hslot hdir hl hl' hs hcols hx hsub hcarries hlib hempty => ?_, fun b => exec_wsLoad hu, fun v data bytes hawake hf hop hrest hport hfree hw hgen hbytes => ?_,
    fun data hawake hf hop => ⟨exec_sourceDataReadComplete_part hu hawake hf, fun hrest htrained hneed hclosed => ?_⟩, fun ring tag data hasleep => ?_,
    fun data hawake hf hop hrest hdown => ?_, exec_wsActivate_fits hu, exec_wsActivate_full hu, fun h hactive hshadow => ?_, fun h hbusy => ?_⟩
  · rw [exec_wsCreate hu h, wsCreateBad_eq_false hslot hdir hl hl' hs hcols hx hsub hcarries hlib, hempty]
    exact congrArg _ (immediate_passed (sched_of_mayRun h rfl) _)
  · have trained : loadNeedsDram f = true → dramTrained v = true := fun hn =>
      dramTrained_of_portServes (hport ((loadNeedsDram_iff f).mp hn)).2.2
    subst hbytes
    intro w0
    rw [exec_sourceDataReadComplete_whole hu hawake hf hrest, sourceWhole_wsLoad_served hop _ hport hfree]
    exact ⟨fun hslot => congrArg (fun x => Host.Outcome.next (pumpShared x)) (wsLoadArrived_library hw hgen trained hslot),
      fun hslot => congrArg (fun x => Host.Outcome.next (pumpShared x)) (wsLoadArrived_onChip hw hgen trained hslot)⟩
  · rw [exec_sourceDataReadComplete_whole hu hawake hf hrest, sourceWhole_wsLoad hop, htrained, (loadNeedsDram_iff f).mpr hneed, Bool.and_self,
      throughPort_closed hclosed]
  · show execSourceDataReadComplete t ring tag data s = _
    simp only [execSourceDataReadComplete, ← hu, hasleep, if_true]
  · have direct : (dramTrained u && loadNeedsDram f) = false := by
      cases hn : loadNeedsDram f
      · simp
      · simp [hdown ((loadNeedsDram_iff f).mp hn)]
    rw [exec_sourceDataReadComplete_whole hu hawake hf hrest, sourceWhole_wsLoad hop, direct, throughPort_unneeded]
    exact ⟨fun hgone => by rw [wsLoadArrived_gone hgone],
      fun hw hgen hneed => by rw [wsLoadArrived_down hw hgen ((loadNeedsDram_iff f).mpr hneed) (hdown hneed)]⟩
  · rw [exec_wsDestroy hu h, hactive, hshadow]
    rfl
  · rw [exec_wsDestroy hu h, if_pos (by simpa using hbusy)]

end

section
/-!
What an event and a request to the DRAM port leave alone. An event changes the host interface, its registers and what is driven out. A
request changes neither the library's base nor, while the port stays trained, the beam engine (R82, R405-R413).
-/
namespace Sys2Proof.Machine

/-! ## Events -/

/-- `s` differs from `b` in the host interface, the words of block HOST and what is driven out only. -/
def HostOnly (b s : State) : Prop :=
  { s with host := b.host, regs := b.regs, out := b.out } = b ∧ ∀ r : Reg, r.addr < 0x20000 ∨ 0x30000 ≤ r.addr → getR s r = getR b r

theorem HostOnly.refl (b : State) : HostOnly b b := ⟨rfl, fun _ _ => rfl⟩

section
variable {b s : State} (h : HostOnly b s)
include h

theorem HostOnly.setR {w : Reg} (v : Word) (hlo : 0x20000 ≤ w.addr) (hhi : w.addr < 0x30000) : HostOnly b (setR s w v) := by
  obtain ⟨hframe, hregs⟩ := h
  refine ⟨hframe, fun r hr => ?_⟩
  rw [getR_setR_of_ne s v (by omega : r.addr ≠ w.addr), hregs r hr]

theorem HostOnly.setF {f : Fld} (v : Nat) (hlo : 0x20000 ≤ f.reg.addr) (hhi : f.reg.addr < 0x30000) : HostOnly b (setF s f v) :=
  h.setR _ hlo hhi

theorem HostOnly.emit (o : Output) : HostOnly b (emit s o) := h

theorem HostOnly.withHost (x : HostSt) : HostOnly b { s with host := x } := h

theorem HostOnly.hostWrite (a l v : Nat) : HostOnly b (hostWrite s a l v) := by
  rw [hostWrite_eq]
  exact h

theorem HostOnly.modOutRing (kind r : Nat) (g : OutRing → OutRing) : HostOnly b (modOutRing s kind r g) := by
  unfold Machine.modOutRing
  split
  · exact h.withHost _
  · exact h.withHost _

theorem HostOnly.sendMsix (vec : Nat) : HostOnly b (sendMsix s vec) := by
  unfold Machine.sendMsix
  split
  · exact h.emit _
  · exact h.withHost _

theorem HostOnly.noteWritten (kind r : Nat) : HostOnly b (noteWritten s kind r) := by
  unfold Machine.noteWritten
  dsimp only
  split
  · exact ((h.modOutRing ..).modOutRing ..).sendMsix _
  · exact h.modOutRing ..

theorem HostOnly.writeEntry (kind r len val : Nat) : HostOnly b (writeEntry s kind r len val) :=
  (((h.hostWrite ..).modOutRing ..).hostWrite ..).noteWritten ..

theorem HostOnly.askCi (kind r : Nat) : HostOnly b (askCi s kind r) := by
  unfold Machine.askCi issueCi
  split
  · exact h
  · split
    · exact ((h.modOutRing ..).modOutRing ..).emit _
    · exact h.modOutRing ..

theorem HostOnly.placeEvent (e : Ev) : HostOnly b (placeEvent s e) := by
  unfold Machine.placeEvent
  split
  · exact h.writeEntry ..
  · exact (h.withHost _).askCi ..

theorem HostOnly.satAdd {f : Fld} (n : Nat) (hlo : 0x20000 ≤ f.reg.addr) (hhi : f.reg.addr < 0x30000) : HostOnly b (satAdd s f n) :=
  h.setF _ hlo hhi

theorem HostOnly.placeLost (r : Nat) : HostOnly b (placeLost s r) := by
  unfold Machine.placeLost
  dsimp only
  split
  · exact h
  · split
    · exact (h.modOutRing ..).satAdd _ (by decide) (by decide)
    · split
      · exact h
      · exact ((h.modOutRing ..).modOutRing ..).placeEvent _

/-- The ring of an event is one of four. -/
theorem HostOnly.postOn {e : Ev} (he : e.ring < 4) : HostOnly b (postOn s e) := by
  unfold Machine.postOn
  dsimp only
  have low : 0x20000 ≤ (F.HOST_EVR_STATUS_DROPPED e.ring).reg.addr := by simp only [F.HOST_EVR_STATUS_DROPPED, A.HOST_EVR_STATUS]; omega
  have high : (F.HOST_EVR_STATUS_DROPPED e.ring).reg.addr < 0x30000 := by simp only [F.HOST_EVR_STATUS_DROPPED, A.HOST_EVR_STATUS]; omega
  split
  · exact h.satAdd _ (by decide) (by decide)
  · split
    · exact ((h.placeLost _).modOutRing ..).placeEvent _
    · exact (((h.placeLost _).modOutRing ..).satAdd _ low high).modOutRing ..

theorem HostOnly.postAt (type tick data : Nat) : HostOnly b (postAt s type tick data) :=
  h.postOn (Nat.mod_lt _ (by decide))

theorem HostOnly.post (type data : Nat) : HostOnly b (post s type data) := h.postAt ..

end

/-! ## The DRAM port -/

/-- `s` follows from `b` by steps of the DRAM port: the library's base stays, a port that is trained was so, and then the beam engine is as it
was. -/
def PortKept (b s : State) : Prop :=
  getR s A.BEAM_LIB_BASE = getR b A.BEAM_LIB_BASE ∧ getR s A.BEAM_LIB_BASE_1 = getR b A.BEAM_LIB_BASE_1
    ∧ (dramTrained s = true → dramTrained b = true ∧ s.beam = b.beam)

/-- Writing a field leaves the library's base and TRAINED alone. -/
def sparesPort (f : Fld) : Bool :=
  f.reg.addr != 0x40000 && f.reg.addr != 0x40004 && (f.reg.addr != 0x1E0004 || decide (f.reg = A.MEMC_STATUS ∧ f.lo + f.width ≤ 31))

theorem PortKept.refl (b : State) : PortKept b b := ⟨rfl, rfl, fun h => ⟨h, rfl⟩⟩

theorem getF_trained_setF {s : State} {f : Fld} (v : Nat) (hf : sparesPort f = true) :
    getF (setF s f v) F.MEMC_STATUS_TRAINED = getF s F.MEMC_STATUS_TRAINED := by
  simp only [sparesPort, Bool.and_eq_true, Bool.or_eq_true, bne_iff_ne, decide_eq_true_eq] at hf
  obtain ⟨-, hother | ⟨hreg, hlo⟩⟩ := hf
  · exact getF_setF_of_ne s v (Ne.symm hother)
  · exact getF_setF_of_disjoint s v hreg.symm (by decide) (.inr hlo)

section
variable {b s : State} (h : PortKept b s)
include h

/-- Steps that change neither registers nor the beam engine. -/
theorem PortKept.of_eq {v : State} (hr : v.regs = s.regs) (hb : v.beam = s.beam) : PortKept b v := by
  obtain ⟨hlo, hhi, hbeam⟩ := h
  have reads : ∀ r, getR v r = getR s r := fun r => by rw [getR, getR, hr]
  refine ⟨(reads _).trans hlo, (reads _).trans hhi, fun ht => ?_⟩
  rw [hb]
  refine hbeam ?_
  rw [← ht, dramTrained, dramTrained, flag, flag, getF, getF, reads]

theorem PortKept.setF {f : Fld} (v : Nat) (hf : sparesPort f = true) : PortKept b (setF s f v) := by
  obtain ⟨hlo, hhi, hbeam⟩ := h
  have trained : dramTrained (Machine.setF s f v) = dramTrained s := by
    rw [dramTrained, dramTrained, flag, flag, getF_trained_setF v hf]
  simp only [sparesPort, Bool.and_eq_true, bne_iff_ne] at hf
  obtain ⟨⟨hne, hne'⟩, -⟩ := hf
  refine ⟨?_, ?_, fun ht => hbeam (trained ▸ ht)⟩
  · rw [getR_setF_of_ne s v (r := A.BEAM_LIB_BASE) (Ne.symm hne), hlo]
  · rw [getR_setF_of_ne s v (r := A.BEAM_LIB_BASE_1) (Ne.symm hne'), hhi]

theorem PortKept.setFlag {f : Fld} (y : Bool) (hf : sparesPort f = true) : PortKept b (setFlag s f y) := h.setF _ hf
theorem PortKept.satAdd {f : Fld} (n : Nat) (hf : sparesPort f = true) : PortKept b (satAdd s f n) := h.setF _ hf
theorem PortKept.wrapAdd {f : Fld} (n : Nat) (hf : sparesPort f = true) : PortKept b (wrapAdd s f n) := h.setF _ hf
theorem PortKept.modMemc (g : MemcSt → MemcSt) : PortKept b (modMemc s g) := h.of_eq rfl rfl
theorem PortKept.emit (o : Output) : PortKept b (emit s o) := h.of_eq rfl rfl

theorem PortKept.raiseFlag {f : Fld} (hf : sparesPort f = true) : PortKept b (raiseFlag s f) := (h.setFlag true hf).of_eq rfl rfl

theorem PortKept.post (type data : Nat) : PortKept b (post s type data) := by
  obtain ⟨hframe, hregs⟩ := (HostOnly.refl s).post type data
  obtain ⟨hlo, hhi, hbeam⟩ := h
  have beam : (Machine.post s type data).beam = s.beam := (congrArg State.beam hframe :)
  have trained : dramTrained (Machine.post s type data) = dramTrained s := by
    rw [dramTrained, dramTrained, flag, flag, getF, getF, hregs F.MEMC_STATUS_TRAINED.reg (.inr (by decide))]
  refine ⟨(hregs _ (.inr (by decide))).trans hlo, (hregs _ (.inr (by decide))).trans hhi, fun ht => ?_⟩
  rw [beam]
  exact hbeam (trained ▸ ht)

omit h in
theorem PortKept.foldl {α : Type} {g : State → α → State} (hg : ∀ v x, PortKept b v → PortKept b (g v x)) (l : List α) (h : PortKept b s) :
    PortKept b (l.foldl g s) := by
  induction l generalizing s with
  | nil => exact h
  | cons x l ih => exact ih (hg s x h)

theorem PortKept.accessRow (a : Nat) : PortKept b (accessRow s a) := h.modMemc _

theorem PortKept.writeBack (l : List (Nat × Nat)) : PortKept b (writeBack s l) :=
  PortKept.foldl (fun _ _ hv => (hv.modMemc _).accessRow _) l h

theorem PortKept.queueWrite (word mask : Nat) : PortKept b (queueWrite s word mask) := by
  unfold Machine.queueWrite
  dsimp only
  split
  · exact (h.modMemc _).setF _ (by decide)
  · exact ((h.writeBack _).modMemc _).setF _ (by decide)

theorem PortKept.queueRead (word mask : Nat) : PortKept b (queueRead s word mask) := by
  unfold Machine.queueRead
  dsimp only
  split
  · exact h.satAdd _ (by decide)
  · split
    · exact h.accessRow _
    · exact (h.writeBack _).accessRow _

theorem PortKept.serveRequests (n : Nat) : PortKept b (serveRequests n s) := by
  induction n generalizing s with
  | zero => exact h
  | succ n ih =>
    unfold Machine.serveRequests
    dsimp only
    split
    · exact h
    · refine ih ?_
      split
      · exact (h.modMemc _).queueWrite ..
      · exact (h.modMemc _).queueRead ..

theorem PortKept.serveWaiting : PortKept b (serveWaiting s) := by
  unfold Machine.serveWaiting
  split
  · exact PortKept.foldl (fun _ _ hv => hv.emit _) _ (((h.serveRequests _).modMemc _).modMemc _)
  · exact h

theorem PortKept.payGather : PortKept b (payGather s) := by
  unfold Machine.payGather startGather
  split
  · exact (h.modMemc _).setFlag _ (by decide)
  · exact h

theorem PortKept.askRate : PortKept b (askRate s) := by
  unfold Machine.askRate
  dsimp only
  split
  · exact h
  · split
    · split
      · exact (h.setFlag _ (by decide)).satAdd _ (by decide)
      · exact h.setFlag _ (by decide)
    · exact h.setFlag _ (by decide)

theorem PortKept.endChange : PortKept b (endChange s) := by
  unfold Machine.endChange
  split
  · exact h
  · exact ((((h.modMemc _).setF _ (by decide)).setFlag _ (by decide)).serveWaiting.payGather).askRate

theorem PortKept.leaveSr : PortKept b (leaveSr s) :=
  (((h.modMemc _).setFlag _ (by decide)).wrapAdd _ (by decide)).serveWaiting.payGather

/-- The port is untrained from its loss on. -/
theorem PortKept.dramLost : PortKept b (dramLost s) := by
  unfold Machine.dramLost
  refine PortKept.askRate ?_
  have untrained : dramTrained (Machine.setFlag s F.MEMC_STATUS_TRAINED false) = false := by
    rw [dramTrained, flag, Machine.setFlag, getF_setF_same (f := F.MEMC_STATUS_TRAINED) _ _ (by decide)]
    rfl
  have lost : PortKept b (Machine.setFlag s F.MEMC_STATUS_TRAINED false) := by
    obtain ⟨hlo, hhi, -⟩ := h
    refine ⟨?_, ?_, fun ht => absurd ht (by simp [untrained])⟩
    · rw [Machine.setFlag, getR_setF_of_ne s _ (r := A.BEAM_LIB_BASE) (by decide), hlo]
    · rw [Machine.setFlag, getR_setF_of_ne s _ (r := A.BEAM_LIB_BASE_1) (by decide), hhi]
  have quiet : ∀ {a : State}, PortKept a (Machine.setFlag s F.MEMC_STATUS_TRAINED false) → ∀ g l, PortKept a (Machine.modMemc
      (List.foldl (fun s (x : Nat × Nat) => Machine.emit (Machine.raiseFlag s F.HOST_APERTURE_STATUS_MISS) (.readData (2 ^ (8 * x.2) - 1)))
        (Machine.setFlag (Machine.setFlag (Machine.setFlag (Machine.setFlag (Machine.setFlag s F.MEMC_STATUS_TRAINED false)
          F.MEMC_STATUS_TRAINING false) F.MEMC_STATUS_SR false) F.MEMC_STATUS_GATHER false) F.MEMC_STATUS_PAUSE false) l) g) :=
    fun ha g l => (PortKept.foldl (fun _ _ hv => (hv.raiseFlag (by decide)).emit _) l
      ((((ha.setFlag _ (by decide)).setFlag _ (by decide)).setFlag _ (by decide)).setFlag _ (by decide))).modMemc g
  generalize hx : Machine.modMemc _ _ = x
  have own : PortKept (Machine.setFlag s F.MEMC_STATUS_TRAINED false) x := hx ▸ quiet (PortKept.refl _) _ _
  obtain ⟨hlo, hhi, -⟩ : PortKept b x := hx ▸ quiet lost _ _
  refine ⟨hlo, hhi, fun ht => ?_⟩
  exact absurd (own.2.2 ht).1 (by simp [untrained])

theorem PortKept.trainFail (channel step : Nat) : PortKept b (trainFail s channel step) :=
  ((h.setF _ (by decide)).setF _ (by decide)).post ..

theorem PortKept.ite {p : Prop} [Decidable p] {v : State} (hv : PortKept b v) : PortKept b (if p then v else s) := by
  split
  · exact hv
  · exact h

theorem PortKept.endPause (fail0 fail1 : Bool) : PortKept b (endPause s fail0 fail1) := by
  unfold Machine.endPause
  refine PortKept.serveWaiting ?_
  have ended : PortKept b (Machine.wrapAdd (Machine.setFlag (Machine.modMemc s fun m => { m with pause := none, idleSince := s.time.now })
      F.MEMC_STATUS_PAUSE false) F.MEMC_RETRAIN_COUNT 1) := ((h.modMemc _).setFlag _ (by decide)).wrapAdd _ (by decide)
  dsimp only
  split
  · have first := ended.ite (p := fail0 = true) (ended.trainFail 0 9)
    have counted := (first.ite (p := fail1 = true) (first.trainFail 1 9)).satAdd (f := F.MEMC_STATUS_RETRAIN_FAILS) 1 (by decide)
    exact counted.ite counted.dramLost
  · exact ended.setF _ (by decide)

theorem PortKept.settleDram : PortKept b (settleDram s) := by
  unfold Machine.settleDram
  extract_lets s1 s2
  have exit : PortKept b s1 := by
    unfold s1
    split
    · exact h.ite h.leaveSr
    · exact h
  have pause : PortKept b s2 := by
    unfold s2
    split
    · exact exit.ite (exit.endPause ..)
    · exact exit
  split
  · exact pause.ite pause.endChange
  · exact pause

theorem PortKept.disturbSr : PortKept b (disturbSr s) := by
  unfold Machine.disturbSr
  dsimp only
  have settled := h.settleDram.modMemc fun m => { m with idleSince := (Machine.settleDram s).time.now }
  split
  · split
    · exact (((settled.modMemc _).setFlag _ (by decide)).satAdd _ (by decide)).payGather
    · exact (settled.modMemc _).setFlag _ (by decide)
  · exact settled.ite (settled.modMemc _)

end

/-- A port that serves has left the beam engine, the library's base and the DRAM as they were. -/
theorem disturbSr_served {u : State} (h : portServes (disturbSr u) = true) :
    (disturbSr u).beam = u.beam ∧ (disturbSr u).dram = u.dram ∧ ∀ slot, libAddr (disturbSr u) slot = libAddr u slot := by
  obtain ⟨hlo, hhi, hbeam⟩ := (PortKept.refl u).disturbSr
  obtain ⟨-, -, -, -, hdram, -⟩ := calm_disturbSr (Calm.refl u)
  exact ⟨(hbeam (dramTrained_of_portServes h)).2, hdram, fun slot => by rw [libAddr, libAddr, get64, get64, getN, getN, getN, getN, hlo, hhi]⟩

end Sys2Proof.Machine
end

section
/-!
The fill of the shadow bank: fetch, copy, swap and freeing (R127-R134).
-/
namespace Sys2Proof.Machine

variable {t i d : Nat} {s u : State} {x : Fill} (hu : u = advance t s)

/-- The fill that a test finds is found again by its number. -/
theorem modFill_id {v : State} {p : Fill → Bool} (hx : v.beam.fills.find? (fun y => y.carrier = i && y.dir = d && p y) = some x)
    (g : Fill → Fill) : modFill v i d (fun y => y.id = x.id) g
      = { v with beam := { v.beam with fills := v.beam.fills.map fun y => if y.id = x.id then g y else y } } := by
  have member := List.mem_of_find?_eq_some hx
  have test := List.find?_some hx
  simp only [Bool.and_eq_true] at test
  obtain ⟨here, -⟩ := test
  unfold modFill
  cases hy : v.beam.fills.find? (fun y => y.carrier = i && y.dir = d && decide (y.id = x.id)) with
  | none => simpa [here] using List.find?_eq_none.mp hy x member
  | some y =>
    have found := List.find?_some hy
    have same : y.id = x.id := by simpa using (Bool.and_eq_true_iff.mp found).2
    simp only [same]

include hu

theorem exec_prefetchStart
    (hx : u.beam.fills.find? (fun y => y.carrier = i && y.dir = d && (isLib y.slot && !y.started && decide (y.tick ≤ u.time.tick + 49152))) = some x) :
    exec (.prefetchStart t i d) s = .next (showCols { u with beam := { u.beam with
      fills := u.beam.fills.map fun y => if y.id = x.id then { y with started := true, down := !dramTrained u } else y } } d) := by
  show execPrefetchStart t i d s = _
  simp only [execPrefetchStart, ← hu, modFill, hx]

section
variable (hx : u.beam.fills.find? (fun y => y.carrier = i && y.dir = d && fetchOpen u y) = some x) (htrained : dramTrained u = true)
include hx htrained

theorem exec_prefetchComplete_served (hserves : portServes (disturbSr u) = true) :
    exec (.prefetchComplete t i d) s = .next (wrapAdd { disturbSr u with beam := { u.beam with fills := u.beam.fills.map fun y =>
      if y.id = x.id then { y with done := true, data := memRead u.dram (libAddr u x.slot) (256 * x.cols) } else y } } F.BEAM_PREFETCH_DONE 1) := by
  show execPrefetchComplete t i d s = _
  obtain ⟨hbeam, hdram, haddr⟩ := disturbSr_served hserves
  simp only [execPrefetchComplete, ← hu, hx, htrained, Bool.not_true, Bool.false_eq_true, if_false]
  rw [throughPort_served rfl hserves, modFill_id (p := fetchOpen u) (by rw [hbeam]; exact hx), hbeam, hdram, haddr]

theorem exec_prefetchComplete_closed (hclosed : portServes (disturbSr u) = false) :
    exec (.prefetchComplete t i d) s = .next (disturbSr u) := by
  show execPrefetchComplete t i d s = _
  simp only [execPrefetchComplete, ← hu, hx, htrained, Bool.not_true, Bool.false_eq_true, if_false, throughPort_closed hclosed]

end

section
variable {w : WeightSet} (hw : setAt u x.slot = some w)
include hw

theorem exec_dramPrefetchLate
    (hx : u.beam.fills.find? (fun y => y.carrier = i && y.dir = d
      && (isLib y.slot && !y.done && !y.failed && decide (y.tick ≤ u.time.tick + 4096))) = some x) :
    exec (.dramPrefetchLate t i d) s = .next (post (satAdd { u with beam := { u.beam with fills := u.beam.fills.map fun y =>
      if y.id = x.id then { y with failed := true, down := y.down || !dramTrained u } else y } } F.BEAM_PREFETCH_LATE 1)
        0x00C1 (evData [(16, 4, mkHandle 3 w.gen x.slot)])) := by
  show execDramPrefetchLate t i d s = _
  simp only [execDramPrefetchLate, ← hu, hx, hw]
  rw [modFill_id hx]
  rfl

theorem exec_stagedCopyStart
    (hx : u.beam.fills.find? (fun y => y.carrier = i && y.dir = d && (!isLib y.slot && !y.started && decide (y.tick ≤ u.time.tick + 4096))) = some x) :
    exec (.stagedCopyStart t i d) s = .next (showCols { u with beam := { u.beam with fills := u.beam.fills.map fun y =>
      if y.id = x.id then { y with started := true, done := true, data := w.data } else y } } d) := by
  show execStagedCopyStart t i d s = _
  simp only [execStagedCopyStart, ← hu, hx, hw]
  rw [modFill_id hx]

end

omit hu

/-- Where no change has replaced settings of the carrier, B is the first slice block at or after the tick (R131). -/
theorem swapBlock_of_was_nil {c : Carrier} (hc : carrierAt u i = some c) (hwas : c.was = []) (n : Nat) :
    swapBlock u i n = (gridUp u (slices c * c.k) n, slices c * c.k) := by
  simp only [swapBlock, hc, hwas, List.reverse_nil, blockFrom, Nat.max_zero]

end Sys2Proof.Machine
end

section
open Sys2Proof Sys2Proof.Machine

/-- Settles O21: each event by its rule; a fetch that the port serves finds the beam engine and the library as they stood in `u`. -/
theorem weightSetFillsComplete : Obligations.WeightSetFillsComplete := by
  unfold Obligations.WeightSetFillsComplete
  intro t i d s u x hu
  refine ⟨exec_prefetchStart hu, fun hx htrained => ⟨exec_prefetchComplete_served hu hx htrained, exec_prefetchComplete_closed hu hx htrained⟩,
    fun w hx hw => exec_dramPrefetchLate hu hw hx, fun w hx hw => exec_stagedCopyStart hu hw hx, ?_, ?_, fun c a n hc hwas ha hn => ⟨?_, fun y hy hafter => ?_⟩⟩
  · subst hu
    rfl
  · subst hu
    rfl
  · rw [mapBlock, hn, ha, Option.map_some, swapBlock_of_was_nil hc hwas]
  · rw [freeTick, hy, hafter, swapBlock_of_was_nil hc hwas]

end

section
/-!
The settings of a path and the loops of a receive path (R174, R177, R185-R198).
-/
namespace Sys2Proof.Machine

variable {t n : Nat} {c : Cmd} {s u : State} {f : Flight} (hu : u = advance t s)

theorem bitsOf_zero_one (data : Nat) : bitsOf data 0 1 = data % 2 := by simp [bitsOf]

theorem out_of_range_eq_false {lo hi v : Int} (h : lo ≤ v) (h' : v ≤ hi) : (decide (v < lo) || decide (hi < v)) = false := by
  simp [h, h']

include hu

/-! ## Commands -/

theorem exec_cfrSet (h : mayRun u 0x22 c [] f) (hmask : p64 c 16 < 2 ^ nPaths u) (henable : p8 c 24 ≤ 1) (hlo : 65 ≤ p16 c 26) (hhi : p16 c 26 ≤ 95)
    (hwin : sched c = true → inWindow u c f ((bitsSet (p64 c 16) 64).map fun n => (0x22, n, 0))) :
    exec (.cfrSet t c) s = .next
      (if sched c then accept u f ((bitsSet (p64 c 16) 64).map fun n => (0x22, n, 0)) [] else complete (applyCfrSet u c) f 0) := by
  show execCfrSet t c s = _
  obtain rfl := cmd_of_mayRun h
  have good : (!maskWithin (p64 f.cmd 16) (nPaths u) || decide (1 < p8 f.cmd 24) || decide (p16 f.cmd 26 < 65) || decide (95 < p16 f.cmd 26)) = false := by
    simp [maskWithin, hmask, henable, hlo, hhi]
  rw [execCfrSet, runCmd_of_mayRun (more := fun _ => []) hu h, good, schedulable_passed hwin]

omit hu in
/-- A scheduled command within its window is accepted, or refused by its resource check (R98). -/
theorem schedulable_inWindow {keys : List (Nat × Nat × Nat)} (hs : sched f.cmd = true) (hwin : inWindow u f.cmd f keys) (res : Option Nat)
    (effect : State → State) :
    schedulable u f false keys res false effect = res.elim (accept u f keys []) (reject u f) := by
  obtain ⟨hlead, hfar, hkeys, hroom⟩ := hwin
  rw [schedulable, lateChecks_timely hs hlead hfar, hkeys, if_neg (by simp), if_neg (by omega), if_neg (by simp)]
  cases res
  · exact if_pos hs
  · rfl

/-- RX_GAIN is BUSY while AUTO is 1 (R191). -/
theorem exec_rxGain (h : mayRun u 0x21 c [] f) (hpath : pathPresent u (p8 c 16) = true) (hgain : p8 c 17 ≤ 30)
    (hwin : inWindow u c f [(0x21, p8 c 16, 0)]) :
    exec (.rxGain t c) s = .next (if flag u (F.RXP_GAIN_AUTO (p8 c 16)) then reject u f stBusy else accept u f [(0x21, p8 c 16, 0)] []) := by
  show execRxGain t c s = _
  obtain rfl := cmd_of_mayRun h
  have good : (!pathPresent u (p8 f.cmd 16) || decide (30 < p8 f.cmd 17)) = false := by simp [hpath, hgain]
  rw [execRxGain, runCmd_of_mayRun (more := fun _ => []) hu h, good, schedulable_inWindow (sched_of_scheduledOnly h rfl) hwin]
  split <;> rfl

/-- DC_LOAD is BUSY unless FREEZE is ALWAYS (R198). -/
theorem exec_dcLoad (h : mayRun u 0x23 c [] f) (hpath : pathPresent u (p8 c 16) = true) (hci : -64 ≤ signed 8 (p8 c 17))
    (hci' : signed 8 (p8 c 17) ≤ 63) (hcq : -64 ≤ signed 8 (p8 c 18)) (hcq' : signed 8 (p8 c 18) ≤ 63) (hfi : -4095 ≤ signed 16 (p16 c 20))
    (hfi' : signed 16 (p16 c 20) ≤ 4095) (hfq : -4095 ≤ signed 16 (p16 c 22)) (hfq' : signed 16 (p16 c 22) ≤ 4095)
    (hwin : inWindow u c f [(0x23, p8 c 16, 0)]) :
    exec (.dcLoad t c) s = .next (if dcFreeze u (p8 c 16) = 2 then accept u f [(0x23, p8 c 16, 0)] [] else reject u f stBusy) := by
  show execDcLoad t c s = _
  obtain rfl := cmd_of_mayRun h
  rw [execDcLoad, runCmd_of_mayRun (more := fun _ => []) hu h]
  dsimp only
  rw [out_of_range_eq_false hci hci', out_of_range_eq_false hcq hcq', out_of_range_eq_false hfi hfi', out_of_range_eq_false hfq hfq', hpath,
    show (!true || false || false || false || false) = false from rfl, schedulable_inWindow (sched_of_scheduledOnly h rfl) hwin]
  split <;> rfl

/-! ## The writes of CTRL -/

section
variable (hawake : asleep u = false) (data : Nat)
include hawake

theorem exec_txpCtrlWrite (hn : pathPresent u n = true) :
    exec (.txpCtrlWrite t n data) s = .next (writeTxCtrl (countCfg u 1) n data) := by
  show execTxpCtrlWrite t n data s = _
  rw [execTxpCtrlWrite, byWrite_awake hu hawake]
  exact congrArg _ (if_pos hn)

theorem exec_rxpCtrlWrite (hn : pathPresent u n = true) :
    exec (.rxpCtrlWrite t n data) s = .next (writeRxCtrl (countCfg u 1) n data) := by
  show execRxpCtrlWrite t n data s = _
  rw [execRxpCtrlWrite, byWrite_awake hu hawake]
  exact congrArg _ (if_pos hn)

theorem exec_ctrlWrite_absent (hn : pathPresent u n = false) :
    exec (.txpCtrlWrite t n data) s = .next (countCfg u 1) ∧ exec (.rxpCtrlWrite t n data) s = .next (countCfg u 1) := by
  have absent : ¬ pathPresent (countCfg u 1) n = true := by
    show ¬ pathPresent u n = true
    simp [hn]
  refine ⟨?_, ?_⟩
  · show execTxpCtrlWrite t n data s = _
    rw [execTxpCtrlWrite, byWrite_awake hu hawake, if_neg absent]
  · show execRxpCtrlWrite t n data s = _
    rw [execRxpCtrlWrite, byWrite_awake hu hawake, if_neg absent]

end

omit hu

section
variable (v : State) (data : Nat)

theorem writeTxCtrl_same (h : getF v (F.TXP_CTRL_EN n) = data % 2) : writeTxCtrl v n data = setF v (F.TXP_CTRL_EN n) (data % 2) := by
  simp only [writeTxCtrl, bitsOf_zero_one, h, if_true]

theorem writeTxCtrl_changed (h : getF v (F.TXP_CTRL_EN n) ≠ data % 2) :
    writeTxCtrl v n data = emit (setF v (F.TXP_CTRL_EN n) (data % 2)) (.txEnable n (bitAt data 0)) := by
  simp only [writeTxCtrl, bitsOf_zero_one, if_neg h]

theorem writeRxCtrl_same (h : flag v (F.RXP_CTRL_EN n) = bitAt data 0) : writeRxCtrl v n data = setF v (F.RXP_CTRL_EN n) (data % 2) := by
  simp [writeRxCtrl, bitsOf_zero_one, h]

theorem writeRxCtrl_on (h : flag v (F.RXP_CTRL_EN n) = false) (hd : bitAt data 0 = true) :
    writeRxCtrl v n data = resetDc (spoilWindow (setF v (F.RXP_CTRL_EN n) (data % 2)) n (setF v (F.RXP_CTRL_EN n) (data % 2)).time.tick) n := by
  simp only [writeRxCtrl, bitsOf_zero_one, h, hd, Bool.false_and, Bool.not_false, Bool.and_self, Bool.false_eq_true, if_false, if_true]

/-- Where EN turns to 0 the window in course counts as discarded and the acquisition span ends (R194, R210). -/
theorem writeRxCtrl_off (h : flag v (F.RXP_CTRL_EN n) = true) (hd : bitAt data 0 = false) :
    let w := setF v (F.RXP_CTRL_EN n) (data % 2)
    let a := edgeAtOrAfter w (dcWindow w n) (rxPath w n).windowFrom
    writeRxCtrl v n data = closeAcq (modRx
      (if a < w.time.tick ∧ w.time.tick < a + dcWindow w n then satAdd w (F.RXP_DC_STAT_DISCARDED n) 1 else w) n
      fun x => { x with spoilt := [] }) n w.time.tick := by
  intro w a
  simp only [writeRxCtrl, bitsOf_zero_one, h, hd, Bool.not_false, Bool.and_self, if_true, Bool.and_eq_true, decide_eq_true_eq]
  split
  · rfl
  · rfl

end

/-! ## The loops -/

section
variable (hruns : rxRuns u n = true) (hreset : (rxPath u n).resetAt = none) (hlong : u.time.origin + dcWindow u n ≤ u.time.tick)
  (hgrid : (u.time.tick - dcWindow u n - u.time.origin) % dcWindow u n = 0) (hfrom : (rxPath u n).windowFrom ≤ u.time.tick - dcWindow u n)
include hruns hreset hlong hgrid hfrom

/-- The next window to be measured ends now. -/
theorem endWindow_of_next : endWindow u n
    = if frozenIn u n (u.time.tick - dcWindow u n) u.time.tick
        || (rxPath u n).spoilt.any (fun m => decide (u.time.tick - dcWindow u n < m) && decide (m < u.time.tick)) then
        modRx (satAdd u (F.RXP_DC_STAT_DISCARDED n) 1) n fun x => { x with windowFrom := u.time.tick, spoilt := [] }
      else measureDc u n (dcWindow u n) (windowSums u n (u.time.tick - dcWindow u n) u.time.tick).1
        (windowSums u n (u.time.tick - dcWindow u n) u.time.tick).2 := by
  have due : (!rxRuns u n || (rxPath u n).resetAt.isSome || decide (u.time.tick < u.time.origin + dcWindow u n)
      || (u.time.tick - dcWindow u n - u.time.origin) % dcWindow u n != 0
      || decide (u.time.tick - dcWindow u n < (rxPath u n).windowFrom)) = false := by
    simp [hruns, hreset, hgrid, Nat.not_lt.mpr hlong, Nat.not_lt.mpr hfrom]
  simp only [endWindow, due, Bool.false_eq_true, if_false]

end

include hu in
theorem exec_dcReset {w : Nat} (hreset : (rxPath u n).resetAt = some w) (hdue : w ≤ u.time.tick) :
    exec (.dcReset t n) s = .next (modRx (setDc u n 0 0 0 0) n fun x => { x with resetAt := none }) := by
  show execDcReset t n s = _
  simp only [execDcReset, ← hu, hreset, hdue, if_true]

/-- A gain that may be taken at `tick` requests its swap (R191). -/
theorem requestGain_good {gain tick : Nat} (hpath : pathPresent u n = true) (hauto : flag u (F.RXP_GAIN_AUTO n) = true) (hfw : fwRunning u = true)
    (hgain : gain ≤ 30) (htick : gainTickGood u n tick = true) :
    let r := requestSwap u n 2 0 tick false (BitVec.ofNat 8 gain :: List.replicate 251 0)
    requestGain u n gain tick = if r.2 then modRx r.1 n fun x => { x with lastStep := some tick } else r.1 := by
  simp only [requestGain, hpath, hauto, hfw, htick, Nat.not_lt.mpr hgain, decide_false, Bool.not_true, Bool.or_self, Bool.false_eq_true, if_false]

end Sys2Proof.Machine
end

section
open Sys2Proof Sys2Proof.Machine

/-- Settles O22: the commands by their checks, the writes of CTRL by how EN changes. -/
theorem pathControlComplete : Obligations.PathControlComplete := by
  unfold Obligations.PathControlComplete
  refine ⟨fun t c s u f hu => ⟨exec_cfrSet hu, exec_rxGain hu, exec_dcLoad hu⟩, fun t n data s u hu hawake => ⟨fun hn hne => ?_, fun hn heq => ?_,
    fun hn => exec_ctrlWrite_absent hu hawake data hn, fun hn => ?_⟩⟩
  · rw [exec_txpCtrlWrite hu hawake data hn, writeTxCtrl_changed _ _ hne]
  · rw [exec_txpCtrlWrite hu hawake data hn, writeTxCtrl_same _ _ heq]
  · intro v a
    rw [exec_rxpCtrlWrite hu hawake data hn]
    exact ⟨fun heq => congrArg _ (writeRxCtrl_same _ _ heq), fun hoff hd => congrArg _ (writeRxCtrl_on _ _ hoff hd),
      fun hon hd => congrArg _ (writeRxCtrl_off _ _ hon hd)⟩

/-- Settles O23: the window by whether a tick of it is frozen or spoilt, the reset and the gain step by their rules. -/
theorem receiveLoopsComplete : Obligations.ReceiveLoopsComplete := by
  unfold Obligations.ReceiveLoopsComplete
  intro t n s u hu
  refine ⟨?_, fun w hreset hdue => exec_dcReset hu hreset hdue, fun gain tick hpath hauto hfw hgain htick => ?_⟩
  · rintro w a rfl rfl hruns hreset hlong hgrid hfrom
    have ended : exec (.dcWindowEnd t n) s = .next (endWindow u n) := by
      rw [hu]
      rfl
    rw [ended, endWindow_of_next hruns hreset hlong hgrid hfrom]
    refine ⟨fun hbad => congrArg _ (if_pos ?_), fun hfrozen hspoilt => congrArg _ (if_neg ?_)⟩
    · simpa using hbad
    · have clean : (rxPath u n).spoilt.any (fun m => decide (u.time.tick - dcWindow u n < m) && decide (m < u.time.tick)) = false := by
        refine List.any_eq_false.mpr fun m hm => ?_
        have := hspoilt m hm
        simp only [Bool.and_eq_true, decide_eq_true_eq]
        omega
      simp [hfrozen, clean]
  · have stepped : exec (.gainControlStep t n gain tick) s = .next (requestGain u n gain tick) := by
      rw [hu]
      rfl
    exact stepped.trans (congrArg _ (requestGain_good hpath hauto hfw hgain htick))

end

section
/-!
The core of a state: all but the registers, the host interface, the DRAM port, the ports and partners and what the radio, the housekeeping and the
adaptation firmware hold. What an operation of these units leaves alone is one equation of cores.
-/
namespace Sys2Proof.Machine

/-- The state without its registers, its interfaces and the units at its edge. -/
def core (s : State) : State :=
  { s with regs := [], host := default, out := [], memc := default, hkm := default, pmc := default, power := default, dpd := default,
           radio := default, periph := default, partners := [], ports := [], inbox := [], cycle := default }

section
variable {b s : State} (h : core s = core b)
include h

theorem core_time : s.time = b.time := (congrArg State.time h :)
theorem core_acts : s.acts = b.acts := (congrArg State.acts h :)
theorem core_streams : s.streams = b.streams := (congrArg State.streams h :)
theorem core_carriers : s.carriers = b.carriers := (congrArg State.carriers h :)
theorem core_swaps : s.swaps = b.swaps := (congrArg State.swaps h :)
theorem core_beam : s.beam = b.beam := (congrArg State.beam h :)
theorem core_captures : s.captures = b.captures := (congrArg State.captures h :)
theorem core_casc : s.casc = b.casc := (congrArg State.casc h :)

end

/-! ## Operations that leave the core alone -/

section
variable (s : State)

@[simp] theorem core_setR (r : Reg) (v : Word) : core (setR s r v) = core s := rfl
@[simp] theorem core_setF (f : Fld) (v : Nat) : core (setF s f v) = core s := rfl
@[simp] theorem core_setFlag (f : Fld) (y : Bool) : core (setFlag s f y) = core s := rfl
@[simp] theorem core_setN (r : Reg) (v : Nat) : core (setN s r v) = core s := rfl
@[simp] theorem core_set64 (lo hi : Reg) (v : Nat) : core (set64 s lo hi v) = core s := rfl
@[simp] theorem core_satAdd (f : Fld) (n : Nat) : core (satAdd s f n) = core s := rfl
@[simp] theorem core_wrapAdd (f : Fld) (n : Nat) : core (wrapAdd s f n) = core s := rfl
@[simp] theorem core_countCfg (n : Nat) : core (countCfg s n) = core s := rfl
@[simp] theorem core_emit (o : Output) : core (emit s o) = core s := rfl
@[simp] theorem core_holdBits (f : Fld) : core (holdBits s f) = core s := rfl
@[simp] theorem core_raiseFlag (f : Fld) : core (raiseFlag s f) = core s := rfl
@[simp] theorem core_modPort (q : Nat) (f : PortSt → PortSt) : core (modPort s q f) = core s := rfl
@[simp] theorem core_modHkm (f : HkmSt → HkmSt) : core (modHkm s f) = core s := rfl
@[simp] theorem core_modPod (p : Nat) (f : PodSt → PodSt) : core (modPod s p f) = core s := rfl
@[simp] theorem core_modOrx (k : Nat) (f : OrxSched → OrxSched) : core (modOrx s k f) = core s := rfl
@[simp] theorem core_showCols (d : Nat) : core (showCols s d) = core s := rfl
@[simp] theorem core_showAllCols : core (showAllCols s) = core s :=
  (core_showCols (showCols s 0) 1).trans (core_showCols s 0)
@[simp] theorem core_showQueue : core (showQueue s) = core s := rfl
@[simp] theorem core_setStage (id : Nat) (g : FlightStage) : core (setStage s id g) = core s := rfl
@[simp] theorem core_setLoCal (i : Nat) (x : Option LoCal) : core (setLoCal s i x) = core s := rfl
@[simp] theorem core_drivePins (p : Nat) : core (drivePins s p) = core s := rfl
@[simp] theorem core_setFeCode (p code : Nat) : core (setFeCode s p code) = core s := rfl
@[simp] theorem core_loseSlot (k : Nat) : core (loseSlot s k) = core s := rfl

theorem HostOnly.core_eq {b s : State} (h : HostOnly b s) : core s = core b := (congrArg core h.1 :)

@[simp] theorem core_post (type data : Nat) : core (post s type data) = core s := ((HostOnly.refl s).post type data).core_eq
@[simp] theorem core_postAt (type tick data : Nat) : core (postAt s type tick data) = core s := ((HostOnly.refl s).postAt type tick data).core_eq

theorem core_ite {b : State} {p : Prop} [Decidable p] {x y : State} (hx : core x = core b) (hy : core y = core b) :
    core (if p then x else y) = core b := by
  split
  · exact hx
  · exact hy

theorem core_foldl {α : Type} {g : State → α → State} (hg : ∀ v x, core (g v x) = core v) (l : List α) : core (l.foldl g s) = core s := by
  induction l generalizing s with
  | nil => rfl
  | cons x l ih => exact (ih (g s x)).trans (hg s x)

/-- An end of a command changes the host interface and registers only. -/
@[simp] theorem core_finish (f : Flight) (st r n : Nat) (ok : Bool) : core (finish s f st r n ok) = core s :=
  (congrArg core (finish_frame s f st r n ok) :)

@[simp] theorem core_complete (f : Flight) (r : Nat) : core (complete s f r) = core s := core_finish ..
@[simp] theorem core_reject (f : Flight) (st : Nat) : core (reject s f st) = core s := core_finish ..

/-! ## Messages -/

@[simp] theorem core_enqueue (q : Nat) (x : Queued) : core (enqueue s q x) = core s := core_ite rfl rfl

@[simp] theorem core_modPartner (i : Nat) (f : Partner → Partner) : core (modPartner s i f) = core s := by
  unfold modPartner
  split <;> rfl

@[simp] theorem core_sendPartner (i type : Nat) (payload : List Byte) : core (sendPartner s i type payload) = core s := by
  unfold sendPartner
  split
  · rfl
  · simp [enqueueCtrl]

@[simp] theorem core_sendMessage (i msg : Nat) (body : List Byte) : core (sendMessage s i msg body) = core s := core_sendPartner ..

@[simp] theorem core_sendEchoes (fuel i : Nat) (l : List (List Byte)) : core (sendEchoes fuel s i l) = core s := by
  induction fuel generalizing s l with
  | zero => rfl
  | succ fuel ih =>
    cases l with
    | nil => rfl
    | cons x l => simp [sendEchoes, ih]

@[simp] theorem core_sendGrant (j : Nat) : core (sendGrant s j) = core s := by
  unfold sendGrant
  split
  · rfl
  · split
    · exact core_sendMessage ..
    · rfl

/-! ## Synthesisers and pods -/

@[simp] theorem core_unlockLo (i : Nat) : core (unlockLo s i) = core s := by
  unfold unlockLo unlockedTx
  refine core_ite (core_ite (core_ite ?_ ?_) ?_) rfl <;> simp

@[simp] theorem core_beginCal (i kind n : Nat) : core (beginCal s i kind n) = core s := by simp [beginCal]

@[simp] theorem core_settleLo (i : Nat) : core (settleLo s i) = core s := by
  unfold settleLo
  split
  · rfl
  · split
    · rfl
    · split
      · exact core_beginCal ..
      · rfl

@[simp] theorem core_abortCal (i : Nat) : core (abortCal s i) = core s := by
  unfold abortCal
  dsimp only
  split
  · exact core_settleLo ..
  · exact core_ite (core_settleLo ..) (by simp)

@[simp] theorem core_startLo (i n : Nat) (table pod : Bool) : core (startLo s i n table pod) = core s := by
  unfold startLo
  dsimp only
  split
  · exact core_ite (by simp) (core_settleLo ..)
  · simp

@[simp] theorem core_podStartsLo : core (podStartsLo s).1 = core s := by
  unfold podStartsLo
  dsimp only
  split
  · simp
  · split
    · simp
    · rw [core_foldl _ fun v i => core_ite (core_startLo ..) rfl]
      simp

@[simp] theorem core_setPodIo (p : Nat) (tx rx : Bool) : core (setPodIo s p tx rx) = core s := by
  unfold setPodIo
  extract_lets x asleep out inp s1 s2
  have first : core s1 = core s := core_ite rfl rfl
  have second : core s2 = core s := core_ite first first
  exact second

@[simp] theorem core_startStep (p goal : Nat) : core (startStep s p goal) = core s := by
  unfold startStep
  extract_lets a fdd s1 s2 r s3 n x s4 y all entry early cut old s5 s6
  have txHeld : core s1 = core s := core_ite (core_abortCal ..) rfl
  have rxHeld : core s2 = core s := core_ite ((core_abortCal ..).trans txHeld) txHeld
  have started : core s3 = core s := by
    unfold s3 r
    split
    · exact (core_podStartsLo s2).trans rxHeld
    · exact rxHeld
  have outputs : core s4 = core s := core_ite ((core_setPodIo ..).trans started) started
  have stepping : core s6 = core s := (core_setFlag s5 _ _).trans ((core_modPod s4 p _).trans outputs)
  exact (core_foldl s6 (fun v (e : FeEdge) => core_setFeCode v p e.code) _).trans stepping

@[simp] theorem core_drivePod (p : Nat) : core (drivePod s p) = core s := by
  unfold drivePod
  split
  · rfl
  · dsimp only
    split
    · exact core_startStep ..
    · exact core_ite (by simp) rfl

@[simp] theorem core_followPattern : core (followPattern s) = core s := core_foldl _ (fun v p => core_drivePod v p) _

@[simp] theorem core_dropVisit (k : Nat) : core (dropVisit s k) = core s := by
  unfold dropVisit
  split
  · rfl
  · dsimp only
    split <;> simp

/-! ## Housekeeping -/

@[simp] theorem core_strobeDac (e d : Nat) : core (strobeDac s e d) = core s := by
  unfold strobeDac
  exact core_ite rfl rfl

@[simp] theorem core_runHkJob (e : Nat) (j : HkJob) : core (runHkJob s e j) = core s := by
  unfold runHkJob strobe setHusk
  split
  · rfl
  · exact core_foldl _ (fun v d => core_strobeDac v e d) _
  · exact core_foldl _ (fun v p => core_foldl (setF v _ _) (fun w d => core_setFlag w _ _) _) _

@[simp] theorem core_settleHk : core (settleHk s) = core s := by
  unfold settleHk settleHkTo
  exact core_foldl _ (fun v (x : Nat × HkJob) => core_runHkJob v x.1 x.2) _

@[simp] theorem core_startConv (k code e : Nat) : core (startConv s k code e) = core s := rfl

end

end Sys2Proof.Machine
end

section
/-!
An applied SYNC (R34, R133, R162, R197): what is flushed, what starts at the origin, and what stays.
-/
namespace Sys2Proof.Machine

/-! ## The flush of the pending activations -/

theorem mem_insertBy {α : Type} {key : α → Nat} {x y : α} {l : List α} : y ∈ insertBy key x l ↔ y = x ∨ y ∈ l := by
  induction l with
  | nil => simp [insertBy]
  | cons z l ih =>
    unfold insertBy
    split
    · simp
    · simp only [List.mem_cons, ih]
      exact or_left_comm

theorem mem_foldl_insertBy {α : Type} {key : α → Nat} {y : α} (l m : List α) :
    y ∈ l.foldl (fun m x => insertBy key x m) m ↔ y ∈ l ∨ y ∈ m := by
  induction l generalizing m with
  | nil => simp
  | cons x l ih =>
    rw [List.foldl_cons, ih, mem_insertBy, List.mem_cons, ← or_assoc, or_comm (a := y ∈ l)]

theorem mem_sortBy {α : Type} {key : α → Nat} {y : α} (l : List α) : y ∈ sortBy key l ↔ y ∈ l := by
  simp [sortBy, mem_foldl_insertBy]

/-- The state but for its pending activations and its fills. -/
def coreButActs (s : State) : State := core { s with acts := [], beam := default }

theorem coreButActs_of_core {s v : State} (h : core s = core v) : coreButActs s = coreButActs v :=
  (congrArg (fun x : State => { x with acts := [], beam := default }) h :)

theorem endFill_coreButActs (s : State) (id : Nat) : coreButActs (endFill s id) = coreButActs s := by
  unfold endFill
  split <;> rfl

theorem core_endAct (s : State) (p : Pending) (st n : Nat) : core (endAct s p st n) = core (withoutAct s p) := by
  cases h : flightOf (withoutAct s p) p.id with
  | none => rw [endAct_of_none h]
  | some f => rw [endAct_of_some h, core_finish]

theorem endAct_acts (s : State) (p : Pending) (st n : Nat) : (endAct s p st n).acts = s.acts.filter fun q => q.id != p.id :=
  core_acts (core_endAct s p st n)

theorem endAct_coreButActs (s : State) (p : Pending) (st n : Nat) : coreButActs (endAct s p st n) = coreButActs s :=
  (coreButActs_of_core (core_endAct s p st n)).trans (endFill_coreButActs s p.id)

theorem foldl_endAct_acts (l : List Pending) (s : State) (st n : Nat) :
    (l.foldl (fun s p => endAct s p st n) s).acts = s.acts.filter fun q => l.all fun p => q.id != p.id := by
  induction l generalizing s with
  | nil => simp
  | cons p l ih => simp only [List.foldl_cons, ih, endAct_acts, List.filter_filter, List.all_cons, Bool.and_comm]

theorem foldl_endAct_coreButActs (l : List Pending) (s : State) (st n : Nat) :
    coreButActs (l.foldl (fun s p => endAct s p st n) s) = coreButActs s := by
  induction l generalizing s with
  | nil => rfl
  | cons p l ih => exact (ih _).trans (endAct_coreButActs ..)

theorem flushActs_acts (s : State) (g : Nat) : (flushActs s g).acts = [] := by
  rw [flushActs, foldl_endAct_acts]
  refine List.filter_eq_nil_iff.mpr fun q hq hall => ?_
  have listed : q ∈ sortBy (fun p => p.tick) (sortBy (fun p => p.id) s.acts) := (mem_sortBy _).mpr ((mem_sortBy _).mpr hq)
  simpa using List.all_eq_true.mp hall q listed

theorem flushActs_coreButActs (s : State) (g : Nat) : coreButActs (flushActs s g) = coreButActs s := foldl_endAct_coreButActs ..

/-! ## Streams -/

/-- What of a stream a new grant and a new origin leave: its slots and the records that wait. -/
def streamKept (x : Nat × Stream) : Nat × List Slot × List EchoRecord := (x.1, x.2.slots, x.2.echoes)

/-- Only streams differ, and not in what `streamKept` names. -/
def StreamsKept (b s : State) : Prop :=
  core { s with streams := [] } = core { b with streams := [] } ∧ s.streams.map streamKept = b.streams.map streamKept

theorem StreamsKept.fields {b s : State} (h : StreamsKept b s) :
    s.time = b.time ∧ s.acts = b.acts ∧ s.swaps = b.swaps ∧ s.carriers = b.carriers := by
  obtain ⟨hcore, -⟩ := h
  exact ⟨(congrArg State.time hcore :), (congrArg State.acts hcore :), (congrArg State.swaps hcore :), (congrArg State.carriers hcore :)⟩

theorem StreamsKept.of_core {b s v : State} (h : StreamsKept b s) (hv : core v = core s) : StreamsKept b v := by
  obtain ⟨hcore, hkept⟩ := h
  refine ⟨Eq.trans (congrArg (fun x : State => { x with streams := [] }) hv :) hcore, ?_⟩
  rw [core_streams hv, hkept]

theorem StreamsKept.modStreamsOf {b s : State} (h : StreamsKept b s) (i : Nat) {g : Stream → Stream}
    (hg : ∀ x, (g x).slots = x.slots ∧ (g x).echoes = x.echoes) : StreamsKept b (modStreamsOf s i g) := by
  obtain ⟨hcore, hkept⟩ := h
  refine ⟨hcore, ?_⟩
  rw [← hkept, Machine.modStreamsOf, List.map_map]
  refine List.map_congr_left fun x _ => ?_
  simp only [Function.comp_apply, streamKept]
  split
  · rw [(hg x.2).1, (hg x.2).2]
  · rfl

theorem StreamsKept.moveOrigin {b s : State} (h : StreamsKept b s) (i g : Nat) : StreamsKept b (moveOrigin s i g) :=
  h.modStreamsOf i fun _ => ⟨rfl, rfl⟩

theorem StreamsKept.regrant {b s : State} (h : StreamsKept b s) (i k g : Nat) : StreamsKept b (regrant s i k g) :=
  (h.modStreamsOf i (g := fun x => { x with grant := (k, g, g), acked := false }) fun _ => ⟨rfl, rfl⟩).of_core
    (core_foldl _ (fun v j => core_sendGrant v j) _)

theorem StreamsKept.foldl {α : Type} {b : State} {g : State → α → State} (hg : ∀ v x, StreamsKept b v → StreamsKept b (g v x)) (l : List α) {s : State}
    (h : StreamsKept b s) : StreamsKept b (l.foldl g s) := by
  induction l generalizing s with
  | nil => exact h
  | cons x l ih => exact ih (hg s x h)

/-- The state in which the streams are granted anew: carriers start at the origin, samples in flight are lost. -/
def syncCleared (s : State) (g : Nat) : State :=
  { s with
    carriers := s.carriers.map fun x => (x.1, syncCarrier s g x.2)
    streams := s.streams.map fun x => (x.1, { x.2 with slots := [], firstAccepted := none, ulOld := [] })
    arrivals := []
    casc := { s.casc with sums := [], combined := [], lost := [] } }

theorem syncCleared_fields (s : State) (g : Nat) : (syncCleared s g).time = s.time ∧ (syncCleared s g).acts = s.acts
    ∧ (syncCleared s g).swaps = s.swaps := ⟨rfl, rfl, rfl⟩

theorem syncCleared_streams (s : State) (g : Nat) :
    (syncCleared s g).streams.map streamKept = s.streams.map fun x => (x.1, [], x.2.echoes) := List.map_map

theorem syncStreams_kept (s : State) (g : Nat) : StreamsKept (syncCleared s g) (syncStreams s g) :=
  StreamsKept.foldl (fun _ _ h => (h.moveOrigin ..).regrant ..) _ ⟨rfl, rfl⟩

/-! ## The units behind the streams -/

theorem core_dpdOnSync (s : State) : core (dpdOnSync s) = core s := core_foldl s (fun v k => core_dropVisit v k) _
theorem core_lanesOnSync (s : State) : core (lanesOnSync s) = core s := rfl
theorem core_radioOnSync (s : State) : core (radioOnSync s) = core s := core_followPattern _

theorem core_hkmOnSync (s : State) : core (hkmOnSync s) = core s := by
  refine (core_foldl _ (fun v k => ?_) _).trans (core_settleHk s)
  exact core_ite rfl rfl

/-- What the SYNC does to the weights leaves the other units alone. -/
theorem beamOnSync_fields (s : State) : (beamOnSync s).time = s.time ∧ (beamOnSync s).acts = s.acts ∧ (beamOnSync s).swaps = s.swaps
    ∧ (beamOnSync s).streams = s.streams ∧ (beamOnSync s).carriers = s.carriers ∧ (beamOnSync s).beam.fills = [] :=
  ⟨rfl, rfl, rfl, rfl, rfl, rfl⟩

/-- What an applied SYNC has loaded and flushed before the streams are granted anew. -/
def syncLoaded (u : State) (value old : Nat) : State :=
  let s := closeEra (countUnmapped u old)
  let log := match runningBank s with | some b => [(value, b + 1)] | none => []
  let s := { s with time := { s.time with tick := (value + 0) % 2 ^ 64, origin := value, tddLog := log } }
  let s := set64 (setFlag s F.TIME_CLK_STATUS_TICK_VALID true) A.TIME_SYNC_LAST A.TIME_SYNC_LAST_1 old
  let s := postAt (wrapAdd s F.TIME_SYNC_COUNT_APPLIED 1) evSyncApplied value (evData [(16, 8, old), (24, 8, value)])
  syncRx (syncRuns (flushActs s value) old value) value

theorem applySync_eq (u : State) (value old : Nat) : applySync u value old 0
    = hkmOnSync (radioOnSync (lanesOnSync (dpdOnSync (beamOnSync (syncStreams (syncLoaded u value old) value))))) := by
  unfold applySync syncLoaded
  rfl

/-- Behind the streams only the weights change what the core holds. -/
theorem applySync_fields (u : State) (value old : Nat) :
    (applySync u value old 0).time = (syncLoaded u value old).time ∧ (applySync u value old 0).acts = (syncLoaded u value old).acts
    ∧ (applySync u value old 0).swaps = (syncLoaded u value old).swaps
    ∧ (applySync u value old 0).streams.map streamKept = (syncLoaded u value old).streams.map (fun x => (x.1, [], x.2.echoes))
    ∧ (applySync u value old 0).carriers = (syncCleared (syncLoaded u value old) value).carriers
    ∧ (applySync u value old 0).beam.fills = [] := by
  have whole : core (applySync u value old 0) = core (beamOnSync (syncStreams (syncLoaded u value old) value)) := by
    rw [applySync_eq, core_hkmOnSync, core_radioOnSync, core_lanesOnSync, core_dpdOnSync]
  generalize applySync u value old 0 = v at whole ⊢
  have granted := syncStreams_kept (syncLoaded u value old) value
  generalize syncStreams (syncLoaded u value old) value = w at whole granted
  obtain ⟨btime, bacts, bswaps, bstreams, bcarriers, bfills⟩ := beamOnSync_fields w
  obtain ⟨gtime, gacts, gswaps, gcarriers⟩ := granted.fields
  obtain ⟨ctime, cacts, cswaps⟩ := syncCleared_fields (syncLoaded u value old) value
  rw [core_time whole, core_acts whole, core_swaps whole, core_streams whole, core_carriers whole, core_beam whole, btime, bacts, bswaps, bstreams,
    bcarriers, gtime, gacts, gswaps, gcarriers, granted.2, syncCleared_streams]
  exact ⟨ctime, cacts, cswaps, rfl, rfl, bfills⟩

/-- Receive paths, captures and calibration runs restart or move; the rest stays. -/
theorem syncRx_syncRuns_fields (s : State) (old g : Nat) : (syncRx (syncRuns s old g) g).time = s.time ∧ (syncRx (syncRuns s old g) g).acts = s.acts
    ∧ (syncRx (syncRuns s old g) g).swaps = [] ∧ (syncRx (syncRuns s old g) g).streams = s.streams := ⟨rfl, rfl, rfl, rfl⟩

/-- The loaded state: the counter stands at the value, nothing is pending, the streams are those of before. -/
theorem syncLoaded_fields (u : State) (value old : Nat) :
    (syncLoaded u value old).time.tick = value % 2 ^ 64 ∧ (syncLoaded u value old).time.origin = value
    ∧ (syncLoaded u value old).time.now = u.time.now ∧ (syncLoaded u value old).acts = [] ∧ (syncLoaded u value old).swaps = []
    ∧ (syncLoaded u value old).streams = u.streams := by
  unfold syncLoaded
  extract_lets s1 log time s2 s3 s4
  have flushed : coreButActs (flushActs s4 value) = coreButActs s2 :=
    (flushActs_coreButActs s4 value).trans (coreButActs_of_core (core_postAt ..))
  have time : (flushActs s4 value).time = s2.time := (congrArg State.time flushed :)
  have streams : (flushActs s4 value).streams = s2.streams := (congrArg State.streams flushed :)
  have counted : s1.time = u.time ∧ s1.streams = u.streams := ⟨rfl, rfl⟩
  obtain ⟨rtime, racts, rswaps, rstreams⟩ := syncRx_syncRuns_fields (flushActs s4 value) old value
  rw [rtime, racts, rswaps, rstreams, time, streams, flushActs_acts]
  exact ⟨rfl, rfl, show s1.time.now = u.time.now from congrArg TimeSt.now counted.1, rfl, rfl, counted.2⟩

theorem syncCarrier_grid (s : State) (g : Nat) (c : Carrier) : (syncCarrier s g c).grid = g ∧ (syncCarrier s g c).phaseAt = (g, 0) := ⟨rfl, rfl⟩

end Sys2Proof.Machine
end

section
open Sys2Proof Sys2Proof.Machine

/-- Settles O30: behind the streams no unit changes the core; the streams keep their slots, of which none is left, and the records that wait; and
before them every activation has been flushed. -/
theorem appliedSyncStartsAnew : Obligations.AppliedSyncStartsAnew := by
  unfold Obligations.AppliedSyncStartsAnew
  intro u value old hvalue _
  obtain ⟨htick, horigin, hnow, hacts, hswaps, hstreams⟩ := syncLoaded_fields u value old
  obtain ⟨time, acts, swaps, streams, carriers, fills⟩ := applySync_fields u value old
  obtain ⟨-, -, -, hstore, hdram, -⟩ := calm_applySync value old 0 (Calm.refl u)
  generalize applySync u value old 0 = v at *
  rw [hstreams] at streams
  refine ⟨?_, ?_, ?_, acts.trans hacts, swaps.trans hswaps, fun x hx => ?_, ?_, fun x hx => ?_, fills, hstore, hdram⟩
  · rw [time, htick, Nat.mod_eq_of_lt hvalue]
  · rw [time, horigin]
  · rw [time, hnow]
  · have listed : streamKept x ∈ v.streams.map streamKept := List.mem_map_of_mem hx
    rw [streams] at listed
    obtain ⟨y, -, hy⟩ := List.mem_map.mp listed
    simp only [streamKept, Prod.mk.injEq] at hy
    exact hy.2.1.symm
  · have echoes := congrArg (List.map fun x : Nat × List Slot × List EchoRecord => (x.1, x.2.2)) streams
    simpa only [List.map_map, Function.comp_def, streamKept] using echoes
  · rw [carriers] at hx
    obtain ⟨y, -, rfl⟩ := List.mem_map.mp hx
    exact syncCarrier_grid ..

end

section
/-!
Downlink packets, slots and their records (R155-R157, R179-R181, R332), and uplink packets as they are formed and sent (R188, R301, R322).
-/
namespace Sys2Proof.Machine

/-! ## Streams and their slots -/

theorem assocPut_assocPut {α : Type} (l : List (Nat × α)) (n : Nat) (v w : α) : assocPut (assocPut l n v) n w = assocPut l n w := by
  induction l with
  | nil => simp [assocPut]
  | cons y l ih =>
    obtain ⟨k, x⟩ := y
    simp only [assocPut]
    split
    · simp [assocPut]
    · split
      · simp [assocPut]
      · simp only [assocPut, ih]
        rw [if_neg ‹_›, if_neg ‹_›]

section
variable {s : State} {i : Nat} {x : Stream}

theorem modStream_of_some (h : streamAt s i = some x) (g : Stream → Stream) : modStream s i g = putStream s i (g x) := by
  simp only [modStream, h]

@[simp] theorem streamAt_putStream (s : State) (i : Nat) (x : Stream) : streamAt (putStream s i x) i = some x := assocGet_put_self ..

theorem streamAt_putStream_ne (s : State) {i j : Nat} (x : Stream) (h : j ≠ i) : streamAt (putStream s i x) j = streamAt s j :=
  assocGet_put_ne _ h _

theorem putStream_putStream (s : State) (i : Nat) (x y : Stream) : putStream (putStream s i x) i y = putStream s i y := by
  simp only [putStream, assocPut_assocPut]

end

/-- The first entry of a sorted list with a property, once an entry that has it is placed among entries that do not. -/
theorem find?_insertBy {α : Type} {key : α → Nat} {p : α → Bool} {y : α} (hy : p y = true) {l : List α} (hl : ∀ z ∈ l, p z = false) :
    (insertBy key y l).find? p = some y := by
  induction l with
  | nil => simp [insertBy, hy]
  | cons z l ih =>
    obtain ⟨hz, hrest⟩ := List.forall_mem_cons.mp hl
    unfold insertBy
    split
    · simp [hy]
    · rw [List.find?_cons_of_neg (by simp [hz]), ih hrest]

theorem slotAt_first_grid (x : Stream) (c : Carrier) (n : Nat) : (slotAt x c n).first = n ∧ (slotAt x c n).grid = c.grid := by
  unfold slotAt
  cases h : x.slots.find? (fun y => y.first = n && y.grid = c.grid) with
  | none => exact ⟨rfl, rfl⟩
  | some y => simpa using List.find?_some h

/-- A slot that is put is the one found at its tick and grid. -/
theorem slotAt_putSlot (x : Stream) (c : Carrier) {n : Nat} {y : Slot} (hfirst : y.first = n) (hgrid : y.grid = c.grid) :
    slotAt (putSlot x y) c n = y := by
  have own : (fun z : Slot => decide (z.first = n) && decide (z.grid = c.grid)) y = true := by simp [hfirst, hgrid]
  have others : ∀ z ∈ x.slots.filter (fun z => z.first != y.first || z.grid != y.grid), (decide (z.first = n) && decide (z.grid = c.grid)) = false := by
    intro z hz
    have := (List.mem_filter.mp hz).2
    rw [hfirst, hgrid] at this
    simpa [imp_iff_not_or] using this
  have found := find?_insertBy (key := fun z : Slot => z.first) (p := fun z : Slot => decide (z.first = n) && decide (z.grid = c.grid)) own others
  exact congrArg (Option.getD · _) found

/-! ## Arrival -/

section
variable {t : Nat} {s u v : State} {p : DlArrival} {rest : List DlArrival} {x : Stream} {c0 c : Carrier} (hu : u = advance t s)
  (hp : u.arrivals = p :: rest) (hv : v = { u with arrivals := rest }) (hx : streamAt u p.stream = some x) (hc0 : carrierAt u x.carrier = some c0)
  (hc : c = settingsFor v x.carrier c0 p.first)
include hu hp hv hx hc0 hc

/-- What a packet's first failed test, or its acceptance, does. -/
theorem exec_dlPacketArrival : exec (.dlPacketArrival t) s = .next
    (match packetTest v c x p.first p.arrival with
     | 1 => satAdd v (F.TXP_DLB_MISC_MISALIGNED p.stream) 1
     | 2 => modSlot (satAdd v (F.TXP_DLB_DROP_EARLY p.stream) 1) p.stream p.first c fun y => { y with dropped := true }
     | 3 => modSlot (satAdd v (F.TXP_DLB_ERR_LATE p.stream) 1) p.stream p.first c fun y => { y with late := true }
     | 4 => satAdd v (F.TXP_DLB_DROP_DUPLICATE p.stream) 1
     | _ => setF (putStream v p.stream { putSlot x { slotAt x c p.first with written := true, data := p.data } with
          firstAccepted := some (x.firstAccepted.getD p.first) }) (F.TXP_DLB_MISC_MARGIN_MIN p.stream)
          (min (getF u (F.TXP_DLB_MISC_MARGIN_MIN p.stream)) ((p.first - dDl c 0 - 1024 - p.arrival) / 64))) := by
  have found : streamAt v p.stream = some x := by rw [hv]; exact hx
  have carrier : carrierAt v x.carrier = some c0 := by rw [hv]; exact hc0
  have accepted : modStream (modSlot v p.stream p.first c fun y => { y with written := true, data := p.data }) p.stream
      (fun x => { x with firstAccepted := some (x.firstAccepted.getD p.first) })
      = putStream v p.stream { putSlot x { slotAt x c p.first with written := true, data := p.data } with
          firstAccepted := some (x.firstAccepted.getD p.first) } := by
    rw [modSlot, modStream_of_some found, modStream_of_some (streamAt_putStream ..), putStream_putStream]
    rfl
  have margin : getF (putStream v p.stream { putSlot x { slotAt x c p.first with written := true, data := p.data } with
      firstAccepted := some (x.firstAccepted.getD p.first) }) (F.TXP_DLB_MISC_MARGIN_MIN p.stream) = getF u (F.TXP_DLB_MISC_MARGIN_MIN p.stream) := by
    rw [hv]
    rfl
  show execDlPacketArrival t s = _
  simp only [execDlPacketArrival, ← hu, hp, ← hv, found, carrier, ← hc, accepted, margin] <;>
    rfl

end

/-! ## Decision -/

section
variable {t j n : Nat} {s u : State} {x : Stream} {c0 c : Carrier} (hu : u = advance t s) (hx : streamAt u j = some x)

/-- The outcome of a slot: 0 written, 1 late, 2 missing, 3 none of these (R157). -/
def slotOutcome (u : State) (x : Stream) (c : Carrier) (n : Nat) : Nat :=
  if blockMask (blockRequired u c n) = 0 then 3 else if (slotAt x c n).written then 0
  else match x.firstAccepted with
    | some a => if a ≤ n then (if (slotAt x c n).late then 1 else 2) else 3
    | none => 3

/-- The stream with its slot decided. -/
def withDecision (u : State) (x : Stream) (c : Carrier) (n : Nat) : Stream :=
  putSlot x { slotAt x c n with decided := some (slotOutcome u x c n), required := blockMask (blockRequired u c n) }

/-- The stream counts a slot that was late or missing. -/
def countBad (c : Carrier) (n : Nat) (x : Stream) : Stream :=
  { x with badSlots := x.badSlots + 1, firstBad := if x.badSlots = 0 then (n - c.grid) / (1024 * c.k) % 2 ^ 16 else x.firstBad }

theorem slotAt_countBad (c' : Carrier) (m : Nat) (x : Stream) (c : Carrier) (n : Nat) : slotAt (countBad c' m x) c n = slotAt x c n := rfl

/-- The state with a slot decided, before bad slots count. -/
def decidedState (u : State) (j : Nat) (x : Stream) (c : Carrier) (n : Nat) : State :=
  if slotOutcome u x c n = 2 then satAdd (putStream u j (withDecision u x c n)) (F.TXP_DLB_ERR_MISSING j) 1
  else putStream u j (withDecision u x c n)

theorem slotAt_withDecision (u : State) (x : Stream) (c : Carrier) (n : Nat) :
    slotAt (withDecision u x c n) c n
      = { slotAt x c n with decided := some (slotOutcome u x c n), required := blockMask (blockRequired u c n) } := by
  obtain ⟨hfirst, hgrid⟩ := slotAt_first_grid x c n
  exact slotAt_putSlot x c hfirst hgrid

include hu hx in
theorem exec_slotDecided (hc0 : carrierAt u x.carrier = some c0) (hc : c = (carrierAhead u x.carrier c0).atTick n) (hdir : x.dir = 0)
    (horphan : x.orphan = none) (hskip : skippedSlot (carrierAhead u x.carrier c0) c n = false) (hopen : (slotAt x c n).decided = none)
    (hgrid : c.grid ≤ n) (hslot : (n - c.grid) % (1024 * c.k) = 0) (hout : slotReadOut c n ≤ u.time.tick) :
    exec (.slotDecided t j n) s = .next
      (if slotOutcome u x c n = 1 ∨ slotOutcome u x c n = 2 then putStream (decidedState u j x c n) j (countBad c n (withDecision u x c n))
       else decidedState u j x c n) := by
  show execSlotDecided t j n s = _
  have here : streamAt (decidedState u j x c n) j = some (withDecision u x c n) := by
    unfold decidedState
    split <;> exact streamAt_putStream ..
  have counts : modStream (decidedState u j x c n) j (countBad c n)
      = putStream (decidedState u j x c n) j (countBad c n (withDecision u x c n)) := modStream_of_some here _
  have open' : (x.dir != 0 || x.orphan.isSome || (slotAt x c n).decided.isSome || skippedSlot (carrierAhead u x.carrier c0) c n
      || decide (n < c.grid) || (n - c.grid) % (1024 * c.k) != 0 || decide (u.time.tick < slotReadOut c n)) = false := by
    simp [hdir, horphan, hopen, hskip, hslot, Nat.not_lt.mpr hgrid, Nat.not_lt.mpr hout]
  unfold execSlotDecided
  extract_lets v
  obtain rfl : u = v := hu
  simp -zeta only [hx, hc0, ← hc]
  extract_lets k y req counted res w w'
  refine (if_neg (Bool.eq_false_iff.mp open')).trans ?_
  have outcome : res = slotOutcome v x c n := by
    unfold res counted slotOutcome
    cases x.firstAccepted with
    | none => simp [req, y, k]
    | some a =>
      by_cases ha : a ≤ n
      · simp only [ha, decide_true, Bool.not_true, Bool.false_eq_true, if_false, if_true]
        rfl
      · simp only [ha, decide_false, Bool.not_false, if_false, if_true]
        rfl
  have decided : w = putStream v j (withDecision v x c n) := by
    unfold w modSlot withDecision
    rw [modStream_of_some hx, outcome]
  have state : w' = decidedState v j x c n := by
    unfold w' decidedState
    rw [outcome, decided]
  rw [outcome, state, ← counts]
  simp only [Bool.or_eq_true, decide_eq_true_eq]
  rfl

include hu hx in
theorem exec_echoRecord (hc0 : carrierAt u x.carrier = some c0) {y : Slot} (horphan : x.orphan = none)
    (hy : x.slots.find? (fun z => z.first = n && echoDue u z) = some y) :
    exec (.echoRecord t j n) s = .next (modStream u j fun z =>
      { putSlot z { y with echoed := true } with echoes := if isActive u then z.echoes ++ [echoRecord u c0 y] else z.echoes }) := by
  show execEchoRecord t j n s = _
  simp only [execEchoRecord, ← hu, hx, hc0, hy, horphan, Option.isSome_none, Bool.false_eq_true, if_false]

end

section
variable {t : Nat} {s u : State} (hu : u = advance t s)
include hu

theorem exec_frameBoundary (hframe : u.time.tick % 9830400 = 0) :
    exec (.frameBoundary t) s = .next (u.streams.foldl (fun v y => if y.2.badSlots = 0 then v else
      modStream (post v 0x0063 (evData [(16, 4, mkHandle 2 y.2.gen y.1), (20, 4, y.2.badSlots), (24, 2, y.2.firstBad)])) y.1
        fun z => { z with badSlots := 0, firstBad := 0 }) u) := by
  show execFrameBoundary t s = _
  have boundary : ¬ u.time.tick % frameTicks ≠ 0 := not_not_intro hframe
  simp only [execFrameBoundary, ← hu, if_neg boundary]
  rfl

omit hu in
/-- The records that wait have gone out to the JOINED partners (R332). -/
def echoesSent (u : State) : State :=
  (joined u).foldl (fun s y =>
    let l := (partnerStreams s y.1).flatMap fun x => x.2.echoes.map fun e => (x.1, mkHandle 2 x.2.gen x.1, e)
    let l := l.foldl (fun m x => insertRecord x m) []
    sendEchoes l.length s y.1 (l.map fun x => echoBytes x.2.1 x.2.2)) u

omit hu in
theorem core_echoesSent (u : State) : core (echoesSent u) = core u := core_foldl u (fun v _ => core_sendEchoes v ..) _

/-- The records go out, and every stream drops its own. -/
theorem exec_echo (hgrid : (u.time.tick - u.time.origin) % 16384 = 0) (hactive : isActive u = true) :
    exec (.echo t) s = .next { echoesSent u with streams := (echoesSent u).streams.map fun x => (x.1, { x.2 with echoes := [] }) } := by
  show execEcho t s = _
  have due : ¬ ((u.time.tick - u.time.origin) % 16384 != 0) = true := by simp [hgrid]
  simp only [execEcho, ← hu, if_neg due, hactive, Bool.not_true, Bool.false_eq_true, if_false]
  rfl

end

/-! ## Uplink packets -/

section
variable {t j n : Nat} {s u : State} (hu : u = advance t s)

theorem enqueue_captures (s : State) (q : Nat) (x : Queued) : (enqueue s q x).captures = s.captures := core_captures (core_enqueue s q x)

/-- A stream captures or keeps sums of its layer. -/
def layerCaptured (s : State) (x : Stream) : Bool :=
  s.captures.any fun y => y.source = 3 && y.carrier = x.carrier && y.layer = (1, x.layer)

/-- The state with the packet of a slot queued at the front port, and the stream gone on to its next slot (R322). -/
def queueUplink (u : State) (j : Nat) (x : Stream) (c : Carrier) (n q pip : Nat) (reduced : Bool) (data : List Sample) : State :=
  let v := enqueue u 0 { pkt := ulPacket u j x n pip reduced data, since := timeOf u q, ctrl := false, index := j, q := none, stomp := false }
  let w := modCasc v fun y => { y with combined := y.combined.filter (fun z => z.stream != j || layerCaptured u x || decide (n ≤ z.slot)) }
  modStream w j fun y => { ulFormed y c n with ulSeq := (y.ulSeq + 1) % 2 ^ 16 }

include hu in
/-- The samples come from the own paths, or on a lantern that combines from the whole array. -/
theorem exec_ulPacketQueued {x : Stream} {c : Carrier} {q : Nat} (hx : streamAt u j = some x) (hc : ulCarrier u x n = some c)
    (hmember : isMember u = false) (horphan : x.orphan = none) (hpartner : (streamPartner u x).isSome = true) (hready : slotReady u x c n q = true)
    (hq : (if combines u then (u.casc.combined.find? fun y => y.stream = j && y.slot = n).map (·.queueAt) else some (slotDone c n)) = some q) :
    exec (.ulPacketQueued t j n) s = .next (queueUplink u j x c n q
      (((u.casc.combined.find? fun y => y.stream = j && y.slot = n).map (·.pip)).getD (ulPips u x c n))
      ((u.casc.combined.find? fun y => y.stream = j && y.slot = n).any (·.reduced))
      (slotSamples u x c n fun r => if combines u then arrayLayer u j x.carrier c x.layer n r else ulLayer u x.carrier c x.layer r)) := by
  show execUlPacketQueued t j n s = _
  have joined : (streamPartner u x).isNone = false := by simpa [← Option.not_isSome] using hpartner
  simp only [execUlPacketQueued, ← hu, hx, hc, hq, hmember, horphan, hready, joined, Option.isSome_none, Bool.not_true, Bool.or_self, Bool.false_eq_true, if_false,
    enqueue_captures]
  cases u.casc.combined.find? fun y => y.stream = j && y.slot = n <;> rfl

/-! ## Sending -/

theorem takeCapacity_time (s : State) (q : Nat) (p : Packet) : (takeCapacity s q p).time = s.time :=
  core_time (core_ite (b := s) rfl rfl)

include hu in
/-- A port sends the packet whose turn it is, once it may start and has not waited too long (R301, R351). -/
theorem exec_packetSend {q : Nat} {x : Queued} (hup : portUp u q = true) (hx : nextQueued (Sys2Proof.Machine.port u q).queue = some x)
    (hstart : mayStart u q x.pkt = true) (hfresh : u.time.now ≤ x.since + 32768) (hwait : ∀ m, x.q = some m → u.time.now ≤ m + ulAllow u) :
    let v := takeCapacity (modPort u q fun y => { y with queue := y.queue.erase x }) q x.pkt
    let w := x.q.elim v fun m => setF v F.CAS_WAIT_MAX_WAIT (max (getF v F.CAS_WAIT_MAX_WAIT) (min 65535 (u.time.now - m)))
    exec (.packetSend t q) s = .next (sendBytes w q (packetBytes
      (if x.pkt.type = 4 then { x.pkt with payload := leBytes 8 u.time.tick ++ x.pkt.payload.drop 8 } else x.pkt) x.stomp)) := by
  intro v w
  show execPacketSend t q s = _
  have now : decide (x.since + 32768 < u.time.now) = false := decide_eq_false (Nat.not_lt.mpr hfresh)
  cases hm : x.q with
  | none =>
    simp only [execPacketSend, ← hu, hup, hx, hstart, now, hm, Bool.not_true, Bool.or_self, Bool.false_eq_true, if_false, w, Option.elim_none,
      takeCapacity_time]
    rfl
  | some m =>
    have ready : decide (m + ulAllow u < u.time.now) = false := decide_eq_false (Nat.not_lt.mpr (hwait m hm))
    simp only [execPacketSend, ← hu, hup, hx, hstart, now, hm, ready, Bool.not_true, Bool.or_self, Bool.false_eq_true, if_false, w, Option.elim_some,
      takeCapacity_time]
    rfl

include hu in
theorem exec_packetOverrun {q : Nat} {x : Queued}
    (hx : (Sys2Proof.Machine.port u q).queue.find? (fun y => decide (y.since + 32768 < u.time.now)) = some x) :
    exec (.packetOverrun t q) s = .next
      (satAdd (modPort u q fun y => { y with queue := y.queue.erase x }) (F.LN_PORT_STAT_OVERRUN q) 1) := by
  show execPacketOverrun t q s = _
  simp only [execPacketOverrun, ← hu, hx]

end

end Sys2Proof.Machine
end

section
open Sys2Proof Sys2Proof.Machine

/-- Settles O24: the outcome of the packet's tests selects what is counted or written. -/
theorem downlinkPacketIsTested : Obligations.DownlinkPacketIsTested := by
  unfold Obligations.DownlinkPacketIsTested
  intro t s u v p rest x c0 c hu hp hv hx hc0 hc
  have tested := exec_dlPacketArrival hu hp hv hx hc0 hc
  refine ⟨fun h => ?_, fun h => ?_, fun h => ?_, fun h => ?_, fun h => ?_⟩ <;> simp only [tested, h]

/-- Settles O25: the decided slot is the one put, and the stream's count of bad slots does not touch it; the others by their rules. -/
theorem slotEventsComplete : Obligations.SlotEventsComplete := by
  unfold Obligations.SlotEventsComplete
  intro t j n s u x c0 c hu hx hc0 hc
  refine ⟨fun hdir horphan hskip hopen hgrid hslot hout => ?_, fun y horphan hy => exec_echoRecord hu hx hc0 horphan hy, exec_frameBoundary hu,
    fun hgrid hactive => ?_⟩
  · have others : ∀ y i, i ≠ j → streamAt (putStream (decidedState u j x c n) j y) i = streamAt u i := fun y i hi => by
      rw [streamAt_putStream_ne _ _ hi]
      unfold decidedState
      split <;> exact streamAt_putStream_ne _ _ hi
    have here : streamAt (decidedState u j x c n) j = some (withDecision u x c n) := by
      unfold decidedState
      split <;> exact streamAt_putStream ..
    have same : putStream (decidedState u j x c n) j (withDecision u x c n) = decidedState u j x c n := by
      unfold decidedState
      split
      · exact congrArg (fun v => satAdd v _ 1) (putStream_putStream ..)
      · exact putStream_putStream ..
    have frame : ∀ y, { putStream (decidedState u j x c n) j y with streams := u.streams, regs := u.regs } = u := fun y => by
      unfold decidedState
      generalize withDecision u x c n = z
      split
      · rfl
      · rfl
    have decided := slotAt_withDecision u x c n
    rw [exec_slotDecided hu hx hc0 hc hdir horphan hskip hopen hgrid hslot hout]
    split
    · refine ⟨_, countBad c n (withDecision u x c n), rfl, streamAt_putStream .., ?_, ?_, others _, frame _⟩
      · rw [slotAt_countBad, decided]
      · rw [slotAt_countBad, decided]
        refine congrArg some ?_
        unfold slotOutcome
        cases x.firstAccepted <;> rfl
    · refine ⟨_, withDecision u x c n, rfl, here, ?_, ?_, ?_, ?_⟩
      · rw [decided]
      · rw [decided]
        refine congrArg some ?_
        unfold slotOutcome
        cases x.firstAccepted <;> rfl
      · rw [← same]
        exact others _
      · rw [← same]
        exact frame _
  · have sent := core_echoesSent u
    have carriers : (echoesSent u).carriers = u.carriers := core_carriers sent
    have acts : (echoesSent u).acts = u.acts := core_acts sent
    refine ⟨_, exec_echo hu hgrid hactive, carriers, acts, ?_⟩
    rw [core_streams sent]

/-- Settles O26: the packet's pips and samples by whether the chip combines, a port's packet by its type and by whether its wait is recorded. -/
theorem uplinkAndSendingComplete : Obligations.UplinkAndSendingComplete := by
  unfold Obligations.UplinkAndSendingComplete
  intro t j n s u hu
  refine ⟨fun x c pip q reduced data hx hc hmember horphan hpartner hready halone harray => ?_, fun q x hup hx hstart hfresh => ?_,
    fun q x hx => exec_packetOverrun hu hx⟩
  · rcases Bool.eq_false_or_eq_true (combines u) with hcomb | hcomb
    case inr =>
      obtain ⟨hq, hsum, hpip, hreduced, hdata⟩ := halone hcomb
      subst hreduced
      have queued := exec_ulPacketQueued hu hx hc hmember horphan hpartner hready (by simp only [hcomb, hq, Bool.false_eq_true, if_false])
      simp only [hsum, hcomb, Bool.false_eq_true, if_false, Option.map_none, Option.getD_none, Option.any_none, ← hpip, ← hdata] at queued
      exact queued
    case inl =>
      obtain ⟨⟨y, hsum, hq, hpip, hreduced⟩, hdata⟩ := harray hcomb
      have queued := exec_ulPacketQueued hu hx hc hmember horphan hpartner hready (by simp only [hcomb, hsum, hq, if_true, Option.map_some])
      simp only [hsum, hcomb, if_true, Option.map_some, Option.getD_some, Option.any_some, ← hpip, ← hreduced, ← hdata] at queued
      exact queued
  · intro v
    refine ⟨fun hm htype => ?_, fun hm htype => ?_, fun m hm hwait htype => ?_⟩
    · rw [exec_packetSend hu hup hx hstart hfresh (by simp [hm]), hm, if_neg htype]
      rfl
    · rw [exec_packetSend hu hup hx hstart hfresh (by simp [hm]), hm, if_pos htype]
      rfl
    · rw [exec_packetSend hu hup hx hstart hfresh (by simpa [hm] using hwait), hm, if_neg htype]
      rfl

end

section
/-!
Calibration jobs and their runs (R230, R278-R281, R362-R365).
-/
namespace Sys2Proof.Machine

variable {t : Nat} {c : Cmd} {s u : State} {f : Flight}

/-! ## The commands -/

section
variable (hu : u = advance t s)
include hu

/-- The job that a CAL_CREATE makes in slot `i` with the banks from `b` on (R362). -/
def newCalJob (u : State) (c : Cmd) (i b : Nat) : CalJob :=
  { gen := nextGen u 7 i, kind := p8 c 16, prio := p8 c 17, grantWait := p16 c 18, bank := b, banks := p8 c 20, txMask := p64 c 24,
    rxMask := p64 c 32, run := none }

theorem exec_calCreate {i b : Nat} (h : mayRun u 0x30 c [] f) (hkind : p8 c 16 ≤ 3) (hprio : p8 c 17 ≤ 1) (hwait : p16 c 18 ≠ 0) (hbanks : p8 c 20 ≤ 8)
    (hmasks : calMasksGood u (p8 c 16) (p64 c 24) (p64 c 32) (p8 c 20) = true) (hfree : lowestFree u.cals 16 = some i)
    (hnone : p8 c 20 = 0 → b = 0) (hrun : p8 c 20 ≠ 0 → findRun u (p8 c 20) = some b) :
    exec (.calCreate t c) s = .next
      (complete (ownBanks { takeGen u 7 i with cals := assocPut u.cals i (newCalJob u c i b) } (bankRun b (p8 c 20)) (mkHandle 7 (nextGen u 7 i) i))
        f (mkHandle 7 (nextGen u 7 i) i)) := by
  show execCalCreate t c s = _
  have good : (decide (3 < p8 c 16) || decide (1 < p8 c 17) || decide (p16 c 18 = 0) || decide (8 < p8 c 20)
      || !calMasksGood u (p8 c 16) (p64 c 24) (p64 c 32) (p8 c 20)) = false := by
    simp [hkind, hprio, hwait, hbanks, hmasks]
  have banks : (if p8 c 20 = 0 then some 0 else findRun u (p8 c 20)) = some b := by
    split
    case isTrue h0 => rw [hnone h0]
    case isFalse h0 => exact hrun h0
  rw [execCalCreate, runCmd_of_mayRun (more := fun _ => []) hu h]
  simp only [hfree, banks, good, immediate_passed (sched_of_mayRun h rfl), newCalJob]

/-- CAL_START is refused where its window meets that of a job it shares something with (R365). -/
theorem exec_calStart {j : CalJob} (h : mayRun u 0x31 c [] f) (hj : calAt u (handleIdx c.handle) = some j)
    (hwin : inWindow u c f [(0x31, c.handle, 0)]) :
    exec (.calStart t c) s = .next (if calClash u j c.actTick then reject u f stNoResource else accept u f [(0x31, c.handle, 0)] []) := by
  show execCalStart t c s = _
  obtain rfl := cmd_of_mayRun h
  rw [execCalStart, runCmd_of_mayRun (more := fun _ => []) hu h]
  simp only [hj]
  rw [schedulable_inWindow (sched_of_scheduledOnly h rfl) hwin]
  split <;> rfl

theorem exec_calDestroy {j : CalJob} (h : mayRun u 0x32 c [] f) (hj : calAt u (handleIdx c.handle) = some j) :
    let v := cancelNaming (if j.run.isSome then abortRun u (handleIdx c.handle) 0 else u) c.handle
    exec (.calDestroy t c) s = .next
      (complete (releaseBanks { v with cals := assocDel v.cals (handleIdx c.handle) } c.handle) f 0) := by
  intro v
  show execCalDestroy t c s = _
  rw [execCalDestroy, runCmd_of_mayRun (more := fun _ => []) hu h, immediate_passed (sched_of_mayRun h rfl)]
  simp only [hj]
  rfl

end

/-! ## The run of a job -/

section
variable {i : Nat} {j : CalJob} {r : CalRun} (hu : u = settleCoex (advance t s)) (hj : calAt u i = some j) (hr : j.run = some r)
include hu hj hr

theorem exec_grantWaitExpiry (hphase : r.phase = .asking) (hdue : r.start + grantTicks j ≤ u.time.tick) :
    exec (.grantWaitExpiry t i) s = .next (doneRun u i 1) := by
  show execGrantWaitExpiry t i s = _
  simp only [execGrantWaitExpiry, ← hu, hj, hr, hphase, hdue, decide_true, beq_self_eq_true, Bool.and_self, if_true]

theorem exec_calEmissionStart_free (hphase : r.phase = .granted) (hdue : r.emitAt ≤ u.time.tick) (hpeer : u.radio.coex.gntO = false) :
    exec (.calEmissionStart t i) s = .next
      (if coexEn u && !flag u F.RAD_COEX_GNT_I then abortRun (modRun u i fun x => { x with phase := .emitting }) i 2
       else modRun u i fun x => { x with phase := .emitting }) := by
  show execCalEmissionStart t i s = _
  have regs : ∀ g, (modRun u i g).regs = u.regs := fun g => by simp only [modRun, hj]
  have wires : ∀ g, (coexEn (modRun u i g) && !flag (modRun u i g) F.RAD_COEX_GNT_I) = (coexEn u && !flag u F.RAD_COEX_GNT_I) := fun g => by
    have reads : ∀ e, getF (modRun u i g) e = getF u e := fun e => by rw [getF, getF, getR, getR, regs]
    rw [coexEn, coexEn, flag, flag, flag, flag, reads, reads]
  simp only [execCalEmissionStart, ← hu, hj, hr, hphase, hdue, hpeer, decide_true, beq_self_eq_true, Bool.and_self, Bool.not_false, if_true, wires]

theorem exec_calEmissionStart_held (hpeer : u.radio.coex.gntO = true) : exec (.calEmissionStart t i) s = .next u := by
  show execCalEmissionStart t i s = _
  simp only [execCalEmissionStart, ← hu, hj, hr, hpeer, Bool.not_true, Bool.and_false, Bool.false_eq_true, if_false]

/-- The records of a step, in ascending receiver order (R364). -/
def stepRecords (j : CalJob) (r : CalRun) (meas : List (Nat × Nat × Nat × Nat)) : List Byte :=
  ((List.range (receivers j r.step).length).map fun k =>
    calRecord ((emitters j).getD r.step 0xFE) ((receivers j r.step).getD k 0) (meas.getD k (0, 0, 0, 0))).flatten

/-- The run once its step has ended. -/
def afterStep (u : State) (j : CalJob) (r : CalRun) (meas : List (Nat × Nat × Nat × Nat)) : CalRun :=
  { r with
    step := r.step + 1
    emitAt := r.emitAt + stepTicks u
    records := r.records + (receivers j r.step).length
    bad := r.bad || (List.range (receivers j r.step).length).any fun k => (meas.getD k (0, 0, 0, 0)).1 % 3 != 0 }

theorem exec_calStepEnd {meas : List (Nat × Nat × Nat × Nat)} (hphase : r.phase = .emitting) (hstep : r.step < stepsOf j)
    (hdue : r.emitAt + stepTicks u ≤ u.time.tick) :
    exec (.calStepEnd t i meas) s = .next { u with
      store := memWrite u.store (524288 * j.bank + 16 * r.records) (stepRecords j r meas)
      cals := assocPut u.cals i { j with run := some (afterStep u j r meas) } } := by
  show execCalStepEnd t i meas s = _
  have found : assocGet u.cals i = some j := hj
  have active : (r.phase == .emitting && decide (r.step < stepsOf j) && decide (r.emitAt + stepTicks u ≤ u.time.tick)) = true := by
    simp [hphase, hstep, hdue]
  simp only [execCalStepEnd, ← hu, hr, active, if_true, modRun, calAt, found, Option.map_some]
  rfl

theorem exec_calDone (hphase : r.phase = .emitting ∨ r.phase = .image) (hsteps : runSteps j ≤ r.step) :
    exec (.calDone t i) s = .next (doneRun u i (if r.bad then 2 else 0)) := by
  show execCalDone t i s = _
  have active : ((r.phase == .emitting || r.phase == .image) && decide (runSteps j ≤ r.step)) = true := by
    simpa [hsteps] using hphase
  simp only [execCalDone, ← hu, hj, hr, active, if_true]

theorem exec_orxImageCalEnd {found : List (Nat × Nat)} (hphase : r.phase = .image) (hstep : r.step = 0) (hdue : r.start + 1966080 ≤ u.time.tick) :
    exec (.orxImageCalEnd t i found) s = .next (modRun
      ((List.range (bitsSet (calOrx j) 4).length).foldl (fun v k =>
        setN (setN v (A.ORX_IRC ((bitsSet (calOrx j) 4).getD k 0)) (found.getD k (0, 0)).1)
          (A.ORX_IRC_1 ((bitsSet (calOrx j) 4).getD k 0)) (found.getD k (0, 0)).2) u) i fun x => { x with step := 1 }) := by
  show execOrxImageCalEnd t i found s = _
  simp only [execOrxImageCalEnd, ← hu, hj, hr, hphase, hstep, hdue, decide_true, beq_self_eq_true, Bool.and_self, if_true]

end

/-! ## The wires -/

theorem foldl_time {α : Type} {g : State → α → State} (hg : ∀ v x, (g v x).time = v.time) (l : List α) (v : State) :
    (l.foldl g v).time = v.time := by
  induction l generalizing v with
  | nil => rfl
  | cons x l ih => rw [List.foldl_cons, ih, hg]

theorem settleCoex_time (v : State) : (settleCoex v).time = v.time :=
  foldl_time (fun v x => by split_ifs <;> rfl) _ _

theorem modRun_time (v : State) (i : Nat) (f : CalRun → CalRun) : (modRun v i f).time = v.time := by
  unfold modRun
  split <;> rfl

theorem askAgain_time (v : State) (p : CalRun → Bool) : (askAgain v p).time = v.time :=
  foldl_time (fun v x => by split_ifs; exacts [modRun_time .., rfl]) _ _

section
variable (hu : u = settleCoex (advance t s)) (hen : coexEn u = true) (hedge : onHk u = true)
include hu hen hedge

theorem exec_coexGntISeen (level : Bool) : exec (.coexGntISeen t level) s = .next
    (if level then grantJobs (setFlag u F.RAD_COEX_GNT_I level) (setFlag u F.RAD_COEX_GNT_I level).time.tick
     else
      let v := askAgain (setFlag u F.RAD_COEX_GNT_I level) fun r => (r.phase == .granted || r.phase == .emitting) && r.grantAt == some u.time.tick
      ((calRuns v).filter fun x => usesWires x && isEmitting x).foldl (fun s x => abortRun s x.1 2) v) := by
  show execCoexGntISeen t level s = _
  simp only [execCoexGntISeen, ← hu, hen, hedge, Bool.not_true, Bool.or_self, Bool.false_eq_true, if_false]
  rfl

theorem exec_coexReqISeen_high (hreq : flag u F.RAD_COEX_REQ_I = false) : exec (.coexReqISeen t true) s = .next
    (if mayGrantPeer (setFlag u F.RAD_COEX_REQ_I true) then
      settleCoex (raiseGnt (setFlag u F.RAD_COEX_REQ_I true) (setFlag u F.RAD_COEX_REQ_I true).time.now)
     else setFlag u F.RAD_COEX_REQ_I true) := by
  show execCoexReqISeen t true s = _
  have changed : (!coexEn u || !onHk u || decide (flag u F.RAD_COEX_REQ_I = true)) = false := by simp [hen, hedge, hreq]
  simp only [execCoexReqISeen, ← hu, changed, Bool.false_eq_true, if_false, if_true]

/-- A request that goes takes the grant back: before its rise it is never made, after it the peer's grant is reported (R280). -/
theorem exec_coexReqISeen_low (hreq : flag u F.RAD_COEX_REQ_I = true) :
    let v := setFlag u F.RAD_COEX_REQ_I false
    let w := noteHeld (modCoex (driveCoex v 2 false v.time.now) fun x => { x with gntO := false })
    let x := post w evCoexPeerGranted (evData [(16, 4, w.radio.coex.held)])
    let y := askAgain (settleCoex (modCoex x fun y => { y with held := 0, heldSince := none })) (·.phase == .asking)
    exec (.coexReqISeen t false) s = .next
      (if v.radio.coex.gntO && decide (v.time.now ≤ v.radio.coex.gntAt) then grantJobs (holdPeer v) v.time.tick
       else if v.radio.coex.gntO then grantJobs y x.time.tick else v) := by
  intro v w x y
  show execCoexReqISeen t false s = _
  have changed : (!coexEn u || !onHk u || decide (flag u F.RAD_COEX_REQ_I = false)) = false := by simp [hen, hedge, hreq]
  simp only [execCoexReqISeen, ← hu, changed, Bool.false_eq_true, if_false]
  rfl

end

end Sys2Proof.Machine
end

section
/-!
Captures (R230-R235): jobs, starts and ends.
-/
namespace Sys2Proof.Machine

variable {t : Nat} {c : Cmd} {s u : State} {f : Flight} (hu : u = advance t s)
include hu

/-- The job that a CAP_CREATE makes in slot `i` with the banks from `b` on. -/
def newCapJob (u : State) (c : Cmd) (i b : Nat) : CapJob :=
  { gen := nextGen u 4 i, source := p8 c 16, index := p8 c 17, dest := p8 c 18, length := p32 c 20, addr := p64 c 24,
    stream := p32 c 32, bank := b, written := 0, taken := 0, ended := false }

theorem exec_capCreate {i b n : Nat} (h : mayRun u 0x34 c (if p8 c 16 = 3 then [(2, p32 c 32)] else []) f) (hsource : p8 c 16 ≤ 3) (hdest : 1 ≤ p8 c 18)
    (hdest' : p8 c 18 ≤ 3) (hlen : 1 ≤ p32 c 20) (hlen' : p32 c 20 ≤ 2 ^ 28)
    (horx : p8 c 16 = 0 → orxPresent u (p8 c 17) = true ∧ p32 c 20 ≤ 65536) (hpath : p8 c 16 = 1 ∨ p8 c 16 = 2 → pathPresent u (p8 c 17) = true)
    (hregion : p8 c 18 ≠ 1 → regionBad (if p8 c 18 = 2 then 2 else 0) (p64 c 24) (8 * p32 c 20) = false) (hfree : lowestFree u.caps 32 = some i)
    (hn : n = (if p8 c 18 = 1 then ceilDiv (8 * p32 c 20) 524288 else 0)) (hrun : (if n = 0 then some 0 else findRun u n) = some b) :
    exec (.capCreate t c) s = .next
      (complete (ownBanks { takeGen u 4 i with caps := assocPut u.caps i (newCapJob u c i b) } (bankRun b n) (mkHandle 4 (nextGen u 4 i) i)) f
        (mkHandle 4 (nextGen u 4 i) i)) := by
  show execCapCreate t c s = _
  have orx : (decide (p8 c 16 = 0) && (!orxPresent u (p8 c 17) || decide (65536 < p32 c 20))) = false := by
    simpa using horx
  have path : ((decide (p8 c 16 = 1) || decide (p8 c 16 = 2)) && !pathPresent u (p8 c 17)) = false := by
    simpa [imp_iff_not_or] using hpath
  have region : (p8 c 18 != 1 && regionBad (if p8 c 18 = 2 then 2 else 0) (p64 c 24) (8 * p32 c 20)) = false := by
    simpa using hregion
  rw [execCapCreate, runCmd_of_mayRun (more := fun _ => if p8 c 16 = 3 then [(2, p32 c 32)] else []) hu h]
  simp only [hfree, ← hn, hrun, orx, path, region, Nat.not_lt.mpr hsource, Nat.not_lt.mpr hdest, Nat.not_lt.mpr hdest', Nat.not_lt.mpr hlen,
    Nat.not_lt.mpr hlen', decide_false, Bool.or_self, immediate_passed (sched_of_mayRun h rfl), newCapJob]

theorem exec_capStart (h : mayRun u 0x35 c [] f) (hwin : sched c = true → inWindow u c f [(0x35, c.handle, 0)]) :
    exec (.capStart t c) s = .next
      (if sched c then accept u f [(0x35, c.handle, 0)] [] else complete (startCapture u c.handle u.time.tick) f 0) := by
  show execCapStart t c s = _
  obtain rfl := cmd_of_mayRun h
  rw [execCapStart, runCmd_of_mayRun (more := fun _ => []) hu h, schedulable_passed hwin]

theorem exec_capDestroy (h : mayRun u 0x36 c [] f) :
    let v : State := { u with
      caps := assocDel u.caps (handleIdx c.handle)
      captures := u.captures.map fun x => if x.handle = c.handle && x.stop.isNone then { x with stop := some (u.time.tick, stCancelled) } else x }
    exec (.capDestroy t c) s = .next
      (complete (periphGone (releaseBanks (cancelNaming v c.handle) c.handle) (handleIdx c.handle)) f 0) := by
  intro v
  show execCapDestroy t c s = _
  rw [execCapDestroy, runCmd_of_mayRun (more := fun _ => []) hu h, immediate_passed (sched_of_mayRun h rfl)]

section
variable {job : Nat} {x : Capture} (hx : u.captures.find? (fun x => x.job = job && x.first.isNone && x.stop.isNone) = some x)
  (hdue : firstSample u x ≤ u.time.tick)
include hx hdue

theorem exec_captureStart_path (hsource : x.source ≠ 0) :
    exec (.captureStart t job) s = .next (modCapture u x.handle fun y => { y with
      first := some (firstSample u x)
      rates := if y.source = 3 then [(firstSample u x, 0, match carrierAt u x.carrier with | some c => c.k | none => 1)] else [] }) := by
  show execCaptureStart t job s = _
  simp only [execCaptureStart, ← hu, hx, Nat.not_lt.mpr hdue, if_false, bne_iff_ne.mpr hsource, if_true] <;>
    rfl

theorem exec_captureStart_refused {st : Nat} (hsource : x.source = 0) (hst : orxRefusal u x = some st) :
    exec (.captureStart t job) s = .next
      (modCapture u x.handle fun y => { y with first := some (firstSample u x), stop := some (firstSample u x, st) }) := by
  show execCaptureStart t job s = _
  simp only [execCaptureStart, ← hu, hx, Nat.not_lt.mpr hdue, if_false, hsource, bne_self_eq_false, Bool.false_eq_true, hst]

theorem exec_captureStart_orx (hsource : x.source = 0) (hst : orxRefusal u x = none) (hfree : hostHolds u x.index = none) :
    exec (.captureStart t job) s = .next
      (modCapture (setF (takeOrx u x.index 2) (F.ORX_STAT_SEL x.index)
        (getF (takeOrx u x.index 2) (F.ORX_CTRL_HOST_SEL x.index))) x.handle fun y => { y with first := some (firstSample u x) }) := by
  show execCaptureStart t job s = _
  simp only [execCaptureStart, ← hu, hx, Nat.not_lt.mpr hdue, if_false, hsource, bne_self_eq_false, Bool.false_eq_true, hst, hfree]

end

section
variable {job w : Nat} {x : Capture} (hx : u.captures.find? (fun x => x.job = job && (captureResult u x w).isSome) = some x)
include hx

theorem exec_captureDone_closed (hdest : x.dest = 2) (htrained : dramTrained u = true) (hclosed : portServes (disturbSr u) = false) :
    exec (.captureDone t job w) s = .next (disturbSr u) := by
  show execCaptureDone t job w s = _
  simp only [execCaptureDone, ← hu, hx, hdest, htrained, decide_true, Bool.and_self, throughPort_closed hclosed]

omit hu hx in
/-- The test whether an ORx is idle again, as the spec's conjunction. -/
theorem ite_idleOrx (v a : State) :
    (if x.source = 0 && getF v (F.ORX_STAT_USER x.index) == 2 && (hostHolds v x.index).isNone then a else v)
      = if x.source = 0 ∧ getF v (F.ORX_STAT_USER x.index) = 2 ∧ hostHolds v x.index = none then a else v := by
  simp only [Bool.and_eq_true, decide_eq_true_eq, beq_iff_eq, Option.isNone_iff_eq_none, and_assoc]

omit hu hx in
/-- The records that the channel has not brought yet are written and the job shows the end. -/
def captureEnded (y : State) (x : Capture) (n : Nat) : State :=
  let v := writeRecords y x ((captureData y x n).drop (8 * brought y x)) (8 * brought y x)
  { v with
    captures := v.captures.filter (fun y => y.handle != x.handle)
    caps := match assocGet v.caps x.job with
      | some j => if mkHandle 4 j.gen x.job = x.handle then assocPut v.caps x.job { j with written := n, ended := true } else v.caps
      | none => v.caps }

theorem exec_captureDone_served {y : State} {n st : Nat} (hserved : x.dest = 2 → dramTrained u = true → y = disturbSr u ∧ portServes y = true)
    (hdirect : x.dest ≠ 2 ∨ dramTrained u = false → y = u) (hresult : captureResult y x w = some (n, st)) :
    let v := captureEnded y x n
    let v := if x.source = 0 ∧ getF v (F.ORX_STAT_USER x.index) = 2 ∧ hostHolds v x.index = none then setF v (F.ORX_STAT_USER x.index) 0 else v
    exec (.captureDone t job w) s = .next
      (periphEnded (postAt v 0x0050 (x.first.getD x.tick) (evData [(16, 4, x.handle), (20, 1, st), (24, 4, n)])) x.job) := by
  intro v v'
  show execCaptureDone t job w s = _
  have port : ∀ k : State → State, throughPort (decide (x.dest = 2) && dramTrained u) k u = k y := fun k => by
    by_cases need : x.dest = 2 ∧ dramTrained u = true
    · obtain ⟨hdest, htrained⟩ := need
      obtain ⟨hy, hserves⟩ := hserved hdest htrained
      rw [hdest, htrained]
      exact throughPort_served hy hserves k
    · have free : x.dest ≠ 2 ∨ dramTrained u = false := by
        rwa [Classical.not_and_iff_not_or_not, Bool.not_eq_true] at need
      have unused : (decide (x.dest = 2) && dramTrained u) = false := by simpa [imp_iff_not_or] using free
      rw [unused, throughPort_unneeded, hdirect free]
  have idle : v' = _ := (ite_idleOrx v _).symm
  rw [idle]
  simp only [execCaptureDone, ← hu, hx, port, hresult]
  rfl

end

end Sys2Proof.Machine
end

section
open Sys2Proof Sys2Proof.Machine

/-- Settles O46: each command by its rule; CAL_START by whether windows meet. -/
theorem calibrationObjectsComplete : Obligations.CalibrationObjectsComplete := by
  unfold Obligations.CalibrationObjectsComplete
  intro t c s u f hu
  refine ⟨fun i b h hkind hprio hwait hbanks hmasks hfree hnone hrun => exec_calCreate hu h hkind hprio hwait hbanks hmasks hfree hnone hrun,
    fun j h hj hclash hwin => ?_, fun j h hj hclash hwin => ?_, fun j h hj => exec_calDestroy hu h hj⟩
  · rw [exec_calStart hu h hj hwin, if_neg (by simp [hclash])]
  · rw [exec_calStart hu h hj hwin, if_pos hclash]

/-- Settles O47: the run by its phase, the wires by the level that is seen. -/
theorem calibrationRunsComplete : Obligations.CalibrationRunsComplete := by
  unfold Obligations.CalibrationRunsComplete
  intro t i j r s u hu hj hr
  refine ⟨exec_grantWaitExpiry hu hj hr, exec_calEmissionStart_free hu hj hr, fun meas hphase hstep hdue => ?_, exec_calDone hu hj hr,
    fun found => exec_orxImageCalEnd hu hj hr, fun _ hpeer => exec_calEmissionStart_held hu hj hr hpeer, fun hen hedge => exec_coexGntISeen hu hen hedge true,
    fun hen hedge => exec_coexGntISeen hu hen hedge false, fun hen hedge hreq => exec_coexReqISeen_high hu hen hedge hreq, fun hen hedge hreq => ?_⟩
  · refine ⟨_, exec_calStepEnd hu hj hr hphase hstep hdue, rfl, ⟨{ j with run := some (afterStep u j r meas) }, afterStep u j r meas, ?_, rfl, rfl, rfl⟩, rfl⟩
    exact assocGet_put_self ..
  · have low := exec_coexReqISeen_low hu hen hedge hreq
    intro v
    refine ⟨fun hpeer => ?_, fun hpeer hrise => ?_, fun hpeer hrise => ?_⟩
    · have down : v.radio.coex.gntO = false := hpeer
      have stays : (v.radio.coex.gntO && decide (v.time.now ≤ v.radio.coex.gntAt)) = false := by rw [down]; rfl
      rw [low, if_neg (Bool.eq_false_iff.mp stays), if_neg (Bool.eq_false_iff.mp down)]
    · have up : v.radio.coex.gntO = true := hpeer
      have due : v.time.now ≤ v.radio.coex.gntAt := hrise
      have unmade : (v.radio.coex.gntO && decide (v.time.now ≤ v.radio.coex.gntAt)) = true := by rw [up, decide_eq_true due]; rfl
      rw [low, if_pos unmade]
    · have up : v.radio.coex.gntO = true := hpeer
      have late : ¬ v.time.now ≤ v.radio.coex.gntAt := Nat.not_le.mpr hrise
      have made : (v.radio.coex.gntO && decide (v.time.now ≤ v.radio.coex.gntAt)) = false := by rw [up, decide_eq_false late]; rfl
      intro w x y
      have same : y.time = x.time := (askAgain_time ..).trans (settleCoex_time _)
      rw [low, if_neg (Bool.eq_false_iff.mp made), if_pos up, same]

/-- Settles O48: the start of a capture by its source, its end by whether it needs the DRAM port. -/
theorem capturesComplete : Obligations.CapturesComplete := by
  unfold Obligations.CapturesComplete
  intro t job c s u f hu
  refine ⟨fun i b n h hsource hdest hdest' hlen hlen' horx hpath hregion hfree hn hrun =>
      exec_capCreate hu h hsource hdest hdest' hlen hlen' horx hpath hregion hfree hn hrun,
    exec_capStart hu, exec_capDestroy hu, fun x hx hdue => ⟨exec_captureStart_path hu hx hdue, fun st => exec_captureStart_refused hu hx hdue,
      exec_captureStart_orx hu hx hdue⟩,
    fun x w hx => exec_captureDone_closed hu hx, fun x n st w y hx hserved hdirect hresult =>
      exec_captureDone_served hu hx hserved hdirect hresult⟩

end

section
/-!
The commands of the pre-distortion, the arrival of a coefficient block, and the visits of the adaptation firmware (R217-R233).
-/
namespace Sys2Proof.Machine

variable {t k : Nat} {c : Cmd} {s u : State} {f : Flight} (hu : u = advance t s)
include hu

/-! ## Commands -/

theorem exec_dpdPolicy (h : mayRun u 0x38 c [] f) (hmode : p8 c 16 ≤ 3) (hshare : p8 c 17 ≤ 100) (hrate : 1 ≤ p16 c 22) (hrate' : p16 c 22 ≤ 1000)
    (hdb : 1 ≤ p8 c 24) (hdb' : p8 c 24 ≤ 40) (hmask : maskWithin (p64 c 32) (nPaths u) = true)
    (hwin : sched c = true → inWindow u c f ((bitsSet (p64 c 32) 64).map fun n => (0x38, n, 0))) :
    exec (.dpdPolicy t c) s = .next
      (if sched c then accept u f ((bitsSet (p64 c 32) 64).map fun n => (0x38, n, 0)) [] else complete (applyPolicy u c) f 0) := by
  show execDpdPolicy t c s = _
  obtain rfl := cmd_of_mayRun h
  have good : (decide (3 < p8 f.cmd 16) || decide (100 < p8 f.cmd 17) || decide (p16 f.cmd 22 < 1) || decide (1000 < p16 f.cmd 22)
      || decide (p8 f.cmd 24 < 1) || decide (40 < p8 f.cmd 24) || !maskWithin (p64 f.cmd 32) (nPaths u)) = false := by
    simp only [hmask, Nat.not_lt.mpr hmode, Nat.not_lt.mpr hshare, Nat.not_lt.mpr hrate, Nat.not_lt.mpr hrate', Nat.not_lt.mpr hdb,
      Nat.not_lt.mpr hdb', decide_false, Bool.not_true, Bool.or_self]
  rw [execDpdPolicy, runCmd_of_mayRun (more := fun _ => []) hu h, good, schedulable_passed hwin]

section
variable (hpath : pathPresent u (p8 c 16) = true) (hbin : p8 c 17 ≤ 15) (hregion : regionBad (p8 c 18) (p64 c 24) 256 = false)
include hpath hbin hregion

omit hu in
theorem blockParams_good : (!pathPresent u (p8 c 16) || decide (15 < p8 c 17) || regionBad (p8 c 18) (p64 c 24) 256) = false := by
  simp [hpath, hbin, hregion]

theorem exec_dpdCoefLoad_manual (h : mayRun u 0x39 c [] f) (hwin : inWindow u c f [(0x39, p8 c 16, p8 c 17)])
    (hpend : loadPending u (p8 c 16) (p8 c 17) = false) (hmode : modeOf u (p8 c 16) = 3) (hdown : regionDown u (p8 c 18) (p64 c 24) 256 = false) :
    exec (.dpdCoefLoad t c) s = .next
      (if p8 c 18 = 0 then readSource (setStage u f.id .running) f (p64 c 24) 256 else setStage u f.id .running) := by
  show execDpdCoefLoad t c s = _
  obtain rfl := cmd_of_mayRun h
  simp only [execDpdCoefLoad, runCmd_of_mayRun (more := fun _ => []) hu h, blockParams_good hpath hbin hregion, hpend, hmode, hdown,
    Bool.false_eq_true, if_false, if_true, lateChecks_passed fun _ => hwin]

theorem exec_dpdCoefLoad_busy (h : mayRun u 0x39 c [] f) (hwin : inWindow u c f [(0x39, p8 c 16, p8 c 17)])
    (hpend : loadPending u (p8 c 16) (p8 c 17) = false) (hmode : modeOf u (p8 c 16) ≠ 3) :
    exec (.dpdCoefLoad t c) s = .next (reject u f stBusy) := by
  show execDpdCoefLoad t c s = _
  obtain rfl := cmd_of_mayRun h
  obtain ⟨hlead, hfar, hkeys, -⟩ := hwin
  have busy : ∀ mem, lateChecks u f false [(0x39, p8 f.cmd 16, p8 f.cmd 17)] (some stBusy) mem = some stBusy := fun mem => by
    rw [lateChecks_timely (sched_of_scheduledOnly h rfl) hlead hfar, hkeys]
    rfl
  simp only [execDpdCoefLoad, runCmd_of_mayRun (more := fun _ => []) hu h, blockParams_good hpath hbin hregion, hpend, hmode,
    Bool.false_eq_true, if_false, busy]

theorem exec_dpdDump (h : mayRun u 0x3A c [] f) (hdown : regionDown u (p8 c 18) (p64 c 24) 256 = false) :
    exec (.dpdDump t c) s = .next (complete (match p8 c 18 with
      | 0 => hostWrite u (p64 c 24) 256 (leNat (liveBlock u (p8 c 16) (p8 c 17)))
      | 1 => { u with store := memWrite u.store (p64 c 24) (liveBlock u (p8 c 16) (p8 c 17)) }
      | _ => { disturbSr u with dram := memWrite (disturbSr u).dram (p64 c 24) (liveBlock u (p8 c 16) (p8 c 17)) }) f 0) := by
  show execDpdDump t c s = _
  rw [execDpdDump, runCmd_of_mayRun (more := fun _ => []) hu h, blockParams_good hpath hbin hregion, hdown,
    immediate_passed (sched_of_mayRun h rfl)] <;>
    rfl

end

/-- The block of a DPD_COEF_LOAD from host memory has arrived whole: its TAG decides (R219). -/
theorem exec_sourceDataReadComplete_coef {bytes whole : List Byte} (hawake : asleep u = false)
    (hf : sourceFlight u f.cmd.ring f.cmd.tag = some f) (hop : f.cmd.opcode = 0x39) (hspace : p8 f.cmd 18 = 0) (hrest : f.rest.2 = 0)
    (hwhole : whole = f.got ++ bytes) (hlen : whole.length = 256) :
    exec (.sourceDataReadComplete t f.cmd.ring f.cmd.tag bytes) s = .next (pumpShared
      (if !blockTagGood u whole then reject (keepSource u f []) f stBadParam
       else if 512 ≤ u.acts.length then reject (keepSource u f []) f stQueueFull
       else accept (keepSource u f []) f [(0x39, p8 f.cmd 16, p8 f.cmd 17)] (whole.take 252 ++ [255, 255, 255, 255]))) := by
  have cut : (whole ++ List.replicate 256 0).take 256 = whole := by rw [← hlen, List.take_left]
  rw [exec_sourceDataReadComplete_whole hu hawake hf hrest, ← hwhole]
  simp only [sourceWhole, hop, coefArrived, hspace, cut, Nat.reduceEqDiff, if_false, if_true, OfNat.zero_ne_ofNat, decide_false, Bool.and_false,
    throughPort_unneeded, Bool.false_and, Bool.false_eq_true]
  rfl

theorem exec_dpdTermWrite {data : Nat} (hawake : asleep u = false) (hk : k < 48) :
    exec (.dpdTermWrite t k data) s = .next (writeTerm (countCfg u 1) k data) := by
  show execDpdTermWrite t k data s = _
  rw [execDpdTermWrite, byWrite_awake hu hawake, if_pos hk]

omit hu in
theorem liveBlock_writeTerm (v : State) (data n b : Nat) : liveBlock (writeTerm v k data) n b = bypassBlock := rfl

/-! ## The visits of the adaptation firmware -/

section
variable (horx : orxPresent u k = true) (htime : tickValid u = true) (hdue : u.time.tick = (orxSched u k).slotAt)
  (hvisit : (orxSched u k).visit = none) (hholdT : u.dpd.holdT ≠ 2) (hholdO : u.dpd.holdO ≠ 2) (huser : getF u (F.ORX_STAT_USER k) ≠ 4)
include horx htime hdue hvisit hholdT hholdO huser

/-- A slot that starts on its tick with nothing under way renews the schedule, and is of the pre-distortion or of the monitor (R226, R231). -/
theorem exec_dpdSlotStart :
    let v := modOrx u k fun o => { o with slotQ := (orxSched u k).slotQ + 1, slotAt := u.time.tick + slotTicks u, slotLen := slotTicks u }
    exec (.dpdSlotStart t k) s = .next
      (if isDpdSlot (shareOf v k) (orxSched u k).slotQ then startDpdSlot v k
       else if orxCaptures v k && getF v (F.ORX_STAT_USER k) == 0 then setF v (F.ORX_STAT_USER k) 4 else v) := by
  intro v
  show execDpdSlotStart t k s = _
  have early : (!orxPresent u k || !tickValid u || decide (u.time.tick < (orxSched u k).slotAt)
      || (u.time.tick - (orxSched u k).slotAt) % max 1 (orxSched u k).slotLen != 0) = false := by
    simp [horx, htime, hdue]
  have index : (orxSched u k).slotQ + (u.time.tick - (orxSched u k).slotAt) / max 1 (orxSched u k).slotLen = (orxSched u k).slotQ := by
    simp [hdue]
  simp only [execDpdSlotStart, ← hu, early, index, hvisit, hholdT, hholdO, Bool.false_eq_true, if_false]
  exact congrArg (fun w => Host.Outcome.next (if isDpdSlot (shareOf w k) (orxSched u k).slotQ then startDpdSlot w k
    else if orxCaptures w k && getF w (F.ORX_STAT_USER k) == 0 then setF w (F.ORX_STAT_USER k) 4 else w)) (if_neg huser)

end

theorem exec_dpdCaptureStart {v : Visit} (hvisit : (orxSched u k).visit = some v) (hnew : v.started = false) (hdue : u.time.tick = v.start)
    (hcal : calHolds u k = false) (hhost : hostHolds u k = none) (hpath : eligible u v.path = true) (horx : orxCaptures u k = true) :
    exec (.dpdCaptureStart t k) s = .next (noteStart (modOrx
      (setF (setF u (F.ORX_STAT_USER k) 3) (F.ORX_STAT_SEL k) (v.path % 16)) k
        fun o => { o with visit := some { v with started := true, bin := binOf u } }) k v.path) := by
  show execDpdCaptureStart t k s = _
  simp only [execDpdCaptureStart, ← hu, hvisit, hnew, hdue, hcal, hhost, hpath, horx, bne_self_eq_false, Option.isSome_none, Bool.not_true,
    Bool.or_self, Bool.false_eq_true, if_false]

theorem exec_dpdCaptureEnd {v : Visit} (hvisit : (orxSched u k).visit = some v) (hstarted : v.started = true) (hstop : v.stop ≤ u.time.tick) :
    exec (.dpdCaptureEnd t k) s = .next (finishVisit u k v) := by
  show execDpdCaptureEnd t k s = _
  simp only [execDpdCaptureEnd, ← hu, hvisit, hstarted, hstop, decide_true, Bool.and_self, if_true]

section
variable {path bin : Nat} {better : Bool} {base : Option Coefs} {data : Coefs} {v : State}
  (hsolve : u.dpd.solves.contains (path, bin) = true) (hfw : fwRunning u = true)
  (hv : v = setBase { u with dpd := { u.dpd with solves := u.dpd.solves.erase (path, bin) } } bin base)
include hsolve hfw hv

/-- A solve is dropped where it may not be swapped in, dropped and counted inside the spacing, and else asks for its swap (R222, R223). -/
theorem exec_dpdSolveDone : exec (.dpdSolveDone t path bin better base data) s = .next
    (if !mayswap v path better then v
     else if (match assocGet v.dpd.swapped path with
       | some m => decide (swapTick v < m + swapSpacing v path)
       | none => false) then satAdd v (F.DPD_PATH_STAT_DROPPED path) 1
     else
      let r := requestSwap v path 0 bin (swapTick v) false (solvedBlock v bin data)
      if r.2 then { r.1 with dpd := { r.1.dpd with swapped := assocPut r.1.dpd.swapped path (swapTick v) } } else r.1) := by
  show execDpdSolveDone t path bin better base data s = _
  simp only [execDpdSolveDone, ← hu, solveDone, hsolve, hfw, ← hv, Bool.not_true, Bool.or_self, Bool.false_eq_true, if_false] <;>
    rfl

theorem exec_dpdSolveDone_unwanted (hmay : mayswap v path better = false) : exec (.dpdSolveDone t path bin better base data) s = .next v := by
  rw [exec_dpdSolveDone hu hsolve hfw hv, hmay]
  exact congrArg _ (if_pos rfl)

theorem exec_dpdSolveDone_swap (hmay : mayswap v path better = true)
    (hfar : ∀ m, assocGet v.dpd.swapped path = some m → m + swapSpacing v path ≤ swapTick v) :
    let r := requestSwap v path 0 bin (swapTick v) false (solvedBlock v bin data)
    exec (.dpdSolveDone t path bin better base data) s = .next
      (if r.2 then { r.1 with dpd := { r.1.dpd with swapped := assocPut r.1.dpd.swapped path (swapTick v) } } else r.1) := by
  intro r
  have far : (match assocGet v.dpd.swapped path with
      | some m => decide (swapTick v < m + swapSpacing v path)
      | none => false) = false := by
    cases hm : assocGet v.dpd.swapped path with
    | none => rfl
    | some m => exact decide_eq_false (Nat.not_lt.mpr (hfar m hm))
  rw [exec_dpdSolveDone hu hsolve hfw hv, hmay]
  exact congrArg _ ((if_neg (by decide)).trans (if_neg (Bool.eq_false_iff.mp far)))

theorem exec_dpdSolveDone_close {m : Nat} (hmay : mayswap v path better = true) (hm : assocGet v.dpd.swapped path = some m)
    (hclose : swapTick v < m + swapSpacing v path) :
    exec (.dpdSolveDone t path bin better base data) s = .next (satAdd v (F.DPD_PATH_STAT_DROPPED path) 1) := by
  rw [exec_dpdSolveDone hu hsolve hfw hv, hmay]
  simp only [hm, hclose, decide_true, Bool.not_true, Bool.false_eq_true, if_false, if_true]

end

theorem exec_spectrumMonitorCapture {path aclr evm : Nat} (horx : orxPresent u k = true) (huser : getF u (F.ORX_STAT_USER k) = 4)
    (hpath : path = 16 * k + (orxSched u k).turn) (hcap : orxCaptures u k = true) :
    let v := modOrx u k fun o => { o with turn := (o.turn + 1) % 16 }
    let v := setF (setF v (F.ORX_STAT_SEL k) (path % 16)) (F.DPD_PATH_STAT_ACLR_EST path) (min 65535 aclr)
    exec (.spectrumMonitorCapture t k path aclr evm) s = .next
      { v with dpd := { v.dpd with estimates := assocPut v.dpd.estimates path (aclr, evm) } } := by
  intro v v'
  show execSpectrumMonitorCapture t k path aclr evm s = _
  have turn : (orxPresent u k && getF u (F.ORX_STAT_USER k) == 4 && path == 16 * k + (orxSched u k).turn && orxCaptures u k) = true := by
    rw [horx, huser, hcap, hpath]
    simp
  simp only [execSpectrumMonitorCapture, ← hu, turn, if_true]
  rfl

end Sys2Proof.Machine
end

section
open Sys2Proof Sys2Proof.Machine

/-- Settles O49: each command and each step of the firmware by its rule; the TAG of a block, the slot's kind and the spacing of a solve decide. -/
theorem predistortionComplete : Obligations.PredistortionComplete := by
  unfold Obligations.PredistortionComplete
  refine ⟨fun t k data c s u f hu => ⟨exec_dpdPolicy hu, fun h hpath hbin hregion hwin hpend hmode hdown => ?_,
      fun h hpath hbin hregion => exec_dpdCoefLoad_busy hu hpath hbin hregion h,
      fun bytes whole hawake hf hop hspace hrest hwhole hlen => ⟨fun good room => ?_, fun wrong => ?_⟩, fun h hpath hbin hregion hdown => ?_,
      fun hawake hk => ⟨_, exec_dpdTermWrite hu hawake hk, rfl, fun n b => liveBlock_writeTerm ..⟩⟩,
    fun t k s u hu => ⟨fun o ho horx htime hdue hvisit hholdT hholdO huser => ?_, fun v => exec_dpdCaptureStart hu, fun v => exec_dpdCaptureEnd hu,
      fun path bin better base data v n hsolve hfw hv hn => ?_, fun path aclr evm => exec_spectrumMonitorCapture hu⟩⟩
  · exact exec_dpdCoefLoad_manual hu hpath hbin hregion h hwin hpend hmode hdown
  · rw [exec_sourceDataReadComplete_coef hu hawake hf hop hspace hrest hwhole hlen, good, if_neg (by decide), if_neg (Nat.not_le.mpr room)]
  · rw [exec_sourceDataReadComplete_coef hu hawake hf hop hspace hrest hwhole hlen, wrong, if_pos (by decide)]
  · have dump := exec_dpdDump hu hpath hbin hregion h hdown
    refine ⟨fun hspace => ?_, fun hspace => ?_, fun hspace => ?_⟩
    · simpa only [hspace] using dump
    · simpa only [hspace] using dump
    · obtain ⟨-, -, -, -, sameDram, -⟩ := calm_disturbSr (Calm.refl u)
      simpa only [hspace, sameDram] using dump
  · obtain rfl := ho
    have start := exec_dpdSlotStart hu horx htime hdue hvisit hholdT hholdO huser
    refine ⟨fun hslot => ?_, fun hslot hcap hidle => ?_⟩
    · rw [start, if_pos hslot]
    · rw [start, if_neg (Bool.eq_false_iff.mp hslot), hcap, hidle]
      rfl
  · obtain rfl := hn
    exact ⟨exec_dpdSolveDone_unwanted hu hsolve hfw hv, exec_dpdSolveDone_swap hu hsolve hfw hv, fun m => exec_dpdSolveDone_close hu hsolve hfw hv⟩

end

section
/-!
The synthesisers, the pods with their front-end edges, and the frames of the serial bus (R251-R275).
-/
namespace Sys2Proof.Machine

variable {t i p : Nat} {c : Cmd} {s u : State} {f : Flight} (hu : u = advance t s)
include hu

/-! ## Synthesisers -/

theorem exec_loTune (h : mayRun u 0x28 c [] f) (hsynth : p8 c 16 ≤ 2) (hfreq : freqGood (p8 c 16) (p64 c 24) = true)
    (htie : p8 c 16 = 1 → flag u F.RAD_LO_CFG_TDD_TIE = false) (hwin : inWindow u c f [(0x28, p8 c 16, 0)]) :
    exec (.loTune t c) s = .next (accept u f [(0x28, p8 c 16, 0)] []) := by
  show execLoTune t c s = _
  obtain rfl := cmd_of_mayRun h
  have good : (decide (2 < p8 f.cmd 16) || !freqGood (p8 f.cmd 16) (p64 f.cmd 24) || (p8 f.cmd 16 = 1 && flag u F.RAD_LO_CFG_TDD_TIE)) = false := by
    simpa [hsynth, hfreq] using htie
  simp only [execLoTune, runCmd_of_mayRun (more := fun _ => []) hu h, good, schedulable_inWindow (sched_of_scheduledOnly h rfl) hwin, Option.elim]

theorem exec_loCal (h : mayRun u 0x29 c [] f) (hkind : p8 c 17 ≤ 1) (hon : ∀ k ∈ bitsSet (p8 c 16) 3, loOn u k = true)
    (hwin : sched c = true → inWindow u c f ((bitsSet (p8 c 16) 3).map fun k => (0x29, k, 0))) :
    exec (.loCal t c) s = .next
      (if sched c then accept u f ((bitsSet (p8 c 16) 3).map fun k => (0x29, k, 0)) [] else complete (applyLoCal u c) f 0) := by
  show execLoCal t c s = _
  obtain rfl := cmd_of_mayRun h
  have good : decide (1 < p8 f.cmd 17) = false := decide_eq_false (Nat.not_lt.mpr hkind)
  have on : (bitsSet (p8 f.cmd 16) 3).any (fun k => !loOn u k) = false := by simpa using hon
  simp only [execLoCal, runCmd_of_mayRun (more := fun _ => []) hu h, good, on, Bool.false_eq_true, if_false, schedulable_passed hwin]

/-- The end of a calibration that is due is reported, and what was queued behind it begins (R258). -/
theorem exec_loCalDone {x : LoCal} {failed : Bool} (hx : loCal u i = some x) (hpost : x.post = true) (hstop : x.stop ≤ u.time.now) :
    let v := setLoCal u i
      (if x.kind = 2 then some { x with post := false, table := false, queued := none, saved := x.saved || !failed } else none)
    let w := if x.table then tableBuilt v i (!failed) else v
    let e := post w 0x0033 (evData [(16, 1, i), (17, 1, if failed then 1 else 0)])
    exec (.loCalDone t i failed) s = .next (match x.queued with
      | some k => beginCal e i k x.stop
      | none => e) := by
  intro v w e
  show execLoCalDone t i failed s = _
  have due : (!x.post || decide (u.time.now < x.stop)) = false := by rw [hpost, decide_eq_false (Nat.not_lt.mpr hstop)]; rfl
  simp only [execLoCalDone, ← hu, hx, due, Bool.false_eq_true, if_false]
  rfl

theorem exec_loLocked {v : State} (hv : v = settleLo u i) (hi : i < 3) (hon : loOn v i = true) (hlock : loLocked v i = false)
    (hbusy : loBusy v i = false) : exec (.loLocked t i) s = .next (lockLo (setLoCal v i none) i) := by
  show execLoLocked t i s = _
  have found : (decide (i < 3) && loOn v i && !loLocked v i && !loBusy v i) = true := by simp [hi, hon, hlock, hbusy]
  simp only [execLoLocked, ← hu, ← hv, found, if_true]

omit hu in
/-- The lock bit is lost and its loss noted. -/
theorem loLocked_lost (v : State) (k : Nat) :
    loLocked (raiseFlag (setFlag v (F.RAD_LO_STAT_LOCK k) false) (F.RAD_LO_STAT_LOCK_LOST k)) k = false := by
  have kept := getF_setF_of_disjoint (setFlag v (F.RAD_LO_STAT_LOCK k) false) (f := F.RAD_LO_STAT_LOCK_LOST k) (g := F.RAD_LO_STAT_LOCK k) 1 rfl
    (show 1 + 1 ≤ 32 by omega) (Or.inl (show 1 + 1 ≤ 2 from le_rfl))
  have cleared := getF_setF_same v (f := F.RAD_LO_STAT_LOCK k) 0 (show 1 + 1 ≤ 32 by omega)
  have low : getF (raiseFlag (setFlag v (F.RAD_LO_STAT_LOCK k) false) (F.RAD_LO_STAT_LOCK_LOST k)) (F.RAD_LO_STAT_LOCK k) = 0 :=
    kept.trans (cleared.trans (Nat.zero_mod _))
  exact decide_eq_false (by omega)

section
variable (hlock : loLocked u i = true)
include hlock

theorem exec_loLossOfLock : exec (.loLossOfLock t i) s = .next
    (if i = 0 then
      unlockedTx (raiseFlag (setFlag u (F.RAD_LO_STAT_LOCK i) false) (F.RAD_LO_STAT_LOCK_LOST i)) (txPods u)
     else raiseFlag (setFlag u (F.RAD_LO_STAT_LOCK i) false) (F.RAD_LO_STAT_LOCK_LOST i)) := by
  show execLoLossOfLock t i s = _
  simp only [execLoLossOfLock, ← hu, unlockLo, hlock, if_true]
  rfl

end

theorem exec_calibrationGapStart {b : Nat} {g : Segment} (hb : bankAt u u.time.tick = some b) (hg : segmentAt u b u.time.tick = some g)
    (hcal : g.cal = true) (hstart : g.start = u.time.tick % period u b) (hlong : g.start + 393216 ≤ g.stop)
    (hswap : (swapBetween u (u.time.tick + 1) (u.time.tick + 393215)).isNone = true) :
    exec (.calibrationGapStart t) s = .next ((List.range 3).foldl (fun v k =>
      if flag v (F.RAD_LO_STAT_CAL_PENDING k) && loOn v k && !loBusy v k then beginCal v k 0 v.time.now else v) (settleLos u)) := by
  show execCalibrationGapStart t s = _
  have full : (g.cal && g.start == u.time.tick % period u b && decide (g.start + fullTicks ≤ g.stop)
      && (swapBetween u (u.time.tick + 1) (u.time.tick + fullTicks - 1)).isNone) = true := by
    have last : u.time.tick + fullTicks - 1 = u.time.tick + 393215 := by unfold fullTicks; omega
    rw [hcal, ← hstart, beq_self_eq_true, decide_eq_true (show g.start + fullTicks ≤ g.stop from hlong), last, hswap]
    rfl
  simp only [execCalibrationGapStart, ← hu, hb, hg, full, if_true]

/-! ## Pods -/

theorem exec_podState (h : mayRun u 0x2A c [] f) (hmask : maskWithin (p8 c 16) (nPods u) = true) (hstate : p8 c 17 ≤ 5)
    (hwin : inWindow u c f ((bitsSet (p8 c 16) 8).map fun k => (0x2A, k, 0))) :
    exec (.podState t c) s = .next (accept u f ((bitsSet (p8 c 16) 8).map fun k => (0x2A, k, 0)) []) := by
  show execPodState t c s = _
  obtain rfl := cmd_of_mayRun h
  have good : (!maskWithin (p8 f.cmd 16) (nPods u) || decide (5 < p8 f.cmd 17)) = false := by simp [hmask, hstate]
  simp only [execPodState, runCmd_of_mayRun (more := fun _ => []) hu h, good, schedulable_inWindow (sched_of_scheduledOnly h rfl) hwin, Option.elim]

theorem exec_ladderStepEnd {due : List Nat} (hdue : due = (List.range (nPods u)).filter fun k =>
      match (podSt u k).step with | some x => decide (x.stop ≤ u.time.now) | none => false) :
    exec (.ladderStepEnd t) s = .next (due.foldl drivePod (refreshLo (refreshLo
      (unlockedTx (due.foldl endStep u) ((due.filter fun k =>
        match (podSt u k).step with | some x => x.goal == 4 | none => false).map (2 ^ ·)).sum) 0) 1)) := by
  subst hu
  subst hdue
  rfl

theorem exec_fePinEdge {e : FeEdge} (he : dueEdge u.time.now ((podSt u p).edges ++ earlyEdges u p) = some e) :
    exec (.fePinEdge t p) s = .next
      (if e ∈ (podSt u p).edges then setFeCode (modPod u p fun x => { x with edges := x.edges.erase e }) p e.code else makeEarly u p e) := by
  show execFePinEdge t p s = _
  simp only [execFePinEdge, ← hu, he, List.contains_iff_mem]

omit hu in
theorem mem_earlyEdges (v : State) (e : FeEdge) : e ∈ earlyEdges v p ↔ (podOn v p = true ∧ (e.at', e.code) ∉ (podSt v p).made
    ∧ ∃ k ∈ knownSteps v p, e ∈ entryEdges v p k.2.2 k.2.1 ∧ e.at' < k.1) := by
  unfold earlyEdges
  cases hon : podOn v p with
  | false => simp
  | true =>
    simp only [if_true, List.mem_flatMap, List.mem_filter, Bool.and_eq_true, decide_eq_true_eq, Bool.not_eq_true', true_and, ← Bool.not_eq_true, List.contains_iff_mem]
    tauto

/-! ## The serial bus -/

theorem exec_fesbWrite (h : mayRun u 0x2C c [] f) (hhalf : p8 c 16 ≤ 1) (hbits : 8 ≤ p8 c 17) (hbits' : p8 c 17 ≤ 32) (hsel : p8 c 18 ≤ 3)
    (hfore : flag u (F.RAD_FE_PROF_PROFILE (p8 c 16)) = true →
      p8 c 18 ≤ 1 ∧ (p8 c 18 = 1 → flag u (F.RAD_FE_PROF_CS_EN (p8 c 16)) = true))
    (hfree : ∀ q ∈ fesbPending u (p8 c 16),
      (fesbSpan (fesbNow u q) q.tick).2 ≤ (fesbSpan (fesbFrame u (fesbDiv u (p8 c 16)) c) c.actTick).1
        ∨ (fesbSpan (fesbFrame u (fesbDiv u (p8 c 16)) c) c.actTick).2 ≤ (fesbSpan (fesbNow u q) q.tick).1)
    (hwin : inWindow u c f [(0x2C, p8 c 16, 0)]) :
    exec (.fesbWrite t c) s = .next (accept u f [(0x2C, p8 c 16, 0)] (fesbFrame u (fesbDiv u (p8 c 16)) c)) := by
  show execFesbWrite t c s = _
  obtain rfl := cmd_of_mayRun h
  have profile : (flag u (F.RAD_FE_PROF_PROFILE (p8 f.cmd 16)) && (decide (1 < p8 f.cmd 18)
      || (p8 f.cmd 18 = 1 && !flag u (F.RAD_FE_PROF_CS_EN (p8 f.cmd 16))))) = false := by
    cases hp : flag u (F.RAD_FE_PROF_PROFILE (p8 f.cmd 16)) with
    | false => rfl
    | true =>
      obtain ⟨hone, hcs⟩ := hfore hp
      simpa [hone] using hcs
  have good : (decide (1 < p8 f.cmd 16) || decide (p8 f.cmd 17 < 8) || decide (32 < p8 f.cmd 17) || decide (3 < p8 f.cmd 18)) = false := by
    simp [hhalf, hbits, hbits', hsel]
  have free : (fesbPending u (p8 f.cmd 16)).any (fun q =>
      decide ((fesbSpan (fesbFrame u (fesbDiv u (p8 f.cmd 16)) f.cmd) f.cmd.actTick).1 < (fesbSpan (fesbNow u q) q.tick).2)
        && decide ((fesbSpan (fesbNow u q) q.tick).1 < (fesbSpan (fesbFrame u (fesbDiv u (p8 f.cmd 16)) f.cmd) f.cmd.actTick).2)) = false := by
    rw [List.any_eq_false]
    intro q hq
    have apart := hfree q hq
    simp only [Bool.and_eq_true, decide_eq_true_eq]
    omega
  simp only [execFesbWrite, runCmd_of_mayRun (more := fun _ => []) hu h, good, profile, free, Bool.or_self, Bool.false_eq_true, if_false,
    lateChecks_passed fun _ => hwin]

theorem exec_fesbFrameStart {q : Pending} (hq : (fesbPending u p).find? (fun x =>
      !u.radio.frames.contains x.id && decide ((fesbSpan (fesbNow u x) x.tick).1 ≤ u.time.tick)) = some q) :
    exec (.fesbFrameStart t p) s = .next (startFrame u q p) := by
  show execFesbFrameStart t p s = _
  simp only [execFesbFrameStart, ← hu, hq]

theorem exec_fesbFrameEnd {q : Pending} {bits : Nat}
    (hq : (fesbPending u p).find? (fun x => u.radio.frames.contains x.id && decide (x.tick ≤ u.time.tick)) = some q) :
    exec (.fesbFrameEnd t p bits) s = .next (endAct (setN (endFrame u q p) (A.RAD_FESB_RDATA p) (bits % 2 ^ 32)) q 0 q.tick) := by
  show execFesbFrameEnd t p bits s = _
  simp only [execFesbFrameEnd, ← hu, hq]
  rfl

omit hu in
/-- The select edge goes out where the frame's domain still serves, or the frame has none. -/
theorem endFrame_eq (v : State) (q : Pending) : endFrame v q p =
    (let w : State := { v with radio := { v.radio with frames := v.radio.frames.erase q.id } }
     if (q.src.getD 2 0).toNat = 0 ∨ fesbSelect v q.cmd = (q.src.getD 2 0).toNat then
      emit w (.fesb p (q.src.getD 2 0).toNat [(nowOf v q.tick, .select, true)]) else w) := by
  simp only [endFrame, Bool.or_eq_true, decide_eq_true_eq]
  rfl

end Sys2Proof.Machine
end

section
open Sys2Proof Sys2Proof.Machine

/-- Settles O45: each event by its rule; LO-T with transmitters on, and edges of the last or of a foreseen step, are told apart. -/
theorem synthesisersAndPodsComplete : Obligations.SynthesisersAndPodsComplete := by
  unfold Obligations.SynthesisersAndPodsComplete
  refine ⟨fun t i c s u f hu => ⟨exec_loTune hu, exec_loCal hu, fun x failed hx hpost hstop => ?_, fun v => exec_loLocked hu, fun hlock => ?_,
      fun b g => exec_calibrationGapStart hu⟩,
    fun t p c s u f hu => ⟨exec_podState hu, fun due => exec_ladderStepEnd hu, fun e he => ⟨fun hmem => ?_, fun hmem => ?_⟩, mem_earlyEdges u,
      fun h hhalf hbits hbits' hsel hfore => exec_fesbWrite hu h hhalf hbits hbits' hsel hfore, fun q => exec_fesbFrameStart hu, fun q bits hq => ?_⟩⟩
  · have done := exec_loCalDone hu (failed := failed) hx hpost hstop
    refine ⟨fun hnone => ?_, fun k hk => ?_⟩
    · rw [hnone] at done
      exact done
    · rw [hk] at done
      exact done
  · have lost := exec_loLossOfLock hu hlock
    have unlocked := loLocked_lost u 0
    refine ⟨fun hquiet => ?_, fun hi htx => ?_⟩
    · rw [lost]
      by_cases hi : i = 0
      · obtain rfl := hi
        have silent : txPods u = 0 := hquiet.resolve_left fun h => h rfl
        rw [if_pos rfl, unlockedTx, silent]
        rfl
      · rw [if_neg hi]
    · obtain rfl := hi
      rw [lost, if_pos rfl, unlockedTx, unlocked, if_neg (by simpa using htx)]
      rfl
  · rw [exec_fePinEdge hu he, if_pos hmem]
  · rw [exec_fePinEdge hu he, if_neg hmem]
    rfl
  · rw [exec_fesbFrameEnd hu hq, endFrame_eq]

end

section
/-!
The partial sums of a chain and the TIME packet of the parent (R350-R359, R365).
-/
namespace Sys2Proof.Machine

variable {t j n : Nat} {s u : State} {x : Stream} {c : Carrier} (hu : u = advance t s)
include hu

theorem exec_cascSumOriginate (hx : streamAt u j = some x) (hc : ulCarrier u x n = some c) (hmember : isMember u = true)
    (hlast : flag u F.CAS_STATUS_LAST = true) (hready : slotReady u x c n u.time.tick = true) (hdone : u.time.tick = slotDone c n) :
    exec (.cascSumOriginate t j n) s = .next
      (modStream (enqueue u 1
        { pkt := sumPacket (ulKey x) (ownIndex u) n (slotNumber c n) (ulPips u x c n) (!portUp u 2)
            (addSamples (contribution u x.carrier c x.layer n) []),
          since := u.time.now, ctrl := false, index := j, q := some u.time.now, stomp := false }) j fun y => ulFormed y c n) := by
  show execCascSumOriginate t j n s = _
  have due : (!isMember u || !flag u F.CAS_STATUS_LAST || !slotReady u x c n u.time.tick || u.time.tick != slotDone c n) = false := by
    rw [hmember, hlast, hready, bne_eq_false_iff_eq.mpr hdone]
    rfl
  simp only [execCascSumOriginate, ← hu, hx, hc, due, Bool.false_eq_true, if_false]

theorem exec_cascSumLate {y : Queued}
    (hy : (port u 1).queue.find? (fun z => match z.q with | some q => decide (q + ulAllow u < u.time.now) | none => false) = some y) :
    exec (.cascSumLate t) s = .next (satAdd (modPort u 1 fun p => { p with queue := p.queue.erase y }) F.CAS_STAT_LATE 1) := by
  show execCascSumLate t s = _
  simp only [execCascSumLate, ← hu]
  split
  next none => cases hy.symm.trans none
  next z found =>
    obtain rfl : y = z := Option.some.inj (hy.symm.trans found)
    rfl

section
variable {y : CascSum} {rest : List CascSum} {v : State} (hmember : isMember u = true) (hindexed : isIndexed u = true)
  (hchild : childInChain u = true) (hsums : u.casc.sums = y :: rest) (hdue : passTick u y ≤ u.time.tick)
  (hv : v = { u with casc := { u.casc with sums := rest } })
include hmember hindexed hchild hsums hdue

omit hu hsums hdue in
theorem sumPass_in_chain : (!isMember u || !isIndexed u || !childInChain u) = false := by rw [hmember, hindexed, hchild]; rfl

include hv

/-- A sum is dropped in IDLE (R355). -/
theorem exec_cascSumPass_idle (hactive : isActive u = false) : exec (.cascSumPass t) s = .next v := by
  show execCascSumPass t s = _
  simp only [execCascSumPass, ← hu, sumPass_in_chain hmember hindexed hchild, hsums, Nat.not_lt.mpr hdue, hactive, Bool.false_eq_true,
    if_false, Bool.not_false, if_true, hv]
  rfl

/-- A sum goes on with the member's own contribution and pips (R353). -/
theorem exec_cascSumPass_own {i : Nat} (hup : portUp v 1 = true) (hactive : isActive u = true) (hkey : keyStream v y.key = some (i, x))
    (hc : slotCarrier v x y.slot = some c) :
    exec (.cascSumPass t) s = .next (sentAt v (timeOf v (passTick v y)) fun w =>
      sendBytes w 1 (packetBytes (sumPacket y.key y.origin y.slot y.seq (y.pip ||| ulPips v x c y.slot) y.reduced
        (addSamples y.data (contribution v x.carrier c x.layer y.slot))) (!y.good))) := by
  show execCascSumPass t s = _
  have taken : (modCasc u fun z => { z with sums := rest }) = v := hv.symm
  simp only [execCascSumPass, ← hu, sumPass_in_chain hmember hindexed hchild, hsums, Nat.not_lt.mpr hdue, hactive, Bool.false_eq_true,
    if_false, Bool.not_true, taken, hkey, hc, hup, if_true, Option.isNone_some]

/-- A sum of no stream of the member goes on unchanged and is counted (R353). -/
theorem exec_cascSumPass_unknown (hup : portUp (satAdd v F.CAS_STAT2_NO_STREAM 1) 1 = true) (hactive : isActive u = true)
    (hkey : keyStream v y.key = none) :
    let w := satAdd v F.CAS_STAT2_NO_STREAM 1
    exec (.cascSumPass t) s = .next (sentAt w (timeOf w (passTick w y)) fun w => sendBytes w 1
      (packetBytes (sumPacket y.key y.origin y.slot y.seq y.pip y.reduced y.data) (!y.good))) := by
  show execCascSumPass t s = _
  have taken : (modCasc u fun z => { z with sums := rest }) = v := hv.symm
  simp only [execCascSumPass, ← hu, sumPass_in_chain hmember hindexed hchild, hsums, Nat.not_lt.mpr hdue, hactive, Bool.false_eq_true,
    if_false, Bool.not_true, taken, hkey, hup, if_true, Option.isNone_none]

end

theorem exec_cascCombine {got : Option CascSum} (hx : streamAt u j = some x) (hc : ulCarrier u x n = some c) (hcombines : combines u = true)
    (hready : slotReady u x c n (combineTick u c n) = true) (hnew : ∀ y ∈ u.casc.combined, ¬(y.stream = j ∧ y.slot = n)) :
    got = u.casc.sums.find? (fun y => y.key = ulKey x && y.slot = n && y.good && decide (max y.tick (heldTick u y) ≤ combineTick u c n)) →
    exec (.cascCombine t j n) s = .next (modCasc (if got.isNone then satAdd u F.CAS_STAT_MISSING 1 else u) fun v => { v with
      sums := v.sums.filter fun g => !(g.key = ulKey x && decide (g.slot ≤ n))
      combined := v.combined ++ [
        { stream := j, slot := n,
          reduced := match got with | some g => g.reduced || decide (g.origin < u.casc.beyond.getD 0) | none => true,
          pip := ulPips u x c n ||| (match got with | some g => g.pip | none => 2 ^ 64 - 1)
            ||| (if u.casc.lost.contains (j, n - 1024 * c.k) then leadingBlocks (8 * slices c - 1) else 0),
          queueAt := combineTick u c n + 16,
          data := addSamples (contribution u x.carrier c x.layer n) (match got with | some g => g.data | none => []) }]
      lost := (v.lost.filter fun l => l.1 != j) ++ if got.isNone then [(j, n)] else [] }) := by
  intro hgot
  show execCascCombine t j n s = _
  have due : (!combines u || !slotReady u x c n (combineTick u c n) || u.casc.combined.any fun y => y.stream = j && y.slot = n) = false := by
    rw [hcombines, hready, List.any_eq_false.mpr fun y hy => by simpa only [Bool.and_eq_true, decide_eq_true_eq] using hnew y hy]
    rfl
  simp only [execCascCombine, ← hu, hx, hc, due, ← hgot, Bool.false_eq_true, if_false] <;>
    cases got <;>
    rfl

theorem exec_cascadeTimeReceive {m : Inbox} {rest : List Inbox} (hm : u.inbox = m :: rest) (hport : m.port = 1) (htype : m.pkt.type = 4)
    (hmember : isMember u = true) :
    let part := fun i => ((leNat ((m.pkt.payload.drop i).take 8) : Nat) : Int)
    exec (.cascadeTimeReceive t) s = .next (setFlag (setN
      { u with inbox := rest, casc := { u.casc with times := u.casc.times.set 1 (leNat (m.pkt.payload.take 8), m.tick) } }
      A.CAS_SYNC_OFFSET (unsigned 32 ((((m.tick : Nat) : Int) - part 0 - (part 24 - part 16)) / 2)))
      F.CAS_STATUS_OFFSET_VALID (!flag u (F.LN_PORT_CTRL_FIXED 1) && !Config.parentFixed u.time.now)) := by
  intro part
  show execCascadeTimeReceive t s = _
  have time : (m.port != 0 && m.pkt.type = 4) = true := by rw [hport, htype]; rfl
  have taken : takeInbox u (fun m => m.port != 0 && m.pkt.type = 4) = some (m, { u with inbox := rest }) := by
    simp only [takeInbox, hm, time, if_true]
  have member : (isMember (modCasc { u with inbox := rest } fun x => { x with times := x.times.set m.port (leNat (m.pkt.payload.take 8), m.tick) })
      && m.port = 1) = true := by
    rw [hport, Bool.and_eq_true]
    exact ⟨hmember, rfl⟩
  simp only [execCascadeTimeReceive, ← hu, taken, member, if_true]
  rw [hport]
  rfl

end Sys2Proof.Machine
end

section
open Sys2Proof Sys2Proof.Machine

/-- Settles O44: each step of a partial sum by its rule. -/
theorem partialSumsComplete : Obligations.PartialSumsComplete := by
  unfold Obligations.PartialSumsComplete
  intro t j n s u x c hu
  refine ⟨exec_cascSumOriginate hu, fun y => exec_cascSumLate hu, fun y rest hmember hindexed hchild hsums hup hdue => ?_,
    fun got => exec_cascCombine hu, fun m rest => exec_cascadeTimeReceive hu⟩
  exact ⟨exec_cascSumPass_idle hu hmember hindexed hchild hsums hdue rfl,
    fun i => exec_cascSumPass_own hu hmember hindexed hchild hsums hdue rfl hup,
    fun hactive hkey hup => exec_cascSumPass_unknown hu hmember hindexed hchild hsums hdue rfl hup hactive hkey⟩

end

section
/-!
The instructions of a DMA program (R370-R386).
-/
namespace Sys2Proof.Machine

variable {t c : Nat} {i : DmaInstr} {s u : State} (hu : u = advance t s) (hi : instrAtPc u c = some i)
include hu hi

/-! ## Instructions that start -/

section
variable (hpoised : poised u c = true)
include hpoised

section
variable (hbudget : spent u c = false)
include hbudget

theorem exec_move {a b d : _} {e g h k : _} (hmove : i = .move a b d e g h k) : exec (.move t c) s = .next (beginData u c i) := by
  show execMove t c s = _
  simp only [execMove, ← hu, hi, hpoised, hbudget, hmove, Bool.not_false, Bool.and_self]

theorem exec_fill {a b d : _} {e g : _} (hfill : i = .fill a b d e g) : exec (.fill t c) s = .next (beginData u c i) := by
  show execFill t c s = _
  simp only [execFill, ← hu, hi, hpoised, hbudget, hfill, Bool.not_false, Bool.and_self]

theorem exec_cmp {a b d : _} {e g h k : _} {l m n : _} (hcmp : i = .cmp a b d e g h k l m n) : exec (.cmp t c) s = .next (beginData u c i) := by
  show execCmp t c s = _
  simp only [execCmp, ← hu, hi, hpoised, hbudget, hcmp, Bool.not_false, Bool.and_self]

theorem exec_loop {n back : _} (hloop : i = .loop n back) : exec (.loop t c) s = .next (runLoop u c n back) := by
  show execLoop t c s = _
  simp only [execLoop, ← hu, hi, hpoised, hbudget, hloop, Bool.not_false, Bool.and_self]

theorem exec_halt {q : Bool} (hhalt : i = .halt q) : exec (.halt t c) s = .next
    (haltDma (setDone (setPc (countStep u c) c (chPc u c).1 ((chPc u c).2 + 16)) c 0) c stOK (!q)) := by
  show execHalt t c s = _
  simp only [execHalt, ← hu, hi, hpoised, hbudget, hhalt, Bool.not_false, Bool.and_self]

end

theorem exec_wait {kind clr bit periph tick : _} (hwait : i = .wait kind clr bit periph tick) :
    exec (.wait t c) s = .next (runWait u c kind periph) := by
  show execWait t c s = _
  simp only [execWait, ← hu, hi, hpoised, hwait]

theorem exec_signal {kind bit vector value addr : _} (hsignal : i = .signal kind bit vector value addr) :
    exec (.signal t c) s = .next (runSignal u c kind bit vector value addr) := by
  show execSignal t c s = _
  simp only [execSignal, ← hu, hi, hpoised, hsignal]

/-- With the budget spent every instruction but WAIT and SIGNAL halts the channel (R385). -/
theorem exec_stepBudget (hspent : spent u c = true) (hwait : ∀ a b d e g, i ≠ .wait a b d e g) (hsignal : ∀ a b d e g, i ≠ .signal a b d e g) :
    exec (.stepBudget t c) s = .next (faultDma u c stStepBudget) := by
  show execStepBudget t c s = _
  cases i
  case wait => exact (hwait _ _ _ _ _ rfl).elim
  case signal => exact (hsignal _ _ _ _ _ rfl).elim
  all_goals simp only [execStepBudget, ← hu, hi, hpoised, hspent, Bool.and_self]

end

/-! ## Waits that end -/

section
variable (hwaiting : chState u c = chWaiting)
include hwaiting

omit hwaiting in
/-- While an entry into SLEEP or DEEP is under way no wait ends. -/
theorem exec_waitEnd_held (hphase : u.power.phase ≠ .run) : exec (.waitEnd t c) s = .next u := by
  show execWaitEnd t c s = _
  have held : (chState u c == chWaiting && u.power.phase == .run) = false := by simp [hphase]
  simp only [execWaitEnd, ← hu, hi, held]

variable (hphase : u.power.phase = .run)
include hphase

omit hu hi in
theorem waitRuns : (chState u c == chWaiting && u.power.phase == .run) = true := by simp [hwaiting, hphase]

theorem exec_waitEnd_bit {clr bit periph tick : _} (hwait : i = .wait 0 clr bit periph tick) :
    exec (.waitEnd t c) s = .next (settleBit u bit) := by
  show execWaitEnd t c s = _
  simp only [execWaitEnd, ← hu, hi, waitRuns hwaiting hphase, hwait]

theorem exec_waitEnd_tick {clr bit periph tick : _} (hwait : i = .wait 1 clr bit periph tick) (hvalid : tickValid u = true) (hdue : tick ≤ u.time.tick) :
    exec (.waitEnd t c) s = .next (endWait u c) := by
  show execWaitEnd t c s = _
  simp only [execWaitEnd, ← hu, hi, waitRuns hwaiting hphase, hwait, hvalid, hdue, decide_true, Bool.and_self, if_true]

theorem exec_waitEnd_periph {clr bit periph tick : _} (hwait : i = .wait 2 clr bit periph tick) (hreq : periphRequest u periph = true) :
    exec (.waitEnd t c) s = .next (endWait u c) := by
  show execWaitEnd t c s = _
  simp only [execWaitEnd, ← hu, hi, waitRuns hwaiting hphase, hwait, hreq, if_true]

end

/-! ## Bursts -/

section
variable {n : Nat} {data src dst : List Byte} (hburst : (chAt u c).burst = some n) (hrunning : chState u c = chRunning)
  (hfault : accessFault u c = none)
  (hsrc : src = (match sourceOf u c i with | some (3, p) => if p < 32 then recordsToBring u p else data | _ => data))
  (hready : bytesReady u c i n src dst = true)
include hburst hrunning hfault hsrc hready

/-- A burst whose bytes are ready goes through the DRAM port where it uses the DRAM. -/
theorem exec_dmaBurstComplete : exec (.dmaBurstComplete t c data dst) s = .next
    (throughPort ((spacesInUse u c).contains 2) (fun w =>
      let v := modCh (runBurst w c i n src dst) c fun x => { x with burst := none, reads := 0 }
      pumpShared (if (chAt v c).stop.isSome then haltDma v c stCancelled true else nextBurst v c i)) u) := by
  show execDmaBurstComplete t c data dst s = _
  unfold execDmaBurstComplete
  extract_lets v
  obtain rfl : u = v := hu
  simp -zeta only [hi, hburst]
  extract_lets bytes
  obtain rfl : src = bytes := hsrc
  have runs : (chState v c != chRunning || (accessFault v c).isSome || !bytesReady v c i n bytes dst) = false := by
    rw [hrunning, hfault, hready, bne_self_eq_false]
    rfl
  rw [runs, if_neg (by decide)]

theorem exec_dmaBurstComplete_served {w : State} (hplain : (spacesInUse u c).contains 2 = false → w = u)
    (hserved : (spacesInUse u c).contains 2 = true → w = disturbSr u ∧ portServes w = true) :
    let v := modCh (runBurst w c i n src dst) c fun x => { x with burst := none, reads := 0 }
    exec (.dmaBurstComplete t c data dst) s = .next
      (pumpShared (if (chAt v c).stop.isSome then haltDma v c stCancelled true else nextBurst v c i)) := by
  rw [exec_dmaBurstComplete hu hi hburst hrunning hfault hsrc hready]
  cases huse : (spacesInUse u c).contains 2 with
  | false => rw [throughPort_unneeded, hplain huse]
  | true =>
    obtain ⟨hw, hserves⟩ := hserved huse
    rw [throughPort_served hw hserves]

theorem exec_dmaBurstComplete_closed (huse : (spacesInUse u c).contains 2 = true) (hclosed : portServes (disturbSr u) = false) :
    exec (.dmaBurstComplete t c data dst) s = .next (disturbSr u) := by
  rw [exec_dmaBurstComplete hu hi hburst hrunning hfault hsrc hready, huse, throughPort_closed hclosed]

end

/-- The request of a peripheral starts a burst in the channel's turn, and waits behind those that want theirs (R381). -/
theorem exec_peripheralBurst {a b d : _} {e len g h p : _} (hmove : i = .move a b d e len g h) (hp : waitsOn u c = some p)
    (hrunning : chState u c = chRunning) (hreq : periphRequest u p = true) (hstop : (chAt u c).stop = none) (hfault : accessFault u c = none) :
    exec (.peripheralBurst t c) s = .next (if othersWant u c then waitTurn u c else periphTurn u c p (len - progress u c)) := by
  show execPeripheralBurst t c s = _
  have asked : (chState u c == chRunning && periphRequest u p && (chAt u c).stop.isNone && (accessFault u c).isNone) = true := by
    rw [hrunning, hreq, hstop, hfault, beq_self_eq_true]
    rfl
  simp only [execPeripheralBurst, ← hu, hi, hp, hmove, asked, if_true]

end Sys2Proof.Machine
end

section
open Sys2Proof Sys2Proof.Machine

/-- Settles O52: each instruction by its rule. -/
theorem dmaInstructionsComplete : Obligations.DmaInstructionsComplete := by
  unfold Obligations.DmaInstructionsComplete
  intro t c i s u hu hi
  refine ⟨fun a b d e g h k hpoised hbudget => exec_move hu hi hpoised hbudget, fun a b d e g hpoised hbudget => exec_fill hu hi hpoised hbudget,
    fun a b d e g h k l m n hpoised hbudget => exec_cmp hu hi hpoised hbudget, fun n back hpoised hbudget => exec_loop hu hi hpoised hbudget,
    fun kind clr bit periph tick hpoised => exec_wait hu hi hpoised, fun clr bit periph tick hwaiting hphase => exec_waitEnd_tick hu hi hwaiting hphase,
    fun clr bit periph tick hwaiting hphase => exec_waitEnd_periph hu hi hwaiting hphase,
    fun clr bit periph tick hwaiting hphase => exec_waitEnd_bit hu hi hwaiting hphase, fun _ => exec_waitEnd_held hu hi,
    fun kind bit vector value addr hpoised => exec_signal hu hi hpoised, fun q hpoised hbudget => exec_halt hu hi hpoised hbudget,
    exec_stepBudget hu hi, fun n data src dst hburst hrunning hfault hsrc hready =>
      ⟨fun w hplain hserved => exec_dmaBurstComplete_served hu hi hburst hrunning hfault hsrc hready hplain hserved,
        exec_dmaBurstComplete_closed hu hi hburst hrunning hfault hsrc hready⟩,
    fun a b d e n g h p hmove hp hrunning hreq hstop hfault => ?_⟩
  have asked := exec_peripheralBurst hu hi hmove hp hrunning hreq hstop hfault
  refine ⟨fun hwant => ?_, fun hwant hsome => ?_⟩
  · rw [asked, if_pos hwant]
    rfl
  · rw [asked, if_neg (Bool.eq_false_iff.mp hwant), periphTurn]
    exact congrArg _ (if_pos (Bool.and_eq_true_iff.mpr ⟨hreq, decide_eq_true hsome⟩))

end

section
/-!
The resets (R439-R442, R500, R501).
-/
namespace Sys2Proof.Machine

variable {t : Nat} {s u : State}

/-! ## What a reset leaves -/

/-- A state differs from another in its registers only. -/
def RegsOnly (v w : State) : Prop := w = { v with regs := w.regs }

theorem RegsOnly.trans {v w x : State} (h : RegsOnly v w) (k : RegsOnly w x) : RegsOnly v x := by
  rw [RegsOnly] at h k ⊢
  rw [k, h]

theorem regsOnly_setF (v : State) (f : Fld) (n : Nat) : RegsOnly v (setF v f n) := rfl

theorem regsOnly_driveRail (v : State) (r : Nat) (on : Bool) : RegsOnly v (driveRail v r on) := by
  cases on
  · exact (regsOnly_setF v _ _).trans (regsOnly_setF _ _ _)
  · exact regsOnly_setF v _ _

theorem regsOnly_driveRails (l : List Nat) (on : Bool) (v : State) : RegsOnly v (l.foldl (fun s r => driveRail s r on) v) := by
  induction l generalizing v with
  | nil => rfl
  | cons r l ih => exact (regsOnly_driveRail v r on).trans (ih _)

theorem getR_driveRails {r : Reg} (h : r.addr ≠ 0x200124) (l : List Nat) (on : Bool) (v : State) :
    getR (l.foldl (fun s r => driveRail s r on) v) r = getR v r := by
  have one : ∀ (w : State) (k : Nat), getR (driveRail w k on) r = getR w r := fun w k => by
    cases on
    · exact (getR_setF_of_ne _ _ h).trans (getR_setF_of_ne _ _ h)
    · exact getR_setF_of_ne _ _ h
  induction l generalizing v with
  | nil => rfl
  | cons k l ih => exact (ih _).trans (one v k)

theorem loseAll_regs (v : State) :
    (loseAll v).regs = ((List.range 8).foldl quietPod v).regs.filter fun r => 0x200100 ≤ r.1 && decide (r.1 < 0x200200) := by
  simp only [loseAll]

/-- The registers after a reset: its cause is named and every rail is off. -/
theorem holdReset_regs (v : State) (cause : Nat) : (holdReset v cause).regs
    = ((List.range 8).foldl (fun s r => driveRail s r false) (setF (loseAll v) F.PWR_WICK_CAUSE_RESET_CAUSE cause)).regs := by
  simp only [holdReset]

/-- Outside the wick page every register holds its reset value. -/
theorem getR_holdReset {r : Reg} (h : r.addr < 0x200100 ∨ 0x200200 ≤ r.addr) (v : State) (cause : Nat) :
    getR (holdReset v cause) r = BitVec.ofNat 32 r.reset := by
  have rails : r.addr ≠ 0x200124 := by omega
  have cause' : r.addr ≠ 0x200110 := by omega
  have lost : getR (loseAll v) r = BitVec.ofNat 32 r.reset := by
    refine congrArg (·.getD (BitVec.ofNat 32 r.reset)) (assocGet_none fun x hx => ?_)
    rw [loseAll_regs] at hx
    have inside := (List.mem_filter.mp hx).2
    simp only [Bool.and_eq_true, decide_eq_true_eq] at inside
    omega
  calc getR (holdReset v cause) r
      = getR ((List.range 8).foldl (fun s r => driveRail s r false) (setF (loseAll v) F.PWR_WICK_CAUSE_RESET_CAUSE cause)) r := by
        rw [getR, holdReset_regs, getR]
    _ = getR (setF (loseAll v) F.PWR_WICK_CAUSE_RESET_CAUSE cause) r := getR_driveRails rails _ _ _
    _ = getR (loseAll v) r := getR_setF_of_ne _ _ cause'
    _ = BitVec.ofNat 32 r.reset := lost

theorem holdReset_fields (v : State) (cause : Nat) :
    (holdReset v cause).acts = [] ∧ (holdReset v cause).carriers = [] ∧ (holdReset v cause).streams = [] ∧ (holdReset v cause).dmas = []
      ∧ (holdReset v cause).host.flight = [] ∧ (holdReset v cause).time.counting = false ∧ (holdReset v cause).time.now = v.time.now := by
  have rails : (List.range 8).foldl (fun s r => driveRail s r false) (setF (loseAll v) F.PWR_WICK_CAUSE_RESET_CAUSE cause) = _ :=
    regsOnly_driveRails (List.range 8) false _
  simp only [holdReset]
  rw [rails]
  exact ⟨rfl, rfl, rfl, rfl, rfl, rfl, rfl⟩

/-! ## The resets -/

/-- A chip reset that falls due holds the device from its tick on (R501). -/
theorem advance_chipReset {n : Nat} (hchip : s.power.chipAt = some n) (hlater : s.time.now < n) (hdue : n ≤ t) :
    advance t s = moveTime t (chipHold (moveTime n s)) := by
  simp only [advance, hchip, hlater, hdue, and_self, if_true]

variable (hu : u = advance t s)
include hu

theorem exec_powerOnReset : exec (.powerOnReset t) s = .next
    (driveAlert u (if u.power.resetLow then { holdReset u 0 with regs := [] } else coldStart { holdReset u 0 with regs := [] })) := by
  subst hu
  rfl

theorem exec_resetNLow : exec (.resetNLow t) s = .next (modPower (holdReset u 1) fun p => { p with resetLow := true, chipEnd := none }) := by
  subst hu
  rfl

theorem exec_resetNRelease (hlow : u.power.resetLow = true) : exec (.resetNRelease t) s = .next (coldStart u) := by
  show execResetNRelease t s = _
  simp only [execResetNRelease, ← hu, hlow, if_true]

theorem exec_chip {data : Nat} (hawake : asleep u = false) (hbit : bitAt data 0 = true) : exec (.chip t data) s = .next (chipReset (countCfg u 1)) := by
  show execChip t data s = _
  rw [execChip, byWrite_awake hu hawake, if_pos hbit]

theorem exec_chipResetEnd {n : Nat} (hend : u.power.chipEnd = some n) (hdue : n ≤ u.time.now) (hheld : u.power.phase = .held)
    (hlow : u.power.resetLow = false) : exec (.chipResetEnd t) s = .next (coldStart u) := by
  show execChipResetEnd t s = _
  have ended : (decide (n ≤ u.time.now) && u.power.phase == .held && !u.power.resetLow) = true := by
    rw [decide_eq_true hdue, hheld, hlow]
    rfl
  simp only [execChipResetEnd, ← hu, hend, ended, if_true]

theorem exec_brownOut : exec (.brownOut t) s = .next (losePd18 u) := by
  subst hu
  rfl

theorem exec_perstN : exec (.perstN t) s = .next { u with host := u.host.resetLink } := by
  subst hu
  rfl

end Sys2Proof.Machine
end

section
open Sys2Proof Sys2Proof.Machine

/-- Settles O57: each reset by its rule, and what every one of them leaves. -/
theorem resetsComplete : Obligations.ResetsComplete := by
  unfold Obligations.ResetsComplete
  intro t data s u hu
  refine ⟨fun hlow => ?_, fun hlow => ?_, exec_resetNLow hu, exec_resetNRelease hu, fun hawake hbit => exec_chip hu hawake hbit,
    fun n hchip hlater hdue w hw => ?_, fun n => exec_chipResetEnd hu, exec_brownOut hu, exec_perstN hu, fun cause => ?_⟩
  · rw [exec_powerOnReset hu, hlow, if_neg (by decide)]
  · rw [exec_powerOnReset hu, hlow, if_pos rfl]
  · rw [hu, advance_chipReset hchip hlater hdue, ← hw]
    rfl
  · obtain ⟨hacts, hcarriers, hstreams, hdmas, hflight, hcounting, hnow⟩ := holdReset_fields u cause
    obtain ⟨-, -, -, -, -, -, hcustomer, hpolicy, hepochs⟩ := calm_holdReset cause (Calm.refl u)
    exact ⟨hacts, hcarriers, hstreams, hdmas, hflight, hcounting, hnow, hcustomer, hpolicy, hepochs, rfl, fun r hr => getR_holdReset hr u cause⟩

end

section
/-!
The fault injectors, and the packets received from the scrambled blocks of the lanes (R308-R322, R335-R342).
-/
namespace Sys2Proof.Machine

variable {t q : Nat} {c : Cmd} {s u : State} {f : Flight}

/-! ## Fault injectors -/

section
variable (hu : u = advance t s)
include hu

theorem exec_fiSet (h : mayRun u 0x58 c [] f) (hport : p8 c 16 ≤ 2) (hkind : p8 c 18 ≤ 6) (hslot : p8 c 19 ≤ 7)
    (hgood : fiGood (p8 c 18) (p8 c 17) (p32 c 20) (p32 c 24) (p64 c 32) = true) :
    let q := p8 c 16
    let j := p8 c 19
    let v := clearInj (settleHeaders u q) q j
    let w := setInj v q j (some
      { kind := p8 c 18, lane := p8 c 17, arg1 := p32 c 20, arg2 := p32 c 24, pattern := p64 c 32, start := v.time.now, seen := 0,
        events := 0, held := none, units := 0, upTo := v.time.now })
    let w := setF (setF (setFlag w (F.BXL_FI_1_ACTIVE q j) true) (F.BXL_FI_1_LANE q j) (p8 c 17)) (F.BXL_FI_1_KIND q j) (p8 c 18)
    exec (.fiSet t c) s = .next (complete (if p8 c 18 = 5 then beginLaneDown w q j (p8 c 17) (p32 c 24 / 2 ^ 31) else w) f 0) := by
  intro q j v w w'
  show execFiSet t c s = _
  have good : (decide (2 < p8 c 16) || decide (6 < p8 c 18) || decide (7 < p8 c 19)
      || !fiGood (p8 c 18) (p8 c 17) (p32 c 20) (p32 c 24) (p64 c 32)) = false := by simp [hport, hkind, hslot, hgood]
  rw [execFiSet, runCmd_of_mayRun (more := fun _ => []) hu h]
  dsimp only
  rw [good, immediate_passed (sched_of_mayRun h rfl)]

theorem exec_fiClear (h : mayRun u 0x59 c [] f) (hport : p8 c 16 ≤ 2) (hslot : p8 c 19 ≤ 7 ∨ p8 c 19 = 0xFF) : exec (.fiClear t c) s = .next
    (complete ((if p8 c 19 = 0xFF then List.range 8 else [p8 c 19]).foldl (fun v j => clearInj v (p8 c 16) j) u) f 0) := by
  show execFiClear t c s = _
  have good : (decide (2 < p8 c 16) || (decide (7 < p8 c 19) && p8 c 19 != 0xFF)) = false := by
    rw [decide_eq_false (Nat.not_lt.mpr hport)]
    rcases hslot with one | all
    · rw [decide_eq_false (Nat.not_lt.mpr one)]
      rfl
    · rw [all]
      rfl
  rw [execFiClear, runCmd_of_mayRun (more := fun _ => []) hu h]
  dsimp only
  rw [good, immediate_passed (sched_of_mayRun h rfl)]

theorem exec_reorderHoldExpiry {j : Nat} {x : Injector} {h : _} (hx : injAt u q j = some x) (hheld : x.held = some h)
    (hdue : h.deadline ≤ u.time.now) : exec (.reorderHoldExpiry t q j) s = .next (releaseHeld u q j) := by
  show execReorderHoldExpiry t q j s = _
  simp only [execReorderHoldExpiry, ← hu, hx, Option.bind_some, hheld, hdue, if_true]

end

theorem injectSlots_none {v : State} {l : List Nat} (h : ∀ j ∈ l, injAt v q j = none) (side : Nat) (x : List Byte × Bool) :
    l.foldl (fun a j => a.2.foldl (fun r x => let y := injectSlot r.1 q side j x; (y.1, r.2 ++ y.2)) (a.1, [])) (v, [x]) = (v, [x]) := by
  induction l with
  | nil => rfl
  | cons j l ih =>
    have free : injectSlot v q side j x = (v, [x]) := by simp only [injectSlot, h j List.mem_cons_self]
    simp only [List.foldl_cons, List.foldl_nil, free, List.nil_append]
    exact ih fun k hk => h k (List.mem_cons_of_mem _ hk)

/-- A packet that meets no injector goes to the checks as it is. -/
theorem receivePacket_clean {v : State} (h : ∀ j, j < 8 → injAt v q j = none) (b : List Byte) : receivePacket v q b = receiveFramed v q b false := by
  have clean : injectPacket v q 1 b = (v, [(b, false)]) := by
    rw [injectPacket, injectFrom, List.drop_zero]
    exact injectSlots_none (fun j hj => h j (List.mem_range.mp hj)) 1 _
  simp only [receivePacket, clean, List.foldl_cons, List.foldl_nil]

/-! ## A packet from its blocks -/

/-- The state with what a port has collected of a packet. -/
def withOpened (v : State) (q : Nat) (o : Option (List Byte)) : State := modPort v q fun p => { p with opened := o }

section
variable {v : State} (hq : q < v.ports.length)
include hq

theorem port_withOpened (o : Option (List Byte)) : (port (withOpened v q o) q).opened = o := by
  simp [port, withOpened, modPort, listMod, hq]

omit hq in
theorem withOpened_withOpened (o o' : Option (List Byte)) : withOpened (withOpened v q o) q o' = withOpened v q o' := by
  simp only [withOpened, modPort, listMod, List.modify_modify_eq]
  rfl

theorem withOpened_none (hnone : (port v q).opened = none) : withOpened v q none = v := by
  have unopened : ∀ p : PortSt, p.opened = none → { p with opened := none } = p := fun p h => by
    cases p
    cases h
    rfl
  have same : v.ports.modify q (fun p => { p with opened := none }) = v.ports := by
    refine List.ext_getElem (by simp) fun i hi hi' => ?_
    rw [List.getElem_modify]
    split
    next h =>
      subst h
      have here : (v.ports[q]).opened = none := by simpa [port, hq] using hnone
      exact unopened _ here
    next => rfl
  simp only [withOpened, modPort, listMod, same]

/-- A data block inside a packet: more to come, or the packet is whole. -/
theorem receiveBlock_data (acc bytes : List Byte) : receiveBlock (withOpened v q (some acc)) q { control := false, bytes := bytes }
    = if (acc ++ bytes).length < packetSize (lengthOf (acc ++ bytes)) then withOpened v q (some (acc ++ bytes))
      else if framed (acc ++ bytes) then receivePacket (withOpened v q none) q (acc ++ bytes)
      else withOpened (satAdd (withOpened v q (some acc)) (F.BXL_RX_FRAMING q) 1) q none := by
  simp only [receiveBlock, port_withOpened hq]
  exact congrArg₂ _ (withOpened_withOpened ..) (congrArg₂ _ (congrArg (receivePacket · q _) (withOpened_withOpened ..)) rfl)

omit hq in
theorem lengthOf_take {b : List Byte} {m : Nat} (h : 4 ≤ m) : lengthOf (b.take m) = lengthOf b := by
  rw [lengthOf, lengthOf, List.drop_take, List.take_take, Nat.min_eq_left (by omega)]

/-- The blocks of a framed packet from its `i`-th on, `k` of them, bring the packet. -/
theorem receive_chunks {b : List Byte} (hnone : (port v q).opened = none) (hb : framed b = true) (k : Nat) :
    ∀ i, i + (k + 1) = ceilDiv b.length 8 →
      ((List.range' i (k + 1)).map fun j => ({ control := false, bytes := (b.drop (8 * j)).take 8 } : Block)).foldl
        (fun s x => receiveBlock s q x) (withOpened v q (some (b.take (8 * i)))) = receivePacket v q b := by
  have sized : b.length = packetSize (lengthOf b) := by
    simp only [framed, Bool.and_eq_true, beq_iff_eq] at hb
    exact hb.1.2
  have grown : ∀ i, b.take (8 * i) ++ (b.drop (8 * i)).take 8 = b.take (8 * (i + 1)) := fun i => by rw [Nat.mul_succ, List.take_add]
  induction k with
  | zero =>
    intro i hi
    have whole : b.take (8 * (i + 1)) = b := List.take_of_length_le (by unfold ceilDiv at hi; omega)
    simp only [List.range'_succ, List.range'_zero, List.map_cons, List.map_nil, List.foldl_cons, List.foldl_nil]
    rw [receiveBlock_data hq, grown, whole, if_neg (by omega), if_pos hb, withOpened_none hq hnone]
  | succ k ih =>
    intro i hi
    have part : (b.take (8 * (i + 1))).length = 8 * (i + 1) := List.length_take_of_le (by unfold ceilDiv at hi; omega)
    have more : 8 * (i + 1) < packetSize (lengthOf b) := by rw [← sized]; unfold ceilDiv at hi; omega
    rw [List.range'_succ, List.map_cons, List.foldl_cons, receiveBlock_data hq, grown, lengthOf_take (by omega), part, if_pos more]
    exact ih (i + 1) (by omega)

/-- The blocks of one whole packet hand it on, and leave nothing collected. -/
theorem receive_packetBlocks {b : List Byte} (hnone : (port v q).opened = none) (hb : framed b = true) :
    (packetBlocks b).foldl (fun s x => receiveBlock s q x) v = receivePacket v q b := by
  have long : 28 ≤ b.length := by
    simp only [framed, Bool.and_eq_true, decide_eq_true_eq] at hb
    exact hb.1.1
  obtain ⟨k, hk⟩ : ∃ k, ceilDiv b.length 8 = k + 1 := ⟨ceilDiv b.length 8 - 1, by unfold ceilDiv; omega⟩
  have start : receiveBlock v q startBlock = withOpened v q (some []) := by
    simp only [receiveBlock, hnone]
    rfl
  rw [packetBlocks, List.foldl_cons, start, hk, List.range_eq_range']
  exact receive_chunks hq hnone hb k 0 (by omega)

end

/-! ## Blocks from the lanes -/

section
variable {first : Nat} {lanes got : List (List LineBlock)} {v w : State} {l : List Block} (hu : u = settleHeaders (advance t s) q)
  (hgot : got = (lanes.zipIdx.map fun x => if canReceive u q x.2 x.1 then x.1 else [])) (hv : v = loopLanes u q first got)
  (hw : w = countHeaders v q got)
include hu hgot hv hw

/-- The lanes' blocks go on one by one at an UP port; a DOWN port takes nothing. -/
theorem exec_packetReceive : exec (.packetReceive t q first lanes) s = .next
    (if !portUp w q then w else match delivered w q first got with
      | none => w
      | some l => l.foldl (fun v b => receiveBlock v q b) w) := by
  show execPacketReceive t q first lanes s = _
  simp only [execPacketReceive, ← hu, ← hgot, ← hv, ← hw] <;>
    rfl

theorem exec_packetReceive_up (hup : portUp w q = true) (hl : delivered w q first got = some l) :
    exec (.packetReceive t q first lanes) s = .next (l.foldl (fun v b => receiveBlock v q b) w) := by
  simp only [exec_packetReceive hu hgot hv hw, hup, hl, Bool.not_true, Bool.false_eq_true, if_false]

end

/-- A port that delivers blocks is a port that there is. -/
theorem port_of_delivered {v : State} {first : Nat} {lanes : List (List LineBlock)} {l : List Block} (h : delivered v q first lanes = some l) :
    q < v.ports.length := by
  by_contra hq
  have none : (port v q).runs = [] := by
    rw [port, List.getD_eq_default _ _ (Nat.not_lt.mp hq)]
    rfl
  rw [delivered, none] at h
  cases h

/-! ## Blocks dealt over the lanes are delivered as they were -/

section
variable {set : List Nat} {first last k : Nat}

/-- A block of a lane that gives, whose header no injector spoils, is the block that was sent. -/
theorem blockOf_sent {v : State} (hset : set ≠ []) (hgives : ∀ l ∈ set, laneGives v q l = true)
    (hclean : ∀ x ∈ (port v q).inj.filterMap id, x.kind = 6 → x.arg2 / 2 ^ 31 ≠ 1) (b : Block) :
    blockOf v q set last k (syncHeader b.control, b.bytes) = some b := by
  have member : set.getD (k % set.length) 16 ∈ set := by
    have inside : k % set.length < set.length := Nat.mod_lt _ (List.length_pos_iff.mpr hset)
    rw [List.getD_eq_getElem _ _ inside]
    exact List.getElem_mem inside
  have unhit : ∀ ahead, headerHit v q (set.getD (k % set.length) 16) 1 ahead = false := fun ahead => by
    refine List.any_eq_false.mpr fun x hx => ?_
    cases x with
    | none => simp
    | some x =>
      have far := hclean x (List.mem_filterMap.mpr ⟨_, hx, rfl⟩)
      simp only [Bool.and_eq_true, beq_iff_eq]
      tauto
  rw [blockOf, unhit, hgives _ member]
  cases b with
  | mk control bytes => cases control <;> rfl

theorem mem_deal {blocks : List Block} {l : List Block} (h : l ∈ deal set first blocks) : ∀ b ∈ l, b ∈ blocks := by
  obtain ⟨i, -, rfl⟩ := List.mem_map.mp h
  intro b hb
  obtain ⟨x, hx, rfl⟩ := List.mem_map.mp hb
  exact List.fst_mem_of_mem_zipIdx (List.mem_filter.mp hx).1

/-- The lanes bring the headers and the bytes of the blocks dealt over them. -/
theorem fromLines_deal {blocks : List Block} (hbytes : ∀ b ∈ blocks, b.bytes.length = 8) (lastLine : Nat → LineBlock) :
    ((deal set first blocks).zipIdx.map fun x => lastLine x.2 :: toLines (lastLine x.2).line x.1).map fromLines
      = (deal set first blocks).map (·.map fun b => (syncHeader b.control, b.bytes)) := by
  have each : ∀ x ∈ (deal set first blocks).zipIdx, fromLines (lastLine x.2 :: toLines (lastLine x.2).line x.1)
      = x.1.map fun b => (syncHeader b.control, b.bytes) := fun x hx =>
    fromLines_toLines _ _ fun b hb => hbytes b (mem_deal (List.fst_mem_of_mem_zipIdx hx) b hb)
  calc _ = (deal set first blocks).zipIdx.map (fun x => x.1.map fun b => (syncHeader b.control, b.bytes)) := by
        rw [List.map_map]
        exact List.map_congr_left each
    _ = _ := by rw [← List.zipIdx_map_fst 0 (deal set first blocks), List.map_map, List.zipIdx_map_fst]; rfl

theorem length_toLines (before : BitVec 64) (l : List Block) : (toLines before l).length = l.length := by
  induction l generalizing before with
  | nil => rfl
  | cons b l ih => simp [toLines, ih]

/-- What a receive set that began at a tick delivers of the lanes' blocks (the body of `delivered`). -/
def deliveredIn (s : State) (q first : Nat) (lanes : List (List LineBlock)) (run : Nat × Nat) : Option (List Block) :=
  let set := bitsSet run.2 16
  let l := gather (lanes.map (·.length)).sum set first ((lanes.take 16).map fromLines)
  let last := first + l.length - 1
  if l.isEmpty || decide (16383 * set.length ≤ last) || s.time.now != run.1 + rowTicks s q (last / set.length) + 6 then none
  else some ((l.zipIdx.filterMap fun x => blockOf s q set last (first + x.2) x.1))

theorem delivered_eq (s : State) (q first : Nat) (lanes : List (List LineBlock)) :
    delivered s q first lanes = (port s q).runs.findSome? (deliveredIn s q first lanes) := rfl

/-- The lanes' blocks gathered in their order are those that were dealt. -/
theorem gather_sent {blocks : List Block} (hset : set ≠ []) (hlt : ∀ i ∈ set, i < 16) (hbytes : ∀ b ∈ blocks, b.bytes.length = 8)
    (lastLine : Nat → LineBlock) :
    let lanes := (deal set first blocks).zipIdx.map fun x => lastLine x.2 :: toLines (lastLine x.2).line x.1
    gather (lanes.map (·.length)).sum set first ((lanes.take 16).map fromLines) = blocks.map fun b => (syncHeader b.control, b.bytes) := by
  intro lanes
  have all : lanes.take 16 = lanes := List.take_of_length_le (by simp [lanes, deal])
  have enough : blocks.length ≤ (lanes.map (·.length)).sum := by
    rw [← deal_sum set first blocks hset hlt]
    calc ((deal set first blocks).map (·.length)).sum
        = ((deal set first blocks).zipIdx.map (·.1.length)).sum := by
          conv_lhs => rw [← List.zipIdx_map_fst 0 (deal set first blocks), List.map_map]
          rfl
      _ ≤ _ := by
          rw [List.map_map]
          exact List.sum_le_sum fun x _ => by simp [length_toLines]
  rw [all, fromLines_deal hbytes, gather_map, gather_deal _ _ _ _ hset hlt enough]

theorem delivered_deal {v : State} {start mask : Nat} {rest : List (Nat × Nat)} {blocks : List Block} {lastLine : Nat → LineBlock}
    (hruns : (port v q).runs = (start, mask) :: rest) (hmask : set = bitsSet mask 16) (hset : set ≠ []) (hblocks : blocks ≠ [])
    (hbytes : ∀ b ∈ blocks, b.bytes.length = 8) (hclean : ∀ x ∈ (port v q).inj.filterMap id, x.kind = 6 → x.arg2 / 2 ^ 31 ≠ 1)
    (hgives : ∀ l ∈ set, laneGives v q l = true) (hround : first + blocks.length ≤ 16383 * set.length)
    (hnow : v.time.now = start + rowTicks v q ((first + blocks.length - 1) / set.length) + 6) :
    delivered v q first ((deal set first blocks).zipIdx.map fun x => lastLine x.2 :: toLines (lastLine x.2).line x.1) = some blocks := by
  have hlt : ∀ i ∈ set, i < 16 := fun i hi => by
    rw [hmask] at hi
    exact List.mem_range.mp (List.mem_filter.mp hi).1
  have some_block : 0 < blocks.length := List.length_pos_iff.mpr hblocks
  have sent := gather_sent (first := first) hset hlt hbytes lastLine
  have runs : deliveredIn v q first ((deal set first blocks).zipIdx.map fun x => lastLine x.2 :: toLines (lastLine x.2).line x.1) (start, mask)
      = some blocks := by
    simp only [deliveredIn, ← hmask, sent, List.length_map]
    have timely : ((blocks.map fun b => (syncHeader b.control, b.bytes)).isEmpty
        || decide (16383 * set.length ≤ first + blocks.length - 1)
        || v.time.now != start + rowTicks v q ((first + blocks.length - 1) / set.length) + 6) = false := by
      rw [decide_eq_false (by omega), ← hnow, bne_self_eq_false]
      simp [hblocks]
    rw [timely, if_neg (by decide), List.zipIdx_map, List.filterMap_map]
    have each : ∀ x : Block × Nat, blockOf v q set (first + blocks.length - 1) (first + x.2) (syncHeader x.1.control, x.1.bytes) = some x.1 :=
      fun x => blockOf_sent hset hgives hclean x.1
    exact congrArg some ((List.filterMap_congr fun x _ => each x).trans
      ((congrFun List.filterMap_eq_map' _).trans (List.zipIdx_map_fst 0 blocks)))
  rw [delivered_eq, hruns, List.findSome?_cons, runs]

end

end Sys2Proof.Machine
end

section
open Sys2Proof Sys2Proof.Machine

/-- Settles O40: the injectors by their commands; blocks by what the lanes deliver and what the port has collected. -/
theorem injectionAndReceiveComplete : Obligations.InjectionAndReceiveComplete := by
  unfold Obligations.InjectionAndReceiveComplete
  refine ⟨fun t c s u f hu => ⟨exec_fiSet hu, fun h hport hslot => ?_, fun h hport hslot => ?_, fun q j x h => exec_reorderHoldExpiry hu⟩,
    fun t q first lanes got s u v w l hu hgot hv hw => ⟨fun hdown => ?_, fun hup hnone => ?_, exec_packetReceive_up hu hgot hv hw,
      fun b hup hl hb hopened hpacket => ?_, fun b o hup hl hone hcontrol hopened => ?_, fun b hclean => receivePacket_clean hclean b⟩,
    fun q first start mask rest set blocks last u hruns hmask hset hblocks hbytes hclean hgives hround hnow =>
      delivered_deal hruns hmask hset hblocks hbytes hclean hgives hround hnow⟩
  · rw [exec_fiClear hu h hport (.inl hslot), if_neg (by omega)]
    rfl
  · rw [exec_fiClear hu h hport (.inr hslot), if_pos hslot]
  · rw [exec_packetReceive hu hgot hv hw, hdown]
    rfl
  · rw [exec_packetReceive hu hgot hv hw, hup, hnone]
    rfl
  · rw [exec_packetReceive_up hu hgot hv hw hup hl, hpacket, receive_packetBlocks (port_of_delivered hl) hopened hb]
  · rw [exec_packetReceive_up hu hgot hv hw hup hl, hone]
    simp only [List.foldl_cons, List.foldl_nil, receiveBlock, hcontrol, hopened, Option.isSome_some, Bool.true_or, if_true]

end

section
/-!
SYNC and SYNC_OUT, and the TDD pattern table (R34-R43, R49-R52).
-/
namespace Sys2Proof.Machine

variable {t : Nat} {c : Cmd} {s u : State} {f : Flight} (hu : u = advance t s)
include hu

/-! ## SYNC -/

theorem exec_syncArm {data : Nat} (hawake : asleep u = false) : exec (.syncArm t data) s = .next (writeSyncCtrl (countCfg u 1) data) := by
  show execSyncArm t data s = _
  rw [execSyncArm, byWrite_awake hu hawake]

theorem exec_syncEvent (hcount : u.time.counting = true) (hedge : onRefclk u = true) : exec (.syncEvent t) s = .next
    (if getF (captureSync u) F.TIME_SYNC_CTRL_OUT_MODE = 1 then
      emit (captureSync u) (.syncOut ((captureSync u).time.now + 8) ((captureSync u).time.now + 24)) else captureSync u) := by
  show execSyncEvent t s = _
  simp only [execSyncEvent, ← hu, hcount, hedge, Bool.and_self, if_true]

theorem exec_syncEvent_stopped (hcount : u.time.counting = false) : exec (.syncEvent t) s = .next u := by
  show execSyncEvent t s = _
  simp only [execSyncEvent, ← hu, hcount, Bool.false_and, Bool.false_eq_true, if_false]

omit hu in
/-- The state with a capture of the event of this edge. -/
def capturedSync (v w : State) : State :=
  { w with time := { v.time with
    syncs := v.time.syncs ++ [{ check := getF v F.TIME_SYNC_CTRL_MODE == 2, value := get64 v A.TIME_SYNC_VALUE A.TIME_SYNC_VALUE_1,
                                loadAt := v.time.now + (256 - 4 * getF v F.TIME_SYNC_CTRL_COMP) }] } }

omit hu in
/-- An event is captured in mode APPLY while ARMED, which it clears, and in mode CHECK (R35, R36). -/
theorem captureSync_eq (v : State) : captureSync v =
    (if getF v F.TIME_SYNC_CTRL_MODE = 1 ∧ flag v F.TIME_SYNC_CTRL_ARMED = true then capturedSync v (setFlag v F.TIME_SYNC_CTRL_ARMED false)
     else if getF v F.TIME_SYNC_CTRL_MODE = 2 then capturedSync v v else v) := by
  simp only [captureSync, Bool.and_eq_true, decide_eq_true_eq]
  rfl

omit hu in
/-- A capture leaves OUT_MODE and the elapsed time alone. -/
theorem captureSync_frame (v : State) :
    getF (captureSync v) F.TIME_SYNC_CTRL_OUT_MODE = getF v F.TIME_SYNC_CTRL_OUT_MODE ∧ (captureSync v).time.now = v.time.now := by
  rw [captureSync_eq]
  split_ifs
  · exact ⟨getF_setF_of_disjoint v (f := F.TIME_SYNC_CTRL_ARMED) (g := F.TIME_SYNC_CTRL_OUT_MODE) 0 rfl (by decide) (by decide), rfl⟩
  · exact ⟨rfl, rfl⟩
  · exact ⟨rfl, rfl⟩

theorem exec_syncApplied {x : SyncCapture} (hx : dueSync u false = some x) : exec (.syncApplied t) s = .next
    (applySync (dropSync u x) x.value (u.time.tick - (u.time.now - x.loadAt)) (u.time.now - x.loadAt)) := by
  show execSyncApplied t s = _
  simp only [execSyncApplied, ← hu, hx]

/-- A check counts where the counter stands as the capture says, and posts the difference else (R38). -/
theorem exec_syncCheck {x : SyncCapture} (hx : dueSync u true = some x) :
    let diff : Int := (x.value : Int) - ((u.time.tick : Int) - ((u.time.now - x.loadAt : Nat) : Int))
    exec (.syncCheck t) s = .next (if diff = 0 then wrapAdd (dropSync u x) F.TIME_SYNC_COUNT_CHECKED 1
      else post (dropSync u x) evSyncMismatch (evData [(16, 8, unsigned 64 diff)])) := by
  intro diff
  show execSyncCheck t s = _
  simp only [execSyncCheck, ← hu, hx]
  rfl

theorem exec_syncOutScheduled (hcount : u.time.counting = true) (hmode : getF u F.TIME_SYNC_CTRL_OUT_MODE = 2)
    (htick : u.time.tick = get64 u A.TIME_SYNC_OUT_TICK A.TIME_SYNC_OUT_TICK_1) (hlast : u.time.tick < 2 ^ 64 - 1) :
    let e := u.time.now + (edgeAtOrAfter u 4 u.time.tick - u.time.tick)
    exec (.syncOutScheduled t) s = .next
      (set64 (emit u (.syncOut e (e + 16))) A.TIME_SYNC_OUT_TICK A.TIME_SYNC_OUT_TICK_1 (2 ^ 64 - 1)) := by
  intro e
  show execSyncOutScheduled t s = _
  have due : (u.time.counting && getF u F.TIME_SYNC_CTRL_OUT_MODE == 2
      && u.time.tick == get64 u A.TIME_SYNC_OUT_TICK A.TIME_SYNC_OUT_TICK_1 && decide (u.time.tick < 2 ^ 64 - 1)) = true := by
    rw [hcount, hmode, beq_iff_eq.mpr htick, decide_eq_true hlast]
    rfl
  unfold execSyncOutScheduled
  extract_lets v
  obtain rfl : u = v := hu
  rw [if_pos due]

/-! ## The pattern table -/

theorem exec_tddSwap (h : mayRun u 0x2D c [] f) (hbank : p8 c 16 ≤ 1) (hgood : tddSwapGood u (p8 c 16) c.actTick = true)
    (hwin : inWindow u c f [(0x2D, 0, 0)]) : exec (.tddSwap t c) s = .next (accept u f [(0x2D, 0, 0)] []) := by
  show execTddSwap t c s = _
  obtain rfl := cmd_of_mayRun h
  have good : (decide (1 < p8 f.cmd 16) || !tddSwapGood u (p8 f.cmd 16) f.cmd.actTick) = false := by simp [hbank, hgood]
  simp only [execTddSwap, runCmd_of_mayRun (more := fun _ => []) hu h, good, schedulable_inWindow (sched_of_scheduledOnly h rfl) hwin, Option.elim]

theorem exec_tddSwap_bad (h : mayRun u 0x2D c [] f) (hbad : tddSwapGood u (p8 c 16) c.actTick = false) :
    exec (.tddSwap t c) s = .next (reject u f stBadParam) := by
  show execTddSwap t c s = _
  simp only [execTddSwap, runCmd_of_mayRun (more := fun _ => []) hu h, hbad, Bool.not_false, Bool.or_true, schedulable_bad]

theorem exec_patternTableStart (henable : flag u F.TIME_TDD_CTRL_ENABLE = true) (hvalid : tickValid u = true)
    (hidle : flag u F.TIME_TDD_CTRL_RUNNING = false) (hbank : bankValid u 0 = true) (htick : u.time.tick % period u 0 = 0) :
    exec (.patternTableStart t) s = .next (followPattern (runBank u 0 u.time.tick)) := by
  show execPatternTableStart t s = _
  have starts : startsAt u u.time.tick = true := by simp [startsAt, startReady, henable, hvalid, hidle, hbank, htick]
  simp only [execPatternTableStart, ← hu, starts, if_true]

theorem exec_patternTableStop {b : Nat} (hb : runningBank u = some b)
    (hfail : (flag u F.TIME_TDD_CTRL_ENABLE && tickValid u && bankValid u b) = false) :
    exec (.patternTableStop t) s = .next (followPattern (stopPattern u)) := by
  show execPatternTableStop t s = _
  simp only [execPatternTableStop, ← hu, patternChanged, checkPattern, hb, hfail, Bool.false_eq_true, if_false]

theorem exec_tddEntryWrite {b e data : Nat} (hawake : asleep u = false) (hb : b < 2) (he : e < 64) :
    exec (.tddEntryWrite t b e data) s = .next (writeWord (countCfg u 1) (0x10100 + 0x100 * b + 4 * e) data) := by
  show execTddEntryWrite t b e data s = _
  rw [execTddEntryWrite, byWrite_awake hu hawake, if_pos (by simp [hb, he])]

theorem exec_patternTurnaround : exec (.patternTurnaround t) s = .next (followPattern u) := by
  subst hu
  rfl

end Sys2Proof.Machine
end

section
open Sys2Proof Sys2Proof.Machine

/-- Settles O29: the capture by the mode, SYNC_OUT by OUT_MODE, the check by the difference. -/
theorem syncCommandsComplete : Obligations.SyncCommandsComplete := by
  unfold Obligations.SyncCommandsComplete
  intro t data s u hu
  refine ⟨exec_syncArm hu, fun hcount hedge => ?_, exec_syncEvent_stopped hu, fun x => exec_syncApplied hu, fun x hx => ⟨fun hzero => ?_, fun hdiff => ?_⟩,
    exec_syncOutScheduled hu⟩
  · intro m kept v
    have captured : captureSync u = v := captureSync_eq u
    obtain ⟨hmode, hnow⟩ := captureSync_frame u
    refine ⟨fun hout => ?_, fun hout => ?_⟩
    · rw [exec_syncEvent hu hcount hedge, hmode, if_neg hout, captured]
    · rw [exec_syncEvent hu hcount hedge, hmode, if_pos hout, hnow, captured]
  · rw [exec_syncCheck hu hx, if_pos hzero]
  · exact (exec_syncCheck hu hx).trans (congrArg _ (if_neg hdiff))

/-- Settles O31: the table by its conditions, TDD_SWAP by whether its bank and boundary are good. -/
theorem patternCommandsComplete : Obligations.PatternCommandsComplete := by
  unfold Obligations.PatternCommandsComplete
  intro t c s u f hu
  exact ⟨exec_tddSwap hu, exec_tddSwap_bad hu, exec_patternTableStart hu, fun b => exec_patternTableStop hu, fun _ => rfl,
    fun b e data => exec_tddEntryWrite hu, exec_patternTurnaround hu⟩

end

section
/-!
The command rings, and the entries, events and messages that reach host memory (R61-R74, R80, R82).
-/
namespace Sys2Proof.Machine

variable {t r k : Nat} {s u : State} (hu : u = advance t s)

/-! ## Command rings -/

section
include hu

theorem exec_ringPoll (hphase : u.power.phase = .run) (hruns : pollRuns u = false)
    (hdue : u.host.kick = true ∨ u.host.lastPoll + pollTicks u ≤ u.time.now) : exec (.ringPoll t) s = .next (poll u) := by
  show execRingPoll t s = _
  have due : (u.power.phase == .run && !pollRuns u && (u.host.kick || decide (u.host.lastPoll + pollTicks u ≤ u.time.now))) = true := by
    simpa [hphase, hruns] using hdue
  simp only [execRingPoll, ← hu, due, if_true]

theorem exec_kick (hphase : u.power.phase = .run) : exec (.kick t) s = .next { u with host := { u.host with kick := true } } := by
  show execKick t s = _
  have awake : asleep u = false := by simp [asleep, hphase]
  simp only [execKick, ← hu, awake, hphase, Bool.false_eq_true, if_false, beq_self_eq_true, if_true]

section
variable {pi : Nat} (hout : (cmdRing u r).piOut = true)
include hout

/-- PI of a ring that was disabled meanwhile is discarded (the model's choice, notes/assumptions/62.md). -/
theorem exec_piReadComplete_stale (hstale : (cmdRing u r).piStale = true ∨ cmdEnabled u r = false) :
    exec (.piReadComplete t r pi) s = .next (issueReads (modCmdRing u r fun g => { g with piOut := false })) := by
  show execPiReadComplete t r pi s = _
  have stale : ((cmdRing u r).piStale || !cmdEnabled u r) = true := by simpa using hstale
  simp only [execPiReadComplete, ← hu, hout, stale, Bool.not_true, Bool.false_eq_true, if_false, if_true]

/-- PI that arrives within the ring's size shows its entries; one too far ahead halts the ring (R68, R69). -/
theorem exec_piReadComplete (henabled : cmdEnabled u r = true) (hstale : (cmdRing u r).piStale = false) (hpi : pi < 2 ^ 32) :
    let v := modCmdRing u r fun g => { g with piOut := false }
    exec (.piReadComplete t r pi) s = .next (if cmdSize u r < (pi + 2 ^ 32 - (cmdRing v r).ci) % 2 ^ 32 then issueReads (haltRing v r 2)
      else issueReads (modCmdRing v r fun g => { g with piSeen := pi })) := by
  intro v
  show execPiReadComplete t r pi s = _
  have fresh : ((cmdRing u r).piStale || !cmdEnabled u r) = false := by rw [hstale, henabled]; rfl
  simp only [execPiReadComplete, ← hu, hout, fresh, Bool.not_true, Bool.false_eq_true, if_false, Nat.mod_eq_of_lt hpi]
  rfl

end

section
variable {index : Nat} {l : List Byte} {x : _}
  (hx : (cmdRing u r).fetches.find? (fun x => x.index = index && 64 * x.count = l.length) = some x)
include hx

theorem exec_entryFetchComplete_taken (hkeep : x.discard = false) :
    let v := modCmdRing u r fun g => { g with fetches := g.fetches.erase x }
    let w := takeEntries v (decodeEntries r x.count l)
    let ci := (index + x.count) % 2 ^ 32
    let w := setF (modCmdRing w r fun g => { g with ci := ci }) (F.HOST_CMDR_STATUS_CI_LO r) ci
    exec (.entryFetchComplete t r index l) s = .next (issueReads (hostWrite w (cmdDb w r + 64) 4 ci)) := by
  intro v w ci w'
  show execEntryFetchComplete t r index l s = _
  simp only [execEntryFetchComplete, ← hu, hx, hkeep, Bool.false_eq_true, if_false]
  rfl

theorem exec_entryFetchComplete_discarded (hdiscard : x.discard = true) : exec (.entryFetchComplete t r index l) s = .next
    (issueReads (modCmdRing u r fun g => { g with fetches := g.fetches.erase x })) := by
  show execEntryFetchComplete t r index l s = _
  simp only [execEntryFetchComplete, ← hu, hx, hdiscard, if_true]

end

/-! ## Completion and event rings -/

section
variable {ci : Nat} (henabled : outEnabled u k r = true) (hout : (outRing u k r).ciOut = true) (hstale : (outRing u k r).ciStale = false)
  (hci : ci < 2 ^ 32)
include henabled hout hstale hci

/-- The consumer index of a ring is renewed and what waits for the ring is written (R74). -/
theorem exec_ciReadComplete :
    let v := modOutRing u k r fun o => { o with ciOut := false, ci := ci }
    exec (.ciReadComplete t k r ci) s = .next (issueReads (if k = 1 then drainBacklog v.host.backlog.length v r else drainQueue v r)) := by
  intro v
  show execCiReadComplete t k r ci s = _
  have fresh : ((outRing u k r).ciStale || !outEnabled u k r) = false := by rw [hstale, henabled]; rfl
  simp only [execCiReadComplete, ← hu, hout, fresh, Bool.not_true, Bool.false_eq_true, if_false, Nat.mod_eq_of_lt hci]
  rfl

end

theorem exec_completionWrite {c : _} (hc : u.host.due.find? (fun x => x.cq = r) = some c) :
    exec (.completionWrite t r) s = .next (deliverCpl { u with host := { u.host with due := u.host.due.erase c } } c) := by
  show execCompletionWrite t r s = _
  simp only [execCompletionWrite, ← hu, hc]

theorem exec_completionBacklogDrain (henabled : outEnabled u 1 r = true) :
    exec (.completionBacklogDrain t r) s = .next (drainBacklog u.host.backlog.length u r) := by
  show execCompletionBacklogDrain t r s = _
  simp only [execCompletionBacklogDrain, ← hu, henabled, if_true]

theorem exec_eventQueueDrain (henabled : outEnabled u 2 r = true) : exec (.eventQueueDrain t r) s = .next (drainQueue u r) := by
  show execEventQueueDrain t r s = _
  simp only [execEventQueueDrain, ← hu, henabled, if_true]

theorem exec_msixModerationExpiry (henabled : outEnabled u k r = true) (hirq : outIrqEn u k r = true) (hsome : 0 < (outRing u k r).unsignalled)
    (hdue : (outRing u k r).firstAt + outModDelay u k r ≤ u.time.now) : exec (.msixModerationExpiry t k r) s = .next
    (sendMsix (modOutRing u k r fun o => { o with unsignalled := 0 }) (outVector u k r)) := by
  show execMsixModerationExpiry t k r s = _
  simp only [execMsixModerationExpiry, ← hu, henabled, hirq, hsome, hdue, decide_true, Bool.and_self, if_true]

theorem exec_msixUnmask (hr : r < 32) : exec (.msixUnmask t r) s = .next
    (releaseMsix { u with host := { u.host with msixMask := putBits u.host.msixMask r 1 0 } } r) := by
  show execMsixUnmask t r s = _
  simp only [execMsixUnmask, ← hu, hr, if_true]
  rfl

end

/-! ## Events -/

/-- The ring's counters after a change, and what a change of one ring leaves of the others. -/
theorem outRing_modOutRing_same {v : State} (hr : r < v.host.evRings.length) (g : OutRing → OutRing) :
    outRing (modOutRing v 2 r g) 2 r = g (outRing v 2 r) := by
  simp [outRing, modOutRing, listMod, hr]

/-- `s` has the registers of `b`, and its event rings as many losses due. -/
def LossesKept (b s : State) : Prop := s.regs = b.regs ∧ ∀ r, (outRing s 2 r).lost = (outRing b 2 r).lost

theorem LossesKept.refl (b : State) : LossesKept b b := ⟨rfl, fun _ => rfl⟩

section
variable {b v : State} (h : LossesKept b v)
include h

theorem LossesKept.modOutRing (kind r : Nat) {g : OutRing → OutRing} (hg : ∀ o, (g o).lost = o.lost) :
    LossesKept b (modOutRing v kind r g) := by
  obtain ⟨hregs, hlost⟩ := h
  unfold Machine.modOutRing
  split
  · exact ⟨hregs, hlost⟩
  · refine ⟨hregs, fun k => ?_⟩
    rw [← hlost k]
    simp only [outRing, listMod, OfNat.ofNat_ne_one, if_false, List.getD_eq_getElem?_getD, List.getElem?_modify]
    cases v.host.evRings[k]? with
    | none => rfl
    | some o =>
      by_cases hk : r = k
      · simp [hk, hg]
      · simp [hk]

theorem LossesKept.emit (o : Output) : LossesKept b (emit v o) := h

theorem LossesKept.withEvq (l : List Ev) : LossesKept b { v with host := { v.host with evq := l } } := h

theorem LossesKept.sendMsix (vec : Nat) : LossesKept b (sendMsix v vec) := by
  unfold Machine.sendMsix
  split
  · exact h
  · exact h

theorem LossesKept.noteWritten (kind r : Nat) : LossesKept b (noteWritten v kind r) := by
  unfold Machine.noteWritten
  dsimp only
  have noted := h.modOutRing kind r (g := fun o =>
    { o with unsignalled := o.unsignalled + 1, firstAt := if o.unsignalled = 0 then v.time.now else o.firstAt }) fun _ => rfl
  split
  · exact (noted.modOutRing kind r (g := fun o => { o with unsignalled := 0 }) fun _ => rfl).sendMsix _
  · exact noted

theorem LossesKept.hostWrite (a l n : Nat) : LossesKept b (hostWrite v a l n) := by
  rw [hostWrite_eq]
  exact h

theorem LossesKept.askCi (kind r : Nat) : LossesKept b (askCi v kind r) := by
  unfold Machine.askCi issueCi
  have asked := h.modOutRing kind r (g := fun o => { o with ciWant := true }) fun _ => rfl
  split
  · exact h
  · split
    · refine LossesKept.emit (LossesKept.modOutRing asked _ _ ?_) _
      exact fun _ => rfl
    · exact asked

theorem LossesKept.writeEntry (kind r len n : Nat) : LossesKept b (writeEntry v kind r len n) := by
  unfold Machine.writeEntry
  dsimp only
  refine LossesKept.noteWritten (LossesKept.hostWrite (LossesKept.modOutRing (h.hostWrite ..) _ _ ?_) ..) ..
  exact fun _ => rfl

theorem LossesKept.placeEvent (e : Ev) : LossesKept b (placeEvent v e) := by
  unfold Machine.placeEvent
  split
  · exact h.writeEntry ..
  · exact (h.withEvq _).askCi ..

end

theorem askCi_evq (v : State) (kind r : Nat) : (askCi v kind r).host.evq = v.host.evq := by
  have kept : ∀ (w : State) g, (modOutRing w kind r g).host.evq = w.host.evq := fun w g => by
    unfold modOutRing
    split <;> rfl
  unfold askCi issueCi
  split
  · rfl
  · split
    · exact (kept _ _).trans (kept _ _)
    · exact kept _ _

section
variable {type n data : Nat} {e : Ev} (hr : r = bitsOf (getN u A.HOST_EVT_ROUTE) (2 * (type / 16)) 2)
  (he : e = { ring := r, seq := (outRing u 2 r).seq, type := type, cls := type / 16, tick := n, tickOk := tickValid u, data := data })
include hr

theorem postAt_disabled (hoff : outEnabled u 2 r = false) : postAt u type n data = satAdd u F.HOST_LOST_EVENTS 1 := by
  have off : outEnabled u 2 (routeOf u (evClass type)) = false := by rw [hr] at hoff; exact hoff
  simp only [postAt, postOn, off, Bool.not_false, if_true]

/-- An event of an enabled ring: losses that are due go ahead, then it takes the next sequence number, or is lost (R82). -/
theorem postAt_enabled (hon : outEnabled u 2 r = true) : postAt u type n data =
    (let v := placeLost u r
     let x : Ev := { ring := r, seq := (outRing v 2 r).seq, type := type, cls := type / 16, tick := n, tickOk := tickValid u, data := data }
     if evRoom v r then placeEvent (takeSeq v r) x
     else modOutRing (satAdd (takeSeq v r) (F.HOST_EVR_STATUS_DROPPED r) 1) 2 r fun o => { o with lost := o.lost + 1 }) := by
  subst hr
  have on : outEnabled u 2 (routeOf u (evClass type)) = true := hon
  simp only [postAt, postOn, on, Bool.not_true, Bool.false_eq_true, if_false]
  rfl

omit hr in
theorem evWaiting_iff (v : State) : evWaiting v r = true ↔ ∃ x ∈ v.host.evq, x.ring = r := by
  simp [evWaiting]

omit hr in
theorem evRoom_eq_true {v : State} (h : ¬(outFull v 2 r = true ∨ ∃ x ∈ v.host.evq, x.ring = r) ∨ v.host.evq.length < 256) :
    evRoom v r = true := by
  rw [← evWaiting_iff] at h
  rcases h with idle | room
  · simp only [not_or, Bool.not_eq_true] at idle
    simp [evRoom, idle]
  · simp [evRoom, room]

omit hr in
theorem evRoom_eq_false {v : State} (h : outFull v 2 r = true ∨ ∃ x ∈ v.host.evq, x.ring = r) (hfull : 256 ≤ v.host.evq.length) :
    evRoom v r = false := by
  rw [← evWaiting_iff] at h
  rcases h with full | waiting
  · simp [evRoom, full, hfull]
  · simp [evRoom, waiting, hfull]

variable (hon : outEnabled u 2 r = true) (hlen : r < u.host.evRings.length)
include hon

section
variable (hlost : (outRing u 2 r).lost = 0)
include hlost

omit hr hon in
theorem placeLost_nothing : placeLost u r = u := if_pos hlost

include he in
theorem postAt_room (hroom : ¬(outFull u 2 r = true ∨ ∃ x ∈ u.host.evq, x.ring = r) ∨ u.host.evq.length < 256) :
    postAt u type n data = placeEvent (takeSeq u r) e := by
  rw [postAt_enabled hr hon, placeLost_nothing hlost, he]
  exact if_pos (evRoom_eq_true hroom)

end

include hlen

omit hr hon in
/-- Taking a sequence number leaves open whether the event is written or waits. -/
theorem placeEvent_takeSeq (x : Ev) (hx : x.ring = r) : placeEvent (takeSeq u r) x =
    (if outFull u 2 r = true ∨ ∃ y ∈ u.host.evq, y.ring = r then
      askCi { takeSeq u r with host := { (takeSeq u r).host with evq := u.host.evq ++ [x] } } 2 r else writeEvent (takeSeq u r) x) := by
  have full : outFull (takeSeq u r) 2 r = outFull u 2 r := by
    simp only [outFull, takeSeq, outRing_modOutRing_same hlen]
    rfl
  have waiting : evWaiting (takeSeq u r) r = evWaiting u r := rfl
  have waits : (!outFull u 2 r && !evWaiting u r) = !decide (outFull u 2 r = true ∨ ∃ y ∈ u.host.evq, y.ring = r) := by
    simp only [← evWaiting_iff, Bool.decide_or, Bool.decide_eq_true, Bool.not_or]
  rw [placeEvent, hx, full, waiting, waits]
  by_cases hwaits : outFull u 2 r = true ∨ ∃ y ∈ u.host.evq, y.ring = r
  · rw [decide_eq_true hwaits, if_pos hwaits]
    rfl
  · rw [decide_eq_false hwaits, if_neg hwaits]
    rfl

omit hlen in
/-- While ring and queue are full an event is counted and leaves one more loss due. -/
theorem postAt_full (hwaits : outFull u 2 r = true ∨ ∃ x ∈ u.host.evq, x.ring = r) (hfull : 256 ≤ u.host.evq.length) :
    postAt u type n data
      = modOutRing (satAdd (takeSeq u r) (F.HOST_EVR_STATUS_DROPPED r) 1) 2 r fun o => { o with lost := o.lost + 1 } := by
  have none : placeLost u r = u := by
    unfold placeLost
    by_cases hlost : (outRing u 2 r).lost = 0
    · exact if_pos hlost
    · simp only [hlost, hon, evRoom_eq_false hwaits hfull, Bool.not_true, Bool.not_false, Bool.false_eq_true, if_false, if_true]
  rw [postAt_enabled hr hon, none]
  exact if_neg (Bool.eq_false_iff.mp (evRoom_eq_false hwaits hfull))

omit hr hon in
theorem outRing_counted : outRing (modOutRing (satAdd (takeSeq u r) (F.HOST_EVR_STATUS_DROPPED r) 1) 2 r fun o => { o with lost := o.lost + 1 }) 2 r
    = { outRing u 2 r with seq := ((outRing u 2 r).seq + 1) % 2 ^ 32, lost := (outRing u 2 r).lost + 1 } := by
  have here : r < (satAdd (takeSeq u r) (F.HOST_EVR_STATUS_DROPPED r) 1).host.evRings.length := by
    simpa [satAdd, takeSeq, modOutRing, listMod] using hlen
  rw [outRing_modOutRing_same here]
  exact congrArg (fun o : OutRing => { o with lost := o.lost + 1 }) (outRing_modOutRing_same hlen _)

end

end Sys2Proof.Machine
end

section
namespace Sys2Proof.Machine

/-- A vector whose mask bit clears is open while MSI-X is on and the function is not masked. -/
theorem vectorOpen_unmasked (v : State) (r : Nat) :
    vectorOpen { v with host := { v.host with msixMask := putBits v.host.msixMask r 1 0 } } r = (v.host.msixOn && !v.host.msixFunc) := by
  have clear : bitAt (putBits v.host.msixMask r 1 0) r = false := by
    have zero : bitsOf (putBits v.host.msixMask r 1 0) r 1 = 0 := (bitsOf_putBits ..).trans (Nat.zero_mod _)
    exact decide_eq_false (zero.trans_ne (by decide))
  simp [vectorOpen, clear]

section
variable {u : State} {type n data r : Nat} {e : Ev} (hr : r = bitsOf (getN u A.HOST_EVT_ROUTE) (2 * (type / 16)) 2)
  (he : e = { ring := r, seq := (outRing u 2 r).seq, type := type, cls := type / 16, tick := n, tickOk := tickValid u, data := data })
  (hon : outEnabled u 2 r = true) (hlen : r < u.host.evRings.length)

/-- The counts and sequence numbers after an event that found no room. -/
theorem getF_dropped : getF (modOutRing (satAdd (takeSeq u r) (F.HOST_EVR_STATUS_DROPPED r) 1) 2 r fun o => { o with lost := o.lost + 1 })
      (F.HOST_EVR_STATUS_DROPPED r)
    = min (getF u (F.HOST_EVR_STATUS_DROPPED r) + 1) (2 ^ (F.HOST_EVR_STATUS_DROPPED r).width - 1) := by
  have counted := getF_setF_same (takeSeq u r) (f := F.HOST_EVR_STATUS_DROPPED r)
    (min (getF u (F.HOST_EVR_STATUS_DROPPED r) + 1) (2 ^ (F.HOST_EVR_STATUS_DROPPED r).width - 1)) (by simp [F.HOST_EVR_STATUS_DROPPED])
  refine Eq.trans counted (Nat.mod_eq_of_lt ?_)
  have positive := Nat.two_pow_pos (F.HOST_EVR_STATUS_DROPPED r).width
  omega

/-- The event that reports the losses of a ring. -/
def lostEvent (u : State) (r : Nat) (e : Ev) : Ev :=
  { e with type := 0x0002, cls := 0, tick := u.time.tick, data := evData [(16, 4, (outRing u 2 r).lost), (20, 1, r)] }

include hr he hon hlen

/-- An event that finds room reports the losses that are due first, and is then posted as if there were none. -/
theorem postAt_reportsLosses (hlost : 0 < (outRing u 2 r).lost)
    (hroom : ¬(outFull u 2 r = true ∨ ∃ x ∈ u.host.evq, x.ring = r) ∨ u.host.evq.length < 256) :
    let w := placeEvent (takeSeq (modOutRing u 2 r fun o => { o with lost := 0 }) r) (lostEvent u r e)
    (outRing w 2 r).lost = 0 ∧ postAt u type n data = postAt w type n data := by
  intro w
  have cleared : (outRing (modOutRing u 2 r fun o => { o with lost := 0 }) 2 r).lost = 0 := by rw [outRing_modOutRing_same hlen]
  obtain ⟨regs, losses⟩ := ((LossesKept.refl (modOutRing u 2 r fun o => { o with lost := 0 })).modOutRing 2 r
    (g := fun o => { o with seq := (o.seq + 1) % 2 ^ 32 }) fun _ => rfl).placeEvent (lostEvent u r e)
  have none : (outRing w 2 r).lost = 0 := (losses r).trans cleared
  have same : ∀ x, getR w x = getR u x := fun x => congrArg (fun l => (assocGet l x.addr).getD (BitVec.ofNat 32 x.reset)) regs
  have route : r = bitsOf (getN w A.HOST_EVT_ROUTE) (2 * (type / 16)) 2 := by rw [getN, same, ← getN]; exact hr
  have on : outEnabled w 2 r = true := by
    simp only [outEnabled, flag, getF, same]
    exact hon
  have valid : tickValid w = tickValid u :=
    congrArg (fun n => decide (n = 1)) (congrArg (fun y : Word => bitsOf y.toNat _ _) (same F.TIME_CLK_STATUS_TICK_VALID.reg))
  have first : placeLost u r = w := by
    unfold placeLost
    simp only [Nat.pos_iff_ne_zero.mp hlost, hon, evRoom_eq_true hroom, Bool.not_true, Bool.false_eq_true, if_false]
    rw [show w = placeEvent _ _ from rfl, lostEvent, he]
    rfl
  refine ⟨none, ?_⟩
  rw [postAt_enabled hr hon, postAt_enabled route on, placeLost_nothing none, first, valid]

end

end Sys2Proof.Machine
end

section
open Sys2Proof Sys2Proof.Machine

/-- Settles O32: a poll, what it brings, and the entries that a fetch brings. -/
theorem commandRingEventsComplete : Obligations.CommandRingEventsComplete := by
  unfold Obligations.CommandRingEventsComplete
  intro t r s u hu
  refine ⟨exec_ringPoll hu, exec_kick hu, fun pi henabled hout hstale hpi hfits => ?_, fun pi henabled hout hstale hpi hfar => ?_,
    fun pi => exec_piReadComplete_stale hu, fun index l x hx => ⟨exec_entryFetchComplete_taken hu hx, exec_entryFetchComplete_discarded hu hx⟩⟩
  · exact (exec_piReadComplete hu hout henabled hstale hpi).trans (congrArg _ (if_neg (Nat.not_lt.mpr hfits)))
  · exact (exec_piReadComplete hu hout henabled hstale hpi).trans (congrArg _ (if_pos hfar))

/-- Settles O33: an event by whether its ring has room and losses due; each entry and message by its rule. -/
theorem outputRingEventsComplete : Obligations.OutputRingEventsComplete := by
  unfold Obligations.OutputRingEventsComplete
  refine ⟨fun u type n data r e hr he => ⟨postAt_disabled hr, fun hon hlen => ?_⟩, fun t k r s u hu => ⟨fun ci => exec_ciReadComplete hu,
    fun ci => exec_ciReadComplete hu, fun c => exec_completionWrite hu, exec_completionBacklogDrain hu, exec_eventQueueDrain hu,
    exec_msixModerationExpiry hu, fun hlow => ?_⟩⟩
  · intro v waits
    have ring : e.ring = r := congrArg Ev.ring he
    have counted := outRing_counted (u := u) hlen
    refine ⟨fun hlost hidle => ?_, fun hlost hwaits hroom => ?_, fun hlost hwaits hfull => ?_, fun hlost hwaits hfull => ?_, fun hlost hroom =>
      postAt_reportsLosses hr he hon hlen hlost hroom⟩
    · rw [postAt_room hr he hon hlost (.inl hidle), placeEvent_takeSeq hlen e ring, if_neg hidle]
      rfl
    · have queued := (postAt_room hr he hon hlost (.inr hroom)).trans ((placeEvent_takeSeq hlen e ring).trans (if_pos hwaits))
      exact ⟨queued, (congrArg (fun w : State => w.host.evq) queued).trans (askCi_evq ..)⟩
    · rw [postAt_full hr hon hwaits hfull, counted]
      exact ⟨getF_dropped, congrArg (· + 1) hlost, by rw [he], rfl, rfl⟩
    · rw [postAt_full hr hon hwaits hfull, counted]
  · intro v
    have unmasked := exec_msixUnmask hu hlow
    have open' : vectorOpen v r = (u.host.msixOn && !u.host.msixFunc) := vectorOpen_unmasked u r
    refine ⟨fun hpend hmsix hfunc => ?_, fun hshut => ?_⟩
    · refine unmasked.trans (congrArg _ (if_pos ?_))
      rw [open', hmsix, hfunc, Bool.and_eq_true]
      exact ⟨hpend, rfl⟩
    · refine unmasked.trans (congrArg _ (if_neg ?_))
      rw [open', Bool.and_eq_true, Bool.and_eq_true, Bool.not_eq_true']
      rintro ⟨hpend, hmsix, hfunc⟩
      rcases hshut with h | h | h
      · exact absurd hpend (Bool.eq_false_iff.mp h)
      · exact absurd hmsix (Bool.eq_false_iff.mp h)
      · exact absurd h (Bool.eq_false_iff.mp hfunc)

end

section
/-!
Ring control, the function level resets, and reads of host memory that fail (R59-R65, R71, R102).
-/
namespace Sys2Proof.Machine

variable {t r data : Nat} {s u : State} {abort : Bool} (hu : u = advance t s)

section
include hu

/-! ## Ring control -/

theorem exec_ringCtrlWrite_cmd (hawake : asleep u = false) (hr : r < 16) :
    exec (.ringCtrlWrite t 0 r data) s = .next (writeCmdCtrl (countCfg u 1) r data) := by
  show execRingCtrlWrite t 0 r data s = _
  rw [execRingCtrlWrite, byWrite_awake hu hawake, decide_eq_true hr]
  rfl

theorem exec_ringCtrlWrite_cq (hawake : asleep u = false) (hr : r < 16) :
    exec (.ringCtrlWrite t 1 r data) s = .next (writeCqCtrl (countCfg u 1) r data) := by
  show execRingCtrlWrite t 1 r data s = _
  rw [execRingCtrlWrite, byWrite_awake hu hawake, decide_eq_true hr]
  rfl

theorem exec_ringCtrlWrite_ev (hawake : asleep u = false) (hr : r < 4) :
    exec (.ringCtrlWrite t 2 r data) s = .next (writeEvCtrl (countCfg u 1) r data) := by
  show execRingCtrlWrite t 2 r data s = _
  rw [execRingCtrlWrite, byWrite_awake hu hawake, decide_eq_true hr]
  rfl

/-! ## Function level resets -/

theorem exec_functionLevelReset (hup : pcieUp u = true) : exec (.functionLevelReset t) s = .next (writeConfig u resetPf0) := by
  show execFunctionLevelReset t s = _
  simp only [execFunctionLevelReset, ← hu, hup, if_true]

theorem exec_pf1FunctionLevelReset (hup : pcieUp u = true) : exec (.pf1FunctionLevelReset t) s = .next (writeConfig u resetPf1) := by
  show execPf1FunctionLevelReset t s = _
  simp only [execPf1FunctionLevelReset, ← hu, hup, if_true]

theorem exec_functionLevelReset_down (hup : pcieUp u = false) :
    exec (.functionLevelReset t) s = .next u ∧ exec (.pf1FunctionLevelReset t) s = .next u := by
  subst hu
  exact ⟨congrArg _ (if_neg (Bool.eq_false_iff.mp hup)), congrArg _ (if_neg (Bool.eq_false_iff.mp hup))⟩

end

theorem writeConfig_ready (h : pd2Ready u = true) (g : State → State) : writeConfig u g = g u := if_pos h

theorem writeConfig_retry (h : pd2Ready u = false) (g : State → State) : writeConfig u g = emit u .configRetry := if_neg (Bool.eq_false_iff.mp h)

theorem assocGet_filter {α : Type} (p : Nat → Bool) (l : List (Nat × α)) (a : Nat) :
    assocGet (l.filter fun x => p x.1) a = if p a then assocGet l a else none := by
  induction l with
  | nil => exact (ite_self _).symm
  | cons x l ih =>
    obtain ⟨k, v⟩ := x
    by_cases hk : k = a
    · subst hk
      cases hp : p k <;> simp [hp, assocGet, ih]
    · cases hp : p k <;> simp [hp, hk, assocGet, ih]

/-- The reset of PF0 resets the words of block HOST but for CFG_WRITES. -/
theorem getR_resetPf0 (v : State) (q : Reg) : getR (resetPf0 v) q =
    if q.addr < 0x20000 ∨ 0x30000 ≤ q.addr ∨ q.addr = A.HOST_CFG_WRITES.addr ∨ q.addr = A.HOST_CFG_WRITES_1.addr then getR v q
    else BitVec.ofNat 32 q.reset := by
  have filtered := assocGet_filter
    (fun a => a < 0x20000 || 0x30000 ≤ a || a == A.HOST_CFG_WRITES.addr || a == A.HOST_CFG_WRITES_1.addr) v.regs q.addr
  refine Eq.trans (congrArg (·.getD (BitVec.ofNat 32 q.reset)) filtered) ?_
  simp only [Bool.or_eq_true, decide_eq_true_eq, beq_iff_eq, or_assoc]
  split <;> rfl

/-- A register word whose reset value has bit 31 clear shows no ENABLE after the reset of PF0. -/
theorem enable_resetPf0 (v : State) (q : Reg) (hlo : 0x20100 ≤ q.addr) (hhi : q.addr < 0x30000) (hreset : bitsOf (BitVec.ofNat 32 q.reset).toNat 31 1 = 0) :
    flag (resetPf0 v) ⟨q, 31, 1⟩ = false := by
  have off : ¬(q.addr < 0x20000 ∨ 0x30000 ≤ q.addr ∨ q.addr = A.HOST_CFG_WRITES.addr ∨ q.addr = A.HOST_CFG_WRITES_1.addr) := by
    simp only [A.HOST_CFG_WRITES, A.HOST_CFG_WRITES_1]
    omega
  have zero : getF (resetPf0 v) ⟨q, 31, 1⟩ = 0 := by rw [getF, getR_resetPf0, if_neg off, hreset]
  exact decide_eq_false (by rw [zero]; decide)

theorem cmdEnabled_resetPf0 (v : State) {q : Nat} (hq : q < 16) : cmdEnabled (resetPf0 v) q = false := by
  rw [cmdEnabled, show F.HOST_CMDR_CTRL_ENABLE q = ⟨A.HOST_CMDR_CTRL q, 31, 1⟩ from rfl,
    enable_resetPf0 _ _ (by simp only [A.HOST_CMDR_CTRL]; omega) (by simp only [A.HOST_CMDR_CTRL]; omega) (by simp only [A.HOST_CMDR_CTRL]; decide),
    Bool.and_false]

theorem cqEnabled_resetPf0 (v : State) {q : Nat} (hq : q < 16) : outEnabled (resetPf0 v) 1 q = false := by
  rw [outEnabled, if_pos rfl, show F.HOST_CQR_CTRL_ENABLE q = ⟨A.HOST_CQR_CTRL q, 31, 1⟩ from rfl,
    enable_resetPf0 _ _ (by simp only [A.HOST_CQR_CTRL]; omega) (by simp only [A.HOST_CQR_CTRL]; omega) (by simp only [A.HOST_CQR_CTRL]; decide),
    Bool.and_false]

theorem evEnabled_resetPf0 (v : State) {q : Nat} (hq : q < 4) : outEnabled (resetPf0 v) 2 q = false := by
  rw [outEnabled, if_neg (by decide), show F.HOST_EVR_CTRL_ENABLE q = ⟨A.HOST_EVR_CTRL q, 31, 1⟩ from rfl,
    enable_resetPf0 _ _ (by simp only [A.HOST_EVR_CTRL]; omega) (by simp only [A.HOST_EVR_CTRL]; omega) (by simp only [A.HOST_EVR_CTRL]; decide),
    Bool.and_false]

theorem cfgWrites_resetPf0 (v : State) :
    get64 (resetPf0 v) A.HOST_CFG_WRITES A.HOST_CFG_WRITES_1 = get64 v A.HOST_CFG_WRITES A.HOST_CFG_WRITES_1 := by
  rw [get64, get64, getN, getN, getN, getN, getR_resetPf0, getR_resetPf0, if_pos (.inr (.inr (.inl rfl))), if_pos (.inr (.inr (.inr rfl)))]

/-! ## Reads that fail -/

section
include hu

/-- A PI read that fails halts its ring (R71). -/
theorem exec_readCompletionTimeout_pi (henabled : cmdEnabled u r = true) (hout : (cmdRing u r).piOut = true) (hstale : (cmdRing u r).piStale = false)
    (hfail : readFailed u abort (cmdRing u r).piAt = true) : exec (.readCompletionTimeout t (.pi r) abort) s = .next
    (issueReads (haltRing (modCmdRing (noteTimeout u abort) r fun g => { g with piOut := false }) r (if abort then 4 else 3))) := by
  show execReadCompletionTimeout t (.pi r) abort s = _
  have fresh : ((cmdRing u r).piStale || !cmdEnabled u r) = false := by rw [hstale, henabled]; rfl
  simp only [execReadCompletionTimeout, ← hu, ringReadFault, hout, hfail, fresh, Bool.and_self, Bool.false_eq_true, if_false, if_true]

/-- The source read of a command that fails ends it; its other reads keep their tags (R102). -/
theorem exec_readCompletionTimeout_source {f : Flight} {tag : Nat} (hf : sourceFlight u r tag = some f) (hsource : f.source.2 ≠ 0)
    (hfail : readFailed u abort (f.readAt.getD u.time.now) = true) :
    let v := leaveStrays (noteTimeout u abort) (f.readAt.getD u.time.now) (f.reads - 1)
    let st := if abort then stFetchAbort else stFetchTimeout
    exec (.readCompletionTimeout t (.source r tag) abort) s = .next
      (pumpShared (if f.cmd.opcode = 0x19 then wsLoadFailed v f st else reject v f st)) := by
  intro v st
  show execReadCompletionTimeout t (.source r tag) abort s = _
  have failed : (f.source.2 == 0 || !readFailed u abort (f.readAt.getD u.time.now)) = false := by
    rw [hfail, beq_eq_false_iff_ne.mpr hsource]
    rfl
  simp only [execReadCompletionTimeout, ← hu, hf, failed, Bool.false_eq_true, if_false]
  rfl

end

end Sys2Proof.Machine
end

section
open Sys2Proof Sys2Proof.Machine

/-- Settles O35: the writes of CTRL by the kind of ring, the resets by what the device can answer, failed reads by who made them. -/
theorem ringControlComplete : Obligations.RingControlComplete := by
  unfold Obligations.RingControlComplete
  intro t r data s u hu
  refine ⟨fun hawake hr => ⟨exec_ringCtrlWrite_cmd hu hawake hr, exec_ringCtrlWrite_cq hu hawake hr⟩, exec_ringCtrlWrite_ev hu, fun hup hready => ?_,
    fun hup hready => ?_, fun hup hready => ⟨?_, ?_⟩, exec_functionLevelReset_down hu, fun abort => exec_readCompletionTimeout_pi hu,
    fun f tag abort hf hsource hfail => ⟨fun hop => ?_, fun hop => ?_⟩⟩
  · refine ⟨resetPf0 u, ?_, rfl, rfl, rfl, rfl, rfl, rfl, fun q hq => ⟨cmdEnabled_resetPf0 u hq, cqEnabled_resetPf0 u hq⟩,
      fun q hq => evEnabled_resetPf0 u hq, cfgWrites_resetPf0 u, fun q hq => ?_, rfl⟩
    · rw [exec_functionLevelReset hu hup, writeConfig_ready hready]
    · rw [getR_resetPf0, if_pos (hq.imp_right .inl)]
  · rw [exec_pf1FunctionLevelReset hu hup, writeConfig_ready hready]
    rfl
  · rw [exec_functionLevelReset hu hup, writeConfig_retry hready]
  · rw [exec_pf1FunctionLevelReset hu hup, writeConfig_retry hready]
  · exact (exec_readCompletionTimeout_source hu hf hsource hfail).trans (congrArg (Host.Outcome.next <| pumpShared ·) (if_neg (by rw [hop]; decide)))
  · exact (exec_readCompletionTimeout_source hu hf hsource hfail).trans (congrArg (Host.Outcome.next <| pumpShared ·) (if_pos hop))

end

section
/-!
Accesses of the host through the windows (R57-R60, R89, R444, R478).
-/
namespace Sys2Proof.Machine

variable {t : Nat} {x : Sys2Proof.Access} {s u : State} (hu : u = advance t s) (hup : pcieUp u = true) (hawake : asleep u = false)

/-! ## W0 and the MSI-X table -/

section
include hu hup

section
include hawake

section
variable (hw0 : x.w4 = false)
include hw0

/-- A malformed access to W0 counts one error and is answered with ones; as a write it counts in CFG_WRITES (R58, R89). -/
theorem exec_malformedAccess_bad (hbad : malformed x = true) : exec (.malformedAccess t x) s = .next
    (if x.write then countCfg (satAdd u F.HOST_ACCESS_ERR_COUNT 1) 1
     else emit (satAdd u F.HOST_ACCESS_ERR_COUNT 1) (.readData (2 ^ (8 * x.len) - 1))) := by
  show execMalformedAccess t x s = _
  simp only [execMalformedAccess, ← hu, hup, hawake, hw0, hbad, Bool.not_true, Bool.and_false, Bool.false_eq_true, if_false, if_true]

omit hawake in
theorem exec_malformedAccess_write (hgood : malformed x = false) (hwrite : x.write = true) :
    exec (.malformedAccess t x) s = .next (writeWords u x.addr x.data (x.len / 4)) := by
  show execMalformedAccess t x s = _
  simp only [execMalformedAccess, ← hu, hup, hw0, hgood, hwrite, Bool.not_true, Bool.false_and, Bool.false_eq_true, if_false, if_true]

omit hawake in
theorem exec_malformedAccess_read (hgood : malformed x = false) (hread : x.write = false) : exec (.malformedAccess t x) s = .next
    (emit (readWords u x.addr (x.len / 4)).1 (.readData (readWords u x.addr (x.len / 4)).2)) := by
  show execMalformedAccess t x s = _
  simp only [execMalformedAccess, ← hu, hup, hw0, hgood, hread, Bool.not_true, Bool.false_and, Bool.false_eq_true, if_false]

end

end

theorem exec_malformedAccess_w4 (hw4 : x.w4 = true) :
    exec (.malformedAccess t x) s = .next (if malformed x then u else w4Words u x) := by
  show execMalformedAccess t x s = _
  simp only [execMalformedAccess, ← hu, hup, hw4, Bool.not_true, Bool.false_eq_true, if_false, if_true]

end

theorem w4Words_four (hlen : x.len = 4) :
    w4Words u x = if x.write then storeMsix u x.addr (x.data % 2 ^ 32) else emit u (.readData (msixWord u x.addr)) := by
  have one : x.len ≠ 8 := by omega
  simp only [w4Words, one, if_false, Nat.add_zero]

theorem w4Words_eight (hlen : x.len = 8) : w4Words u x = if x.write then storeMsix (storeMsix u x.addr (x.data % 2 ^ 32)) (x.addr + 4) (x.data / 2 ^ 32)
    else emit u (.readData (msixWord u x.addr + 2 ^ 32 * msixWord u (x.addr + 4))) := by
  simp only [w4Words, hlen, if_true]

theorem hostRead_awake {v : State} (h : asleep v = false) (a : Nat) : hostRead v a = readWord v a := by
  simp only [hostRead, h, Bool.false_and, Bool.false_eq_true, if_false]

section
include hawake

theorem readWords_one (a : Nat) : readWords u a 1 = readWord u a := by
  rw [readWords, readWords, hostRead_awake hawake]
  rfl

theorem readWords_two (a : Nat) (hstill : asleep (readWord u a).1 = false) :
    readWords u a 2 = ((readWord (readWord u a).1 (a + 4)).1, (readWord u a).2 + 2 ^ 32 * (readWord (readWord u a).1 (a + 4)).2) := by
  rw [readWords, hostRead_awake hawake, readWords_one hstill]

/-- A store to a word but KICK counts in CFG_WRITES and writes the word (R89). -/
theorem hostStore_word {a : Nat} (ha : a ≠ A.HOST_KICK.addr) (data : Nat) : hostStore u a data = driveAlert u (writeWord (countCfg u 1) a data) := by
  rw [hostStore, if_neg (Bool.eq_false_iff.mp hawake), if_neg ha]

end

/-! ## Register writes -/

section
include hu hup

theorem exec_registerWrite_w4 (a data : Nat) : exec (.registerWrite t (.w4 a data)) s = .next (storeMsix u a data) := by
  show execRegisterWrite t (.w4 a data) s = _
  simp only [execRegisterWrite, ← hu, hup, Bool.not_true, Bool.false_eq_true, if_false]

include hawake

theorem exec_registerWrite_w0 {a data : Nat} (halign : a % 4 = 0) (ha : a < 0x400000) (hkick : a ≠ A.HOST_KICK.addr) :
    exec (.registerWrite t (.w0 a data)) s = .next (driveAlert u (writeWord (countCfg u 1) a data)) := by
  show execRegisterWrite t (.w0 a data) s = _
  have inside : (decide (a % 4 = 0) && decide (a < 0x400000)) = true := by rw [decide_eq_true halign, decide_eq_true ha]; rfl
  simp only [execRegisterWrite, ← hu, hup, Bool.not_true, Bool.false_eq_true, if_false, inside, if_true, hostStore_word hawake hkick]

/-- PF0's configuration space is written while PD2 is ready, as it is outside sleep. -/
theorem exec_registerWrite_config (target : RegTarget) {g : State → State}
    (htarget : execRegisterWrite t target s = .next (if !pcieUp (advance t s) then advance t s else writeConfig (advance t s) g)) :
    exec (.registerWrite t target) s = .next (g u) := by
  have ready : pd2Ready u = true := by simp [pd2Ready, hawake]
  refine htarget.trans ?_
  rw [← hu, hup, writeConfig_ready ready]
  rfl

end

/-! ## PF1 -/

theorem exec_pf1Read (hu : u = advance t s) (hup : pcieUp u = true) (hread : x.write = false) : exec (.pf1Read t x) s = .next
    (emit (pf1Words u (x.addr - x.addr % 4) (ceilDiv (x.addr % 4 + x.len) 4)).1
      (.readData ((pf1Words u (x.addr - x.addr % 4) (ceilDiv (x.addr % 4 + x.len) 4)).2 / 256 ^ (x.addr % 4) % 256 ^ x.len))) := by
  show execPf1Read t x s = _
  simp only [execPf1Read, ← hu, hup, hread, Bool.not_true, Bool.or_self, Bool.false_eq_true, if_false]

/-- A word that the table of R478 does not name reads 0. -/
theorem pf1Words_none (hawake : asleep u = false) (hexpose : flag u F.HOST_IF_CTRL_COUNTER_EXPOSE = true) {a : Nat} (ha : pf1Source a = none) (n : Nat) :
    pf1Words u a (n + 1) = ((pf1Words u (a + 4) n).1, 2 ^ 32 * (pf1Words u (a + 4) n).2) := by
  simp only [pf1Words, pf1Word, hexpose, hawake, ha, Bool.not_true, Bool.false_eq_true, if_false, Nat.zero_add]

theorem pf1Words_some (hawake : asleep u = false) (hexpose : flag u F.HOST_IF_CTRL_COUNTER_EXPOSE = true) {a b : Nat} (ha : pf1Source a = some b) (n : Nat) :
    pf1Words u a (n + 1) = ((pf1Words (viewWord u b false).1 (a + 4) n).1,
      (viewWord u b false).2 + 2 ^ 32 * (pf1Words (viewWord u b false).1 (a + 4) n).2) := by
  simp only [pf1Words, pf1Word, hexpose, hawake, ha, Bool.not_true, Bool.false_eq_true, if_false]

/-! ## W2 -/

section
include hu hup hawake

theorem exec_w2Access_store (haddr : x.addr < 0x1000000) : exec (.w2Access t x) s = .next
    (if x.write then { u with store := memWrite u.store x.addr (leBytes x.len x.data) }
     else emit u (.readData (leNat (memRead u.store x.addr x.len)))) := by
  show execW2Access t x s = _
  have inside : x.addr < storeSize := haddr
  simp only [execW2Access, ← hu, hup, hawake, inside, Bool.not_true, Bool.false_eq_true, if_false, if_true]

section
variable (haddr : 0x1000000 ≤ x.addr)
include haddr

/-- Behind the store the DRAM answers while it is trained and installed there (R57). -/
theorem exec_w2Access_dram : let a := 2 ^ 20 * getF u F.HOST_DRAM_WINDOW_BASE_MIB + (x.addr - 0x1000000)
    exec (.w2Access t x) s = .next (if !dramTrained u || decide (u.dramSize < a + x.len) then missAccess u x
      else if flag (disturbSr u) F.MEMC_STATUS_SR then missAccess (disturbSr u) x
      else if x.write then { disturbSr u with dram := memWrite (disturbSr u).dram a (leBytes x.len x.data) }
      else if portServes (disturbSr u) then emit (disturbSr u) (.readData (leNat (memRead (disturbSr u).dram a x.len)))
      else modMemc (disturbSr u) fun m => { m with w2 := m.w2 ++ [(leNat (memRead (disturbSr u).dram a x.len), x.len)] }) := by
  intro a
  show execW2Access t x s = _
  have outside : ¬ x.addr < storeSize := Nat.not_lt.mpr haddr
  simp only [execW2Access, ← hu, hup, hawake, outside, Bool.not_true, Bool.false_eq_true, if_false]
  rfl

theorem exec_w2Access_missed (hmiss : dramTrained u = false
      ∨ u.dramSize < 2 ^ 20 * getF u F.HOST_DRAM_WINDOW_BASE_MIB + (x.addr - 0x1000000) + x.len) :
    exec (.w2Access t x) s = .next (missAccess u x) := by
  refine (exec_w2Access_dram hu hup hawake haddr).trans (congrArg _ (if_pos ?_))
  rw [Bool.or_eq_true, Bool.not_eq_true', decide_eq_true_eq]
  exact hmiss

section
variable (htrained : dramTrained u = true)
  (hfits : 2 ^ 20 * getF u F.HOST_DRAM_WINDOW_BASE_MIB + (x.addr - 0x1000000) + x.len ≤ u.dramSize)
include htrained hfits

theorem exec_w2Access_reached : let a := 2 ^ 20 * getF u F.HOST_DRAM_WINDOW_BASE_MIB + (x.addr - 0x1000000)
    exec (.w2Access t x) s = .next (if flag (disturbSr u) F.MEMC_STATUS_SR then missAccess (disturbSr u) x
      else if x.write then { disturbSr u with dram := memWrite (disturbSr u).dram a (leBytes x.len x.data) }
      else if portServes (disturbSr u) then emit (disturbSr u) (.readData (leNat (memRead (disturbSr u).dram a x.len)))
      else modMemc (disturbSr u) fun m => { m with w2 := m.w2 ++ [(leNat (memRead (disturbSr u).dram a x.len), x.len)] }) := by
  intro a
  refine (exec_w2Access_dram hu hup hawake haddr).trans (congrArg _ (if_neg ?_))
  rw [Bool.or_eq_true, Bool.not_eq_true', decide_eq_true_eq, htrained, not_or]
  exact ⟨by decide, Nat.not_lt.mpr hfits⟩

variable (hout : flag (disturbSr u) F.MEMC_STATUS_SR = false)
include hout

theorem exec_w2Access_dramWrite (hwrite : x.write = true) : exec (.w2Access t x) s = .next { disturbSr u with
    dram := memWrite (disturbSr u).dram (2 ^ 20 * getF u F.HOST_DRAM_WINDOW_BASE_MIB + (x.addr - 0x1000000)) (leBytes x.len x.data) } := by
  rw [exec_w2Access_reached hu hup hawake haddr htrained hfits, if_neg (Bool.eq_false_iff.mp hout), if_pos hwrite]

theorem exec_w2Access_dramRead (hread : x.write = false) (hserves : portServes (disturbSr u) = true) : exec (.w2Access t x) s = .next
    (emit (disturbSr u)
      (.readData (leNat (memRead (disturbSr u).dram (2 ^ 20 * getF u F.HOST_DRAM_WINDOW_BASE_MIB + (x.addr - 0x1000000)) x.len)))) := by
  rw [exec_w2Access_reached hu hup hawake haddr htrained hfits, if_neg (Bool.eq_false_iff.mp hout), if_neg (Bool.eq_false_iff.mp hread),
    if_pos hserves]

theorem exec_w2Access_dramLater (hread : x.write = false) (hclosed : portServes (disturbSr u) = false) : exec (.w2Access t x) s = .next
    (modMemc (disturbSr u) fun m => { m with
      w2 := m.w2 ++ [(leNat (memRead (disturbSr u).dram (2 ^ 20 * getF u F.HOST_DRAM_WINDOW_BASE_MIB + (x.addr - 0x1000000)) x.len), x.len)] }) := by
  rw [exec_w2Access_reached hu hup hawake haddr htrained hfits, if_neg (Bool.eq_false_iff.mp hout), if_neg (Bool.eq_false_iff.mp hread),
    if_neg (Bool.eq_false_iff.mp hclosed)]

end

end

end

end Sys2Proof.Machine
end

section
open Sys2Proof Sys2Proof.Machine

/-- Settles O36: each access by its window, its length and its kind. -/
theorem hostAccessesComplete : Obligations.HostAccessesComplete := by
  unfold Obligations.HostAccessesComplete
  intro t x s u hu hup hawake
  have config := exec_registerWrite_config hu hup hawake
  refine ⟨fun hw0 hbad hwrite => ?_, fun hw0 hbad hread => ?_, fun hw0 hgood hlen hwrite => ?_, fun hw0 hgood hlen hwrite hdata => ?_,
    fun a data ha => hostStore_word hawake ha data, fun hw0 hgood hlen hread => ?_, fun hw0 hgood hlen hread hstill => ?_, fun hw4 hbad => ?_,
    fun hw4 hgood hlen => ?_, fun hw4 hgood hlen => ?_, fun a data => exec_registerWrite_w0 hu hup hawake, exec_registerWrite_w4 hu hup,
    fun bm t10 ext m value aspm => config (.pcie bm t10 ext m value aspm) rfl, fun on func => config (.msix on func) rfl,
    fun clear cor => config (.aer clear cor) rfl, fun mask severity cor => config (.aerControl mask severity cor) rfl,
    fun fn d => config (.powerState fn d) rfl, fun enables => config (.reporting enables) rfl,
    fun speed width => config (.retrain speed width) rfl, exec_pf1Read hu hup, fun a n hexpose => ?_,
    fun haddr hwrite => ?_, fun haddr hread => ?_, fun haddr hmiss => exec_w2Access_missed hu hup hawake haddr hmiss, fun haddr htrained hfits => ?_⟩
  · rw [exec_malformedAccess_bad hu hup hawake hw0 hbad, if_pos hwrite]
  · rw [exec_malformedAccess_bad hu hup hawake hw0 hbad, if_neg (Bool.eq_false_iff.mp hread)]
  · rw [exec_malformedAccess_write hu hup hw0 hgood hwrite, hlen]
    rfl
  · rw [exec_malformedAccess_write hu hup hw0 hgood hwrite, hlen]
    have high : x.data / 2 ^ 32 % 2 ^ 32 = x.data / 2 ^ 32 := Nat.mod_eq_of_lt (Nat.div_lt_of_lt_mul (by rw [← Nat.pow_add]; exact hdata))
    rw [show writeWords u x.addr x.data (8 / 4)
      = hostStore (hostStore u x.addr (x.data % 2 ^ 32)) (x.addr + 4) (x.data / 2 ^ 32 % 2 ^ 32) from rfl, high]
  · rw [exec_malformedAccess_read hu hup hw0 hgood hread, hlen, show 4 / 4 = 1 from rfl, readWords_one hawake]
  · rw [exec_malformedAccess_read hu hup hw0 hgood hread, hlen, show 8 / 4 = 2 from rfl, readWords_two hawake _ hstill]
  · rw [exec_malformedAccess_w4 hu hup hw4, if_pos hbad]
  · rw [exec_malformedAccess_w4 hu hup hw4, if_neg (Bool.eq_false_iff.mp hgood), w4Words_four hlen]
  · rw [exec_malformedAccess_w4 hu hup hw4, if_neg (Bool.eq_false_iff.mp hgood), w4Words_eight hlen]
  · cases ha : pf1Source a with
    | none => exact pf1Words_none hawake hexpose ha n
    | some b => exact pf1Words_some hawake hexpose ha n
  · rw [exec_w2Access_store hu hup hawake haddr, if_pos hwrite]
  · rw [exec_w2Access_store hu hup hawake haddr, if_neg (Bool.eq_false_iff.mp hread)]
  · refine ⟨exec_w2Access_dramWrite hu hup hawake haddr htrained hfits, exec_w2Access_dramRead hu hup hawake haddr htrained hfits,
      exec_w2Access_dramLater hu hup hawake haddr htrained hfits, fun hsr => ?_⟩
    rw [exec_w2Access_reached hu hup hawake haddr htrained hfits, if_pos hsr]

end

section
/-!
The lanes: their power states, their lock and alignment, and the markers (R283-R308).
-/
namespace Sys2Proof.Machine

variable {t q l : Nat} {c : Cmd} {s u : State} {f : Flight} (hu : u = advance t s)
include hu

/-! ## Power states and controls -/

theorem exec_laneState (h : mayRun u 0x49 c [] f) (hport : p8 c 16 ≤ 2) (hstate : p8 c 20 ≤ 2)
    (hwin : sched c = true → inWindow u c f ((bitsSet (p16 c 18) 16).map fun i => (0x49, p8 c 16, i))) :
    exec (.laneState t c) s = .next
      (if sched c then accept u f ((bitsSet (p16 c 18) 16).map fun i => (0x49, p8 c 16, i)) [] else complete (applyLaneState u c) f 0) := by
  show execLaneState t c s = _
  obtain rfl := cmd_of_mayRun h
  have good : (decide (2 < p8 f.cmd 16) || decide (2 < p8 f.cmd 20)) = false := by simp [hport, hstate]
  rw [execLaneState, runCmd_of_mayRun (more := fun _ => []) hu h, good, schedulable_passed hwin]

theorem exec_lanePowerEntry {st : Nat} (hleave : (lane u q l).leave = some (st, 0)) :
    exec (.lanePowerEntry t q l) s = .next (enterPower u q l st) := by
  show execLanePowerEntry t q l s = _
  simp only [execLanePowerEntry, ← hu, hleave]

/-- A lane whose exit time has passed is in L0; from LD it searches again, from L1 the own mask follows (R290). -/
theorem exec_lanePowerExitEnd {n k : Nat} (hexit : (lane u q l).exit = some (n, k)) (hdue : n ≤ u.time.now) :
    let v := restartCount (modLane (setF (settleHeaders u q) (F.LANE_STATUS_PSTATE q l) 0) q l fun x =>
      { x with exit := none, rejoins := true }) q fun i => i == l
    exec (.lanePowerExitEnd t q l) s = .next (if k = 2 then startSearch v q l else showOwn v q) := by
  intro v
  show execLanePowerExitEnd t q l s = _
  simp only [execLanePowerExitEnd, ← hu, hexit, hdue, if_true] <;>
    rfl

theorem exec_equaliserAdaptStep {up : Bool} (hruns : laneRuns u q l = true) (hadapt : flag u (F.LANE_CTRL_ADAPT q l) = true)
    (hstate : getF u (F.LANE_STATUS_PSTATE q l) ≠ 2) (hdue : (lane u q l).stepAt + 983040 ≤ u.time.now) :
    exec (.equaliserAdaptStep t q l up) s = .next
      (modLane (setF u (F.LANE_STATUS_PEAK_NOW q l)
        (if up then min 15 (getF u (F.LANE_STATUS_PEAK_NOW q l) + 1) else getF u (F.LANE_STATUS_PEAK_NOW q l) - 1)) q l fun x =>
          { x with stepAt := u.time.now }) := by
  show execEqualiserAdaptStep t q l up s = _
  have steps : (laneRuns u q l && flag u (F.LANE_CTRL_ADAPT q l) && getF u (F.LANE_STATUS_PSTATE q l) != 2
      && decide ((lane u q l).stepAt + 983040 ≤ u.time.now)) = true := by
    rw [hruns, hadapt, bne_iff_ne.mpr hstate, decide_eq_true hdue]
    rfl
  simp only [execEqualiserAdaptStep, ← hu, steps, if_true]

omit hu in
theorem le_moveTime (t : Nat) (v : State) : t ≤ (moveTime t v).time.now := by
  unfold moveTime
  split
  · exact le_rfl
  · omega

omit hu in
theorem le_advance (t : Nat) (v : State) : t ≤ (advance t v).time.now := by
  unfold advance
  split
  · split
    · exact le_moveTime ..
    · exact le_moveTime ..
  · exact le_moveTime ..

/-- Time that has moved to a tick is there. -/
theorem advance_advanced : u = advance t u := by
  rw [advance_of_le (hu ▸ le_advance t s)]

section
variable {data : Nat} (hawake : asleep u = false) (hq : q < 3)
include hawake hq

theorem writeLanes_lane (hl : l < 16) : writeLanes t q (some l) data s = .next (writeLaneCtrl (countCfg u 1) q l data) := by
  rw [writeLanes, byWrite_awake hu hawake, if_neg (Nat.not_le.mpr hq)]
  exact congrArg _ (if_pos hl)

theorem writeLanes_port : writeLanes t q none data s = .next (writePortCtrl (countCfg u 1) q data) := by
  rw [writeLanes, byWrite_awake hu hawake, if_neg (Nat.not_le.mpr hq)]

end

/-! ## Lock and its loss -/

theorem exec_blockLock {nat : Nat} (hreceives : laneReceives u q l = true) (hlock : isLocked u q l = false) (hdead : isDead u q l = false)
    (hnear : nearEnd u q l = true → laneSends u q l = true) :
    let v := satAdd u (F.LANE_SH_ERR_NAT q l) nat
    let v := if getF v (F.LANE_CTRL_LOOP q l) = 2 then setF v (F.LANE_STATUS_POS q l) 0 else v
    let v := setFlag (setFlag v (F.LANE_STATUS_BLOCK_LOCK q l) true) (F.LANE_STATUS_SIG q l) (!nearEnd v q l || flag v (F.LANE_STATUS_SIG q l))
    let v := modLane v q l fun x => { x with search := none, bad := 0, errorsAt := v.time.now }
    exec (.blockLock t q l nat) s = .next (post v evLaneLocked (evData [(16, 1, q), (17, 1, l), (18, 1, getF v (F.LANE_STATUS_POS q l))])) := by
  intro v1 v2 v3 v4
  show execBlockLock t q l nat s = _
  have locks : (laneReceives u q l && !isLocked u q l && !isDead u q l && (!nearEnd u q l || laneSends u q l)) = true := by
    simpa [hreceives, hlock, hdead, ← Bool.not_eq_true, imp_iff_not_or] using hnear
  simp only [execBlockLock, ← hu, locks, if_true] <;>
    rfl

omit hu in
/-- The counters of a lane's errors are not its state. -/
theorem getF_satAdd_status {g : Fld} {k : Nat} (v : State) (hg : g.reg = A.LANE_STATUS q l ∨ g.reg = A.LANE_CTRL q l) :
    getF (satAdd (satAdd v (F.LANE_SH_ERR_NAT q l) k) (F.LANE_LINK_ERR_LOCK_LOSS q l) 1) g = getF v g := by
  have far : g.reg.addr ≠ (A.LANE_LINK_ERR q l).addr ∧ g.reg.addr ≠ (A.LANE_SH_ERR q l).addr := by
    rcases hg with h | h <;> rw [h] <;> simp [A.LANE_STATUS, A.LANE_CTRL, A.LANE_LINK_ERR, A.LANE_SH_ERR]
  exact (getF_setF_of_ne _ _ far.1).trans (getF_setF_of_ne _ _ far.2)

theorem exec_blockLockLoss {nat : Nat} {signal : Bool} (hlock : isLocked u q l = true) :
    let v := dropLock (satAdd (satAdd u (F.LANE_SH_ERR_NAT q l) nat) (F.LANE_LINK_ERR_LOCK_LOSS q l) 1) q l
    exec (.blockLockLoss t q l nat signal) s = .next
      (startSearch (setFlag v (F.LANE_STATUS_SIG q l) (if nearEnd u q l then flag u (F.LANE_STATUS_SIG q l) else signal)) q l) := by
  intro v
  show execBlockLockLoss t q l nat signal s = _
  have near : nearEnd (satAdd (satAdd u (F.LANE_SH_ERR_NAT q l) nat) (F.LANE_LINK_ERR_LOCK_LOSS q l) 1) q l = nearEnd u q l := by
    rw [nearEnd, nearEnd, getF_satAdd_status u (.inr rfl)]
  have sig : flag (satAdd (satAdd u (F.LANE_SH_ERR_NAT q l) nat) (F.LANE_LINK_ERR_LOCK_LOSS q l) 1) (F.LANE_STATUS_SIG q l)
      = flag u (F.LANE_STATUS_SIG q l) := by
    rw [flag, flag, getF_satAdd_status u (.inl rfl)]
  simp only [execBlockLockLoss, ← hu, hlock, if_true, near, sig] <;>
    rfl

theorem exec_laneDead {signal : Bool} {n : Nat} (hsearch : (lane u q l).search = some n) (hpaused : (lane u q l).pausedAt = none)
    (hlock : isLocked u q l = false) (hdue : n + 66 * dwellTicks u q ≤ u.time.now) :
    exec (.laneDead t q l signal) s = .next
      (post (showOwn (setFlag (setFlag (modLane u q l fun x => { x with search := none }) (F.LANE_STATUS_DEAD q l) true)
        (F.LANE_STATUS_SIG q l) signal) q) evLaneDead (evData [(16, 1, q), (17, 1, l)])) := by
  show execLaneDead t q l signal s = _
  have dies : ((lane u q l).pausedAt.isNone && !isLocked u q l && decide (n + 66 * dwellTicks u q ≤ u.time.now)) = true := by
    rw [hpaused, hlock, decide_eq_true hdue]
    rfl
  simp only [execLaneDead, ← hu, hsearch, dies, if_true]

theorem exec_laneDownEnd {j : Nat} {x : Injector} (hx : injAt u q j = some x) (hkind : x.kind = 5) (harg : x.arg1 ≠ 0)
    (hdue : x.start + 1024 * x.arg1 ≤ u.time.now) : exec (.laneDownEnd t q j) s = .next (stopLaneInj u q j) := by
  show execLaneDownEnd t q j s = _
  have over' : (x.kind = 5 && x.arg1 != 0 && decide (x.start + 1024 * x.arg1 ≤ u.time.now)) = true := by
    rw [hkind, bne_iff_ne.mpr harg, decide_eq_true hdue]
    rfl
  simp only [execLaneDownEnd, ← hu, hx, over', if_true]

end Sys2Proof.Machine
end

section
open Sys2Proof Sys2Proof.Machine

/-- Settles O38: LANE_STATE, the ends of its entries and exits, and the writes of the present lanes and ports. -/
theorem lanePowerComplete : Obligations.LanePowerComplete := by
  unfold Obligations.LanePowerComplete
  refine ⟨fun t q l c s u f hu => ⟨exec_laneState hu, fun st => exec_lanePowerEntry hu, fun n hexit hdue => ?_, fun n hexit hdue => ?_,
      fun up => exec_equaliserAdaptStep hu⟩, fun t q l data s u hu hawake hq hl => ?_⟩
  · exact (exec_lanePowerExitEnd hu hexit hdue).trans (congrArg _ (if_neg (by decide)))
  · exact (exec_lanePowerExitEnd hu hexit hdue).trans (congrArg _ (if_pos rfl))
  · have lane := writeLanes_lane (data := data) hu hawake hq hl
    have port := writeLanes_port (data := data) hu hawake hq
    have lane' := writeLanes_lane (data := data) (advance_advanced hu) hawake hq hl
    have port' := writeLanes_port (data := data) (advance_advanced hu) hawake hq
    subst hu
    exact ⟨lane, lane', lane, port, lane', port'⟩

end

section
/-!
The markers of a port: sent on its own mask, taken from the lines of its lanes, or missing (R292-R309).
-/
namespace Sys2Proof.Machine

variable {t q l : Nat} {s u : State}

/-! ## What a valid marker leaves -/

theorem flag_modPort (v : State) (f : PortSt → PortSt) (g : Fld) : flag (modPort v q f) g = flag v g := rfl

theorem getF_modPort (v : State) (f : PortSt → PortSt) (g : Fld) : getF (modPort v q f) g = getF v g := rfl

theorem getF_setFlag_same (v : State) {g : Fld} (b : Bool) (h : g.lo + g.width ≤ 32) (hw : 0 < g.width) :
    flag (setFlag v g b) g = b := by
  have pow : (1 : Nat) < 2 ^ g.width := Nat.one_lt_two_pow hw.ne'
  rw [flag, setFlag, getF_setF_same v _ h]
  cases b
  · simp
  · simp [Nat.mod_eq_of_lt pow]

/-- The own mask is no field of a lane. -/
theorem flag_showOwn (v : State) {g : Fld} (h : g.reg.addr ≠ (A.LN_PORT_MASKS q).addr) : flag (showOwn v q) g = flag v g := by
  rw [flag, flag, showOwn, getF_setF_of_ne v _ h]

theorem laneStatus_ne_masks (hl : l < 16) : (A.LANE_STATUS q l).addr ≠ (A.LN_PORT_MASKS q).addr := by
  simp only [A.LANE_STATUS, A.LN_PORT_MASKS, laneBase, portBase]
  split
  · omega
  · split <;> omega

theorem laneStatus_ne_linkErr : (A.LANE_STATUS q l).addr ≠ (A.LANE_LINK_ERR q l).addr := by
  simp [A.LANE_STATUS, A.LANE_LINK_ERR]

/-- The verdict on the latency of a lane touches neither its alignment nor its ID_ERR. -/
theorem flag_latencyShown (v : State) (good : Bool) {g : Fld} (hreg : g.reg = A.LANE_STATUS q l) (hbits : 27 ≤ g.lo) (hwidth : g.lo + g.width ≤ 32) :
    flag (setFlag (if good then v else satAdd v (F.LANE_LINK_ERR_LAT_VIOL q l) 1) (F.LANE_STATUS_LAT_ERR q l) (!good)) g = flag v g := by
  have counted : flag (satAdd v (F.LANE_LINK_ERR_LAT_VIOL q l) 1) g = flag v g := by
    rw [flag, flag, satAdd, getF_setF_of_ne v _ (hreg ▸ laneStatus_ne_linkErr)]
  rw [flag, setFlag, getF_setF_of_disjoint (f := F.LANE_STATUS_LAT_ERR q l) _ _ hreg hwidth (.inr hbits)]
  cases good
  · exact counted
  · rfl

/-- One that is no valid marker counts as bad. -/
theorem takeMarker_invalid {v : State} {m : List Byte} (hinvalid : markerValid m = false) : takeMarker v q l m = badMarker v q l := by
  rw [takeMarker, if_pos (by simp [hinvalid])]

theorem flag_ite_modPort (v : State) (again : Bool) (f : PortSt → PortSt) (g : Fld) : flag (if again then v else modPort v q f) g = flag v g := by
  cases again
  · rfl
  · rfl

theorem flag_ite_setRun (v : State) (good again : Bool) (mask : Nat) (g : Fld) :
    getF (if good then setRun v q l mask again else v) g = getF v g := by
  cases good
  · rfl
  · rfl

section
variable {v : State} {m : List Byte} (hl : l < 16) (hvalid : markerValid m = true)
include hl hvalid

/-- A marker of the lane's own number: the two flags of its lane, then the far mask. -/
theorem takeMarker_aligns (hown : (m.getD 1 0).toNat = l) :
    isAligned (takeMarker v q l m) q l = true ∧ flag (takeMarker v q l m) (F.LANE_STATUS_ID_ERR q l) = false
      ∧ getF (takeMarker v q l m) (F.LN_PORT_MASKS_FAR q) = leNat ((m.drop 2).take 2) % 2 ^ 16 := by
  have off := laneStatus_ne_masks (q := q) hl
  rw [takeMarker, if_neg (by simp [hvalid])]
  extract_lets s1 s2 s3 n again s4 good s5 s6 mask s7 s8
  rw [if_neg (not_not.mpr hown)]
  have rounds : ∀ g, flag s5 g = flag s3 g := by
    intro g
    rw [flag_modPort, flag_ite_modPort]
  have status : ∀ g, g.reg = A.LANE_STATUS q l → 27 ≤ g.lo → g.lo + g.width ≤ 32 →
      flag (if good then setRun s8 q l mask again else s8) g = flag s3 g := by
    intro g hreg hbits hwidth
    have far : flag s8 g = flag s7 g := by
      rw [flag_showOwn _ (hreg ▸ off), flag, flag, getF_setF_of_ne _ _ (hreg ▸ off)]
    calc flag (if good then setRun s8 q l mask again else s8) g
      _ = flag s8 g := congrArg (decide <| · = 1) (flag_ite_setRun ..)
      _ = flag s7 g := far
      _ = flag s6 g := flag_modPort ..
      _ = flag s5 g := flag_latencyShown s5 good hreg hbits hwidth
      _ = flag s3 g := rounds g
  refine ⟨?_, ?_, ?_⟩
  · rw [isAligned, status _ rfl (Nat.le_of_ble_eq_true rfl) (Nat.le_of_ble_eq_true rfl)]
    exact getF_setFlag_same _ true (Nat.le_of_ble_eq_true rfl) (Nat.le_of_ble_eq_true rfl)
  · rw [status _ rfl (Nat.le_of_ble_eq_true rfl) (Nat.le_of_ble_eq_true rfl), flag, show s3 = setF _ (F.LANE_STATUS_ALIGNED q l) 1 from rfl,
      getF_setF_of_disjoint (f := F.LANE_STATUS_ALIGNED q l) (g := F.LANE_STATUS_ID_ERR q l) _ _ rfl (Nat.le_of_ble_eq_true rfl) (.inl (Nat.le_of_ble_eq_true rfl))]
    exact getF_setFlag_same _ false (Nat.le_of_ble_eq_true rfl) (Nat.le_of_ble_eq_true rfl)
  · rw [flag_ite_setRun, show s8 = setF _ (F.LN_PORT_MASKS_OWN q) _ from rfl,
      getF_setF_of_disjoint (f := F.LN_PORT_MASKS_OWN q) (g := F.LN_PORT_MASKS_FAR q) _ _ rfl (Nat.le_of_ble_eq_true rfl) (.inr (Nat.le_of_ble_eq_true rfl))]
    exact getF_setF_same _ _ (Nat.le_of_ble_eq_true rfl)

/-- A marker of another lane's number ends the alignment (R292, R308). -/
theorem takeMarker_foreign (hother : (m.getD 1 0).toNat ≠ l) :
    isAligned (takeMarker v q l m) q l = false ∧ flag (takeMarker v q l m) (F.LANE_STATUS_ID_ERR q l) = true := by
  have off := laneStatus_ne_masks (q := q) hl
  rw [takeMarker, if_neg (by simp [hvalid])]
  extract_lets s1 s2
  rw [if_pos hother]
  constructor
  · rw [isAligned, flag_showOwn _ off]
    exact getF_setFlag_same _ false (Nat.le_of_ble_eq_true rfl) (Nat.le_of_ble_eq_true rfl)
  · rw [flag_showOwn _ off, flag, setFlag,
      getF_setF_of_disjoint (f := F.LANE_STATUS_ALIGNED q l) (g := F.LANE_STATUS_ID_ERR q l) _ _ rfl (Nat.le_of_ble_eq_true rfl) (.inl (Nat.le_of_ble_eq_true rfl))]
    exact getF_setFlag_same _ true (Nat.le_of_ble_eq_true rfl) (Nat.le_of_ble_eq_true rfl)

end

/-! ## The events -/

section
variable (hu : u = advance t s)
include hu

theorem exec_markerSend (hdue : markerDue (settleHeaders u q) q = true) :
    let v := showOwn (settleHeaders u q) q
    let own := getF v (F.LN_PORT_MASKS_OWN q)
    let out := (List.range 16).map (markerLine v q own)
    let w := modPort (emit v (.marker q own (out.zipIdx.filterMap fun x => x.1.map fun b => (x.2, b.2)))) q fun p =>
      { p with mark := some v.time.now, sent := own, dealt := 0, rest := [],
               lanes := p.lanes.zipIdx.map fun x => afterMarker x.1 (nearEnd v q x.2) (out.getD x.2 none) }
    let x := setInUse w q (own &&& getF w (F.LN_PORT_MASKS_FAR q))
    exec (.markerSend t q) s = .next (if portUp x q then sendBlocks x q (Sys2Proof.Machine.port v q).rest else x) := by
  show execMarkerSend t q s = _
  have due : (!markerDue (settleHeaders u q) q) = false := by rw [hdue]; rfl
  have near : ∀ v o, nearEnd (emit v o) q = nearEnd v q := fun _ _ => rfl
  simp only [execMarkerSend, ← hu, due, Bool.false_eq_true, if_false, near, emit_time]

section
variable {before line : BitVec 64} (hruns : laneRuns (settleHeaders u q) q l = true) (hlock : isLocked (settleHeaders u q) q l = true)
  (hdead : isDead (settleHeaders u q) q l = false)
include hruns hlock hdead

theorem exec_missingMarker : exec (.missingMarker t q l) s = .next (badMarker (settleHeaders u q) q l) := by
  show execMissingMarker t q l s = _
  have runs : (laneRuns (settleHeaders u q) q l && isLocked (settleHeaders u q) q l && !isDead (settleHeaders u q) q l) = true := by
    rw [hruns, hlock, hdead]
    rfl
  simp only [execMissingMarker, ← hu, runs, if_true]

omit hu hruns hlock hdead in
theorem core_countInjected (v : State) (j n : Nat) : core (countInjected v q j n) = core v := by
  unfold countInjected
  split
  · rfl
  · split
    · rfl
    · extract_lets v1 v2 y put
      exact core_ite (core_post ..) rfl

omit hu hruns hlock hdead in
theorem core_settleHeaders (v : State) (q : Nat) : core (settleHeaders v q) = core v := by
  refine core_foldl v (fun w j => ?_) _
  split
  · rfl
  · split
    · extract_lets k c w1 w2
      have counted : core w2 = core w := core_countInjected ..
      split
      · exact (core_setFlag ..).trans counted
      · exact counted
    · rfl

theorem exec_markerReceive (hq : q < 3) (hl : l < 16)
    (hcan : canReceive (settleHeaders u q) q l [{ header := 0, line := before }, { header := syncHeader true, line := line }] = true) :
    let v := loopBack (settleHeaders u q) q l u.time.now [{ header := syncHeader true, line := line }]
    exec (.markerReceive t q l before line) s = .next
      (if headerHit v q l 1 (-1) then badMarker v q l else takeMarker v q l (blockBytes (descramble before line))) := by
  intro v
  have hereafter : (settleHeaders u q).time = u.time := core_time (core_settleHeaders u q)
  show execMarkerReceive t q l before line s = _
  have takes : (!(laneRuns (settleHeaders u q) q l && isLocked (settleHeaders u q) q l && !isDead (settleHeaders u q) q l && decide (q < 3)
      && decide (l < 16)
      && canReceive (settleHeaders u q) q l [{ header := 0, line := before }, { header := syncHeader true, line := line }])) = false := by
    rw [hruns, hlock, hdead, decide_eq_true hq, decide_eq_true hl, hcan]
    rfl
  rw [execMarkerReceive, ← hu]
  dsimp only
  rw [takes, hereafter]
  exact congrArg _ (if_neg Bool.false_ne_true)

end
end

/-! ## The blocks after a marker in FIXED mode -/

theorem port_modPort (f : PortSt → PortSt) (hq : q < u.ports.length) : port (modPort u q f) q = f (port u q) := by
  simp [port, modPort, listMod, hq]

theorem setRun_fixed {mask : Nat} {again : Bool} (hq : q < u.ports.length) (hfixed : isFixed u q = true) :
    ∃ rest, (port (setRun u q l mask again) q).runs =
      (timeOf u (gridTick u q u.time.tick) + max 128 (getF u (F.LN_PORT_LAT_LATENCY q)), mask &&& (port u q).sent) :: rest := by
  rw [setRun, hfixed, port_modPort _ hq]
  cases (port u q).runs with
  | nil => exact ⟨[], rfl⟩
  | cons x r =>
    by_cases same : (x.1 == timeOf u (gridTick u q u.time.tick) + max 128 (getF u (F.LN_PORT_LAT_LATENCY q))) = true
    · exact ⟨r, by simp [same]⟩
    · exact ⟨[x], by simp [same]⟩

end Sys2Proof.Machine
end

section
open Sys2Proof Sys2Proof.Machine

/-- Settles O39: lock, loss and death by the lane's state, a marker by whether it is valid and whose number it bears. -/
theorem laneEventsComplete : Obligations.LaneEventsComplete := by
  intro t q l s u hu
  refine ⟨fun nat hreceives hlock hdead hnear => ?_, fun nat signal => exec_blockLockLoss hu, fun signal n => exec_laneDead hu,
    exec_markerSend hu, ?_, fun mask again => setRun_fixed, exec_missingMarker hu, fun j x => exec_laneDownEnd hu⟩
  · intro v0 v1 v2 v3
    have now : v2.time = u.time := by
      show (if getF v0 (F.LANE_CTRL_LOOP q l) = 2 then setF v0 (F.LANE_STATUS_POS q l) 0 else v0).time = u.time
      split
      · rfl
      · rfl
    exact (exec_blockLock hu hreceives hlock hdead hnear).trans (congrArg (fun n => Host.Outcome.next (post (modLane v2 q l fun x =>
      { x with search := none, bad := 0, errorsAt := n }) _ (evData [(16, 1, q), (17, 1, l), (18, 1, getF v3 (F.LANE_STATUS_POS q l))])))
        (congrArg TimeSt.now now))
  intro before line hruns hlock hdead hq hl hcan v m
  have taken := exec_markerReceive hu hruns hlock hdead hq hl hcan
  refine ⟨fun hbad => ?_, fun hhit hvalid hown => ?_, fun hhit hvalid hother => ?_⟩
  · rw [taken]
    rcases hbad with hhit | hinvalid
    · exact congrArg _ (if_pos hhit)
    · exact congrArg _ ((congrArg _ (takeMarker_invalid hinvalid)).trans (ite_self _))
  · exact ⟨_, taken.trans (congrArg _ (if_neg (ne_true_of_eq_false hhit))), takeMarker_aligns hl hvalid hown⟩
  · exact ⟨_, taken.trans (congrArg _ (if_neg (ne_true_of_eq_false hhit))), takeMarker_foreign hl hvalid hother⟩

end

section
/-!
The partners: their messages and what ends or is sent by time (R324-R333, R361).
-/
namespace Sys2Proof.Machine

variable {t : Nat} {s u v : State} (hu : u = advance t s)
include hu

/-! ## Messages at the head of the inbox -/

section
variable {m : Inbox} {rest : List Inbox} (hm : u.inbox = m :: rest) (hv : v = { u with inbox := rest }) (hport : m.port = 0)
include hm hv

omit hu in
/-- A message that the step looks for is taken from the head of the inbox. -/
theorem takeInbox_head {p : Inbox → Bool} (hp : p m = true) : takeInbox u p = some (m, v) := by
  simp only [takeInbox, hm, hp, if_true, hv]

include hport

theorem exec_hello (hhello : isHello m.pkt = true) :
    exec (.hello t) s = .next
      (if body m.pkt 0 8 = 0 then satAdd v (F.BXL_RX_2_FORMAT_ERR 0) 1
       else match (joined v).find? fun y => y.2.ident = body m.pkt 0 8 with
         | none => greet v m
         | some (i, y) => if y.session = body m.pkt 8 4 then sendWelcome v i m.pkt.ver else greet (losePartner v i (arrivedAt v m.tick)) m) := by
  show execHello t s = _
  have taken := takeInbox_head hm hv (p := fun m => m.port = 0 && isHello m.pkt) (by rw [hport, hhello]; rfl)
  simp only [execHello, ← hu, taken] <;>
    rfl

section
variable {i : Nat} (hnamed : namedPartner v m.pkt = some i)
include hnamed

theorem exec_keepaliveReceive (htype : m.pkt.type = 3) (hmsg : msgOf m.pkt = 0x04) :
    exec (.keepaliveReceive t) s = .next (renew v i m.tick) := by
  show execKeepaliveReceive t s = _
  have taken := takeInbox_head hm hv (p := fun m => m.port = 0 && m.pkt.type = 3 && msgOf m.pkt = 0x04) (by rw [hport, htype, hmsg]; rfl)
  simp only [execKeepaliveReceive, ← hu, taken, hnamed]

theorem exec_leaseAck {x : Stream} (htype : m.pkt.type = 3) (hmsg : msgOf m.pkt = 0x06)
    (hstream : streamAt (renew v i m.tick) (handleIdx (body m.pkt 0 4)) = some x)
    (hlive : handleLive (renew v i m.tick) 2 (body m.pkt 0 4) = true) (hpartner : x.partner = partnerHandle (renew v i m.tick) i) :
    exec (.leaseAck t) s = .next
      (setBitOf (modStream (renew v i m.tick) (handleIdx (body m.pkt 0 4)) fun y => { y with acked := true })
        (fun k => F.BXL_LEASE_ACK_ACK k) (handleIdx (body m.pkt 0 4)) true) := by
  show execLeaseAck t s = _
  have taken := takeInbox_head hm hv (p := fun m => m.port = 0 && m.pkt.type = 3 && msgOf m.pkt = 0x06) (by rw [hport, htype, hmsg]; rfl)
  have names : (handleLive (renew v i m.tick) 2 (body m.pkt 0 4) && x.partner = partnerHandle (renew v i m.tick) i) = true := by
    rw [hlive, hpartner, decide_eq_true rfl]
    rfl
  simp only [execLeaseAck, ← hu, taken, hnamed, hstream, names, if_true]

theorem exec_bye (htype : m.pkt.type = 3) (hmsg : msgOf m.pkt = 0x09) :
    exec (.bye t) s = .next (losePartner v i (arrivedAt v m.tick)) := by
  show execBye t s = _
  have taken := takeInbox_head hm hv (p := fun m => m.port = 0 && m.pkt.type = 3 && msgOf m.pkt = 0x09) (by rw [hport, htype, hmsg]; rfl)
  simp only [execBye, ← hu, taken, hnamed]

theorem exec_partnerTimeReceive (htype : m.pkt.type = 4) :
    exec (.partnerTimeReceive t) s = .next
      (renew (modPartner v i fun p => { p with timePayload := leNat (m.pkt.payload.take 8), timeArrival := m.tick }) i m.tick) := by
  show execPartnerTimeReceive t s = _
  have taken := takeInbox_head hm hv (p := fun m => m.port = 0 && m.pkt.type = 4) (by rw [hport, htype]; rfl)
  simp only [execPartnerTimeReceive, ← hu, taken, hnamed]

end
end

/-! ## What goes out and ends by time -/

theorem exec_keepalive :
    exec (.keepalive t) s = .next (((joined u).filter fun y =>
        if tickValid u then u.time.tick % 983040 == 0
        else decide (y.2.welcome < u.time.now) && (u.time.now - y.2.welcome) % 983040 == 0).foldl (fun v y =>
          (((partnerStreams v y.1).filter fun x => !x.2.acked).map (·.1)).foldl sendGrant
            (sendMessage v y.1 0x04 (leBytes 8 y.2.ident ++ leBytes 4 (partnerStreams v y.1).length))) u) := by
  subst hu
  rfl

theorem exec_timeSend (hvalid : tickValid u = true) (hdue : u.time.tick % 983040 = 0) :
    let v := (joined u).foldl (fun v y =>
      sendPartner v y.1 4 (leBytes 8 0 ++ leBytes 8 v.time.origin ++ leBytes 8 y.2.timePayload ++ leBytes 8 y.2.timeArrival)) u
    let time := fun (v : State) (q : Nat) => modCasc (enqueueCtrl v q (ctrlPacket 2 4 0 (v.casc.seqs.getD q 0)
        (leBytes 8 0 ++ leBytes 8 v.time.origin ++ leBytes 8 (v.casc.times.getD q (0, 0)).1 ++ leBytes 8 (v.casc.times.getD q (0, 0)).2)))
      fun y => { y with seqs := y.seqs.set q ((v.casc.seqs.getD q 0 + 1) % 2 ^ 16) }
    exec (.timeSend t) s = .next (time (time v 1) 2) := by
  show execTimeSend t s = _
  have due : (!tickValid u || u.time.tick % ticksPerMs != 0) = false := by
    rw [hvalid, show u.time.tick % ticksPerMs = 0 from hdue]
    rfl
  simp only [execTimeSend, ← hu, due, Bool.false_eq_true, if_false, List.foldl]

theorem exec_partnerLost {i : Nat} {p : Partner} (hp : partnerAt u i = some p) (hdue : p.lossAt ≤ u.time.now) :
    exec (.partnerLost t i) s = .next (losePartner u i p.lossAt) := by
  show execPartnerLost t i s = _
  simp only [execPartnerLost, ← hu, hp, hdue, if_true]

theorem exec_orphanTimeout {j n : Nat} {x : Stream} (hx : streamAt u j = some x) (hend : x.orphanEnd = some n) (hdue : n ≤ u.time.now) :
    exec (.orphanTimeout t j) s = .next (removeStream (postOrphanEnd u j 1) j) := by
  show execOrphanTimeout t j s = _
  simp only [execOrphanTimeout, ← hu, hx, hend, hdue, if_true]

end Sys2Proof.Machine
end

section
open Sys2Proof Sys2Proof.Machine

/-- Settles O41: each message as the head of the inbox, HELLO by the identity that it bears. -/
theorem partnerMessagesComplete : Obligations.PartnerMessagesComplete := by
  intro t s u v m rest hu hm hv hport
  have hello := exec_hello hu hm hv hport
  refine ⟨fun hhello hzero => ?_, fun hhello hident hnew => ?_, fun i y hhello hident hknown => ?_, ?_, ?_, ?_, ?_⟩
  · rw [hello hhello, if_pos hzero]
  · rw [hello hhello, if_neg hident, hnew]
  · rw [hello hhello, if_neg hident, hknown]
  · exact fun i htype hmsg hnamed => exec_keepaliveReceive hu hm hv hport hnamed htype hmsg
  · exact fun i x htype hmsg hnamed => exec_leaseAck hu hm hv hport hnamed htype hmsg
  · exact fun i htype hmsg hnamed => exec_bye hu hm hv hport hnamed htype hmsg
  · exact fun i htype hnamed => exec_partnerTimeReceive hu hm hv hport hnamed htype

/-- Settles O42: what is due by the tick. -/
theorem partnerTimersComplete : Obligations.PartnerTimersComplete := by
  intro t s u hu
  exact ⟨exec_keepalive hu, exec_timeSend hu, fun i p => exec_partnerLost hu, fun j x n => exec_orphanTimeout hu⟩

end

section
/-!
Chain discovery (R338-R344).
-/
namespace Sys2Proof.Machine

variable {t : Nat} {c : Cmd} {s u : State} {f : Flight}

/-! ## What a report leaves alone -/

/-- The part of the state that refreshing the chain's registers and relaying a report leave alone. -/
def reported (s : State) : Option Nat × Bool × Option Nat × List Inbox × List Pending × List (Nat × Stream) :=
  (s.casc.minFeat, s.casc.broken, s.casc.beyond, s.inbox, s.acts, s.streams)

theorem reported_ite {b : Option Nat × Bool × Option Nat × List Inbox × List Pending × List (Nat × Stream)} {p : Prop} [Decidable p]
    {x y : State} (hx : reported x = b) (hy : reported y = b) : reported (if p then x else y) = b := by
  split
  · exact hx
  · exact hy

theorem reported_post (s : State) (type data : Nat) : reported (post s type data) = reported s :=
  (congrArg reported ((HostOnly.refl s).post type data).1 :)

theorem reported_showChain (s : State) : reported (showChain s) = reported s := by
  unfold showChain
  split
  · rfl
  · rfl

theorem reported_showMembers (s : State) (changed : Bool) : reported (showMembers s changed) = reported s := by
  have shown := reported_showChain (setF s F.CAS_STATUS_MEMBERS (s.casc.beyond.getD 0 + 1))
  unfold showMembers
  extract_lets was now v
  split
  · exact (reported_post ..).trans shown
  · exact shown

theorem reported_enqueueCtrl (s : State) (q : Nat) (p : Packet) : reported (enqueueCtrl s q p) = reported s := by
  unfold enqueueCtrl enqueue
  split
  · rfl
  · rfl

theorem reported_sendReport (s : State) (e : Nat) : reported (sendReport s e) = reported s := reported_enqueueCtrl ..

theorem reported_sendReports (s : State) : reported (sendReports s) = reported s := by
  have each : ∀ (l : List (Nat × Option Nat × Option Nat)) (v : State), reported (l.foldl (fun v x => sendReport v x.1) v) = reported v := by
    intro l
    induction l with
    | nil => exact fun _ => rfl
    | cons x l ih => exact fun v => (ih _).trans (reported_sendReport ..)
  unfold sendReports
  split
  · exact reported_sendReport ..
  · exact each ..

/-! ## CASC_DISCOVER -/

section
variable (hu : u = advance t s)
include hu

theorem exec_cascDiscover (h : mayRun u 0x50 c [] f) :
    exec (.cascDiscover t c) s = .next
      (if isMember u then reject u f stBadParam
       else if !isLantern u then complete u f 1
       else if !tickValid u then reject u f stNoTime
       else
         let e := assignTick u
         let v := sendAssign u 1 (cascDepth u) (commonFeature u) e
         modCasc (setStage v f.id .running) fun x => { x with
           next := assocPut x.next e (some 0, none)
           discover := x.discover ++ [{ id := f.id, start := v.time.now, e := e, last := none }] }) := by
  show execCascDiscover t c s = _
  rw [execCascDiscover, runCmd_of_mayRun (more := fun _ => []) hu h]

omit hu in
theorem lantern_no_member (hlantern : isLantern u = true) : isMember u = false := by
  have role : roleOf u = 1 := of_decide_eq_true hlantern
  rw [isMember, role]
  rfl

theorem exec_cascDiscover_lantern (h : mayRun u 0x50 c [] f) (hlantern : isLantern u = true) (hvalid : tickValid u = true) :
    let v := setStage (sendAssign u 1 (cascDepth u) (commonFeature u) (assignTick u)) f.id .running
    exec (.cascDiscover t c) s = .next { v with casc := { v.casc with
      next := assocPut v.casc.next (assignTick u) (some 0, none)
      discover := v.casc.discover ++ [{ id := f.id, start := v.time.now, e := assignTick u, last := none }] } } := by
  intro v
  have head : isMember u = false := lantern_no_member hlantern
  rw [exec_cascDiscover hu h, head, if_neg Bool.false_ne_true, hlantern, if_neg (by decide), hvalid, if_neg (by decide)]
  rfl

/-! ## Offers and reports -/

section
variable {m : Inbox} {rest : List Inbox} (hm : u.inbox = m :: rest)
include hm

theorem exec_cascAssign (hport : m.port = 1) (htype : m.pkt.type = 3) (hmsg : msgOf m.pkt = 0x10) (hearly : m.tick < body m.pkt 4 8)
    (hdepth : body m.pkt 0 1 ≤ body m.pkt 1 1) :
    let v := setF { u with inbox := rest } F.CAS_FEATURE_COMMON (body m.pkt 2 1)
    let e := body m.pkt 4 8
    let far := match assocGet v.casc.next e with
      | some (i, far) => if i = some (body m.pkt 0 1) then far else none
      | none => none
    let w := modCasc v fun x => { x with next := assocPut x.next e (some (body m.pkt 0 1), far) }
    exec (.cascAssign t) s = .next (sendReport (sendAssign w (body m.pkt 0 1 + 1) (body m.pkt 1 1) (body m.pkt 2 1) e) e) := by
  intro v e far w
  show execCascAssign t s = _
  have taken := takeInbox_head hm rfl (p := fun m => m.port = 1 && m.pkt.type = 3 && msgOf m.pkt = 0x10) (by rw [hport, htype, hmsg]; rfl)
  simp only [execCascAssign, ← hu, taken, hearly, hdepth, if_true] <;>
    rfl

theorem exec_cascReport (hport : m.port = 2) (htype : m.pkt.type = 3) (hmsg : msgOf m.pkt = 0x11) :
    ∃ s', exec (.cascReport t) s = .next s' ∧ s'.casc.minFeat = some (body m.pkt 1 1) ∧ s'.casc.broken = bitAt (body m.pkt 2 1) 0
      ∧ s'.casc.beyond = (if body m.pkt 4 8 = chainE u then
          (if ownIndex u < body m.pkt 0 1 ∧ u.casc.cut = false then some (body m.pkt 0 1) else none) else u.casc.beyond)
      ∧ s'.inbox = rest ∧ s'.acts = u.acts ∧ s'.streams = u.streams := by
  have taken := takeInbox_head hm rfl (p := fun m => m.port = 2 && m.pkt.type = 3 && msgOf m.pkt = 0x11) (by rw [hport, htype, hmsg]; rfl)
  have kept : ∃ s', exec (.cascReport t) s = .next s' ∧ reported s' = (some (body m.pkt 1 1), bitAt (body m.pkt 2 1) 0,
      (if body m.pkt 4 8 = chainE u then (if decide (ownIndex u < body m.pkt 0 1) && !u.casc.cut then some (body m.pkt 0 1) else none)
       else u.casc.beyond), rest, u.acts, u.streams) := by
    show ∃ s', execCascReport t s = _ ∧ _
    simp only [execCascReport, ← hu, taken]
    refine ⟨_, rfl, ?_⟩
    exact reported_ite (reported_showMembers ..) (reported_ite
      (reported_ite ((reported_sendReport ..).trans (reported_showChain ..)) ((reported_sendReports ..).trans (reported_showChain ..)))
      (reported_showChain ..))
  obtain ⟨s', hexec, hkept⟩ := kept
  simp only [reported, Prod.mk.injEq] at hkept
  obtain ⟨hfeat, hbroken, hbeyond, hinbox, hacts, hstreams⟩ := hkept
  refine ⟨s', hexec, hfeat, hbroken, hbeyond.trans ?_, hinbox, hacts, hstreams⟩
  simp

end

/-! ## The timers -/

section
variable (hdue : u.casc.lastSent + 983040 ≤ u.time.now)
include hdue

theorem exec_cascAssignPeriodic :
    let v : State := { u with casc := { u.casc with lastSent := u.time.now } }
    exec (.cascAssignPeriodic t) s = .next
      (if isLantern v then (if chainE v = 0 then v else sendAssign v 1 (cascDepth v) (commonFeature v) (chainE v))
       else if isMember v then sendReports v
       else v) := by
  intro v
  show execCascAssignPeriodic t s = _
  simp only [execCascAssignPeriodic, ← hu, Nat.not_lt.mpr hdue, if_false] <;>
    rfl

end

theorem exec_chainEReached {e : Nat} {i far : Option Nat} {later : List (Nat × Option Nat × Option Nat)} (hnext : u.casc.next = (e, i, far) :: later)
    (hdue : e ≤ u.time.tick) :
    let v := set64 u A.CAS_CHAIN_E A.CAS_CHAIN_E_1 e
    let w : State := { v with casc := { v.casc with next := later, cut := !portUp v 2, beyond := far } }
    exec (.chainEReached t) s = .next (if isLantern w then showMembers (refreshCommon w) false
      else showChain (setF (setFlag w F.CAS_STATUS_INDEXED i.isSome) F.CAS_STATUS_INDEX (i.getD 0))) := by
  intro v w
  show execChainEReached t s = _
  simp only [execChainEReached, ← hu, hnext, Nat.not_lt.mpr hdue, if_false] <;>
    rfl

theorem exec_cascDiscoverDone {d : Discovery} (hone : u.casc.discover = [d])
    (hdue : d.start + 983040 ≤ u.time.now ∨ ∃ x, d.last = some x ∧ x.2 + 98304 ≤ u.time.now) (hf : flightOf u d.id = some f) :
    exec (.cascDiscoverDone t) s = .next
      (complete { u with casc := { u.casc with discover := [] } } f ((d.last.map (·.1)).getD 0 + 1)) := by
  show execCascDiscoverDone t s = _
  have same : flightOf { u with casc := { u.casc with discover := [] } } d.id = some f := hf
  rcases hdue with late | ⟨x, hlast, hstable⟩
  · simp only [execCascDiscoverDone, ← hu, hone, List.find?_cons, late, decide_true, Bool.true_or, modCasc, List.erase_cons_head, same]
  · simp only [execCascDiscoverDone, ← hu, hone, List.find?_cons, hlast, hstable, decide_true, Bool.or_true, modCasc, List.erase_cons_head, same]

end

end Sys2Proof.Machine
end

section
open Sys2Proof Sys2Proof.Machine

/-- Settles O43: CASC_DISCOVER by the role of the chip, offers and reports by their rule, the timers by what is due. -/
theorem discoveryComplete : Obligations.DiscoveryComplete := by
  intro t c s u f hu
  refine ⟨fun h hmember => ?_, fun h hmember hlantern => ?_, fun h hlantern hvalid => ?_, exec_cascDiscover_lantern hu,
    fun m rest => exec_cascAssign hu, fun m rest => exec_cascReport hu, fun hdue => ?_, fun e i far later hnext hdue => ?_,
    fun d => exec_cascDiscoverDone hu⟩
  · rw [exec_cascDiscover hu h, hmember, if_pos rfl]
  · rw [exec_cascDiscover hu h, hmember, hlantern, if_neg Bool.false_ne_true, if_pos (by decide)]
  · have head : isMember u = false := lantern_no_member hlantern
    rw [exec_cascDiscover hu h, head, if_neg Bool.false_ne_true, hlantern, if_neg (by decide), hvalid, if_pos (by decide)]
  · have sent := exec_cascAssignPeriodic hu hdue
    intro v
    refine ⟨fun hlantern he => ?_, fun hlantern hmember => ?_⟩
    · exact sent.trans (congrArg _ ((if_pos hlantern).trans (if_neg he)))
    · exact sent.trans (congrArg _ ((if_neg (ne_true_of_eq_false hlantern)).trans (if_pos hmember)))
  · have reached := exec_chainEReached hu hnext hdue
    exact ⟨fun hlantern => reached.trans (congrArg _ (if_neg (ne_true_of_eq_false hlantern))),
      fun hlantern => reached.trans (congrArg _ (if_pos hlantern))⟩

end

section
/-!
Bias DACs and monitor units (R411-R437).
-/
namespace Sys2Proof.Machine

/-! ## Bias DACs -/

section
variable {t : Nat} {c : Cmd} {s u v : State} {f : Flight} (hu : u = advance t s)
include hu

theorem exec_biasSet (hv : v = settleHkTo u u.time.now) (h : mayRun u 0x40 c [] f) (hdac : dacPresent v (p8 c 16) = true) (hlevel : p16 c 18 ≤ 4095)
    (hstep : 1 ≤ p8 c 20) (hperiod : 1 ≤ p16 c 22) (hlast : p16 c 22 ≤ 4095) (hwin : sched c = true → inWindow v c f [(0x40, p8 c 16, 0)]) :
    exec (.biasSet t c) s = .next
      (if sched c then accept v f [(0x40, p8 c 16, 0)] []
       else complete (setN v (A.HKM_DAC_SET (p8 c 16)) (setWord (p16 c 18) (p8 c 20) (p16 c 22))) f 0) := by
  show execBiasSet t c s = _
  obtain rfl := cmd_of_mayRun h
  have good : (!dacPresent v (p8 f.cmd 16) || decide (4095 < p16 f.cmd 18) || decide (p8 f.cmd 20 < 1) || decide (p16 f.cmd 22 < 1)
      || decide (4095 < p16 f.cmd 22)) = false := by
    rw [hdac, decide_eq_false (Nat.not_lt.mpr hlevel), decide_eq_false (Nat.not_lt.mpr hstep), decide_eq_false (Nat.not_lt.mpr hperiod),
      decide_eq_false (Nat.not_lt.mpr hlast)]
    rfl
  rw [execBiasSet, runCmd_of_mayRun (more := fun _ => []) hu h]
  dsimp only
  rw [← hv, good, schedulable_passed hwin]

theorem exec_biasStrobe (h : mayRun u 0x41 c [] f) (hmask : maskWithin (p8 c 16) (nPods u) = true)
    (hwin : inWindow u c f ((bitsSet (p8 c 16) 8).map fun p => (0x41, p, 0))) :
    exec (.biasStrobe t c) s = .next (accept u f ((bitsSet (p8 c 16) 8).map fun p => (0x41, p, 0)) []) := by
  show execBiasStrobe t c s = _
  obtain rfl := cmd_of_mayRun h
  rw [execBiasStrobe, runCmd_of_mayRun (more := fun _ => []) hu h]
  dsimp only
  rw [hmask, Bool.not_true, schedulable_inWindow (sched_of_scheduledOnly h rfl) hwin, Option.elim]

theorem exec_ldbInEdge : exec (.ldbInEdge t) s = .next
    (if hkmOn u then hkAt (satAdd (settleHk u) F.HKM_LDB_EDGES 1) (hkNow u) (.strobe (getF u F.HKM_LDB_MASK)) else u) := by
  subst hu
  rfl

theorem exec_anaPowerGoodFall {dip : Nat} : exec (.anaPowerGoodFall t dip) s = .next
    (raiseFlag (enterHusk (modHkm (settleHk u) fun h => { h with anaLow := (settleHk u).time.now + dip }) 0xFF) F.HKM_HUSK_CAUSE_ANA_PG) := by
  subst hu
  rfl

theorem exec_slewStep {d e : Nat} (hnext : (dacAt (settleHk u) d).next = some e) (hdue : e ≤ (settleHk u).time.now) :
    exec (.slewStep t d) s = .next (slew (settleHk u) d e) := by
  show execSlewStep t d s = _
  simp only [execSlewStep, ← hu, hnext, hdue, if_true]

/-! ## Monitor units: commands and requests -/

theorem exec_monScan (h : mayRun u 0x42 c [] f) (hon : hkmOn u = true) (hunit : p8 c 16 ≤ 3) (hcode : p8 c 17 ≤ 3) (hil : p8 c 18 ≤ 1)
    (hinputs : (bitsSet (p32 c 20 % 2 ^ 24) 24).all (inputPresent u (p8 c 16)) = true)
    (hone : p8 c 18 = 1 → (bitsSet (p32 c 20 % 2 ^ 24) 24).length = 1) :
    let v := modMon u (p8 c 16) fun x => { x with next := some (p8 c 17, p8 c 18, p32 c 20 % 2 ^ 24) }
    exec (.monScan t c) s = .next
      (complete (if (monUnit v (p8 c 16)).queue.isEmpty then resumeScan v (p8 c 16) (hkNext v) else v) f 0) := by
  intro v
  show execMonScan t c s = _
  have single : (p8 c 18 == 1 && (bitsSet (p32 c 20 % 2 ^ 24) 24).length != 1) = false := by
    rw [Bool.and_eq_false_imp]
    intro hset
    rw [hone (beq_iff_eq.mp hset)]
    rfl
  have good : (decide (3 < p8 c 16) || decide (3 < p8 c 17) || decide (1 < p8 c 18)
      || !(bitsSet (p32 c 20 % 2 ^ 24) 24).all (inputPresent u (p8 c 16))
      || (p8 c 18 == 1 && (bitsSet (p32 c 20 % 2 ^ 24) 24).length != 1)) = false := by
    rw [single, hinputs, decide_eq_false (Nat.not_lt.mpr hunit), decide_eq_false (Nat.not_lt.mpr hcode), decide_eq_false (Nat.not_lt.mpr hil)]
    rfl
  obtain rfl := cmd_of_mayRun h
  rw [execMonScan, runCmd_of_mayRun (more := fun _ => []) hu h]
  dsimp only
  rw [good, immediate_passed (sched_of_mayRun h rfl), hon]
  rfl

theorem exec_monUrgent (h : mayRun u 0x43 c [] f) (hunit : p8 c 16 ≤ 3) (hinput : inputPresent u (p8 c 16) (p8 c 17) = true)
    (hwin : sched c = true → inWindow u c f [(0x43, p8 c 16, 0)]) :
    exec (.monUrgent t c) s = .next
      (if sched c then accept u f [(0x43, p8 c 16, 0)] [] else complete (urgent u (p8 c 16) (p8 c 17) (hkNext u) true) f 0) := by
  show execMonUrgent t c s = _
  obtain rfl := cmd_of_mayRun h
  have good : (decide (3 < p8 f.cmd 16) || !inputPresent u (p8 f.cmd 16) (p8 f.cmd 17)) = false := by
    rw [hinput, decide_eq_false (Nat.not_lt.mpr hunit)]
    rfl
  rw [execMonUrgent, runCmd_of_mayRun (more := fun _ => []) hu h]
  dsimp only
  rw [good, schedulable_passed hwin]

theorem exec_firmwareUrgentRequest {k i : Nat} (hfw : fwRunning u = true) (hk : k < 4) (hinput : inputPresent u k i = true)
    (hstart : segmentStart u u.time.tick = true) : exec (.firmwareUrgentRequest t k i) s = .next (urgent u k i (hkNow u) false) := by
  show execFirmwareUrgentRequest t k i s = _
  have may : (fwRunning u && decide (k < 4) && inputPresent u k i && segmentStart u u.time.tick) = true := by
    rw [hfw, decide_eq_true hk, hinput, hstart]
    rfl
  simp only [execFirmwareUrgentRequest, ← hu, may, if_true]

/-! ## The end of a window -/

section
omit hu
variable {k : Nat}

theorem units_modMon (v : State) (f : MonUnit → MonUnit) : (modMon v k f).hkm.units = v.hkm.units.modify k f := rfl

theorem monUnit_modMon (v : State) (f : MonUnit → MonUnit) (hk : k < v.hkm.units.length) : monUnit (modMon v k f) k = f (monUnit v k) := by
  simp [monUnit, units_modMon, hk]

theorem units_settleWindows (v : State) : (settleWindows v).hkm.units.length = v.hkm.units.length := by
  have each : ∀ (g : State → Nat → State), (∀ w i, (g w i).hkm.units.length = w.hkm.units.length) → ∀ (l : List Nat) (w : State),
      (l.foldl g w).hkm.units.length = w.hkm.units.length := by
    intro g hg l
    induction l with
    | nil => exact fun _ => rfl
    | cons i l ih => exact fun w => (ih _).trans (hg w i)
  refine each _ (fun w i => ?_) _ _
  dsimp only
  split
  · rw [units_modMon, List.length_modify]
  · rfl

theorem settleWindows_time (v : State) : (settleWindows v).time = v.time :=
  foldl_time (fun w i => by dsimp only; split <;> rfl) _ _

/-- Where a unit goes on, its results that are due stay. -/
theorem due_resumeScan (v : State) (e : Nat) (hk : k < v.hkm.units.length) : (monUnit (resumeScan v k e) k).due = (monUnit v k).due := by
  have keeps : ∀ (w : State) (f : MonUnit → MonUnit), k < w.hkm.units.length → (∀ x, (f x).due = x.due) →
      (monUnit (modMon w k f) k).due = (monUnit w k).due := by
    intro w f hw hf
    rw [monUnit_modMon w f hw, hf]
  have ends : ∀ w : State, k < w.hkm.units.length →
      (monUnit (if flag w (F.MON_SCAN_RUN k) then startConv w k (getF w (F.MON_SCAN_WINDOW k)) e
        else modMon w k fun u => { u with running := false }) k).due = (monUnit w k).due := by
    intro w hw
    split
    · exact keeps _ _ hw fun _ => rfl
    · exact keeps _ _ hw fun _ => rfl
  unfold resumeScan
  split
  · exact (ends _ (by simpa [units_modMon] using hk)).trans (keeps _ _ hk fun _ => rfl)
  · exact ends _ hk

theorem due_windowEnd (v : State) {d : MonDue} {g : MonUnit → MonUnit} (e : Nat) (f : MonUnit → MonUnit)
    (hf : f = fun x => { x with due := x.due ++ [d] }) (hk : k < v.hkm.units.length) (hg : ∀ x, (g x).due = x.due) :
    (monUnit (resumeScan (modMon (modMon v k f) k g) k e) k).due = (monUnit v k).due ++ [d] := by
  rw [due_resumeScan _ _ (by simpa [units_modMon] using hk), monUnit_modMon _ _ (by simpa [units_modMon] using hk), hg,
    monUnit_modMon _ _ hk, hf]

end

theorem exec_monitorWindowEnd {k : Nat} :
    let v := settleWindows u
    let x := monUnit v k
    x.running = true → u.time.counting = true → x.queue = [] → flag v (F.MON_SCAN_INTERLEAVE k) = false →
    x.start + x.w ≤ u.time.now → k < u.hkm.units.length →
    ∃ s', exec (.monitorWindowEnd t k) s = .next s' ∧ ∃ y, y = monUnit s' k
      ∧ (∃ d, y.due = x.due ++ [d] ∧ d.stop = x.start + x.w ∧ d.input = x.scan ∧ d.urgent = false ∧ d.host = false) := by
  intro v x hruns hcounts hqueue hil hdue hk
  have hv : k < v.hkm.units.length := by rwa [units_settleWindows]
  show ∃ s', execMonitorWindowEnd t k s = _ ∧ _
  have waits : (!(monUnit (settleWindows u) k).running || !(settleWindows u).time.counting
      || decide ((settleWindows u).time.now < (monUnit (settleWindows u) k).start + (monUnit (settleWindows u) k).w)) = false := by
    rw [show (monUnit (settleWindows u) k).running = true from hruns, settleWindows_time, hcounts,
      decide_eq_false (Nat.not_lt.mpr (show (monUnit (settleWindows u) k).start + (monUnit (settleWindows u) k).w ≤ _ from hdue))]
    rfl
  have scans : (!(monUnit (settleWindows u) k).queue.isEmpty) = false := by
    rw [show (monUnit (settleWindows u) k).queue = [] from hqueue]
    rfl
  have plain : flag (settleWindows u) (F.MON_SCAN_INTERLEAVE k) = false := hil
  have empty : (monUnit (settleWindows u) k).queue.head? = none := by rw [show (monUnit (settleWindows u) k).queue = [] from hqueue]; rfl
  simp only [execMonitorWindowEnd, ← hu, scans, plain, empty, waits, Bool.not_false, Bool.and_false, Bool.false_eq_true, if_false]
  exact ⟨_, rfl, _, rfl, _, due_windowEnd _ _ _ rfl hv fun _ => rfl, rfl, rfl, rfl, rfl⟩

/-! ## Results -/

theorem exec_monitorResult {k : Nat} {d : MonDue} {rest : List MonDue} {code : Int × Int} {loud ovr : Bool}
    (hnext : (monUnit u k).due = d :: rest) (hdue : d.stop + 64 ≤ u.time.now)
    (hovr : ovr = true ↔ loud = true ∧ d.input ≠ 16 ∧ d.input ≠ 17) :
    let l := latestCodes d.part (monUnit u k).codes code
    let v := unsigned 20 (meanCode l.1 l.2)
    let w := pushRecord (modMon u k fun x => { x with due := rest, codes := l }) k (monRecord d v ovr)
    let w := setFlag (setFlag w (F.MON_RESULT_VALID k d.input) true) (F.MON_RESULT_OVR k d.input) ovr
    let w := setF (setFlag w (F.MON_RESULT_URGENT k d.input) d.urgent) (F.MON_RESULT_RESULT k d.input) v
    let w := if ovr then noteOvr w k d else w
    let w := if d.host then postAt w evMonUrgentDone d.tick
        (evData [(16, 1, k), (17, 1, d.input), (20, 4, unsigned 32 (signed 20 v)), (24, 1, if ovr then 1 else 0)]) else w
    exec (.monitorResult t k code loud) s = .next (markStale (if k = 3 ∧ d.input = 17 then loTemperature w v else w)) := by
  intro l v w1 w2 w3 w4 w5
  show execMonitorResult t k code loud s = _
  have loudness : (loud && d.input != 16 && d.input != 17) = ovr := by
    rw [Bool.eq_iff_iff, hovr, Bool.and_eq_true, Bool.and_eq_true, bne_iff_ne, bne_iff_ne, and_assoc]
  rw [execMonitorResult, ← hu]
  dsimp only
  rw [hnext]
  dsimp only
  rw [loudness, if_neg (Nat.not_lt.mpr hdue)]
  simp only [Bool.and_eq_true, decide_eq_true_iff] <;>
    rfl

end

/-- The mean of two codes is rounded half away from zero (R431). -/
theorem meanCode_rounds (a b : Int) : (0 ≤ a + b → meanCode a b - (a + b) / 2 = (a + b) % 2) ∧ meanCode (-a) (-b) = -meanCode a b := by
  unfold meanCode
  constructor
  · intro h
    rw [if_pos h]
    omega
  · split <;> split <;> omega

end Sys2Proof.Machine
end

section
open Sys2Proof Sys2Proof.Machine

/-- Settles O50: the commands by their arguments, the edges and results by what is due. -/
theorem biasAndMonitorComplete : Obligations.BiasAndMonitorComplete := by
  refine ⟨fun t data c s u f hu => ⟨fun v => exec_biasSet hu, exec_biasStrobe hu, fun hawake => ⟨byWrite_awake hu hawake (k := fun v => writeStrobe v data),
    byWrite_awake hu hawake (k := fun v => writeHuskSet v data), byWrite_awake hu hawake (k := fun v => writeHuskRelease v data)⟩, fun hon => ?_, fun hoff => ?_, fun dip => exec_anaPowerGoodFall hu, fun d e => exec_slewStep hu⟩,
    fun t k c s u f hu => ⟨exec_monScan hu, exec_monUrgent hu, fun i => exec_firmwareUrgentRequest hu, exec_monitorWindowEnd hu,
    fun d rest code loud ovr hnext hdue hk => exec_monitorResult hu hnext hdue, meanCode_rounds⟩⟩
  · rw [exec_ldbInEdge hu, if_pos hon]
  · rw [exec_ldbInEdge hu, if_neg (ne_true_of_eq_false hoff)]

end

section
/-!
DMA channels: their commands, the two writes, and the fetch of a line (R102, R363-R388).
-/
namespace Sys2Proof.Machine

variable {t : Nat} {c : Cmd} {s u : State} {f : Flight} (hu : u = advance t s)
include hu

/-! ## Commands -/

/-- The channel that DMA_CREATE makes. -/
def newChannel (u : State) (c : Cmd) (i : Nat) : DmaCh :=
  { gen := nextGen u 5 i, loops := [], entry := (p8 c 16, p64 c 24), line := none, reading := false, busy := false, burst := none,
    kept := [], first := none, stop := none, want := false, reads := 0, readAt := 0 }

theorem exec_dmaCreate {i b : Nat} (h : mayRun u 0x60 c [] f) (hspace : p8 c 16 ≤ 2) (hsuper : p8 c 17 ≤ 1) (hbanks : p8 c 18 ≤ 8)
    (haligned : p64 c 24 % 16 = 0) (hregion : regionBad (p8 c 16) (p64 c 24) 16 = false) (hdram : p8 c 16 = 2 → p64 c 24 < u.dramSize)
    (hfirst : p8 c 17 = 1 → ∀ x ∈ u.dmas, flag u (F.DMA_CH_STATE_SUPERVISORY x.1) = false)
    (hfree : lowestFree u.dmas 64 = some i) (hrun : (if p8 c 18 = 0 then some 0 else findRun u (p8 c 18)) = some b) :
    let h := mkHandle 5 (nextGen u 5 i) i
    let v := ownBanks { takeGen u 5 i with dmas := assocPut u.dmas i (newChannel u c i) } (bankRun b (p8 c 18)) h
    let v := setF (setChState v i 1) (F.DMA_CH_STATE_SUPERVISORY i) (p8 c 17)
    let v := setN (setPc (setN v (A.DMA_CH_HANDLE i) h) i (p8 c 16) (p64 c 24)) (A.DMA_CH_BUDGET i) (p32 c 20)
    exec (.dmaCreate t c) s = .next
      (complete (setF (setF v (F.DMA_CH_BANKS_COUNT i) (p8 c 18)) (F.DMA_CH_BANKS_FIRST i) (if p8 c 18 = 0 then 0 else b)) f h) := by
  intro h1 v1 v2 v3
  show execDmaCreate t c s = _
  have second : (p8 c 17 = 1 && u.dmas.any fun x => flag u (F.DMA_CH_STATE_SUPERVISORY x.1)) = false := by
    rw [Bool.and_eq_false_imp]
    intro hset
    rw [List.any_eq_false]
    exact fun x hx => ne_true_of_eq_false (hfirst (of_decide_eq_true hset) x hx)
  have beyond : (p8 c 16 = 2 && decide (u.dramSize ≤ p64 c 24)) = false := by
    simpa using hdram
  rw [execDmaCreate, runCmd_of_mayRun (more := fun _ => []) hu h]
  simp only [hfree, hrun, second, beyond, hregion, haligned, Nat.not_lt.mpr hspace, Nat.not_lt.mpr hsuper, Nat.not_lt.mpr hbanks,
    ne_eq, not_true, decide_false, Bool.or_self, Bool.false_eq_true, if_false, immediate_passed (sched_of_mayRun h rfl)] <;>
    rfl

theorem exec_dmaStart (h : mayRun u 0x61 c [] f) (hidle : chBusy u (handleIdx c.handle) = false)
    (hwin : sched c = true → inWindow u c f [(0x61, c.handle, 0)]) :
    exec (.dmaStart t c) s = .next
      (if sched c then accept u f [(0x61, c.handle, 0)] [] else complete (startDma u (handleIdx c.handle)) f 0) := by
  show execDmaStart t c s = _
  obtain rfl := cmd_of_mayRun h
  rw [execDmaStart, runCmd_of_mayRun (more := fun _ => []) hu h]
  dsimp only
  rw [hidle, if_neg Bool.false_ne_true, schedulable_passed hwin]

omit hu in
/-- An object state that does not serve is the answer of a command without a tick whose parameters are in range. -/
theorem schedulable_refused (hs : sched f.cmd = false) (keys : List (Nat × Nat × Nat)) (st : Nat) (mem : Bool) (effect : State → State) :
    schedulable u f false keys (some st) mem effect = reject u f st := by
  simp [schedulable, lateChecks, hs]

theorem exec_dmaStart_busy (h : mayRun u 0x61 c [] f) (hsched : sched c = false) (hbusy : chBusy u (handleIdx c.handle) = true) :
    exec (.dmaStart t c) s = .next (reject u f stBusy) := by
  show execDmaStart t c s = _
  obtain rfl := cmd_of_mayRun h
  rw [execDmaStart, runCmd_of_mayRun (more := fun _ => []) hu h]
  dsimp only
  rw [hbusy, if_pos rfl, schedulable_refused hsched]

theorem exec_dmaStop (h : mayRun u 0x62 c [] f) (hparked : chState u (handleIdx c.handle) = chParked → entryRequested u = false) :
    exec (.dmaStop t c) s = .next
      (if chState u (handleIdx c.handle) = chRunning
          && ((chAt u (handleIdx c.handle)).burst.isSome || (chAt u (handleIdx c.handle)).reading) then
        modCh (setStage u f.id .running) (handleIdx c.handle) fun x => { x with stop := some (x.stop.getD [] ++ [f.id]) }
       else complete (if chBusy u (handleIdx c.handle) then pumpShared (haltDma u (handleIdx c.handle) stCancelled true) else u) f 0) := by
  show execDmaStop t c s = _
  have may : (chState u (handleIdx c.handle) = chParked && entryRequested u) = false := by
    rw [Bool.and_eq_false_imp]
    exact fun hset => hparked (of_decide_eq_true hset)
  rw [execDmaStop, runCmd_of_mayRun (more := fun _ => []) hu h]
  dsimp only
  rw [may, if_neg Bool.false_ne_true, lateChecks_immediate (sched_of_mayRun h rfl)]

theorem exec_dmaDestroy (h : mayRun u 0x63 c [] f) (hidle : chBusy u (handleIdx c.handle) = false) :
    let v := cancelNaming (unbindAll u (handleIdx c.handle)) c.handle
    exec (.dmaDestroy t c) s = .next
      (complete (releaseBanks (clearContext { v with dmas := assocDel v.dmas (handleIdx c.handle) } (handleIdx c.handle)) c.handle) f 0) := by
  intro v
  show execDmaDestroy t c s = _
  rw [execDmaDestroy, runCmd_of_mayRun (more := fun _ => []) hu h]
  dsimp only
  rw [hidle, if_neg Bool.false_ne_true, immediate_passed (sched_of_mayRun h rfl)]

/-! ## The writes -/

section
variable (hawake : asleep u = false)
include hawake

theorem exec_dmaPcWrite {ch word data : Nat} (hch : ch < 64) : exec (.dmaPcWrite t ch word data) s = .next (writePc (countCfg u 1) ch word data) :=
  (byWrite_awake hu hawake (k := fun v => if ch < 64 then writePc v ch word data else v)).trans (congrArg _ (if_pos hch))

theorem exec_evtSetWrite {w data : Nat} (hw : w < 2) : exec (.evtSetWrite t w data) s = .next (writeEvtSet (countCfg u 1) w data) :=
  (byWrite_awake hu hawake (k := fun v => if w < 2 then writeEvtSet v w data else v)).trans (congrArg _ (if_pos hw))

end

/-! ## Lines and faults -/

section
variable {k : Nat} {data : List Byte}

/-- The channel once the line that it reads has come. -/
def lineFetched (u w : State) (k : Nat) (data : List Byte) : State :=
  let bytes := if (chPc u k).1 = 0 then data else memRead (if (chPc u k).1 = 1 then w.store else w.dram) ((chPc u k).2 / 64 * 64) 64
  let v := modCh w k fun x => { x with line := some ((chPc u k).1, (chPc u k).2 / 64 * 64, bytes), reading := false, reads := 0 }
  pumpShared (if (chAt u k).stop.isSome then haltDma v k stCancelled true else seek v k)

theorem exec_instructionFetchComplete (hruns : chState u k = chRunning) (hline : (chAt u k).line = none) (hfault : accessFault u k = none)
    (hreading : (chAt u k).reading = true) (hdata : (chPc u k).1 = 0 → data.length = 64) :
    exec (.instructionFetchComplete t k data) s = .next (throughPort ((chPc u k).1 == 2) (fun w => lineFetched u w k data) u) := by
  show execInstructionFetchComplete t k data s = _
  have sized : ((chPc u k).1 == 0 && data.length != 64) = false := by
    rw [Bool.and_eq_false_imp]
    intro hset
    rw [hdata (beq_iff_eq.mp hset)]
    rfl
  have comes : (chState u k != chRunning || (chAt u k).line.isSome || !(chAt u k).reading || ((chPc u k).1 == 0 && data.length != 64)
      || (accessFault u k).isSome) = false := by
    rw [hruns, hline, hreading, sized, hfault]
    rfl
  rw [execInstructionFetchComplete, ← hu]
  dsimp only
  rw [comes]
  rfl

theorem exec_dmaFault {st : Nat} (hfault : accessFault u k = some st) : exec (.dmaFault t k) s = .next (pumpShared (faultDma u k st)) := by
  show execDmaFault t k s = _
  simp only [execDmaFault, ← hu, hfault]

end

end Sys2Proof.Machine
end

section
open Sys2Proof Sys2Proof.Machine

/-- Settles O51: the commands by the state of the channel, a line by where it is read from. -/
theorem dmaCommandsComplete : Obligations.DmaCommandsComplete := by
  refine ⟨fun t c s u f hu => ⟨fun i b => exec_dmaCreate hu, exec_dmaStart hu, exec_dmaStart_busy hu, exec_dmaStop hu, exec_dmaDestroy hu,
    fun ch word data hawake => exec_dmaPcWrite hu hawake, fun w data hawake => exec_evtSetWrite hu hawake⟩,
    fun t c data s u hu => ⟨fun hruns hline hfault hreading hdata => ?_, fun st => exec_dmaFault hu⟩⟩
  have fetched := exec_instructionFetchComplete hu hruns hline hfault hreading hdata
  refine ⟨fun w hplain hport => fetched.trans ?_, fun hspace hclosed => fetched.trans ?_⟩
  · by_cases hspace : (chPc u c).1 = 2
    · obtain ⟨hw, hserves⟩ := hport hspace
      have there : ((chPc u c).1 == 2) = true := beq_iff_eq.mpr hspace
      rw [there]
      exact congrArg _ (throughPort_served hw hserves fun w => lineFetched u w c data)
    · rw [hplain hspace, beq_false_of_ne hspace]
      rfl
  · have there : ((chPc u c).1 == 2) = true := beq_iff_eq.mpr hspace
    rw [there]
    exact congrArg _ (throughPort_closed hclosed _)

end

section
/-!
The DRAM port: training, retraining, self-refresh, requests and the change of rate (R389-R410).
-/
namespace Sys2Proof.Machine

variable {t : Nat} {s u w : State}

/-! ## What serving a request leaves alone -/

/-- The pause, the reads through W2 that wait and the time are no part of what a request changes. -/
def unserved (s : State) : Option Nat × List (Nat × Nat) × TimeSt := (s.memc.pause, s.memc.w2, s.time)

theorem unserved_foldl {α : Type} {g : State → α → State} (hg : ∀ v x, unserved (g v x) = unserved v) (l : List α) (v : State) :
    unserved (l.foldl g v) = unserved v := by
  induction l generalizing v with
  | nil => rfl
  | cons x l ih => exact (ih _).trans (hg v x)

theorem unserved_writeBack (v : State) (l : List (Nat × Nat)) : unserved (writeBack v l) = unserved v := by
  unfold writeBack
  refine unserved_foldl ?_ l v
  exact fun _ _ => rfl

theorem unserved_queueWrite (v : State) (word mask : Nat) : unserved (queueWrite v word mask) = unserved v := by
  unfold queueWrite
  extract_lets y x
  have queued : unserved x = unserved v := by
    unfold x
    split
    · rfl
    · exact unserved_writeBack ..
  exact queued

theorem unserved_queueRead (v : State) (word mask : Nat) : unserved (queueRead v word mask) = unserved v := by
  unfold queueRead
  dsimp only
  split
  · rfl
  · split
    · rfl
    · exact unserved_writeBack ..

theorem unserved_request (v : State) (x : DramReq) :
    unserved (if x.write then queueWrite v (x.addr / 64) (byteMask x.addr x.len) else queueRead v (x.addr / 64) (byteMask x.addr x.len))
      = unserved v := by
  split
  · exact unserved_queueWrite ..
  · exact unserved_queueRead ..

theorem unserved_serveRequests (n : Nat) (v : State) : unserved (serveRequests n v) = unserved v := by
  induction n generalizing v with
  | zero => rfl
  | succ n ih =>
    unfold serveRequests
    split
    · rfl
    · exact (ih _).trans (unserved_request ..)

/-! ## The pause -/

theorem pause_serveWaiting (v : State) : (serveWaiting v).memc.pause = v.memc.pause := by
  have emits : ∀ (l : List (Nat × Nat)) (y : State), (l.foldl (fun s x => emit s (.readData x.1)) y).memc = y.memc := by
    intro l
    induction l with
    | nil => exact fun _ => rfl
    | cons x l ih => exact fun y => ih _
  unfold serveWaiting
  split
  · dsimp only
    rw [emits]
    exact congrArg Prod.fst (unserved_serveRequests v.memc.waiting.length v)
  · rfl

theorem pause_payGather (v : State) : (payGather v).memc.pause = v.memc.pause := by
  unfold payGather
  split
  · rfl
  · rfl

theorem memc_askRate (v : State) : (askRate v).memc = v.memc := by
  unfold askRate
  dsimp only
  split
  · rfl
  · split
    · split
      · rfl
      · rfl
    · rfl

theorem memc_trainFail (v : State) (channel step : Nat) : (trainFail v channel step).memc = v.memc :=
  (congrArg State.memc ((HostOnly.refl _).post evDramTrainFail (evData [(16, 1, channel), (17, 1, step)])).1 :)

theorem pause_leaveSr (v : State) : (leaveSr v).memc.pause = v.memc.pause := (pause_payGather _).trans (pause_serveWaiting _)

theorem pause_dramLost (v : State) : (dramLost v).memc.pause = none := by
  unfold dramLost
  dsimp only
  rw [memc_askRate]
  rfl

theorem pause_endPause (v : State) (fail0 fail1 : Bool) : (endPause v fail0 fail1).memc.pause = none := by
  unfold endPause
  dsimp only
  rw [pause_serveWaiting]
  have counted : ∀ y : State, y.memc.pause = none → (if getF y F.MEMC_STATUS_RETRAIN_FAILS = 3 then dramLost y else y).memc.pause = none := by
    intro y hy
    split
    · exact pause_dramLost y
    · exact hy
  have failed : ∀ (b : Bool) (channel : Nat) (y : State), (if b then trainFail y channel 9 else y).memc = y.memc := by
    intro b channel y
    split
    · exact memc_trainFail ..
    · rfl
  split
  · exact counted _ (congrArg MemcSt.pause ((failed fail1 1 _).trans (failed fail0 0 _)))
  · rfl

theorem pause_endChange (v : State) : (endChange v).memc.pause = v.memc.pause := by
  unfold endChange
  split
  · rfl
  · dsimp only
    rw [memc_askRate, pause_payGather, pause_serveWaiting]
    rfl

/-- A pause that has lasted its longest time is over once the port has been settled. -/
theorem pause_settleDram {p : Nat} (hp : u.memc.pause = some p) (hover : p + 1180 ≤ u.time.now) : (settleDram u).memc.pause = none := by
  unfold settleDram
  extract_lets s1 s2
  have exit : s1.memc.pause = some p ∧ p + 1180 ≤ s1.time.now := by
    have kept : ∀ v, Calm u v → v.memc.pause = u.memc.pause → v.memc.pause = some p ∧ p + 1180 ≤ v.time.now := by
      intro v hv hpause
      obtain ⟨-, -, hnow, -⟩ := hv
      exact ⟨hpause.trans hp, hover.trans hnow⟩
    unfold s1
    split
    · split
      · exact kept _ (calm_leaveSr (Calm.refl u)) (pause_leaveSr u)
      · exact ⟨hp, hover⟩
    · exact ⟨hp, hover⟩
  have pause : s2.memc.pause = none := by
    unfold s2
    rw [exit.1]
    dsimp only
    rw [if_pos exit.2]
    exact pause_endPause ..
  split
  · split
    · exact (pause_endChange s2).trans pause
    · exact pause
  · exact pause

/-! ## The one request that waits -/

/-- The round over the sources finds the one request, whosever turn it is (R404). -/
theorem nextRequest_single (turn : Nat) {x : DramReq} (hsource : x.source ≤ 5) : nextRequest turn [x] = some x := by
  unfold nextRequest
  by_cases first : x.source = 0
  · simp [first]
  · obtain ⟨k, hk, hturn⟩ : ∃ k, k < 5 ∧ x.source = (turn + k) % 5 + 1 := ⟨(x.source + 4 - turn % 5) % 5, by omega, by omega⟩
    have ours : ([x].find? fun x => x.source = (turn + k) % 5 + 1) = some x := by simp [hturn]
    have found : ((List.range 5).findSome? fun k => [x].find? fun x => x.source = (turn + k) % 5 + 1) = some x := by
      cases hround : (List.range 5).findSome? fun k => [x].find? fun x => x.source = (turn + k) % 5 + 1 with
      | none => simp [List.findSome?_eq_none_iff.mp hround k (List.mem_range.mpr hk)] at ours
      | some y =>
        obtain ⟨j, -, hj⟩ := List.exists_of_findSome?_eq_some hround
        rw [List.mem_singleton.mp (List.mem_of_find?_eq_some hj)]
    rw [found]
    simp [first]

end Sys2Proof.Machine
end

section
/-!
The events of the DRAM port (R389-R410).
-/
namespace Sys2Proof.Machine

variable {t : Nat} {s u w : State} (hu : u = advance t s)
include hu

/-! ## Training -/

section
variable {k start : Nat} (hstep : u.memc.step = some (k, start))
include hstep

/-- A step that ends in time: the state with the size it found, which goes on to the next step or is trained. -/
theorem exec_trainingStepEnd_good {channel size : Nat} (hdue : u.time.now ≤ start + stepTimeout k) (hsize : k = 2 → 1 ≤ size ∧ size ≤ 3) :
    let v : State := if k = 2 then { setF u F.MEMC_CFG_SIZE size with dramSize := 2 ^ (30 + size) } else u
    exec (.trainingStepEnd t true channel size) s = .next
      (if k = 8 then trained v else modMemc v fun m => { m with step := some (k + 1, u.time.now) }) := by
  intro v
  show execTrainingStepEnd t true channel size s = _
  have passes : (true && decide (u.time.now ≤ start + stepTimeout k) && (k != 2 || (decide (1 ≤ size) && decide (size ≤ 3)))) = true := by
    rw [decide_eq_true hdue]
    by_cases two : k = 2
    · obtain ⟨hlow, hhigh⟩ := hsize two
      rw [decide_eq_true hlow, decide_eq_true hhigh, Bool.and_self, Bool.or_true]
      rfl
    · rw [bne_iff_ne.mpr two]
      rfl
  rw [execTrainingStepEnd, ← hu]
  dsimp only
  rw [hstep]
  dsimp only
  rw [passes]
  rfl

theorem exec_trainingStepEnd_failed {channel size : Nat} : exec (.trainingStepEnd t false channel size) s = .next
    (trainFail (setFlag (modMemc u fun m => { m with step := none }) F.MEMC_STATUS_TRAINING false) (channel % 2) k) := by
  show execTrainingStepEnd t false channel size s = _
  rw [execTrainingStepEnd, ← hu]
  dsimp only
  rw [hstep]
  rfl

end

/-! ## Retraining -/

section
variable (hw : w = settleDram u)
include hw

section
variable {d : Nat} (hd : w.memc.due = some d) (hdue : d ≤ w.time.now)
include hd hdue

theorem exec_retrainingDue : exec (.retrainingDue t) s = .next
    (let v := modMemc w fun m => { m with due := some (d + 49152000) }
     if v.memc.gather.isSome || v.memc.ready || v.memc.pause.isSome then v
     else if flag v F.MEMC_STATUS_SR || v.memc.change.isSome then modMemc v fun m => { m with owed := true }
     else startGather v) := by
  show execRetrainingDue t s = _
  rw [execRetrainingDue, ← hu, ← hw]
  dsimp only
  rw [hd]
  dsimp only
  rw [if_neg (Nat.not_lt.mpr hdue)]

end

theorem exec_gatheringEnd {g : Nat} (hg : w.memc.gather = some g) (hdue : g + 16384 ≤ w.time.now) :
    exec (.gatheringEnd t) s = .next (setFlag (modMemc w fun m => { m with gather := none, ready := true }) F.MEMC_STATUS_GATHER false) := by
  show execGatheringEnd t s = _
  simp only [execGatheringEnd, ← hu, ← hw, hg, hdue, if_true]

theorem exec_pauseStart (hready : w.memc.ready = true) (hspan : spanFree w 2048 = true) (hchange : w.memc.change = none)
    (hawake : asleepDram w = false) :
    exec (.pauseStart t) s = .next (setFlag (modMemc w fun m => { m with ready := false, pause := some w.time.now }) F.MEMC_STATUS_PAUSE true) := by
  show execPauseStart t s = _
  have may : (w.memc.ready && spanFree w 2048 && w.memc.change.isNone && !asleepDram w) = true := by
    rw [hready, hspan, hchange, hawake]
    rfl
  simp only [execPauseStart, ← hu, ← hw, may, if_true]

theorem exec_pauseEnd {p : Nat} {fail0 fail1 : Bool} (hp : u.memc.pause = some p) :
    exec (.pauseEnd t fail0 fail1) s = .next (if u.time.now ≤ p + 1180 then endPause u fail0 fail1 else w) := by
  show execPauseEnd t fail0 fail1 s = _
  simp only [execPauseEnd, ← hu, ← hw, hp]

/-! ## Self-refresh and the change of rate -/

theorem exec_selfRefreshEntry (htrained : dramTrained w = true) (hawake : asleepDram w = false)
    (hasks : (flag w F.MEMC_CTRL_SR_EN = true ∧ portIdle w = true) ∨ (w.power.phase = .store ∧ portQuiet w = true)) :
    exec (.selfRefreshEntry t) s = .next (modMemc (writeBack w w.memc.queue) fun m =>
      { m with entry := some w.time.now, banks := m.banks.map fun b => { b with held := false } }) := by
  show execSelfRefreshEntry t s = _
  have may : (dramTrained w && !asleepDram w && ((flag w F.MEMC_CTRL_SR_EN && portIdle w) || (w.power.phase == .store && portQuiet w))) = true := by
    rw [htrained, hawake]
    rcases hasks with ⟨hen, hidle⟩ | ⟨hstore, hquiet⟩
    · rw [hen, hidle]
      rfl
    · rw [hstore, hquiet, Bool.or_comm]
      rfl
  simp only [execSelfRefreshEntry, ← hu, ← hw, may, if_true]
  rfl

theorem exec_selfRefreshCommit {e : Nat} (he : w.memc.entry = some e) (hdue : e + 48 ≤ w.time.now) :
    exec (.selfRefreshCommit t) s = .next (setFlag w F.MEMC_STATUS_SR true) := by
  show execSelfRefreshCommit t s = _
  simp only [execSelfRefreshCommit, ← hu, ← hw, he, hdue, if_true]

theorem exec_rateChangeStart (hpending : flag w F.MEMC_STATUS_RATE_PENDING = true) (htrained : dramTrained w = true) (hawake : asleep w = false)
    (hchange : w.memc.change = none) (hgather : w.memc.gather = none) (hready : w.memc.ready = false) (hpause : w.memc.pause = none)
    (hspan : spanFree w 6143 = true) :
    exec (.rateChangeStart t) s = .next (modMemc w fun m => { m with change := some (w.time.now, getF w F.MEMC_CTRL_RATE) }) := by
  show execRateChangeStart t s = _
  have may : (flag w F.MEMC_STATUS_RATE_PENDING && dramTrained w && !asleep w && w.memc.change.isNone && w.memc.gather.isNone
      && !w.memc.ready && w.memc.pause.isNone && spanFree w (4095 + 2048)) = true := by
    rw [hpending, htrained, hawake, hchange, hgather, hready, hpause, show spanFree w (4095 + 2048) = true from hspan]
    rfl
  simp only [execRateChangeStart, ← hu, ← hw, may, if_true]

end

theorem exec_selfRefreshExitEnd (hexit : u.memc.exit.isSome = true) : exec (.selfRefreshExitEnd t) s = .next (leaveSr u) := by
  show execSelfRefreshExitEnd t s = _
  simp only [execSelfRefreshExitEnd, ← hu, hexit, if_true]

theorem exec_rateChangeEnd {n rate : Nat} (hchange : u.memc.change = some (n, rate)) :
    exec (.rateChangeEnd t) s = .next (askRate (payGather (serveWaiting (setFlag (setF (modMemc u fun m =>
      { m with change := none, idleSince := u.time.now }) F.MEMC_STATUS_RATE_NOW rate) F.MEMC_STATUS_RATE_PENDING false)))) := by
  show execRateChangeEnd t s = _
  rw [execRateChangeEnd, ← hu, endChange, hchange]

omit hu in
section
variable (hexit : u.memc.exit = none) (hpause : u.memc.pause = none) (hchange : u.memc.change = none)
include hexit hpause hchange

theorem settleDram_settled : settleDram u = u := by
  simp only [settleDram, hexit, hpause, hchange]

section
variable {e : Nat} (he : u.memc.entry = some e)
include he

/-- An entry that is not committed yet is cancelled (R399). -/
theorem disturbSr_cancels (hdue : u.time.now ≤ e + 48) (howed : u.memc.owed = false) :
    disturbSr u = satAdd (setFlag (modMemc u fun m => { m with entry := none, idleSince := u.time.now }) F.MEMC_STATUS_SR false)
      F.MEMC_SR_STAT_CANCELLED 1 := by
  rw [disturbSr, settleDram_settled hexit hpause hchange, show (modMemc u fun m => { m with idleSince := u.time.now }).memc.entry = some e from he]
  show (if u.time.now ≤ e + 48 then _ else _) = _
  rw [if_pos hdue, payGather]
  exact if_neg (by simp [modMemc, satAdd, howed])

/-- One that is committed is left (R399). -/
theorem disturbSr_leaves (hdue : e + 48 < u.time.now) :
    disturbSr u = setFlag (modMemc u fun m => { m with entry := none, exit := some u.time.now, idleSince := u.time.now })
      F.MEMC_STATUS_SR true := by
  rw [disturbSr, settleDram_settled hexit hpause hchange, show (modMemc u fun m => { m with idleSince := u.time.now }).memc.entry = some e from he]
  exact if_neg (Nat.not_le.mpr hdue)

end
end

/-! ## Requests -/

/-- What the port drains of its write queue before a request (R405). -/
def drainedQueue (w : State) (drained : Nat) : State :=
  if portServes w = true ∧ ((∀ x ∈ w.memc.waiting, x.write = true) ∨ 48 ≤ w.memc.queue.length) then writeBack w (w.memc.queue.take drained) else w

theorem exec_dramRequest (hw : w = settleDram u) {source addr len drained : Nat} {write : Bool} (hawake : asleep u = false)
    (htrained : dramTrained u = true) (hsource : source ≤ 5) (hlen : 1 ≤ len) (hword : addr % 64 + len ≤ 64) (hend : addr + len ≤ u.dramSize) :
    exec (.dramRequest t source write addr len drained) s = .next (serveWaiting (modMemc (disturbSr (drainedQueue w drained)) fun m =>
      { m with waiting := m.waiting ++ [{ source := source, write := write, addr := addr, len := len }] })) := by
  show execDramRequest t source write addr len drained s = _
  have refused : (asleep u || !dramTrained u || decide (5 < source) || decide (len < 1) || decide (64 < addr % 64 + len)
      || decide (u.dramSize < addr + len)) = false := by
    rw [hawake, htrained, decide_eq_false (Nat.not_lt.mpr hsource), decide_eq_false (Nat.not_lt.mpr hlen),
      decide_eq_false (Nat.not_lt.mpr hword), decide_eq_false (Nat.not_lt.mpr hend)]
    rfl
  have drains : (if !portServes w then w
      else if !(w.memc.waiting.any fun x => !x.write) || decide (48 ≤ w.memc.queue.length) then writeBack w (w.memc.queue.take drained) else w)
        = drainedQueue w drained := by
    unfold drainedQueue
    cases portServes w
    · simp
    · simp
  rw [execDramRequest, ← hu]
  dsimp only
  rw [refused, if_neg Bool.false_ne_true, ← hw, drains]

omit hu in
theorem serveWaiting_closed {r : State} (h : portServes r = false) : serveWaiting r = r := by
  rw [serveWaiting, h]
  rfl

omit hu in
/-- The one request that waits is served at once. -/
theorem serveWaiting_single {v : State} {x : DramReq} (hserves : portServes (modMemc v fun m => { m with waiting := m.waiting ++ [x] }) = true)
    (hwaiting : v.memc.waiting = []) (hw2 : v.memc.w2 = []) (hsource : x.source ≤ 5) :
    let y := modMemc v fun m => { m with waiting := [], turn := if x.source = 0 then m.turn else x.source }
    let z := if x.write then queueWrite y (x.addr / 64) (byteMask x.addr x.len) else queueRead y (x.addr / 64) (byteMask x.addr x.len)
    serveWaiting (modMemc v fun m => { m with waiting := m.waiting ++ [x] }) = modMemc z fun m => { m with idleSince := z.time.now } := by
  intro y z
  have taken : serveRequests 1 (modMemc v fun m => { m with waiting := m.waiting ++ [x] }) = z := by
    have next : nextRequest (modMemc v fun m => { m with waiting := m.waiting ++ [x] }).memc.turn
        (modMemc v fun m => { m with waiting := m.waiting ++ [x] }).memc.waiting = some x := by
      rw [show (modMemc v fun m => { m with waiting := m.waiting ++ [x] }).memc.waiting = [x] by simp [modMemc, hwaiting]]
      exact nextRequest_single _ hsource
    have left : (v.memc.waiting ++ [x]).erase x = [] := by rw [hwaiting, List.nil_append, List.erase_cons_head]
    rw [serveRequests, next]
    simp only [serveRequests, modMemc, left, y, z]
  have kept : z.memc.w2 = v.memc.w2 ∧ z.time = v.time := Prod.mk.inj (congrArg Prod.snd (unserved_request y x))
  have none_back : z.memc.w2 = [] := kept.1.trans hw2
  rw [serveWaiting, if_pos hserves]
  dsimp only
  rw [show (modMemc v fun m => { m with waiting := m.waiting ++ [x] }).memc.waiting.length = 1 by simp [modMemc, hwaiting], taken,
    show (modMemc v fun m => { m with waiting := m.waiting ++ [x] }).time.now = z.time.now from congrArg TimeSt.now kept.2.symm,
    show (modMemc z fun m => { m with idleSince := z.time.now }).memc.w2 = [] from none_back]
  exact congrArg (fun l => ({ z with memc := { z.memc with idleSince := z.time.now, w2 := l } } : State)) none_back.symm

end Sys2Proof.Machine
end

section
open Sys2Proof Sys2Proof.Machine

/-- Settles O54: training by its step, retraining and self-refresh by the state of the port, a request by whether the port serves. -/
theorem dramComplete : Obligations.DramComplete := by
  intro t data s u w hu hw
  refine ⟨fun hawake => ⟨byWrite_awake hu hawake (k := fun v => writeMemcCtrl v data), byWrite_awake hu hawake (k := fun v => writeMemcCtrl v data)⟩,
    ?_, ?_, ?_, fun k start size channel hstep => exec_trainingStepEnd_failed hu hstep, ?_, ?_, fun g => exec_gatheringEnd hu hw,
    exec_pauseStart hu hw, ?_, ?_, ?_, exec_selfRefreshEntry hu hw, fun e => exec_selfRefreshCommit hu hw, exec_selfRefreshExitEnd hu, ?_, ?_,
    exec_rateChangeStart hu hw, fun n rate => exec_rateChangeEnd hu⟩
  · intro k start size channel hstep hdue htwo height
    rw [exec_trainingStepEnd_good hu hstep hdue fun two => absurd two htwo]
    exact congrArg _ ((if_neg height).trans (congrArg (fun v => modMemc v _) (if_neg htwo)))
  · intro start size channel hstep hdue hlow hhigh
    exact exec_trainingStepEnd_good hu hstep hdue fun _ => ⟨hlow, hhigh⟩
  · intro start size channel hstep hdue
    exact exec_trainingStepEnd_good (size := size) hu hstep hdue fun eight => absurd eight (by decide)
  · intro d hd hdue hgather hready hpause hsr hchange
    rw [exec_retrainingDue hu hw hd hdue]
    have still : (w.memc.gather.isSome || w.memc.ready || w.memc.pause.isSome) = false := by
      rw [hgather, hready, hpause]
      rfl
    have serves : (flag w F.MEMC_STATUS_SR || w.memc.change.isSome) = false := by
      rw [hsr, hchange]
      rfl
    exact congrArg _ ((if_neg (ne_true_of_eq_false still)).trans (if_neg (ne_true_of_eq_false serves)))
  · intro d hd hdue hgather hready hpause hbusy
    rw [exec_retrainingDue hu hw hd hdue]
    have still : (w.memc.gather.isSome || w.memc.ready || w.memc.pause.isSome) = false := by
      rw [hgather, hready, hpause]
      rfl
    exact congrArg _ ((if_neg (ne_true_of_eq_false still)).trans (if_pos (Bool.or_eq_true_iff.mpr hbusy)))
  · intro p fail0 fail1 hp hdue v v'
    have ends : exec (.pauseEnd t fail0 fail1) s = .next (endPause u fail0 fail1) := by
      rw [exec_pauseEnd hu hw hp, if_pos hdue]
    refine ⟨fun hfail0 hfail1 => ?_, fun hfail => ?_⟩
    · rw [ends, hfail0, hfail1]
      rfl
    · intro v1 v2 v3
      have fails : (fail0 || fail1) = true := Bool.or_eq_true_iff.mpr hfail
      rw [ends, endPause, fails]
      rfl
  · exact fun p hp hover => hw ▸ pause_settleDram hp hover
  · intro p fail0 fail1 hp hover
    rw [exec_pauseEnd hu hw hp, if_neg (Nat.not_le.mpr hover)]
  · intro source write addr len drained hawake htrained hsource hlen hword hend v x r
    exact ⟨exec_dramRequest hu hw hawake htrained hsource hlen hword hend, serveWaiting_closed, fun hserves hwaiting hw2 =>
      serveWaiting_single hserves hwaiting hw2 hsource⟩
  · exact fun e he hexit hpause hchange => ⟨disturbSr_cancels hexit hpause hchange he, disturbSr_leaves hexit hpause hchange he⟩

end

section
/-!
Domains and the entries into SLEEP and DEEP (R438-R448).
-/
namespace Sys2Proof.Machine

variable {t data : Nat} {c : Cmd} {s u v : State} {f : Flight} (hu : u = advance t s)
include hu

/-! ## Domains -/

theorem exec_pwrDomain (h : mayRun u 0x48 c [] f) (hon : p8 c 20 ≤ 1) (hpart : u.part = .iza6448 → bitsOf (bitsOf (p32 c 16) 0 24) 12 2 = 0)
    (hwin : sched c = true → inWindow u c f ((bitsSet (bitsOf (p32 c 16) 0 24) 19).map fun d => (0x48, d, 0))) :
    exec (.pwrDomain t c) s = .next
      (if sched c then accept u f ((bitsSet (bitsOf (p32 c 16) 0 24) 19).map fun d => (0x48, d, 0)) []
       else complete (applyPwrDomain u c) f 0) := by
  show execPwrDomain t c s = _
  obtain rfl := cmd_of_mayRun h
  have good : (decide (1 < p8 f.cmd 20) || (u.part == .iza6448 && bitsOf (bitsOf (p32 f.cmd 16) 0 24) 12 2 != 0)) = false := by
    rw [decide_eq_false (Nat.not_lt.mpr hon), Bool.false_or, Bool.and_eq_false_imp]
    intro hp
    rw [hpart (beq_iff_eq.mp hp)]
    rfl
  rw [execPwrDomain, runCmd_of_mayRun (more := fun _ => []) hu h]
  dsimp only
  rw [good, schedulable_passed hwin]

/-- The last domain of a job ends it. -/
theorem exec_domainReady {d : Nat} {cells : List Host.Cell} {j : DomainJob} (hj : dueJob u d = some j) (hlast : (j.left.filter fun x => x.1 != d) = []) :
    let v := if j.on then domainReady u d cells else u
    exec (.domainReady t d cells) s = .next (postDomainState (modPower v fun p => { p with jobs := p.jobs.erase j })) := by
  intro v
  show execDomainReady t d cells s = _
  simp only [execDomainReady, ← hu, hj, hlast, List.isEmpty_nil, if_true] <;>
    rfl

/-! ## The entry -/

theorem exec_entryBegin (hphase : u.power.phase = .run) (hasks : entryRequested u = true) (hparked : (parkedChannel u).isSome = true)
    (htrust : u.trust.since = none) (hwake : u.power.wakeLow = false) (hsource : u.power.source = none) :
    exec (.entryBegin t) s = .next (drainForEntry (setFlag (modPower u fun p => { p with
      phase := .drain, entryAt := u.time.now, retain := flag u F.MEMC_CTRL_RETAIN_DEEP, source := none }) F.PWR_MODE_ENTRY true)) := by
  show execEntryBegin t s = _
  have begins : (u.power.phase == .run && entryRequested u && (parkedChannel u).isSome && u.trust.since.isNone) = true := by
    rw [hphase, hasks, hparked, htrust]
    rfl
  simp only [execEntryBegin, ← hu, begins, if_true, modPower, hwake, hsource, Bool.false_eq_true, if_false, Option.filter_none]

omit hu in
theorem withoutAct_power (v : State) (p : Pending) : (withoutAct v p).power = v.power ∧ (withoutAct v p).time = v.time := by
  have fill : (endFill v p.id).power = v.power ∧ (endFill v p.id).time = v.time := by
    unfold endFill
    split
    · exact ⟨rfl, rfl⟩
    · exact ⟨rfl, rfl⟩
  exact fill

omit hu in
theorem endAct_power (v : State) (p : Pending) (st n : Nat) : (endAct v p st n).power = v.power ∧ (endAct v p st n).time = v.time := by
  obtain ⟨hpower, htime⟩ := withoutAct_power v p
  cases h : flightOf (withoutAct v p) p.id with
  | none =>
    rw [endAct_of_none h]
    exact ⟨hpower, htime⟩
  | some f =>
    rw [endAct_of_some h]
    have frame := finish_frame (withoutAct v p) f st 0 n (tickValid (withoutAct v p))
    exact ⟨(congrArg State.power frame :).trans hpower, (congrArg State.time frame :).trans htime⟩

omit hu in
theorem cancelActs_power (v : State) : (cancelActs v).power = v.power ∧ (cancelActs v).time = v.time := by
  have each : ∀ (l : List Pending) (w : State), (l.foldl (fun s p => endAct s p stCancelled s.time.tick) w).power = w.power
      ∧ (l.foldl (fun s p => endAct s p stCancelled s.time.tick) w).time = w.time := by
    intro l
    induction l with
    | nil => exact fun _ => ⟨rfl, rfl⟩
    | cons p l ih =>
      intro w
      obtain ⟨hpower, htime⟩ := ih (endAct w p stCancelled w.time.tick)
      obtain ⟨hp, ht⟩ := endAct_power w p stCancelled w.time.tick
      exact ⟨hpower.trans hp, htime.trans ht⟩
  exact each v.acts v

theorem exec_entryDrainEnd (hphase : u.power.phase = .drain) (hv : v = cancelActs u)
    (hends : drained v = true ∨ u.power.entryAt + 983040 ≤ u.time.now) :
    exec (.entryDrainEnd t) s = .next (modPower (discardHeld ((runningChannels v).foldl (fun v ch => haltDma v ch stCancelled true) v))
      fun p => { p with phase := .store }) := by
  show execEntryDrainEnd t s = _
  obtain ⟨hpower, htime⟩ := cancelActs_power u
  have drains : (u.power.phase == .drain) = true := by rw [hphase]; rfl
  have ends : (drained v || decide (u.power.entryAt + 983040 ≤ u.time.now)) = true :=
    Bool.or_eq_true_iff.mpr (hends.imp_right decide_eq_true)
  subst hv
  rw [execEntryDrainEnd, ← hu, drains, if_pos rfl, hpower, htime, drains, ends]
  rfl

theorem exec_commitPoint (hphase : u.power.phase = .store) (hsource : u.power.source = none) (hwake : u.power.wakeLow = false)
    (hsafe : memorySafe u = true) :
    let deep := decide (getF u F.PWR_MODE_TARGET = 3)
    let v := settleInjectors (settleAllPmc (cancelActs u))
    let v := if dramTrained v = true ∧ flag v F.MEMC_STATUS_SR = false then closeRows v else v
    exec (.commitPoint t) s = .next (modPower (setF (setF v F.PWR_MODE_STATE (if deep then 3 else 2))
      F.PWR_DOMAIN_ON (if deep then 1 else 3)) fun p => { p with
        phase := .settle, deep := deep, cold := false, commitAt := u.time.now, domains := getF u F.PWR_DOMAIN_ON, blocked := 0,
        timer := true }) := by
  intro deep v1 v2
  show execCommitPoint t s = _
  have commits : (u.power.phase == .store && u.power.source.isNone && !u.power.wakeLow && memorySafe u) = true := by
    rw [hphase, hsource, hwake, hsafe]
    rfl
  have closes : (if (dramTrained v1 && !flag v1 F.MEMC_STATUS_SR) = true then closeRows v1 else v1) = v2 := by
    simp only [v2, Bool.and_eq_true, Bool.not_eq_true']
  rw [execCommitPoint, ← hu]
  dsimp only
  rw [commits, if_pos rfl, closes]
  simp only [deep, decide_eq_true_eq]

theorem exec_entryComplete (hphase : u.power.phase = .settle) :
    let v := setFlag (settleLow (modPower (loseUnits (wrapAdd u F.PWR_STAT_ENTRIES 1)) fun p => { p with
      jobs := [], passed := putBits p.passed 11 1 0, link := !p.deep }) u.power.deep) F.PWR_MODE_ENTRY false
    (u.power.source = none → exec (.entryComplete t) s = .next v)
      ∧ (∀ n, u.power.source = some n → exec (.entryComplete t) s = .next (startWake v n.1 true)) := by
  intro v
  show (_ → execEntryComplete t s = _) ∧ (∀ n, _ → execEntryComplete t s = _)
  have settles : (u.power.phase == .settle) = true := by rw [hphase]; rfl
  rw [execEntryComplete, ← hu]
  dsimp only
  rw [settles, if_pos rfl]
  constructor
  · intro hsource
    rw [hsource]
    rfl
  · intro n hsource
    rw [hsource]
    rfl

theorem exec_entryCancel {ch : Nat} (hentering : entering u = true) (hwakes : u.power.source.isSome = true ∨ u.power.wakeLow = true)
    (hparked : parkedChannel (satAdd (setF (stopEntry u) F.PWR_MODE_TARGET u.power.back) F.PWR_STAT_CANCELLED 1) = some ch) :
    exec (.entryCancel t) s = .next (endWait (setF (satAdd (setF (stopEntry u) F.PWR_MODE_TARGET u.power.back) F.PWR_STAT_CANCELLED 1)
      (F.DMA_CH_STATE_WAIT_STATUS ch) stWakePending) ch) := by
  show execEntryCancel t s = _
  have cancels : (entering u && (u.power.source.isSome || u.power.wakeLow)) = true := by
    rw [hentering, Bool.or_eq_true_iff.mpr hwakes]
    rfl
  simp only [execEntryCancel, ← hu, cancels, if_true, hparked]

/-! ## Wake events -/

theorem exec_wakeN_low (hwake : u.power.wakeLow = false) :
    exec (.wakeN t true) s = .next (wakeEvent (modPower u fun p => { p with wakeLow := true }) 1) := by
  show execWakeN t true s = _
  simp only [execWakeN, ← hu, hwake, Bool.not_false, Bool.and_self, if_true]

/-- One in the tick of the commit point undoes it (R446). -/
theorem exec_wakeN_undoes (hphase : u.power.phase = .settle) (hnow : u.time.now = u.power.commitAt) (hwake : u.power.wakeLow = false) :
    exec (.wakeN t true) s = .next (modPower (setF (setF u F.PWR_MODE_STATE u.power.back) F.PWR_DOMAIN_ON u.power.domains) fun p =>
      { p with wakeLow := true, phase := .store, timer := false, source := some (1, u.time.now) }) := by
  rw [exec_wakeN_low hu hwake, wakeEvent, show (modPower u fun p => { p with wakeLow := true }).power.phase = .settle from hphase]
  exact congrArg _ (if_pos (Nat.le_of_eq hnow))

theorem exec_wakeN_high : exec (.wakeN t false) s = .next (modPower u fun p => { p with wakeLow := false }) := by
  subst hu
  rfl

theorem exec_wickWakeReq (hset : bitAt data 0 = true) :
    (asleep u = false → exec (.wickWakeReq t data) s = .next (wakeEvent (countCfg u 1) 2))
      ∧ (asleep u = true → u.power.link = true →
          exec (.wickWakeReq t data) s = .next (wakeEvent (modPower u fun p => { p with blocked := p.blocked + 1 }) 2)) := by
  show (_ → execWickWakeReq t data s = _) ∧ (_ → _ → execWickWakeReq t data s = _)
  have asks : ∀ v, writeWakeReq v data = wakeEvent v 2 := fun v => if_pos hset
  constructor
  · intro hawake
    simp only [execWickWakeReq, byWickWrite, ← hu, hawake, asks, Bool.false_eq_true, if_false]
  · intro hasleep hlink
    simp only [execWickWakeReq, byWickWrite, ← hu, hasleep, hlink, asks, if_true]

theorem exec_wickTimerExpiry (htimer : u.power.timer = true) (hset : getN u A.PWR_WICK_WAKE_TIMER ≠ 0)
    (hdue : u.power.commitAt + wickMin * getN u A.PWR_WICK_WAKE_TIMER ≤ u.time.now) :
    exec (.wickTimerExpiry t) s = .next (wakeEvent (modPower u fun p => { p with timer := false }) 3) := by
  show execWickTimerExpiry t s = _
  have expires : (u.power.timer && getN u A.PWR_WICK_WAKE_TIMER != 0
      && decide (u.power.commitAt + wickMin * getN u A.PWR_WICK_WAKE_TIMER ≤ u.time.now)) = true := by
    rw [htimer, bne_iff_ne.mpr hset, decide_eq_true hdue]
    rfl
  simp only [execWickTimerExpiry, ← hu, expires, if_true]

omit hu in
/-- The wick periods of a sleep: those of the timer, else a number that the length of a period allows (R449). -/
theorem sleepPeriods_between {source : Nat} (hsource : source ≠ 3) :
    (u.time.now - u.power.commitAt) / 30900 ≤ sleepPeriods u source ∧ sleepPeriods u source ≤ (u.time.now - u.power.commitAt) / 29100 := by
  have longer : (u.time.now - u.power.commitAt) / 30900 ≤ (u.time.now - u.power.commitAt) / 29100 := Nat.div_le_div_left (by decide) (by decide)
  have spare := Nat.mod_lt (Config.wickPeriods (u.time.now - u.power.commitAt))
    (show 0 < (u.time.now - u.power.commitAt) / 29100 + 1 - (u.time.now - u.power.commitAt) / 30900 by omega)
  have counted : sleepPeriods u source = (u.time.now - u.power.commitAt) / 30900
      + Config.wickPeriods (u.time.now - u.power.commitAt)
        % ((u.time.now - u.power.commitAt) / 29100 + 1 - (u.time.now - u.power.commitAt) / 30900) := if_neg hsource
  rw [counted]
  constructor
  · exact Nat.le_add_right ..
  · omega

end Sys2Proof.Machine
end

section
open Sys2Proof Sys2Proof.Machine

/-- Settles O55: the commands and writes as they stand, the entry by its phase, wake events by when they come. -/
theorem powerEntryComplete : Obligations.PowerEntryComplete := by
  intro t data c s u f hu
  refine ⟨exec_pwrDomain hu, fun d cells j => exec_domainReady hu, fun hawake => ⟨byWrite_awake hu hawake (k := fun v => writeMode v data),
    byWrite_awake hu hawake (k := fun v => writeMode v data)⟩, exec_entryBegin hu, fun v => exec_entryDrainEnd hu, exec_commitPoint hu,
    exec_entryComplete hu, exec_wakeN_undoes hu, fun ch => exec_entryCancel hu, exec_wakeN_low hu, exec_wakeN_high hu, exec_wickWakeReq hu,
    exec_wickTimerExpiry hu, fun source => ⟨fun htimer => ?_, sleepPeriods_between⟩⟩
  exact if_pos htimer

end

section
/-!
The wake sequence (R449-R451).
-/
namespace Sys2Proof.Machine

variable {t : Nat} {s u : State} (hu : u = advance t s) (hwake : u.power.phase = .wake)

/-- A step waits for what its stage waits for, as long as that takes. -/
theorem stepDue_of {stage w : Nat} (hwake : u.power.phase = .wake) (hstage : u.power.seq.stage = stage)
    (hdue : u.power.seq.since + wickMin * w ≤ u.time.now) : stepDue u stage w = true := by
  simp only [stepDue, hwake, hstage, decide_eq_true hdue, beq_self_eq_true, Bool.and_self]

theorem undoStep_power (n : Nat) : (undoStep u n).power = u.power := by
  unfold undoStep driveRail
  split
  · split
    · rfl
    · rfl
  · rfl

theorem startStepAt_seq (n : Nat) (again : Bool) : (startStepAt u n again).power.seq =
    { step := n, stage := if n = 12 ∨ (n = 8 ∧ flag u F.PWR_WICK_CFG_RAIL7_PG = false) then 1 else 0, since := u.time.now, again := again } := by
  have kept : flag (if n ≤ 8 then driveRail u (railOf n) true else u) F.PWR_WICK_CFG_RAIL7_PG = flag u F.PWR_WICK_CFG_RAIL7_PG := by
    split
    · exact congrArg (decide <| · = 1) (getF_setF_of_ne u _ (by decide))
    · rfl
  unfold startStepAt
  dsimp only
  rw [kept]
  simp [modPower]

include hu hwake

section
variable (hstage : u.power.seq.stage = 0)
include hstage

theorem exec_wakeStepCondition (hdue : u.power.seq.since ≤ u.time.now) :
    let n := u.power.seq.step
    let v := if n ≤ 8 then setF u F.PWR_WICK_RAILS_PG (putBits (getF u F.PWR_WICK_RAILS_PG) (railOf n) 1 1) else u
    let w := if n = 11 then lockRoot v else v
    exec (.wakeStepCondition t) s = .next (modPower w fun p => { p with seq := { p.seq with stage := 1, since := u.time.now } }) := by
  intro n v w
  show execWakeStepCondition t s = _
  have due := stepDue_of (w := 0) hwake hstage hdue
  simp only [execWakeStepCondition, ← hu, due, if_true] <;>
    rfl

theorem exec_wakeStepTimeout (hstep : u.power.seq.step < 12) (hdue : u.power.seq.since + wickMin * stepLimit u.power.seq.step ≤ u.time.now) :
    exec (.wakeStepTimeout t) s = .next
      (if u.power.seq.again then fallBack (undoStep u u.power.seq.step) u.power.seq.step
       else modPower (undoStep u u.power.seq.step) fun p => { p with seq := { p.seq with stage := 2, since := u.time.now } }) := by
  show execWakeStepTimeout t s = _
  have due := stepDue_of hwake hstage hdue
  simp only [execWakeStepTimeout, ← hu, due, decide_eq_true hstep, Bool.and_self, if_true, undoStep_power]

end

section
variable (hstage : u.power.seq.stage = 1)
include hstage

theorem exec_wakeStepDelayEnd (hstep : u.power.seq.step < 12)
    (hdue : u.power.seq.since + wickMin * stepDelay u.power.deep u.power.seq.step ≤ u.time.now) :
    exec (.wakeStepDelayEnd t) s = .next
      (stepsFrom (modPower u fun p => { p with passed := putBits p.passed u.power.seq.step 1 1, link := p.link || u.power.seq.step = 10 })
        (u.power.seq.step + 1)) := by
  show execWakeStepDelayEnd t s = _
  have due := stepDue_of hwake hstage hdue
  simp only [execWakeStepDelayEnd, ← hu, due, decide_eq_true hstep, Bool.and_self, if_true]

theorem exec_wakeSequenceEnd {straps : Nat} {store dram : List Host.Cell} (hstep : u.power.seq.step = 12)
    (hdue : u.power.seq.since + wickMin * stepDelay u.power.deep 12 ≤ u.time.now) :
    exec (.wakeSequenceEnd t straps store dram) s = .next (if u.power.deep then startCold u straps dram else restoreSleep u store) := by
  show execWakeSequenceEnd t straps store dram s = _
  have due := stepDue_of hwake hstage hdue
  have last : (u.power.seq.step == 12) = true := beq_iff_eq.mpr hstep
  simp only [execWakeSequenceEnd, ← hu, due, last, Bool.and_self, if_true]

end

theorem exec_wakeStepRetry (hstage : u.power.seq.stage = 2) (hdue : u.power.seq.since + 33 * wickMin ≤ u.time.now) :
    exec (.wakeStepRetry t) s = .next (startStepAt u u.power.seq.step true) := by
  show execWakeStepRetry t s = _
  have due := stepDue_of hwake hstage (Nat.mul_comm 33 wickMin ▸ hdue)
  simp only [execWakeStepRetry, ← hu, due, if_true]

end Sys2Proof.Machine
end

section
open Sys2Proof Sys2Proof.Machine

/-- Settles O56: a step by its number and by what it waits for. -/
theorem wakeSequenceComplete : Obligations.WakeSequenceComplete := by
  intro t s u hu hwake
  refine ⟨fun hstage hdue hstep => ?_, fun hstage hdue hstep => ?_, startStepAt_seq, fun hstage hdue hstep => ?_, exec_wakeStepDelayEnd hu hwake,
    fun hstage hstep hagain hdue => ?_, fun hstage hstep hagain hdue => ?_, exec_wakeStepRetry hu hwake,
    fun straps store dram hstage => exec_wakeSequenceEnd hu hwake hstage⟩
  · rw [exec_wakeStepCondition hu hwake hstage hdue, hstep, if_pos rfl, if_neg (by decide)]
  · rw [exec_wakeStepCondition hu hwake hstage hdue, if_neg (by omega), if_neg (by omega)]
  · rw [exec_wakeStepCondition hu hwake hstage hdue, if_neg (by omega), if_pos hstep]
  · rw [exec_wakeStepTimeout hu hwake hstage hstep hdue, hagain, if_neg Bool.false_ne_true]
  · rw [exec_wakeStepTimeout hu hwake hstage hstep hdue, hagain, if_pos rfl]

end

section
/-!
The performance counters and the sample records (R471-R497).
-/
namespace Sys2Proof.Machine

/-! ## Bringing the counters up to date -/

/-- `s` differs from `b` in what the counters hold and in the words of block PMC only. -/
def PmcOnly (b s : State) : Prop :=
  { s with pmc := b.pmc, regs := b.regs } = b ∧ ∀ r : Reg, r.addr < 0x220000 → getR s r = getR b r

theorem PmcOnly.refl (b : State) : PmcOnly b b := ⟨rfl, fun _ _ => rfl⟩

theorem PmcOnly.foldl {b s : State} {α : Type} {g : State → α → State} (hg : ∀ v x, PmcOnly b v → PmcOnly b (g v x)) (l : List α)
    (h : PmcOnly b s) : PmcOnly b (l.foldl g s) := by
  induction l generalizing s with
  | nil => exact h
  | cons x l ih => exact ih (hg s x h)

section
variable {b s : State} (h : PmcOnly b s)
include h

theorem PmcOnly.time : s.time = b.time := (congrArg State.time h.1 :)

theorem PmcOnly.setN {w : Reg} (v : Nat) (hw : 0x220000 ≤ w.addr) : PmcOnly b (setN s w v) := by
  obtain ⟨hframe, hregs⟩ := h
  refine ⟨hframe, fun r hr => ?_⟩
  rw [Machine.setN, getR_setR_of_ne s _ (by omega : r.addr ≠ w.addr), hregs r hr]

theorem PmcOnly.setF {f : Fld} (v : Nat) (hf : 0x220000 ≤ f.reg.addr) : PmcOnly b (setF s f v) := by
  obtain ⟨hframe, hregs⟩ := h
  refine ⟨hframe, fun r hr => ?_⟩
  rw [getR_setF_of_ne s _ (by omega : r.addr ≠ f.reg.addr), hregs r hr]

theorem PmcOnly.modPmc (g : PmcSt → PmcSt) : PmcOnly b (modPmc s g) := h

theorem PmcOnly.settleSampling (a n m : Nat) : PmcOnly b (settleSampling s a n m) := by
  unfold Machine.settleSampling
  split
  · exact h.modPmc _
  · exact h

theorem PmcOnly.countEvent (a i n : Nat) : PmcOnly b (countEvent s a i n) := by
  unfold Machine.countEvent
  extract_lets v w
  have counted : PmcOnly b w := (h.setN _ (by simp [A.PMC_CNT]; omega)).setN _ (by simp [A.PMC_CNT_1]; omega)
  split
  · exact counted.setF _ (by simp [F.PMC_OVF_OVF, A.PMC_OVF]; omega)
  · exact counted

theorem PmcOnly.settlePmc (a : Nat) : PmcOnly b (settlePmc s a) := by
  unfold Machine.settlePmc
  extract_lets n m v c w
  have sampled : PmcOnly b v := (h.modPmc _).settleSampling ..
  have counted : PmcOnly b w := by
    unfold w
    split
    · refine PmcOnly.foldl (fun _ _ hv => hv.countEvent ..) _ ?_
      exact (sampled.setN _ (by simp [A.PMC_CYCLE]; omega)).setN _ (by simp [A.PMC_CYCLE_1]; omega)
    · exact sampled
  exact counted.modPmc _

end

/-! ## Writes and records -/

section
variable {t a : Nat} {s u w : State} (hu : u = advance t s)
include hu

section
variable {data : Nat} (hawake : asleep u = false) (ha : a < 4)
include hawake ha

theorem exec_clear : exec (.clear t a data) s = .next (writePmcCtl (countCfg u 1) a data) :=
  (byWrite_awake hu hawake (k := fun v => if a < 4 then writePmcCtl v a data else v)).trans (congrArg _ (if_pos ha))

theorem exec_counterWrite {addr : Nat} : exec (.counterWrite t a addr data) s = .next (writeCounter (countCfg u 1) a addr data) :=
  (byWrite_awake hu hawake (k := fun v => if a < 4 then writeCounter v a addr data else v)).trans (congrArg _ (if_pos ha))

end

theorem exec_sampleRecord {addr latency k : Nat} (hw : w = settlePmc u a) (ha : a < 4) (hen : flag w (F.PMC_SAMP_EN a) = true)
    (hstarted : apStarted w = true)
    (hk : k = max (w.pmc.taken.getD a 0 / sampleEvery w a) (w.pmc.sampled.getD a 0 / sampleEvery w a) + 1)
    (hdue : sampleEvery w a * k ≤ w.pmc.sampled.getD a 0 + occurrences w a (getF w (F.PMC_SAMP_EVENT a)) u.time.now (u.time.now + 1)) :
    let v := modPmc w fun p => { p with taken := p.taken.set a (sampleEvery w a * k) }
    exec (.sampleRecord t a addr latency) s = .next (putSample v a (sampleRecord v a addr latency (getF v (F.PMC_SAMP_EVENT a)))) := by
  intro v
  show execSampleRecord t a addr latency s = _
  have now : w.time = u.time := hw ▸ ((PmcOnly.refl u).settlePmc a).time
  have next : nextSample w a (sampleEvery w a) = k := hk.symm
  have samples : (decide (a < 4) && flag w (F.PMC_SAMP_EN a) && apStarted w
      && decide (sampleEvery w a * k ≤ w.pmc.sampled.getD a 0
        + occurrences w a (getF w (F.PMC_SAMP_EVENT a)) u.time.now (u.time.now + 1))) = true := by
    rw [decide_eq_true ha, hen, hstarted, decide_eq_true hdue]
    rfl
  rw [execSampleRecord, ← hu, ← hw]
  dsimp only
  rw [next, now, samples]
  rfl

end

/-! ## The buffer -/

section
variable {u : State} {a : Nat} {rec : List Byte}

theorem putSample_full (hfull : samplesFull u = true) (hcycle : u.pmc.cycle.1 ≠ u.time.now) :
    putSample u a rec = satAdd (modPmc u fun p => { p with cycle := (u.time.now, [(a, rec)], []) }) F.PMC_SAMP_LOST_COUNT 1 := by
  rw [putSample, hfull, if_neg hcycle]
  rfl

/-- The address of the next record. -/
def nextSlotAddr (u : State) : Nat := 65536 * getF u F.PMC_SAMP_BASE_BASE + 16 * getF u F.PMC_SAMP_WR_WR

/-- The state with the records of a cycle in their slots, before the write index goes on. -/
def sampleStored (u : State) (recs : List (Nat × List Byte)) (slots : List Nat) : State :=
  modPmc { u with store := (slots.zip recs).foldl (fun m y => memWrite m y.1 y.2.2) u.store } fun p => { p with cycle := (u.time.now, recs, slots) }

/-- The write index goes on (R491). -/
def sampleIndexOn (u : State) (i : Nat) : State :=
  if i = 4095 then
    if flag (setF u F.PMC_SAMP_WR_WR ((i + 1) % 4096)) F.PMC_SAMP_CTRL_MODE then wrapAdd (setF u F.PMC_SAMP_WR_WR ((i + 1) % 4096)) F.PMC_SAMP_WR_WRAPS 1
    else setFlag (setF u F.PMC_SAMP_WR_WR ((i + 1) % 4096)) F.PMC_SAMP_WR_FULL true
  else setF u F.PMC_SAMP_WR_WR ((i + 1) % 4096)

theorem putSample_first (hfull : samplesFull u = false) (hcycle : u.pmc.cycle.1 ≠ u.time.now) :
    putSample u a rec = sampleIndexOn (sampleStored u [(a, rec)] [nextSlotAddr u]) (getF u F.PMC_SAMP_WR_WR) := by
  rw [putSample, hfull, if_neg hcycle]
  rfl

theorem putSample_next {recs : List (Nat × List Byte)} {slots : List Nat} (hfull : samplesFull u = false)
    (hcycle : u.pmc.cycle = (u.time.now, recs, slots)) :
    putSample u a rec = sampleIndexOn (sampleStored u (insertBy (·.1) (a, rec) recs) (slots ++ [nextSlotAddr u])) (getF u F.PMC_SAMP_WR_WR) := by
  rw [putSample, hfull, hcycle, if_pos rfl]
  rfl

theorem sampleIndexOn_kept (v : State) (i : Nat) :
    (sampleIndexOn v i).store = v.store ∧ (sampleIndexOn v i).dram = v.dram ∧ (sampleIndexOn v i).acts = v.acts := by
  unfold sampleIndexOn
  split
  · split
    · exact ⟨rfl, rfl, rfl⟩
    · exact ⟨rfl, rfl, rfl⟩
  · exact ⟨rfl, rfl, rfl⟩

section
variable (hfull : samplesFull u = false) (hcycle : u.pmc.cycle.1 ≠ u.time.now)
include hfull hcycle

/-- A record that finds room is stored in its slot, and neither the DRAM nor what is pending changes. -/
theorem putSample_room : (putSample u a rec).store = memWrite u.store (nextSlotAddr u) rec ∧ (putSample u a rec).dram = u.dram
    ∧ (putSample u a rec).acts = u.acts := by
  rw [putSample_first hfull hcycle]
  exact sampleIndexOn_kept ..

/-- The records of one cycle stand in ascending order of their processors, whichever comes first (R493). -/
theorem putSample_sorted {b : Nat} {rec' : List Byte} (hb : b < a) (hroom : getF u F.PMC_SAMP_WR_WR < 4095) :
    (putSample (putSample u a rec) b rec').store
      = memWrite (memWrite (memWrite u.store (nextSlotAddr u) rec) (nextSlotAddr u) rec') (nextSlotAddr u + 16) rec := by
  have first : putSample u a rec = setF (sampleStored u [(a, rec)] [nextSlotAddr u]) F.PMC_SAMP_WR_WR ((getF u F.PMC_SAMP_WR_WR + 1) % 4096) :=
    (putSample_first hfull hcycle).trans (if_neg (Nat.ne_of_lt hroom))
  have index : getF (putSample u a rec) F.PMC_SAMP_WR_WR = getF u F.PMC_SAMP_WR_WR + 1 := by
    rw [first, getF_setF_same _ _ (by decide)]
    show (getF u F.PMC_SAMP_WR_WR + 1) % 4096 % 4096 = _
    omega
  have base : getF (putSample u a rec) F.PMC_SAMP_BASE_BASE = getF u F.PMC_SAMP_BASE_BASE := by
    rw [first, getF_setF_of_ne _ _ (by decide)]
    rfl
  have slot : nextSlotAddr (putSample u a rec) = nextSlotAddr u + 16 := by
    rw [nextSlotAddr, nextSlotAddr, index, base]
    omega
  have room : samplesFull (putSample u a rec) = false := by
    rw [samplesFull, first, flag, flag, getF_setF_of_ne (g := F.PMC_SAMP_CTRL_MODE) _ _ (by decide),
      getF_setF_of_disjoint (f := F.PMC_SAMP_WR_WR) (g := F.PMC_SAMP_WR_FULL) _ _ rfl (by decide) (.inr (by decide))]
    exact hfull
  have order : insertBy (·.1) (b, rec') [(a, rec)] = [(b, rec'), (a, rec)] := if_pos hb
  have cycle : (putSample u a rec).pmc.cycle = ((putSample u a rec).time.now, [(a, rec)], [nextSlotAddr u]) := by
    rw [first]
    rfl
  have stored := (putSample_room (a := a) (rec := rec) hfull hcycle).1
  rw [putSample_next room cycle, order, slot]
  calc _ = (sampleStored (putSample u a rec) [(b, rec'), (a, rec)] [nextSlotAddr u, nextSlotAddr u + 16]).store := (sampleIndexOn_kept ..).1
    _ = memWrite (memWrite (putSample u a rec).store (nextSlotAddr u) rec') (nextSlotAddr u + 16) rec := rfl
    _ = _ := by rw [stored]

end
end

end Sys2Proof.Machine
end

section
open Sys2Proof Sys2Proof.Machine

/-- Settles O60: the writes as they stand, a record by the sample that is due and by the room in the buffer. -/
theorem countersComplete : Obligations.CountersComplete := by
  intro t a addr data s u hu
  refine ⟨fun hawake ha => ⟨exec_clear hu hawake ha, exec_counterWrite hu hawake ha⟩, fun latency w k => exec_sampleRecord hu,
    fun rec => putSample_full, fun rec hfull hcycle => ?_⟩
  obtain ⟨hstore, hdram, hacts⟩ := putSample_room (a := a) (rec := rec) hfull hcycle
  exact ⟨hstore, hdram, hacts, fun b rec' => putSample_sorted hfull hcycle⟩

end

section
/-!
Boot, staged update and fuses (R452-R470).
-/
namespace Sys2Proof.Machine

/-! ## What running an image leaves alone -/

theorem PmcOnly.settleAllPmc (v : State) : PmcOnly v (settleAllPmc v) :=
  PmcOnly.foldl (fun _ a hw => hw.settlePmc a) _ (PmcOnly.refl v)

theorem putDigest_regsOnly (v : State) (r : Nat → Reg) (d : List Byte) : RegsOnly v (putDigest v r d) := by
  have each : ∀ (l : List Nat) (w : State), RegsOnly v w →
      RegsOnly v (l.foldl (fun s i => setN s (r i) (leNat ((d.drop (4 * i)).take 4))) w) := by
    intro l
    induction l with
    | nil => exact fun _ hw => hw
    | cons i l ih => exact fun w hw => ih _ (hw.trans rfl)
  exact each _ v rfl

/-- The firmware that runs, with the store, the trust unit and what is pending. -/
theorem runImage_kept (v : State) (x : Option FwImage) :
    (runImage v x).trust = { v.trust with run := x } ∧ (runImage v x).store = v.store ∧ (runImage v x).acts = v.acts := by
  have settled := (PmcOnly.settleAllPmc (modTrust v fun y => { y with run := x })).1
  have shown : RegsOnly (settleAllPmc (modTrust v fun y => { y with run := x })) (runImage v x) := by
    unfold runImage
    extract_lets w d w1 w2
    have major : RegsOnly (settleAllPmc (modTrust v fun y => { y with run := x })) w := (regsOnly_setF ..).trans (regsOnly_setF ..)
    have feature : RegsOnly w w2 := (((regsOnly_setF ..).trans (regsOnly_setF ..)).trans (regsOnly_setF ..)).trans (regsOnly_setF ..)
    exact ((major.trans feature).trans (putDigest_regsOnly ..)).trans (regsOnly_setF ..)
  rw [RegsOnly] at shown
  exact ⟨(congrArg State.trust shown).trans (congrArg State.trust settled :), (congrArg State.store shown).trans (congrArg State.store settled :),
    (congrArg State.acts shown).trans (congrArg State.acts settled :)⟩

variable {t : Nat} {s u : State} (hu : u = advance t s)
include hu

/-! ## Boot -/

section
variable {k : Nat} {b : List Byte} (hboot : u.trust.boot = .load k)
include hboot

theorem exec_imageLoadDone {failed : Bool} : exec (.imageLoadDone t b failed) s = .next
    (if failed then nextSource (rejectBoot u 6) (some k)
     else if decide (256 ≤ b.length) && headerMalformed b then nextSource (rejectBoot u 1) (some k)
     else if decide (256 ≤ b.length) && b.length == imageTotal b then
       verifyBoot (qspiRead { u with store := memWrite u.store (524288 * (32 - ceilDiv b.length 524288)) b } (copyAt k + 256) (b.length - 256))
         (some k) b.length
     else u) := by
  show execImageLoadDone t b failed s = _
  simp only [execImageLoadDone, ← hu, hboot] <;>
    rfl

end

theorem exec_ready (hboot : u.trust.boot = .starting) : ∃ s', exec (.ready t) s = .next s' ∧ s'.trust.boot = .done ∧ s'.trust.run = u.trust.bootNew
    ∧ s'.trust.bootNew = none ∧ s'.trust.new = u.trust.new
    ∧ s'.trust.old = (if u.trust.since.isSome then u.trust.bootNew else u.trust.old) ∧ s'.store = u.store ∧ s'.acts = u.acts := by
  obtain ⟨htrust, hstore, hacts⟩ := runImage_kept u u.trust.bootNew
  have started : exec (.ready t) s = .next (setF (setFlag (setBoot (modTrust (runImage u u.trust.bootNew) fun y =>
      { y with bootNew := none, old := if y.since.isSome then u.trust.bootNew else y.old }) .done 5) F.GLB_STATUS_READY true)
      F.TRUST_BOOT_STATE_STATE 2) := by
    show execReady t s = _
    simp only [execReady, ← hu, hboot]
  refine ⟨_, started, ?_⟩
  generalize runImage u u.trust.bootNew = r at htrust hstore hacts
  have old : (if r.trust.since.isSome then u.trust.bootNew else r.trust.old)
      = (if u.trust.since.isSome then u.trust.bootNew else u.trust.old) := by rw [htrust]
  have run : r.trust.run = u.trust.bootNew := by rw [htrust]
  have new : r.trust.new = u.trust.new := by rw [htrust]
  exact ⟨rfl, run, rfl, new, old, hstore, hacts⟩

/-! ## Jobs of the Keccak engine -/

section
variable {rest : List KeccakJob}

theorem exec_verificationDone_boot {fuses : Fuses} {copy : Option Nat} (hjobs : u.trust.jobs = .boot fuses :: rest) (hboot : u.trust.boot = .verify copy) :
    exec (.verificationDone t) s = .next (bootVerified (modTrust u fun x => { x with jobs := x.jobs.tail }) fuses copy) := by
  show execVerificationDone t s = _
  simp only [execVerificationDone, ← hu, hjobs, hboot]

theorem exec_verificationDone_stage {fuses : Fuses} {first total : Nat} (hjobs : u.trust.jobs = .stage fuses first total :: rest) :
    exec (.verificationDone t) s = .next (stageVerified (modTrust u fun x => { x with jobs := x.jobs.tail }) fuses first total) := by
  show execVerificationDone t s = _
  simp only [execVerificationDone, ← hu, hjobs]

theorem exec_verificationDone_activate {first total : Nat} (hjobs : u.trust.jobs = .activate first total :: rest) :
    exec (.verificationDone t) s = .next (activateMeasured (modTrust u fun x => { x with jobs := x.jobs.tail }) first total) := by
  show execVerificationDone t s = _
  simp only [execVerificationDone, ← hu, hjobs]

end

/-! ## The staged update -/

section
variable {n : Nat} (hsince : u.trust.since = some n)
include hsince

omit hu hsince in
/-- The banks of the old image belong to nobody any more. -/
def oldFreed (v : State) : State :=
  match v.trust.old with
  | some o => { v with owners := (imageBanks o.first o.total).foldl (fun l b => l.set b 0) v.owners }
  | none => v

omit hu hsince in
theorem oldFreed_kept (v : State) : (oldFreed v).trust = v.trust ∧ (oldFreed v).store = v.store := by
  unfold oldFreed
  split
  · exact ⟨rfl, rfl⟩
  · exact ⟨rfl, rfl⟩

omit hu hsince in
theorem post_kept (v : State) (type data : Nat) : (post v type data).trust = v.trust ∧ (post v type data).store = v.store := by
  have told := ((HostOnly.refl v).post type data).1
  exact ⟨(congrArg State.trust told :), (congrArg State.store told :)⟩

omit hu hsince in
/-- The staged update is over and reports itself (R466). -/
def updateDone (v : State) (data : Nat) : State :=
  post (modTrust (setFlag v F.TRUST_STAGE_STAT_BUSY false) fun y => { y with old := none, new := none, since := none }) evFwActivated data

omit hu hsince in
theorem updateDone_kept (v : State) (data : Nat) : (updateDone v data).trust = { v.trust with old := none, new := none, since := none }
    ∧ (updateDone v data).store = v.store := by
  obtain ⟨htrust, hstore⟩ := post_kept (modTrust (setFlag v F.TRUST_STAGE_STAT_BUSY false) fun y =>
    { y with old := none, new := none, since := none }) evFwActivated data
  exact ⟨htrust, hstore⟩

theorem exec_fwActivated {x : FwImage} (hnew : u.trust.new = some x) (hdue : u.time.now ≤ n + 196608000) :
    ∃ s', exec (.fwActivated t) s = .next s' ∧ s'.trust.run = some x ∧ s'.trust.old = none ∧ s'.trust.new = none ∧ s'.trust.since = none
      ∧ s'.store = u.store := by
  have activated : exec (.fwActivated t) s = .next (updateDone (runImage (oldFreed u) (some x)) (evData [(16, 4, x.epoch), (20, 8, leNat (x.digest.take 8))])) := by
    show execFwActivated t s = _
    rw [execFwActivated, ← hu]
    dsimp only
    rw [hsince, hnew]
    dsimp only
    rw [if_neg (Nat.not_lt.mpr hdue), oldFreed]
    rfl
  obtain ⟨hrun, hran, -⟩ := runImage_kept (oldFreed u) (some x)
  obtain ⟨htrust, hstore⟩ := updateDone_kept (runImage (oldFreed u) (some x)) (evData [(16, 4, x.epoch), (20, 8, leNat (x.digest.take 8))])
  rw [hrun] at htrust
  exact ⟨_, activated, congrArg TrustSt.run htrust, congrArg TrustSt.old htrust, congrArg TrustSt.new htrust, congrArg TrustSt.since htrust,
    (hstore.trans hran).trans (oldFreed_kept u).2⟩

theorem exec_firmwareStartTimeout (hdue : n + 196608000 ≤ u.time.now) :
    exec (.firmwareStartTimeout t) s = .next (stopSampling (restartOld u 8)) := by
  show execFirmwareStartTimeout t s = _
  simp only [execFirmwareStartTimeout, ← hu, hsince, hdue, if_true]

end

/-! ## Fuses -/

omit hu in
theorem fuse_bit_iff : ∀ e v t : Bool, (e || v && t) = (e || v) ↔ (v && (e || t)) = v := by decide

omit hu in
/-- Every bit to be set reads back set exactly where what took leaves none of them missing (R469). -/
theorem fuses_set_iff (epochs v took : Nat) : epochs ||| (v &&& took) = epochs ||| v ↔ v &&& (epochs ||| took) = v := by
  constructor
  · intro h
    refine Nat.eq_of_testBit_eq fun i => ?_
    have bit := congrArg (Nat.testBit · i) h
    simp only [Nat.testBit_or, Nat.testBit_and] at bit ⊢
    exact (fuse_bit_iff ..).mp bit
  · intro h
    refine Nat.eq_of_testBit_eq fun i => ?_
    have bit := congrArg (Nat.testBit · i) h
    simp only [Nat.testBit_or, Nat.testBit_and] at bit ⊢
    exact (fuse_bit_iff ..).mpr bit

theorem exec_fuseProgrammingDone {v took : Nat} (hfuse : u.trust.fuse = some (3, v)) :
    ∃ s', exec (.fuseProgrammingDone t took) s = .next s' ∧ s'.trust.epochs = u.trust.epochs ||| (v &&& took)
      ∧ s'.trust.customer = u.trust.customer ∧ s'.trust.policy = u.trust.policy ∧ s'.trust.fuse = none
      ∧ flag s' F.TRUST_FUSE_PROG_BUSY = false ∧ (getF s' F.TRUST_FUSE_PROG_RESULT = 0 ↔ v &&& (u.trust.epochs ||| took) = v) := by
  show ∃ s', execFuseProgrammingDone t took s = _ ∧ _
  simp only [execFuseProgrammingDone, ← hu, hfuse]
  refine ⟨_, rfl, rfl, rfl, rfl, rfl, ?_, ?_⟩
  · rw [flag, getF_setF_of_disjoint (f := F.TRUST_FUSE_PROG_RESULT) (g := F.TRUST_FUSE_PROG_BUSY) _ _ rfl (by decide) (.inr (by decide))]
    exact getF_setFlag_same _ false (by decide) (by decide)
  · rw [getF_setF_same _ _ (by decide), ← fuses_set_iff]
    by_cases all : u.trust.epochs ||| (v &&& took) = u.trust.epochs ||| v
    · simp [fuseField, all]
    · simp [fuseField, all, F.TRUST_FUSE_PROG_RESULT]

end Sys2Proof.Machine
end

section
open Sys2Proof Sys2Proof.Machine

/-- Settles O58: an image by whether it arrives whole and well formed, a job by its kind, the fuses bit by bit. -/
theorem trustComplete : Obligations.TrustComplete := by
  intro t data s u hu
  refine ⟨fun k b hboot hlen hformed htotal => ?_, fun k b hboot hlen hformed => ?_, fun k b hboot => ?_, fun hawake =>
    ⟨byWrite_awake hu hawake (k := fun v => writeHostLen v data), byWrite_awake hu hawake (k := fun v => writeStage v data),
      byWrite_awake hu hawake (k := fun v => writeStageCtrl v data), byWrite_awake hu hawake (k := fun v => writeStageCtrl v data),
      byWrite_awake hu hawake (k := fun v => writeFuseProg v data)⟩,
    fun rest fuses copy => exec_verificationDone_boot hu, fun rest fuses first total => exec_verificationDone_stage hu,
    fun rest first total => exec_verificationDone_activate hu, exec_ready hu, fun n x hsince => exec_fwActivated hu hsince,
    fun n => exec_firmwareStartTimeout hu, fun v took => exec_fuseProgrammingDone hu⟩
  · have whole : (decide (256 ≤ b.length) && b.length == imageTotal b) = true := by
      rw [decide_eq_true hlen, beq_iff_eq.mpr htotal]
      rfl
    rw [exec_imageLoadDone hu hboot, if_neg Bool.false_ne_true, hformed, Bool.and_false, if_neg Bool.false_ne_true, if_pos whole]
  · rw [exec_imageLoadDone hu hboot, if_neg Bool.false_ne_true, hformed, decide_eq_true hlen, if_pos (Bool.and_self true)]
  · rw [exec_imageLoadDone hu hboot, if_pos rfl]

end

section
/-!
Activations and adaptive swaps at their ticks (R40-R47, R500).
-/
namespace Sys2Proof.Machine

/-! ## What a request to the DRAM port leaves alone -/

/-- The state without the registers, the host interface, the DRAM port and the beam engine. -/
def offPort (s : State) : State := { s with regs := [], host := default, out := [], memc := default, beam := default, cycle := default }

theorem offPort_foldl {α : Type} {g : State → α → State} (hg : ∀ v x, offPort (g v x) = offPort v) (l : List α) (v : State) :
    offPort (l.foldl g v) = offPort v := by
  induction l generalizing v with
  | nil => rfl
  | cons x l ih => exact (ih _).trans (hg v x)

theorem offPort_ite {b : State} {p : Prop} [Decidable p] {x y : State} (hx : offPort x = offPort b) (hy : offPort y = offPort b) :
    offPort (if p then x else y) = offPort b := by
  split
  · exact hx
  · exact hy

theorem offPort_writeBack (v : State) (l : List (Nat × Nat)) : offPort (writeBack v l) = offPort v := by
  unfold writeBack
  refine offPort_foldl ?_ l v
  exact fun _ _ => rfl

theorem offPort_queueWrite (v : State) (word mask : Nat) : offPort (queueWrite v word mask) = offPort v := by
  unfold queueWrite
  extract_lets y x
  have queued : offPort x = offPort v := offPort_ite rfl (offPort_writeBack ..)
  exact queued

theorem offPort_queueRead (v : State) (word mask : Nat) : offPort (queueRead v word mask) = offPort v := by
  have accessed : ∀ w a, offPort (accessRow w a) = offPort w := fun _ _ => rfl
  unfold queueRead
  exact offPort_ite rfl ((accessed ..).trans (offPort_ite rfl (offPort_writeBack ..)))

theorem offPort_serveRequests (n : Nat) (v : State) : offPort (serveRequests n v) = offPort v := by
  induction n generalizing v with
  | zero => rfl
  | succ n ih =>
    unfold serveRequests
    split
    · rfl
    · exact (ih _).trans ((offPort_ite (offPort_queueWrite ..) (offPort_queueRead ..)).trans rfl)

theorem offPort_serveWaiting (v : State) : offPort (serveWaiting v) = offPort v := by
  unfold serveWaiting
  refine offPort_ite ?_ rfl
  exact (offPort_foldl (g := fun w (x : Nat × Nat) => emit w (.readData x.1)) (fun _ _ => rfl) _ _).trans (offPort_serveRequests v.memc.waiting.length v)

theorem offPort_payGather (v : State) : offPort (payGather v) = offPort v := offPort_ite rfl rfl

theorem offPort_askRate (v : State) : offPort (askRate v) = offPort v := by
  unfold askRate
  exact offPort_ite rfl (offPort_ite (offPort_ite rfl rfl) rfl)

theorem offPort_post (v : State) (type data : Nat) : offPort (post v type data) = offPort v :=
  (congrArg offPort ((HostOnly.refl v).post type data).1 :)

theorem offPort_postAt (v : State) (type tick data : Nat) : offPort (postAt v type tick data) = offPort v :=
  (congrArg offPort ((HostOnly.refl v).postAt type tick data).1 :)

theorem offPort_trainFail (v : State) (channel step : Nat) : offPort (trainFail v channel step) = offPort v := offPort_post ..

theorem offPort_leaveSr (v : State) : offPort (leaveSr v) = offPort v := (offPort_payGather _).trans (offPort_serveWaiting _)

theorem offPort_endChange (v : State) : offPort (endChange v) = offPort v := by
  unfold endChange
  split
  · rfl
  · exact (offPort_askRate _).trans ((offPort_payGather _).trans (offPort_serveWaiting _))

theorem offPort_dramLost (v : State) : offPort (dramLost v) = offPort v := by
  unfold dramLost
  refine (offPort_askRate _).trans ?_
  exact offPort_foldl (g := fun s (x : Nat × Nat) => emit (raiseFlag s F.HOST_APERTURE_STATUS_MISS) (.readData (2 ^ (8 * x.2) - 1)))
    (fun _ _ => rfl) v.memc.w2 _

theorem offPort_endPause (v : State) (fail0 fail1 : Bool) : offPort (endPause v fail0 fail1) = offPort v := by
  have failed : ∀ (b : Bool) (channel : Nat) (w : State), offPort (if b then trainFail w channel 9 else w) = offPort w :=
    fun _ _ _ => offPort_ite (offPort_trainFail ..) rfl
  have counted : ∀ w, offPort (if getF w F.MEMC_STATUS_RETRAIN_FAILS = 3 then dramLost w else w) = offPort w :=
    fun w => offPort_ite (offPort_dramLost w) rfl
  unfold endPause
  refine (offPort_serveWaiting _).trans (offPort_ite ?_ rfl)
  exact (counted _).trans ((failed fail1 1 _).trans (failed fail0 0 _))

theorem offPort_settleDram (v : State) : offPort (settleDram v) = offPort v := by
  unfold settleDram
  extract_lets s1 s2
  have exit : offPort s1 = offPort v := by
    unfold s1
    split
    · exact offPort_ite (offPort_leaveSr v) rfl
    · rfl
  have pause : offPort s2 = offPort v := by
    unfold s2
    split
    · exact offPort_ite ((offPort_endPause ..).trans exit) exit
    · exact exit
  split
  · exact offPort_ite ((offPort_endChange s2).trans pause) pause
  · exact pause

theorem offPort_disturbSr (v : State) : offPort (disturbSr v) = offPort v := by
  have settled := offPort_settleDram v
  unfold disturbSr
  generalize settleDram v = w at settled
  dsimp only
  split
  · exact offPort_ite ((offPort_payGather _).trans settled) settled
  · exact offPort_ite settled settled

/-! ## Events and the counters -/

section
/-- A state with other counters. What the host interface does with an event does not depend on them. -/
def withPmc (v : State) (x : PmcSt) : State := { v with pmc := x }
variable (v : State) (x : PmcSt)

theorem withPmc_ite {p : Prop} [Decidable p] (a b : State) : withPmc (if p then a else b) x = if p then withPmc a x else withPmc b x := by
  split
  · rfl
  · rfl

theorem withPmc_hostWrite (a l n : Nat) : hostWrite (withPmc v x) a l n = withPmc (hostWrite v a l n) x := by
  rw [hostWrite_eq, hostWrite_eq]
  rfl

theorem withPmc_sendMsix (n : Nat) : sendMsix (withPmc v x) n = withPmc (sendMsix v n) x := by
  unfold sendMsix
  rw [withPmc_ite]
  rfl

theorem withPmc_modOutRing (kind r : Nat) (f : OutRing → OutRing) : modOutRing (withPmc v x) kind r f = withPmc (modOutRing v kind r f) x := by
  unfold modOutRing
  rw [withPmc_ite]
  rfl

theorem withPmc_noteWritten (kind r : Nat) : noteWritten (withPmc v x) kind r = withPmc (noteWritten v kind r) x := by
  unfold noteWritten
  extract_lets a b
  have h : a = withPmc b x := withPmc_modOutRing ..
  rw [withPmc_ite, h, withPmc_modOutRing, withPmc_sendMsix]
  rfl

theorem withPmc_writeEntry (kind r len val : Nat) : writeEntry (withPmc v x) kind r len val = withPmc (writeEntry v kind r len val) x := by
  unfold writeEntry
  extract_lets o a pi b o' a' pi' b'
  have h : a = withPmc a' x := withPmc_hostWrite ..
  have h' : b = withPmc b' x := by
    show modOutRing a kind r _ = _
    rw [h]
    exact withPmc_modOutRing ..
  rw [h']
  exact (congrArg (noteWritten · kind r) (withPmc_hostWrite ..)).trans (withPmc_noteWritten ..)

theorem withPmc_issueCi (kind r : Nat) : issueCi (withPmc v x) kind r = withPmc (issueCi v kind r) x := by
  unfold issueCi
  rw [withPmc_ite, withPmc_modOutRing]
  rfl

theorem withPmc_askCi (kind r : Nat) : askCi (withPmc v x) kind r = withPmc (askCi v kind r) x := by
  unfold askCi
  rw [withPmc_ite, withPmc_modOutRing, withPmc_issueCi]
  rfl

theorem withPmc_placeEvent (e : Ev) : placeEvent (withPmc v x) e = withPmc (placeEvent v e) x := by
  unfold placeEvent
  rw [withPmc_ite, ← withPmc_askCi]
  exact congrArg (fun y => if !outFull v 2 e.ring && !evWaiting v e.ring then y
    else askCi (withPmc { v with host := { v.host with evq := v.host.evq ++ [e] } } x) 2 e.ring) (withPmc_writeEntry v x ..)

theorem withPmc_placeLost (r : Nat) : placeLost (withPmc v x) r = withPmc (placeLost v r) x := by
  have taken : takeSeq (modOutRing (withPmc v x) 2 r fun o => { o with lost := 0 }) r
      = withPmc (takeSeq (modOutRing v 2 r fun o => { o with lost := 0 }) r) x := by
    rw [withPmc_modOutRing, takeSeq, withPmc_modOutRing, takeSeq]
  have counted : satAdd (modOutRing (withPmc v x) 2 r fun o => { o with lost := 0 }) F.HOST_LOST_EVENTS 1
      = withPmc (satAdd (modOutRing v 2 r fun o => { o with lost := 0 }) F.HOST_LOST_EVENTS 1) x := by
    rw [withPmc_modOutRing]
    rfl
  unfold placeLost
  dsimp only
  rw [taken, counted, withPmc_placeEvent, withPmc_ite, withPmc_ite, withPmc_ite]
  rfl

/-- What the counters hold does not decide whether a swap's event finds room. -/
theorem adaptEventRoom_withPmc : adaptEventRoom (withPmc v x) = adaptEventRoom v := by
  unfold adaptEventRoom
  dsimp only
  rw [show routeOf (withPmc v x) 2 = routeOf v 2 from rfl, withPmc_placeLost]
  rfl

end

/-! ## The swap that a request makes -/

/-- The fields that neither an event nor the log of the swaps touches. -/
theorem offPort_fields {v w : State} (h : offPort w = offPort v) : w.swaps = v.swaps ∧ w.acts = v.acts ∧ w.carriers = v.carriers ∧ w.dpd = v.dpd :=
  ⟨(congrArg State.swaps h :), (congrArg State.acts h :), (congrArg State.carriers h :), (congrArg State.dpd h :)⟩

theorem logWrite_fields (v : State) (block : List Byte) : (logWrite v block).swaps = v.swaps ∧ (logWrite v block).acts = v.acts
    ∧ (logWrite v block).carriers = v.carriers ∧ (logWrite v block).dpd = v.dpd := by
  have disturbed := offPort_fields (offPort_disturbSr v)
  unfold logWrite
  extract_lets a w x
  have logged : x.swaps = v.swaps ∧ x.acts = v.acts ∧ x.carriers = v.carriers ∧ x.dpd = v.dpd := by
    unfold x
    split
    · exact ⟨rfl, rfl, rfl, rfl⟩
    · exact disturbed
    · rw [hostWrite_eq]
      exact ⟨rfl, rfl, rfl, rfl⟩
  exact logged

section
variable {u : State} {path tick : Nat} {data : List Byte}

/-- The swap that is made joins the pending ones with the next number; the log and its event touch nothing of the units (R41-R43). -/
theorem requestSwap_made (hvalid : tickValid u = true) (hlead : u.time.tick + 24576 ≤ tick) (hfar : tick < u.time.tick + 2 ^ 34)
    (hfree : conflicts u tick [(0x21, path, 0)] = false) (hlog : logRefusal u = none) (hroom : adaptEventRoom u = true) :
    ∃ w : State, requestSwap u path 2 0 tick false data = ({ w with
        swapSeq := (u.swapSeq + 1) % 2 ^ 32
        swaps := u.swaps ++ [{ coarse := false, path := path, kind := 2, bin := 0, tick := tick, seq := u.swapSeq, block := tagBlock data u.swapSeq }] },
        true) ∧ w.acts = u.acts ∧ w.carriers = u.carriers ∧ w.dpd = u.dpd := by
  have may : (!tickValid (noteRequest u) || decide (tick < (noteRequest u).time.tick + 24576) || decide ((noteRequest u).time.tick + 2 ^ 34 ≤ tick)
      || conflicts (noteRequest u) tick [(0x21, path, 0)]) = false := by
    rw [show tickValid (noteRequest u) = true from hvalid, show conflicts (noteRequest u) tick [(0x21, path, 0)] = false from hfree,
      show (noteRequest u).time = u.time from rfl, decide_eq_false (Nat.not_lt.mpr hlead), decide_eq_false (Nat.not_le.mpr hfar)]
    rfl
  have clean : logRefusal (noteRequest u) = none := hlog
  have room : (!adaptEventRoom (noteRequest u)) = false := by
    rw [show adaptEventRoom (noteRequest u) = adaptEventRoom u from adaptEventRoom_withPmc .., hroom]
    rfl
  obtain ⟨l, hl⟩ : ∃ l, l = logWrite (postAt (noteRequest u) evAdaptSwap tick (evData [(16, 1, path), (17, 1, 2), (18, 1, 0), (20, 4, u.swapSeq),
    (24, 4, crc32c ((tagBlock data u.swapSeq).take 252))])) (tagBlock data u.swapSeq) := ⟨_, rfl⟩
  obtain ⟨hswaps, hacts, hcarriers, hdpd⟩ := offPort_fields (offPort_postAt (noteRequest u) evAdaptSwap tick (evData [(16, 1, path), (17, 1, 2),
    (18, 1, 0), (20, 4, u.swapSeq), (24, 4, crc32c ((tagBlock data u.swapSeq).take 252))]))
  obtain ⟨kswaps, kacts, kcarriers, kdpd⟩ := logWrite_fields (postAt (noteRequest u) evAdaptSwap tick (evData [(16, 1, path), (17, 1, 2), (18, 1, 0),
    (20, 4, u.swapSeq), (24, 4, crc32c ((tagBlock data u.swapSeq).take 252))])) (tagBlock data u.swapSeq)
  rw [← hl] at kswaps kacts kcarriers kdpd
  refine ⟨l, ?_, kacts.trans hacts, kcarriers.trans hcarriers, kdpd.trans hdpd⟩
  have swaps : l.swaps = u.swaps := kswaps.trans hswaps
  have key : (if (2 : Nat) = 0 then 0x39 else if (2 : Nat) = 1 then 0x23 else 0x21) = 0x21 := rfl
  rw [requestSwap]
  dsimp only
  rw [key, may, if_neg Bool.false_ne_true, clean]
  dsimp only
  rw [room, if_neg Bool.false_ne_true, ← swaps, hl]
  rfl

end

/-! ## The events -/

section
variable {t : Nat} {s u : State} (hu : u = advance t s)
include hu

theorem exec_scheduledActivation {p : Pending} (hphase : u.power.phase = .run) (hp : dueAct u = some p) :
    exec (.scheduledActivation t) s = .next (endAct ((if p.tick = u.time.tick then fieldsOf u p.cmd else []).foldl holdBits (activate u p).1) p
      (activate u p).2 p.tick) := by
  show execScheduledActivation t s = _
  have runs : (u.power.phase == .run) = true := by rw [hphase]; rfl
  simp only [execScheduledActivation, ← hu, runs, if_true, hp]

theorem exec_scheduledActivation_stopped (hphase : u.power.phase ≠ .run) : exec (.scheduledActivation t) s = .next u := by
  show execScheduledActivation t s = _
  have stops : (u.power.phase == .run) = false := beq_false_of_ne hphase
  simp only [execScheduledActivation, ← hu, stops, Bool.false_eq_true, if_false]

theorem exec_adaptiveSwap {x : AdaptSwap} (hx : (sortBy (fun y => y.tick) (u.swaps.filter fun y => y.tick ≤ u.time.tick)).head? = some x) :
    exec (.adaptiveSwap t) s = .next
      (if x.kind = 0 then applyDpdSwap { u with swaps := u.swaps.erase x } x else applyRxSwap { u with swaps := u.swaps.erase x } x) := by
  show execAdaptiveSwap t s = _
  rw [execAdaptiveSwap, ← hu]
  dsimp only
  rw [hx]

theorem exec_adaptiveSwapRequest_gain {path bin gain tick : Nat} {better : Bool} {base : Option Coefs} {data : Coefs} :
    exec (.adaptiveSwapRequest t path 2 bin gain tick better base data) s = .next (requestGain u path gain tick) := by
  subst hu
  rfl

end

/-- Of two activations the one with the lower tick comes first, whatever they set (R46). -/
theorem actRank_lt {p q : Pending} (hop : p.cmd.opcode < 256) (hkey : (p.keys.headD (0, 0, 0)).2.1 < 2 ^ 32)
    (hsub : (p.keys.headD (0, 0, 0)).2.2 < 2 ^ 16) (h : p.tick < q.tick) : actRank p < actRank q := by
  unfold actRank
  dsimp only
  omega

end Sys2Proof.Machine
end

section
open Sys2Proof Sys2Proof.Machine

/-- Settles O27: what is due acts, the earliest first; a gain step that meets every test makes its swap. -/
theorem activationsAndSwapsTakeEffect : Obligations.ActivationsAndSwapsTakeEffect := by
  intro t s u hu
  refine ⟨fun p => exec_scheduledActivation hu, exec_scheduledActivation_stopped hu, fun p q => actRank_lt, fun x hx hkind => ?_,
    fun x hx hkind => ?_, fun path bin gain tick better base data => ⟨?_, ?_, exec_adaptiveSwapRequest_gain hu⟩,
    fun path bin gain tick better base data hpath hauto hfw hgain htick hvalid hlead hfar hfree hlog hroom => ?_⟩
  · rw [exec_adaptiveSwap hu hx, if_pos hkind]
  · rw [exec_adaptiveSwap hu hx, if_neg hkind]
  · subst hu
    rfl
  · subst hu
    rfl
  · obtain ⟨w, hmade, hacts, hcarriers, hdpd⟩ :=
      requestSwap_made (data := BitVec.ofNat 8 gain :: List.replicate 251 0) hvalid hlead hfar hfree hlog hroom
    have stepped := exec_adaptiveSwapRequest_gain hu (path := path) (bin := bin) (gain := gain) (tick := tick) (better := better) (base := base)
      (data := data)
    rw [requestGain_good hpath hauto hfw hgain htick, hmade] at stepped
    exact ⟨_, stepped, rfl, rfl, hacts, hcarriers, hdpd⟩

end

section
/-!
The PLLs (R24-R31, R41).
-/
namespace Sys2Proof.Machine

/-! ## What leaves the state of the clocks alone -/

/-- The word that shows which PLLs are locked and whether time is valid. -/
def clockStatus (s : State) : Word := getR s A.TIME_CLK_STATUS

theorem flag_of_getR {v w : State} {f : Fld} (h : getR v f.reg = getR w f.reg) : flag v f = flag w f := by
  rw [flag, flag, getF, getF, h]

theorem tickValid_of_clockStatus {s b : State} (h : clockStatus s = clockStatus b) : tickValid s = tickValid b :=
  flag_of_getR (f := F.TIME_CLK_STATUS_TICK_VALID) h

section
variable {s : State}

theorem clockStatus_setF {f : Fld} (h : 0x20000 ≤ f.reg.addr) (n : Nat) : clockStatus (setF s f n) = clockStatus s :=
  getR_setF_of_ne s n (Nat.ne_of_lt (Nat.lt_of_lt_of_le (by decide) h))

theorem clockStatus_setFlag {f : Fld} (h : 0x20000 ≤ f.reg.addr) (y : Bool) : clockStatus (setFlag s f y) = clockStatus s := clockStatus_setF h _

theorem clockStatus_post (type data : Nat) : clockStatus (post s type data) = clockStatus s :=
  ((HostOnly.refl s).post type data).2 A.TIME_CLK_STATUS (.inl (by decide))

theorem clockStatus_ite {b : State} {p : Prop} [Decidable p] {x y : State} (hx : clockStatus x = clockStatus b) (hy : clockStatus y = clockStatus b) :
    clockStatus (if p then x else y) = clockStatus b := by
  split
  · exact hx
  · exact hy

theorem clockStatus_foldl {α : Type} {g : State → α → State} (hg : ∀ v x, clockStatus (g v x) = clockStatus v) (l : List α) :
    clockStatus (l.foldl g s) = clockStatus s := by
  induction l generalizing s with
  | nil => rfl
  | cons x l ih => exact ih.trans (hg s x)

/-- The fields of a synthesiser and of a pod lie above those of the clocks. -/
theorem lo_stat_above (i : Nat) : 0x20000 ≤ (A.RAD_LO_STAT i).addr := by
  simp only [A.RAD_LO_STAT]
  omega

/-! ## Synthesisers and pods -/

theorem clockStatus_unlockLo (i : Nat) : clockStatus (unlockLo s i) = clockStatus s := by
  have unlocked : clockStatus (raiseFlag (setFlag s (F.RAD_LO_STAT_LOCK i) false) (F.RAD_LO_STAT_LOCK_LOST i)) = clockStatus s :=
    (clockStatus_setFlag (lo_stat_above i) true).trans (clockStatus_setFlag (lo_stat_above i) false)
  unfold unlockLo unlockedTx
  refine clockStatus_ite (clockStatus_ite (clockStatus_ite unlocked ((clockStatus_post ..).trans ?_)) unlocked) rfl
  exact (clockStatus_setFlag (lo_stat_above 0) true).trans unlocked

theorem clockStatus_setLoCal (i : Nat) (x : Option LoCal) : clockStatus (setLoCal s i x) = clockStatus s :=
  clockStatus_setFlag (s := { s with radio := { s.radio with los := s.radio.los.set i x } }) (lo_stat_above i) _

theorem clockStatus_beginCal (i kind n : Nat) : clockStatus (beginCal s i kind n) = clockStatus s :=
  (clockStatus_setLoCal ..).trans (clockStatus_unlockLo i)

theorem clockStatus_settleLo (i : Nat) : clockStatus (settleLo s i) = clockStatus s := by
  unfold settleLo
  split
  · rfl
  · split
    · rfl
    · split
      · exact clockStatus_beginCal ..
      · rfl

theorem clockStatus_abortCal (i : Nat) : clockStatus (abortCal s i) = clockStatus s := by
  unfold abortCal
  dsimp only
  split
  · exact clockStatus_settleLo i
  · refine clockStatus_ite (clockStatus_settleLo i) ((clockStatus_post ..).trans ?_)
    exact (clockStatus_setFlag (lo_stat_above i) _).trans ((clockStatus_setLoCal ..).trans (clockStatus_settleLo i))

theorem clockStatus_startLo (i n : Nat) (table pod : Bool) : clockStatus (startLo s i n table pod) = clockStatus s := by
  unfold startLo
  dsimp only
  split
  · exact clockStatus_ite ((clockStatus_setLoCal ..).trans (clockStatus_settleLo i)) (clockStatus_settleLo i)
  · exact (clockStatus_setLoCal ..).trans ((clockStatus_unlockLo i).trans
      ((clockStatus_setFlag (lo_stat_above i) true).trans (clockStatus_settleLo i)))

theorem clockStatus_podStartsLo : clockStatus (podStartsLo s).1 = clockStatus s := by
  have settled : clockStatus (settleLo (settleLo s 0) 1) = clockStatus s := (clockStatus_settleLo 1).trans (clockStatus_settleLo 0)
  unfold podStartsLo
  dsimp only
  split
  · exact settled
  · split
    · exact settled
    · exact (clockStatus_foldl (fun v i => clockStatus_ite (clockStatus_startLo ..) rfl) _).trans settled

theorem clockStatus_setPodIo (p : Nat) (tx rx : Bool) : clockStatus (setPodIo s p tx rx) = clockStatus s := by
  unfold setPodIo
  extract_lets x asleep out inp s1 s2
  have first : clockStatus s1 = clockStatus s := clockStatus_ite rfl rfl
  have second : clockStatus s2 = clockStatus s := clockStatus_ite first first
  exact second

theorem clockStatus_setFeCode (p code : Nat) : clockStatus (setFeCode s p code) = clockStatus s :=
  getR_setR_of_ne s _ (by simp only [A.TIME_CLK_STATUS, A.RAD_POD_FE_NOW]; omega)

theorem clockStatus_startStep (p goal : Nat) : clockStatus (startStep s p goal) = clockStatus s := by
  unfold startStep
  extract_lets a fdd s1 s2 r s3 n x s4 y all entry early cut old s5 s6
  have txHeld : clockStatus s1 = clockStatus s := clockStatus_ite (clockStatus_abortCal 0) rfl
  have rxHeld : clockStatus s2 = clockStatus s := clockStatus_ite ((clockStatus_abortCal 1).trans txHeld) txHeld
  have started : clockStatus s3 = clockStatus s := by
    unfold s3 r
    split
    · exact clockStatus_podStartsLo.trans rxHeld
    · exact rxHeld
  have outputs : clockStatus s4 = clockStatus s := clockStatus_ite ((clockStatus_setPodIo ..).trans started) started
  have stepping : clockStatus s6 = clockStatus s :=
    (clockStatus_setFlag (s := s5) (by simp only [F.RAD_POD_STATE_STEPPING, A.RAD_POD_STATE]; omega) _).trans outputs
  exact (clockStatus_foldl (fun v (e : FeEdge) => clockStatus_setFeCode p e.code) _).trans stepping

theorem clockStatus_drivePod (p : Nat) : clockStatus (drivePod s p) = clockStatus s := by
  unfold drivePod
  split
  · rfl
  · dsimp only
    split
    · exact clockStatus_startStep ..
    · exact clockStatus_ite (clockStatus_post ..) rfl

theorem clockStatus_patternChanged : clockStatus (patternChanged s) = clockStatus s := by
  have checked : clockStatus (checkPattern s) = clockStatus s := by
    unfold checkPattern
    split
    · rfl
    · exact clockStatus_ite rfl (getR_setF_of_ne s _ (by decide))
  exact (clockStatus_foldl (fun v p => clockStatus_drivePod p) _).trans checked

end

/-! ## The root PLL -/

theorem patternChanged_kept (s : State) : (patternChanged s).time.counting = s.time.counting ∧ (patternChanged s).time.tick = s.time.tick
    ∧ (patternChanged s).time.syncs = s.time.syncs ∧ (patternChanged s).acts = s.acts := by
  have checked : (checkPattern s).time.counting = s.time.counting ∧ (checkPattern s).time.tick = s.time.tick
      ∧ (checkPattern s).time.syncs = s.time.syncs ∧ (checkPattern s).acts = s.acts := by
    unfold checkPattern
    split
    · exact ⟨rfl, rfl, rfl, rfl⟩
    · split
      · exact ⟨rfl, rfl, rfl, rfl⟩
      · exact ⟨rfl, rfl, rfl, rfl⟩
  unfold patternChanged
  rw [core_time (core_followPattern (checkPattern s)), core_acts (core_followPattern (checkPattern s))]
  exact checked

/-- A root PLL that stops holds the counter, and time is not valid (R31). -/
theorem stopRoot_stopped (s : State) : (stopRoot s).time.counting = false ∧ (stopRoot s).time.tick = s.time.tick ∧ (stopRoot s).time.syncs = []
    ∧ tickValid (stopRoot s) = false ∧ (stopRoot s).acts = s.acts := by
  have settled := PmcOnly.settleAllPmc s
  have acts : (settleAllPmc s).acts = s.acts := (congrArg State.acts settled.1 :)
  unfold stopRoot
  extract_lets v w
  obtain ⟨hcounting, htick, hsyncs, hacts⟩ := patternChanged_kept { w with time := { w.time with counting := false, syncs := [] } }
  refine ⟨hcounting, htick.trans (congrArg TimeSt.tick settled.time :), hsyncs, ?_, hacts.trans acts⟩
  rw [tickValid_of_clockStatus clockStatus_patternChanged]
  exact getF_setFlag_same (setFlag v F.TIME_CLK_STATUS_ROOT_LOCK false) (g := F.TIME_CLK_STATUS_TICK_VALID) false (by decide) (by decide)

theorem restartCounter_kept (s : State) : clockStatus (restartCounter s) = clockStatus s ∧ (restartCounter s).acts = s.acts := by
  have settled := PmcOnly.settleAllPmc s
  exact ⟨(getR_setF_of_ne (f := F.BEAM_UNMAPPED_COUNT) { settleAllPmc s with beam := { (settleAllPmc s).beam with
    unmappedFrom := max (settleAllPmc s).beam.unmappedFrom (settleAllPmc s).time.tick } } _ (by decide)).trans
      (settled.2 A.TIME_CLK_STATUS (by decide)), (congrArg State.acts settled.1 :)⟩

section
variable {t data : Nat} {s u : State} (hu : u = advance t s)
include hu

section
variable (hawake : asleep u = false)
include hawake

theorem exec_clkCtrl_stops (hon : flag (countCfg u 1) F.TIME_CLK_CTRL_ROOT_EN = true) (hroot : bitAt data 0 = false) (hlane : bitAt data 1 = true) :
    ∃ s', exec (.rootEnWrite t data) s = .next s' ∧ s'.time.counting = false ∧ s'.time.tick = u.time.tick ∧ s'.time.syncs = []
      ∧ tickValid s' = false ∧ s'.acts = u.acts := by
  have written : exec (.rootEnWrite t data) s = .next (stopRoot (setF (setF (countCfg u 1) F.TIME_CLK_CTRL_ROOT_EN (bitsOf data 0 1))
      F.TIME_CLK_CTRL_LANE_EN (bitsOf data 1 1))) := by
    refine (byWrite_awake hu hawake (k := fun v => writeClkCtrl v data)).trans (congrArg _ ?_)
    simp only [writeClkCtrl, hon, hroot, hlane, Bool.not_false, Bool.not_true, Bool.and_true, Bool.and_false, Bool.false_eq_true, if_true, if_false]
  exact ⟨_, written, stopRoot_stopped _⟩

theorem exec_rootPllLock (hen : flag u F.TIME_CLK_CTRL_ROOT_EN = true) (hheld : u.time.counting = false) :
    exec (.rootPllLock t) s = .next (restartCounter (setFlag u F.TIME_CLK_STATUS_ROOT_LOCK true)) := by
  show execRootPllLock t s = _
  have locks : (flag u F.TIME_CLK_CTRL_ROOT_EN && !u.time.counting && !asleep u) = true := by
    rw [hen, hheld, hawake]
    rfl
  simp only [execRootPllLock, ← hu, locks, if_true]

end

/-! ## The lane PLL and losses of lock -/

section
omit hu

/-- The injections that are counted touch no word of the clocks. -/
theorem clkCtrl_countInjected (v : State) (q j n : Nat) : getR (countInjected v q j n) A.TIME_CLK_CTRL = getR v A.TIME_CLK_CTRL := by
  have counted : getR (satAdd v (F.BXL_FI_COUNT q j) n) A.TIME_CLK_CTRL = getR v A.TIME_CLK_CTRL :=
    getR_setF_of_ne v _ (by simp only [F.BXL_FI_COUNT, A.BXL_FI, A.TIME_CLK_CTRL]; omega)
  unfold countInjected
  split
  · rfl
  · split
    · rfl
    · extract_lets v1 v2 y put
      have told : ∀ x a b, getR (post (put x) a b) A.TIME_CLK_CTRL = getR v A.TIME_CLK_CTRL :=
        fun x a b => (((HostOnly.refl (put x)).post a b).2 A.TIME_CLK_CTRL (.inl (by decide))).trans counted
      rw [apply_ite (getR · A.TIME_CLK_CTRL), told]
      exact (congrArg _ counted).trans (ite_self _)

theorem clkCtrl_settleHeaders (v : State) (q : Nat) : getR (settleHeaders v q) A.TIME_CLK_CTRL = getR v A.TIME_CLK_CTRL := by
  have each : ∀ (g : State → Nat → State), (∀ w j, getR (g w j) A.TIME_CLK_CTRL = getR w A.TIME_CLK_CTRL) → ∀ (l : List Nat) (w : State),
      getR (l.foldl g w) A.TIME_CLK_CTRL = getR w A.TIME_CLK_CTRL := by
    intro g hg l
    induction l with
    | nil => exact fun _ => rfl
    | cons j l ih => exact fun w => (ih _).trans (hg w j)
  refine each _ (fun w j => ?_) _ v
  split
  · rfl
  · next y _ =>
    split
    · extract_lets k c w1 w2
      have injected : getR w1 A.TIME_CLK_CTRL = getR w A.TIME_CLK_CTRL :=
        getR_setF_of_ne (f := F.LANE_SH_ERR_INJ q y.lane) _ _ (by
          simp only [F.LANE_SH_ERR_INJ, A.LANE_SH_ERR, laneBase, A.TIME_CLK_CTRL]
          split
          · omega
          · split <;> omega)
      have counted : getR w2 A.TIME_CLK_CTRL = getR w A.TIME_CLK_CTRL := (clkCtrl_countInjected ..).trans injected
      split
      · exact (getR_setF_of_ne w2 _ (by simp only [F.BXL_FI_1_ACTIVE, A.BXL_FI_1, A.TIME_CLK_CTRL]; omega)).trans counted
      · exact counted
    · rfl

theorem settleInjectors_clocks (v : State) : getR (settleInjectors v) A.TIME_CLK_CTRL = getR v A.TIME_CLK_CTRL ∧ (settleInjectors v).time = v.time := by
  refine ⟨?_, ?_⟩
  · exact (clkCtrl_settleHeaders ..).trans ((clkCtrl_settleHeaders ..).trans (clkCtrl_settleHeaders ..))
  · exact (core_time (core_settleHeaders ..)).trans ((core_time (core_settleHeaders ..)).trans (core_time (core_settleHeaders ..)))

end

theorem exec_lanePllLock (hen : flag u F.TIME_CLK_CTRL_LANE_EN = true) (hcounts : u.time.counting = true) (hdown : u.time.laneUp = false) :
    let v := settleInjectors u
    exec (.lanePllLock t) s = .next ((List.range 3).foldl (fun v q => lanesFollow v q fun _ => true)
      (setFlag { v with time := { v.time with laneUp := true } } F.TIME_CLK_STATUS_LANE_LOCK true)) := by
  show execLanePllLock t s = _
  obtain ⟨hctrl, htime⟩ := settleInjectors_clocks u
  have locks : (flag (settleInjectors u) F.TIME_CLK_CTRL_LANE_EN && (settleInjectors u).time.counting && !(settleInjectors u).time.laneUp) = true := by
    rw [htime, hcounts, hdown, flag_of_getR (f := F.TIME_CLK_CTRL_LANE_EN) hctrl, hen]
    rfl
  rw [execLanePllLock, ← hu]
  dsimp only
  rw [if_pos locks]

theorem exec_clockUnlock_root (hlock : flag u F.TIME_CLK_STATUS_ROOT_LOCK = true) :
    exec (.clockUnlock t 0) s = .next (post (raiseFlag (setFlag u F.TIME_CLK_STATUS_ROOT_LOCK false) F.TIME_CLK_STATUS_UNLOCK_STICKY)
      evClockUnlock (evData [(16, 1, 0)])) := by
  show execClockUnlock t 0 s = _
  rw [execClockUnlock, ← hu]
  exact congrArg _ (if_pos hlock)

theorem exec_clockUnlock_lane (hlock : flag u F.TIME_CLK_STATUS_LANE_LOCK = true) :
    exec (.clockUnlock t 1) s = .next (post (raiseFlag (setFlag u F.TIME_CLK_STATUS_LANE_LOCK false) F.TIME_CLK_STATUS_UNLOCK_STICKY)
      evClockUnlock (evData [(16, 1, 1)])) := by
  show execClockUnlock t 1 s = _
  rw [execClockUnlock, ← hu]
  exact congrArg _ (if_pos hlock)

theorem exec_pllRelock_root (hcounts : u.time.counting = true) (hen : flag u F.TIME_CLK_CTRL_ROOT_EN = true) :
    exec (.pllRelock t 0) s = .next (setFlag u F.TIME_CLK_STATUS_ROOT_LOCK true) := by
  show execPllRelock t 0 s = _
  simp only [execPllRelock, ← hu, hcounts, hen, decide_true, Bool.and_self, if_true]

theorem exec_pllRelock_lane (hup : u.time.laneUp = true) (hen : flag u F.TIME_CLK_CTRL_LANE_EN = true) :
    exec (.pllRelock t 1) s = .next (setFlag u F.TIME_CLK_STATUS_LANE_LOCK true) := by
  show execPllRelock t 1 s = _
  have root : (decide ((1 : Nat) = 0) && u.time.counting && flag u F.TIME_CLK_CTRL_ROOT_EN) = false := rfl
  have lane : (decide ((1 : Nat) = 1) && u.time.laneUp && flag u F.TIME_CLK_CTRL_LANE_EN) = true := by
    rw [hup, hen]
    rfl
  rw [execPllRelock, ← hu]
  exact congrArg _ ((if_neg (ne_true_of_eq_false root)).trans (if_pos lane))

end

end Sys2Proof.Machine
end

section
open Sys2Proof Sys2Proof.Machine

/-- Settles O28: the switches and locks of each PLL. -/
theorem clocksComplete : Obligations.ClocksComplete := by
  intro t data s u hu
  refine ⟨fun hawake => ⟨byWrite_awake hu hawake (k := fun v => writeClkCtrl v data), byWrite_awake hu hawake (k := fun v => writeClkCtrl v data)⟩,
    exec_clkCtrl_stops hu, fun hen hheld hawake => ?_, exec_lanePllLock hu, exec_clockUnlock_root hu, exec_clockUnlock_lane hu,
    exec_pllRelock_root hu, exec_pllRelock_lane hu⟩
  obtain ⟨hstatus, hacts⟩ := restartCounter_kept (setFlag u F.TIME_CLK_STATUS_ROOT_LOCK true)
  refine ⟨_, exec_rootPllLock hu hawake hen hheld, rfl, ?_, rfl, rfl, ?_, hacts⟩
  · rw [flag_of_getR (f := F.TIME_CLK_STATUS_ROOT_LOCK) hstatus]
    exact getF_setFlag_same u (g := F.TIME_CLK_STATUS_ROOT_LOCK) true (by decide) (by decide)
  · rw [tickValid_of_clockStatus hstatus, tickValid, flag, setFlag,
      getF_setF_of_disjoint (f := F.TIME_CLK_STATUS_ROOT_LOCK) (g := F.TIME_CLK_STATUS_TICK_VALID) _ _ rfl (by decide) (.inr (by decide))]
    rfl

end
